-- ==== Sys2Proof/Word.lean ====
section
/-! DEFINITION. The words of the machine: bytes, the bit patterns of binary32 and binary64, and handles. -/

namespace Sys2Proof

/-- A byte of a packet, a block or a stored item. -/
abbrev Byte := BitVec 8

/-- The bit pattern of a binary32 value (Table 01-6, TYPE 0x00). -/
abbrev F32 := BitVec 32

/-- The bit pattern of a binary64 value. -/
abbrev F64 := BitVec 64

/-- The 8-byte VALUE field of a cell or a parameter entry (Table 01-6). -/
abbrev Val := BitVec 64

end Sys2Proof
end

