-- ==== Sys2Proof/Syntax.lean ====
section
/-! DEFINITION. The commands the module takes: one constructor of `Instr` for each row of the table of
operations and events. A row that is an opcode carries the command packet as it was received; a row
that is an event carries what the surroundings (field, supplies, peers, memory) bring to it. -/

namespace Sys2Proof

/-- A command packet whose CRC-32C and length were right (R57, Table 02-5). LENGTH is the length of
`payload`, which includes the authentication tag when AUTH is set. -/
structure Packet where
  version : BitVec 8
  flags   : BitVec 8
  seq     : BitVec 16
  session : BitVec 16
  etick   : BitVec 32
  payload : List Byte
  deriving DecidableEq, Repr

/-- One conversion as the field side delivers it (Table 03-6, SAMPLE). -/
structure Conv where
  coarse : Int
  fine   : Int
  status : BitVec 8
  deriving DecidableEq, Repr

/-- What the modulators and the output stage of one channel gave in the windows that ended in one tick, before
calibration: one entry a conversion; with the mains post-filter the internal conversions of the window (R182), in RES the
16 of a chop cycle, positive phase first (R188). Measured status bits only: CLAMP, FINE_VALID for a conversion in which
the fine modulator kept its range, LIMIT (in DO and DO-PULSE bit 0: the demagnetisation clamp has conducted, R195), and OUT_ON of
a DO-PULSE waveform; the other bits are states the model holds. -/
structure ChanMeas where
  ch    : Nat
  convs : List Conv
  /-- RES: total excitation measured in the positive and in the negative phase, in pA (R188); 0 elsewhere -/
  iPos  : Nat
  iNeg  : Nat
  deriving DecidableEq, Repr

/-- The measurements of a fan port for one tick (Table 10-1); the flags held by the domain are the model's. -/
structure FanMeas where
  port   : Nat
  edges  : Nat
  fine   : Nat
  vOut   : Nat
  iOut   : Nat
  iLimit : Bool
  throttled : Bool
  deriving DecidableEq, Repr

/-- An uplink frame (R133, R325). `intact`: its CRC holds. `onTime`: it completes within the input deadline.
A bank's frame fills `meas`; the fan domain's fills `fans`. `selfCheck`: the bank reports a failed self-check;
`barrier`: its barrier supply is outside its limits (R132). -/
structure Uplink where
  intact     : Bool
  onTime     : Bool
  meas       : List ChanMeas
  fans       : List FanMeas
  vfld       : Nat
  selfCheck  : Bool
  barrier    : Bool
  deriving DecidableEq, Repr

/-- Why a received packet is discarded without a reply (R51, R55, R56). -/
inductive DiscardReason where
  | noBuffer | framing | crc
  deriving DecidableEq, Repr

/-- Start causes (Table 14-11, CAUSE). -/
inductive StartCause where
  | powerOn | hostReset | restart | lag | redo | activation | fallback | dormantExit | shutdownExit
  deriving DecidableEq, Repr

/-- What the hardware finds while the boot journal runs (Table 14-9): the outcome of every check that
is not a function of the model's own state. -/
structure BootReport where
  /-- step B0: the journal in retained RAM reads intact -/
  journalOk    : Bool
  /-- step B1: OTP -/
  otpOk        : Bool
  /-- step B2: the running slot's image passes, and the other slot's -/
  slotOk       : Bool
  otherSlotOk  : Bool
  /-- step B3: failing SRAM pages -/
  pagesFailed  : List Nat
  /-- step B4: the OEM key copies and the tick checkpoint read intact -/
  oemKeyOk     : Bool
  checkpointOk : Bool
  /-- step B5: crystal within limits; PLL, lockstep and loop-engine self-tests -/
  crystalOk    : Bool
  selfTestsOk  : Bool
  /-- step B6: numbers of stored generations that fail their CRC -/
  gensBad      : List Nat
  /-- step B7: the handover passes its check -/
  handoverOk   : Bool
  /-- HOST_SEL selects UART as HOST_RESET_N rises (R46); read at a start that a host reset causes -/
  uartSelected : Bool
  /-- steps B8 to B11: the items that fail -/
  banksFailed  : List Nat
  fansFailed   : List Nat
  linksFailed  : List Nat
  combsFailed  : List Nat
  /-- supplies still low when the item reaches service (R169, R323); 16 is VFAN -/
  banksUvlo    : List Nat
  banksLow     : List Nat
  /-- what each supply measures then, in mV: VFLDb of bank b, and VFAN as 16 -/
  supplies     : List (Nat × Nat)
  deriving DecidableEq, Repr

/-- What a bank reports when it reaches IN_SERVICE (R131, R201, R223, R234). -/
structure BankReport where
  /-- (channel, index) of field calibration records that fail their check -/
  fieldRecBad  : List (Nat × Nat)
  /-- (channel, group) whose two factory copies fail -/
  factoryBad   : List (Nat × Nat)
  /-- (probe, set) that fail their check -/
  probeSetBad  : List (Nat × Nat)
  engineOk     : Bool
  /-- VFLDb in mV -/
  vfld         : Nat
  deriving DecidableEq, Repr

/-- A crossing of a VIN threshold (Table 14-5). -/
inductive VinCrossing where
  | lowSet | lowClear | highSet | highClear
  deriving DecidableEq, Repr

/-- A crossing of a VFAN threshold (R323, with the thresholds of Table 04-13). -/
inductive VfanCrossing where
  | uvloEntry | uvloReturn | lowSet | lowClear
  deriving DecidableEq, Repr

/-- Why a bank fails (R132). -/
inductive BankFailCause where
  | uplinkLost | selfCheck | barrierSupply
  deriving DecidableEq, Repr

/-- One point of a sweep as the lock-in gives it: the drive voltage and the sense current, both complex (R226). -/
structure RawPoint where
  vRe : F64
  vIm : F64
  iRe : F64
  iIm : F64
  deriving DecidableEq, Repr

/-- One sweep collected for a probe calibration (R225). -/
structure RawSweep where
  bad       : Bool
  amplitude : Nat
  loadClass : Nat
  points    : List RawPoint
  deriving DecidableEq, Repr

/-- What the engine gave in one sweep, point by point in the order of the plan (R218, R226). -/
structure SweepMeas where
  /-- the sweep record is complete at the input deadline -/
  complete : Bool
  overload : Bool
  points   : List RawPoint
  deriving DecidableEq, Repr

/-- One read slot of a comb frame: the mean line current from 0.30T to 0.36T and from 0.45T to 0.80T, in µA (R242). -/
structure ReadSlot where
  baseUa  : Nat
  pulseUa : Nat
  deriving DecidableEq, Repr

/-- The read slots of one round: those of each mapped node's frame in ascending position, and that of PRESENCE_NEW. -/
structure RoundMeas where
  complete : Bool
  answers  : List (List ReadSlot)
  presence : ReadSlot
  deriving DecidableEq, Repr

/-- The line as a comb round starts (R248). -/
structure LineMeas where
  millivolts : Nat
  baselineUa : Nat
  deriving DecidableEq, Repr

/-- One housekeeping round (R427): six sites (none: the reading failed) and the supplies, as binary32. -/
structure HkMeas where
  sites : List (Option F32)
  vin   : F32
  vfld  : List F32
  vfan  : F32
  deriving DecidableEq, Repr

/-- Amplitude negotiated by a PHY (Table 11-5). -/
inductive Amplitude where
  | v1_0 | v2_4
  deriving DecidableEq, Repr

/-- Why a frame is discarded by a link port (R341, R349). -/
inductive FrameDiscard where
  | address | fcs | etherType | tag | counter
  deriving DecidableEq, Repr

/-- HELLO as it arrives at a queen (R346). -/
structure HelloMsg where
  serial   : List Byte
  nonce    : List Byte
  key      : List Byte
  role     : Nat
  oemHash  : List Byte
  certs    : List Byte
  hops     : Nat
  deriving DecidableEq, Repr

/-- CHALLENGE as it arrives at a forager (R346). -/
structure ChallengeMsg where
  target    : List Byte
  node      : Nat
  nonce     : List Byte
  key       : List Byte
  oemHash   : List Byte
  certs     : List Byte
  serial    : List Byte
  signature : List Byte
  deriving DecidableEq, Repr

/-- PROOF as it arrives at a queen (R346). -/
structure ProofMsg where
  serial    : List Byte
  signature : List Byte
  deriving DecidableEq, Repr

/-- One entry of a CELLS message (R353). -/
structure CellEntry where
  index      : Nat
  value      : Val
  stamp      : Nat
  quality    : Nat
  conditions : BitVec 8
  type       : Nat
  deriving DecidableEq, Repr

/-- STATUS as a queen receives it from a forager (Table 11-3), with the announced join boundary (R360). -/
structure StatusMsg where
  rootWord : BitVec 32
  xaStatus : BitVec 16
  xbStatus : BitVec 16
  cause    : BitVec 32
  joinAt   : Option Nat
  deriving DecidableEq, Repr

/-- A command forwarded to a forager over the link (R356). -/
structure ForwardedCmd where
  session    : BitVec 16
  seq        : BitVec 16
  authorised : Bool
  opcode     : BitVec 16
  packet     : Packet
  deriving DecidableEq, Repr

/-- A forager's REPLY as it arrives at the queen (R356). -/
structure ForwardedReply where
  session : BitVec 16
  seq     : BitVec 16
  status  : BitVec 8
  detail  : BitVec 8
  job     : BitVec 16
  etick   : Option Nat
  data    : List Byte
  /-- the forager's whole reply packet, returned by NODE_FORWARD (R357) -/
  raw     : List Byte
  deriving DecidableEq, Repr

/-- Where an uncorrectable error in committed or stored data is found (Table 03-4). The errors of CFG and REPLAY come with
JOB_END, those of INBUF with the frame, those of the retained RAM with BOOT_START. -/
inductive EccPlace where
  /-- a unit's committed state -/
  | unit (slot : Fin 1024)
  /-- a cell of the comb -/
  | cell (index : Fin 8192)
  /-- the input record -/
  | record
  /-- system data: the logic domain restarts -/
  | system (report : BootReport)
  /-- the reply kept for retransmission in a session, and the one a forager keeps for a session of its queen -/
  | replyCache (session : BitVec 16)
  | linkReply (session : BitVec 16)
  /-- a summary held in the REC region -/
  | heldSummary (seq : Nat)
  /-- a summary in flash, found by a read -/
  | flashSummary (founding : Bool) (seq : Nat)
  /-- a staged block of the update -/
  | update (block : Nat)
  deriving DecidableEq, Repr

/-- What finds a fault of working data during an evaluation: the SRAM page of an uncorrectable error, or lockstep (R103);
and the start that follows a second redo that fails (R104). -/
structure RedoFault where
  page   : Option (Fin 2048)
  report : BootReport
  deriving DecidableEq, Repr

/-- An uncorrectable error in committed or stored data: the SRAM page in which it is found, if it is in SRAM, and the place. -/
structure EccFault where
  page  : Option (Fin 2048)
  place : EccPlace
  deriving DecidableEq, Repr

/-- What the host clocks in an SPI transaction: its first byte, and how many bytes after it (R50, R52). -/
structure SpiTransfer where
  first   : Byte
  clocked : Nat
  deriving DecidableEq, Repr

/-- How the work of a job came to its end: done, stopped by an uncorrectable memory error (R112), or by a flash write
that failed. -/
inductive JobWork where
  | done | memoryError | flashFailed
  deriving DecidableEq, Repr

/-- THE COMMANDS. Constructors stand in the order of the table. -/
inductive Instr where
  | ping (p : Packet)
  | identify (p : Packet)
  | sessionOpen (p : Packet)
  | sessionClose (p : Packet)
  | authBegin (p : Packet)
  | authProve (p : Packet)
  | authProveBarEnd
  | lock (p : Packet)
  | unlock (p : Packet)
  | setBaud (p : Packet)
  | baudFallback
  | smokerFeed (p : Packet)
  | smokerClear (p : Packet)
  | irqStatus (p : Packet)
  | irqAck (p : Packet)
  | readEvents (p : Packet)
  | getTick (p : Packet)
  | setWallTime (p : Packet)
  | powerState (p : Packet)
  | restart (p : Packet)
  | paramRead (p : Packet)
  | paramWrite (p : Packet)
  | paramReadBlock (p : Packet)
  | paramWriteBlock (p : Packet)
  | prgGoto (p : Packet)
  | churnClear (p : Packet)
  | bootRetry (p : Packet)
  | unitStatus (p : Packet)
  | unitStart (p : Packet)
  | unitStop (p : Packet)
  | unitManual (p : Packet)
  | unitAuto (p : Packet)
  | unitClearFault (p : Packet)
  | unitSetManualValue (p : Packet)
  | channelService (p : Packet)
  | unitList (p : Packet)
  | cellRead (p : Packet)
  | cellWrite (p : Packet)
  | cellForce (p : Packet)
  | cellRelease (p : Packet)
  | cellResetExtremes (p : Packet)
  | cfgBegin (p : Packet)
  | cfgCommit (p : Packet)
  | cfgRevert (p : Packet)
  | cfgValidationDone (job : Nat)
  | generationActivate
  | cfgList (p : Packet)
  | cfgDiscard (p : Packet)
  | cfgExportSuccession (p : Packet)
  | cfgImportSuccession (p : Packet)
  | bankDiagRead (p : Packet)
  | stampFifoRead (p : Packet)
  | calRun (p : Packet)
  | calRunDone (job : Nat) (unit : Fin 1024) (action : Fin 3)
  | probeCal (p : Packet)
  | probeCalDone (job : Nat) (sweeps : List RawSweep)
  | combEnumerate (p : Packet)
  | combEnumerateDone (job : Nat) (line : Fin 64) (answers : List (List ReadSlot))
  | combNodemapRead (p : Packet)
  | recFreeze (p : Packet)
  | recFreezeExpiry
  | recThaw (p : Packet)
  | recRead (p : Packet)
  | recClear (p : Packet)
  | recClearEraseDone
  | recStatus (p : Packet)
  | replayLoad (p : Packet)
  | replayRun (p : Packet)
  | replayResult (p : Packet)
  | inputRecordRead (p : Packet)
  | updBegin (p : Packet)
  | updBlock (p : Packet)
  | updBlockProgrammed (matched : Bool)
  | updVerify (p : Packet)
  | updVerifyDone (job : Nat)
  | updActivate (p : Packet)
  | activationPause (resumeAt : Nat) (report : BootReport)
  | updConfirm (p : Packet)
  | updAbort (p : Packet)
  | updStatus (p : Packet)
  | certRead (p : Packet)
  | certInstall (p : Packet)
  | oemKeyInstall (p : Packet)
  | signChallenge (p : Packet)
  | linkStatus (p : Packet)
  | nodeForward (p : Packet)
  | jobStatus (p : Packet)
  | jobPause (p : Packet)
  | jobResume (p : Packet)
  | jobCancel (p : Packet)
  | jobCheckpoint (job : Nat) (progress : Nat)
  | jobEnd (job : Nat) (end_ : JobWork)
  | schedCancel (p : Packet)
  | badOpcode (opcode : BitVec 16) (p : Packet)
  | packetDiscard (bytes : List Byte)
  | uartByteGap
  | spiRead (transfer : SpiTransfer)
  | sessionIdleTimeout (session : BitVec 16)
  | smokerCalm
  | tickBoundary
  | scheduledCommandApply
  | windDownComplete (slot : Fin 1024)
  | inputDeadline
  | substLimitReached (ch : Fin 128)
  | binSample (bin : Fin 64)
  | aerationHoldEnd (bin : Fin 64)
  | fanKickEnd (fan : Fin 8)
  | fanStartTimeout (fan : Fin 8)
  | fanPauseEnd (fan : Fin 8)
  | fanSpeedFaultTimer (fan : Fin 8)
  | fanSupplyShort (fan : Fin 8)
  | summaryCut
  | summaryFlashWrite (programOk : Bool) (healthOk : Bool)
  | tickCommit
  | inrecSegmentBoundary
  | tickRedo (fault : RedoFault)
  | lagRestart (report : BootReport)
  | eccCorrected (page : Fin 2048) (address : Nat)
  | eccUncorrectableCommitted (fault : EccFault)
  | sramScrub (page : Fin 2048)
  | pageRetire (page : Fin 2048)
  | tickCheckpoint
  | fineClockLock
  | crystalFailSet
  | crystalFailClear
  | hostResetNAssert
  | bootStart (cause : StartCause) (report : BootReport)
  | hostWake
  | vinPowerOn (millivolts : Nat) (uart : Bool)
  | vinPowerFail
  | vinThresholdCrossing (crossing : VinCrossing) (millivolts : Nat)
  | vioLow (inPacket : Bool)
  | vfldUvloEntry (bank : Fin 16) (millivolts : Nat)
  | vfldUvloReturn (bank : Fin 16) (millivolts : Nat)
  | vfldLowSet (bank : Fin 16) (millivolts : Nat)
  | vfldLowClear (bank : Fin 16) (millivolts : Nat)
  | vfanCrossing (crossing : VfanCrossing) (millivolts : Nat)
  | bankInService (bank : Fin 16) (report : BankReport)
  | bankUplinkFrame (source : Fin 17) (frame : Uplink)
  | baseRefreshFrame (dest : Fin 17) (intact : Bool)
  | updateRefreshFrame (bank : Fin 16) (ch : Fin 8)
  | bankGuardExpiry (bank : Fin 16)
  | bankGuardRelease (bank : Fin 16)
  | bankFailure (bank : Fin 16) (cause : BankFailCause)
  | bankRestart (bank : Fin 16) (passed : Bool)
  | loadClassUpdate (bank : Fin 16) (unseen : List Nat)
  | diEdgeAccepted (ch : Fin 128) (rise : Bool) (fine : Nat)
  | stuckDetect (ch : Fin 128)
  | countZeroTimeout (ch : Fin 128)
  | doOverloadTrip (ch : Fin 128)
  | doBackfeedTrip (ch : Fin 128) (switchedOn : List (Fin 8))
  | pairImbalanceTrip (ch : Fin 128)
  | openLoadDetect (ch : Fin 128)
  | aoiOpenLoop (ch : Fin 128)
  | aovCurrentLimitTrip (ch : Fin 128)
  | doPulsePeriodEnd (ch : Fin 128)
  | excCurrentApply (ch : Fin 128)
  | probeSweepStart (probe : Fin 64)
  | sweepRecord (probe : Fin 64) (meas : SweepMeas)
  | combRoundStart (line : Fin 64) (meas : LineMeas)
  | combRoundRecord (line : Fin 64) (meas : RoundMeas)
  | combMissLimit (line : Fin 64) (position : Fin 48)
  | combLineShort (ch : Fin 128)
  | combLineBackfeed (ch : Fin 128)
  | loopInputLossFault (loop : Fin 256)
  | profInputLossFault (prof : Fin 64)
  | churnFadeEnd (churn : Fin 32)
  | obsInputLossFault (column : Fin 8)
  | programStepTimeout (prog : Fin 4)
  | programInputLoss (prog : Fin 4)
  | programAction (prog : Fin 4)
  | chainProveTimeout (chain : Fin 32) (member : Fin 16)
  | chainMotionLoss (chain : Fin 32) (member : Fin 16)
  | chainPurgeEnd (chain : Fin 32) (member : Fin 16)
  | housekeepingRound (meas : HkMeas)
  | thermalShutdown
  | thermalAbort135 (site : Fin 6) (tenths : Int)
  | phyLinkUp (port : Fin 2) (amplitude : Amplitude)
  | phyLinkDown (port : Fin 2)
  | xistaFrameDiscard (port : Fin 2) (reason : FrameDiscard)
  | xistaRelay (port : Fin 2)
  | helloTimer
  | hello (port : Fin 2) (msg : HelloMsg)
  | challenge (port : Fin 2) (msg : ChallengeMsg)
  | proof (port : Fin 2) (msg : ProofMsg)
  | proofTimeout (node : Fin 8)
  | admission (port : Fin 2) (queenTick : Nat) (queenFine : Nat)
  | refuse (port : Fin 2) (target : List Byte) (reason : Nat)
  | syncReqTimer
  | syncReq (node : Fin 8) (arrivalFine : Nat) (replyFine : Nat)
  | syncResp (q1 : Int) (q2 : Int) (s2 : Int)
  | tickLengthen
  | nodeJoin (node : Fin 8)
  | subscribe (fromTick : Nat) (cells : List (Fin 8192))
  | cells (node : Fin 8) (entries : List CellEntry)
  | remoteCellApply
  | xistaCommand (cmd : ForwardedCmd)
  | xistaReply (node : Fin 8) (reply : ForwardedReply)
  | linkReplyTimeout (node : Fin 8)
  | xistaStatus (node : Fin 8) (msg : StatusMsg)
  | leave (node : Fin 8) (reason : Nat)
  | linkLossTimeout (node : Fin 8)
  | nodeLost (node : Fin 8)
  | queenSmokerFeed
  | vioReturn
  | fanGuardExpiry
  deriving DecidableEq, Repr

end Sys2Proof
end

