-- ==== Sys2Proof/Machine/Bytes.lean ====
section
/-! DEFINITION. Byte strings: little-endian fields (R13), CRC-32C (R58), CRC-8 (R243) and SHA-256. -/

namespace Sys2Proof.Machine

/-- `n` as `k` bytes, least significant first (R13). -/
def le : Nat → Nat → List Byte
  | 0, _ => []
  | k + 1, n => BitVec.ofNat 8 n :: le k (n / 256)

/-- The number a little-endian field spells. -/
def ofLe : List Byte → Nat
  | [] => 0
  | b :: t => b.toNat + 256 * ofLe t

/-- `n` as `k` bytes, most significant first. -/
def be (k n : Nat) : List Byte := (le k n).reverse

/-- The number a big-endian field spells. -/
def ofBe (bs : List Byte) : Nat := bs.foldl (fun a b => 256 * a + b.toNat) 0

/-- `len` bytes from `off`; what lies beyond the end is left out. -/
def bytesAt (bs : List Byte) (off len : Nat) : List Byte := (bs.drop off).take len

/-- The unsigned field of `len` bytes at `off`. -/
def field (bs : List Byte) (off len : Nat) : Nat := ofLe (bytesAt bs off len)

/-- `new` laid over `bs` from `off`. -/
def overlay (bs : List Byte) (off : Nat) (new : List Byte) : List Byte :=
  bs.take off ++ new ++ bs.drop (off + new.length)

/-- `bs` cut or padded with zeros to `n` bytes. -/
def padTo (n : Nat) (bs : List Byte) : List Byte := (bs ++ List.replicate (n - bs.length) 0).take n

/-- `bs` in pieces of `n` bytes; `fuel` bounds their number. -/
def chunks (n : Nat) : Nat → List Byte → List (List Byte)
  | 0, _ => []
  | _, [] => []
  | f + 1, bs => bs.take n :: chunks n f (bs.drop n)

/-- The bytes of an ASCII text. -/
def ascii (t : String) : List Byte := t.toList.map (fun c => BitVec.ofNat 8 c.toNat)

/-- A two's complement number of `k` bytes. -/
def leInt (k : Nat) (i : Int) : List Byte := le k (i % (256 ^ k : Nat)).toNat

/-- The signed reading of an unsigned field of `k` bytes. -/
def toSigned (k n : Nat) : Int := if n < 2 ^ (8 * k - 1) then n else (n : Int) - (2 ^ (8 * k) : Nat)

/-- One bit of the reflected CRC-32C register (R58). -/
def crc32cBit (c : Nat) : Nat := if c % 2 = 1 then (c / 2) ^^^ 0x82F63B78 else c / 2

/-- One byte of CRC-32C. -/
def crc32cByte (c : Nat) (b : Byte) : Nat :=
  crc32cBit (crc32cBit (crc32cBit (crc32cBit (crc32cBit (crc32cBit (crc32cBit (crc32cBit (c ^^^ b.toNat))))))))

/-- CRC-32C (R58). -/
def crc32c (bs : List Byte) : Nat := (bs.foldl crc32cByte 0xFFFFFFFF) ^^^ 0xFFFFFFFF

/-- One bit of CRC-8, polynomial 0x2F, not reflected (R243). -/
def crc8Bit (c : Nat) : Nat := if c / 128 % 2 = 1 then (2 * c % 256) ^^^ 0x2F else 2 * c % 256

/-- CRC-8 of combs and of the boot record's select word (R243, R407). -/
def crc8 (bs : List Byte) : Nat :=
  (bs.foldl (fun c b => crc8Bit (crc8Bit (crc8Bit (crc8Bit (crc8Bit (crc8Bit (crc8Bit (crc8Bit (c ^^^ b.toNat)))))))))
    0xFF) ^^^ 0xFF

/-- Whether the CRC field of 4 bytes at `off` is that of the bytes before it. -/
def crcOkAt (bs : List Byte) (off : Nat) : Bool := crc32c (bs.take off) == field bs off 4

/-- `bs` with its CRC-32C appended. -/
def withCrc (bs : List Byte) : List Byte := bs ++ le 4 (crc32c bs)

/-! ## SHA-256

The hash as two shift registers of four words each. Its constants are not listed but formed: the first 32 bits of the
fractions of the square roots of the first 8 primes and of the cube roots of the first 64. -/

/-- The greatest `r` of `b` further bits with `r ^ k ≤ n`. -/
def rootFloor (k n : Nat) : Nat → Nat → Nat
  | 0, r => r
  | b + 1, r => rootFloor k n b (if (r + 2 ^ b) ^ k ≤ n then r + 2 ^ b else r)

/-- The first 32 bits of the fraction of the `k`-th root of `p`. -/
def rootFraction (k p : Nat) : BitVec 32 := BitVec.ofNat 32 (rootFloor k (p * 2 ^ (32 * k)) 37 0)

/-- The primes below `n`. -/
def primesBelow (n : Nat) : List Nat :=
  (List.range n).filter (fun p => decide (2 ≤ p) && (List.range 18).all (fun d => decide (d < 2) || p % d != 0 || p == d))

/-- The constant of each round. -/
def hashSteps : List (BitVec 32) := (primesBelow 312).map (rootFraction 3)

/-- The two registers of four words, the newest word of each first. -/
structure HashRegs where
  left  : List (BitVec 32)
  right : List (BitVec 32)
  deriving DecidableEq, Repr

/-- The registers before the first block. -/
def HashRegs.first : HashRegs :=
  let l := (primesBelow 20).map (rootFraction 2)
  ⟨l.take 4, l.drop 4⟩

/-- A word rotated by three amounts, the results added bit by bit. -/
def threeTurns (x : BitVec 32) (i j k : Nat) : BitVec 32 := x.rotateRight i ^^^ x.rotateRight j ^^^ x.rotateRight k

/-- One round: each register takes a word in front and drops its last. -/
def HashRegs.turn (v : HashRegs) (step word : BitVec 32) : HashRegs :=
  match v.left, v.right with
  | [a, b, c, d], [e, f, g, h] =>
    let add := h + threeTurns e 6 11 25 + (g ^^^ (e &&& (f ^^^ g))) + step + word
    ⟨[add + threeTurns a 2 13 22 + ((a &&& b) ||| (c &&& (a ||| b))), a, b, c], [d + add, e, f, g]⟩
  | _, _ => v

/-- `n` rounds over the message words that `w` begins; `w` holds 16 words, the oldest first. -/
def HashRegs.turns : List (BitVec 32) → List (BitVec 32) → HashRegs → HashRegs
  | [], _, v => v
  | step :: rest, w, v =>
    let at_ (i : Nat) : BitVec 32 := w.getD i 0
    let next := at_ 0 + at_ 9 + (at_ 1 >>> 3 ^^^ (at_ 1).rotateRight 7 ^^^ (at_ 1).rotateRight 18) +
      (at_ 14 >>> 10 ^^^ (at_ 14).rotateRight 17 ^^^ (at_ 14).rotateRight 19)
    HashRegs.turns rest (w.tail ++ [next]) (v.turn step (at_ 0))

/-- A block of 64 bytes taken in. -/
def HashRegs.absorb (v : HashRegs) (blk : List Byte) : HashRegs :=
  let r := HashRegs.turns hashSteps ((chunks 4 16 blk).map (fun q => BitVec.ofNat 32 (ofBe q))) v
  ⟨List.zipWith (· + ·) v.left r.left, List.zipWith (· + ·) v.right r.right⟩

/-- SHA-256, as 32 bytes, big-endian. -/
def sha256 (m : List Byte) : List Byte :=
  let fill := List.replicate ((119 - m.length % 64) % 64) 0
  let p := m ++ (0x80#8 :: fill) ++ be 8 (8 * m.length)
  let r := (chunks 64 (p.length / 64) p).foldl HashRegs.absorb HashRegs.first
  (r.left ++ r.right).flatMap (fun x => be 4 x.toNat)

end Sys2Proof.Machine
end

