-- ==== Sys2Proof/Machine/Crypto.lean ====
section
/-! DEFINITION. The public-key and cipher standards the spec names: AES-128 and its CMAC (R66), ECDSA and ECDH on
P-256 (R65, R386). Numbers are plain naturals; the recursions are on a fixed count of bits. -/

namespace Sys2Proof.Machine

/-- Multiplication by x in the field of AES. -/
def aesDouble (a : Nat) : Nat := if a < 128 then 2 * a else (2 * a % 256) ^^^ 0x1B

/-- Multiplication in the field of AES, over `n` bits of the second factor. -/
def aesMul : Nat → Nat → Nat → Nat
  | 0, _, _ => 0
  | n + 1, a, b => (if b % 2 = 1 then a else 0) ^^^ aesMul n (aesDouble a) (b / 2)

/-- `a` to the power 254, the inverse in the field of AES (0 for 0). -/
def aesInv (a : Nat) : Nat :=
  let sq (x : Nat) := aesMul 8 x x
  let a2 := sq a
  let a4 := sq a2
  let a8 := sq a4
  let a16 := sq a8
  let a32 := sq a16
  let a64 := sq a32
  aesMul 8 a2 (aesMul 8 a4 (aesMul 8 a8 (aesMul 8 a16 (aesMul 8 a32 (aesMul 8 a64 (sq a64))))))

/-- A byte rotated left by `n`. -/
def rotl8 (n b : Nat) : Nat := (b * 2 ^ n % 256) ||| (b / 2 ^ (8 - n))

/-- SubBytes of one byte. -/
def aesSub (b : Byte) : Byte :=
  let i := aesInv b.toNat
  BitVec.ofNat 8 (i ^^^ rotl8 1 i ^^^ rotl8 2 i ^^^ rotl8 3 i ^^^ rotl8 4 i ^^^ 0x63)

/-- Two byte strings added bit by bit. -/
def xorBytes (a b : List Byte) : List Byte := List.zipWith (· ^^^ ·) a b

/-- ShiftRows: byte 4c + r comes from column c + r. -/
def aesShift (s : List Byte) : List Byte :=
  (List.range 16).map (fun i => s.getD ((4 * (i / 4 + i % 4) + i % 4) % 16) 0)

/-- MixColumns. -/
def aesMix (s : List Byte) : List Byte :=
  (List.range 16).map (fun i =>
    let at4 (k : Nat) := (s.getD (4 * (i / 4) + (i + k) % 4) 0).toNat
    BitVec.ofNat 8 (aesDouble (at4 0) ^^^ (aesDouble (at4 1) ^^^ at4 1) ^^^ at4 2 ^^^ at4 3))

/-- The next round key. -/
def aesNextKey (rcon : Nat) (k : List Byte) : List Byte :=
  let t := [aesSub (k.getD 13 0) ^^^ BitVec.ofNat 8 rcon, aesSub (k.getD 14 0), aesSub (k.getD 15 0), aesSub (k.getD 12 0)]
  let w0 := xorBytes (bytesAt k 0 4) t
  let w1 := xorBytes (bytesAt k 4 4) w0
  let w2 := xorBytes (bytesAt k 8 4) w1
  w0 ++ w1 ++ w2 ++ xorBytes (bytesAt k 12 4) w2

/-- The rounds of AES-128 from round constant `rcon`, `n` rounds with MixColumns to come. -/
def aesRounds : Nat → Nat → List Byte → List Byte → List Byte
  | 0, rcon, k, s => xorBytes (aesShift (s.map aesSub)) (aesNextKey rcon k)
  | n + 1, rcon, k, s =>
    let k' := aesNextKey rcon k
    aesRounds n (aesDouble rcon) k' (xorBytes (aesMix (aesShift (s.map aesSub))) k')

/-- AES-128 of one block. -/
def aes128 (key blk : List Byte) : List Byte := aesRounds 9 1 key (xorBytes blk key)

/-- The doubling of a 128-bit block in CMAC. -/
def cmacDouble (b : List Byte) : List Byte :=
  let n := ofBe b
  be 16 (if n < 2 ^ 127 then 2 * n else (2 * n % 2 ^ 128) ^^^ 0x87)

/-- AES-128-CMAC (RFC 4493). -/
def cmac (key msg : List Byte) : List Byte :=
  let k1 := cmacDouble (aes128 key (List.replicate 16 0))
  let full := msg.length ≠ 0 ∧ msg.length % 16 = 0
  let m := if full then msg else msg ++ [0x80] ++ List.replicate ((31 - msg.length % 16) % 16) 0
  let cs := chunks 16 (m.length / 16) m
  let x := cs.dropLast.foldl (fun x b => aes128 key (xorBytes x b)) (List.replicate 16 0)
  aes128 key (xorBytes x (xorBytes (cs.getLastD []) (if full then k1 else cmacDouble k1)))

/-- A product in the field of GCM over `n` bits of `x`, highest first; `v` is the other factor, shifted as it goes. -/
def ghashMul (x : Nat) : Nat → Nat → Nat → Nat
  | 0, _, z => z
  | n + 1, v, z =>
    let z := if x / 2 ^ n % 2 = 1 then z ^^^ v else z
    ghashMul x n (if v % 2 = 1 then (v / 2) ^^^ (0xE1 * 2 ^ 120) else v / 2) z

/-- GHASH of whole blocks under the hash key `h`. -/
def ghash (h : Nat) (blocks : List (List Byte)) : Nat :=
  blocks.foldl (fun y b => ghashMul (y ^^^ ofBe (padTo 16 b)) 128 h 0) 0

/-- The key stream of GCM from counter block `i` on. -/
def gcmStream (key nonce : List Byte) : Nat → Nat → List Byte
  | 0, _ => []
  | n + 1, i => aes128 key (nonce ++ be 4 i) ++ gcmStream key nonce n (i + 1)

/-- AES-128-GCM: ciphertext and 16-byte tag (R348). -/
def gcm (key nonce aad plain : List Byte) : List Byte × List Byte :=
  let k := plain.length / 16 + 1
  let cipher := List.zipWith (· ^^^ ·) plain (gcmStream key nonce k 2)
  let h := ofBe (aes128 key (List.replicate 16 0))
  let y := ghash h (chunks 16 (aad.length / 16 + 1) aad ++ chunks 16 k cipher ++
    [be 8 (8 * aad.length) ++ be 8 (8 * plain.length)])
  (cipher, xorBytes (be 16 y) (aes128 key (nonce ++ be 4 1)))

/-- The prime of P-256. -/
def p256P : Nat := 0xffffffff00000001000000000000000000000000ffffffffffffffffffffffff
/-- The order of its base point. -/
def p256N : Nat := 0xffffffff00000000ffffffffffffffffbce6faada7179e84f3b9cac2fc632551
/-- Its coefficient b. -/
def p256B : Nat := 0x5ac635d8aa3a93e7b3ebbd55769886bc651d06b0cc53b0f63bce3c3e27d2604b
/-- Its base point. -/
def p256G : Nat × Nat :=
  (0x6b17d1f2e12c4247f8bce6e563a440f277037d812deb33a0f4a13945d898c296,
   0x4fe342e2fe1a7f9b8ee7eb4a7c0f9e162bce33576b315ececbb6406837bf51f5)

/-- `a` to the power `e` modulo `m`, over `n` bits of `e`. -/
def powMod (m : Nat) : Nat → Nat → Nat → Nat
  | 0, _, _ => 1 % m
  | n + 1, a, e => let r := powMod m n (a * a % m) (e / 2); if e % 2 = 1 then a * r % m else r

/-- The inverse modulo a prime `m` of 256 bits. -/
def invMod (m a : Nat) : Nat := powMod m 256 (a % m) (m - 2)

/-- A point of P-256; `none` is the point at infinity. -/
abbrev Point := Option (Nat × Nat)

/-- Whether a pair of coordinates is a point of the curve. -/
def onCurve (q : Nat × Nat) : Bool :=
  decide (q.1 < p256P) && decide (q.2 < p256P) &&
    (q.2 * q.2 % p256P == (q.1 * q.1 * q.1 + (p256P - 3) * q.1 + p256B) % p256P)

/-- The sum of two points. -/
def ecAdd : Point → Point → Point
  | none, q => q
  | p, none => p
  | some (x1, y1), some (x2, y2) =>
    if x1 = x2 ∧ (y1 + y2) % p256P = 0 then none
    else
      let l := if x1 = x2 then (3 * x1 * x1 + p256P - 3) * invMod p256P (2 * y1) % p256P
               else (y2 + p256P - y1) * invMod p256P (x2 + p256P - x1) % p256P
      let x3 := (l * l + 2 * p256P - x1 - x2) % p256P
      some (x3, (l * (x1 + p256P - x3) + p256P - y1) % p256P)

/-- `k` times a point, over `n` bits of `k`. -/
def ecMul : Nat → Nat → Point → Point
  | 0, _, _ => none
  | n + 1, k, q => let r := ecMul n (k / 2) (ecAdd q q); if k % 2 = 1 then ecAdd q r else r

/-- The public key X ‖ Y of a private key. -/
def ecPublic (d : Nat) : List Byte :=
  match ecMul 256 d (some p256G) with
  | none => List.replicate 64 0
  | some (x, y) => be 32 x ++ be 32 y

/-- A public key X ‖ Y as a point, if it is one. -/
def ecPoint (q : List Byte) : Option (Nat × Nat) :=
  let p := (ofBe (bytesAt q 0 32), ofBe (bytesAt q 32 32))
  if q.length = 64 ∧ onCurve p then some p else none

/-- ECDH: the x-coordinate of the shared point, 32 bytes; `none` when the other key is no point of the curve. -/
def ecdh (d : Nat) (q : List Byte) : Option (List Byte) :=
  match ecPoint q with
  | none => none
  | some p => (ecMul 256 d (some p)).map (fun r => be 32 r.1)

/-- ECDSA verification of the signature r ‖ s over a SHA-256 hash. -/
def ecdsaVerify (pub hash sig : List Byte) : Bool :=
  match ecPoint pub with
  | none => false
  | some q =>
    let r := ofBe (bytesAt sig 0 32)
    let s := ofBe (bytesAt sig 32 32)
    if sig.length ≠ 64 ∨ r = 0 ∨ s = 0 ∨ p256N ≤ r ∨ p256N ≤ s then false
    else
      let w := invMod p256N s
      let u1 := ofBe hash * w % p256N
      let u2 := r * w % p256N
      match ecAdd (ecMul 256 u1 (some p256G)) (ecMul 256 u2 (some q)) with
      | none => false
      | some (x, _) => x % p256N == r

/-- ECDSA signature r ‖ s with private key `d` and the secret number `k`. -/
def ecdsaSign (d k : Nat) (hash : List Byte) : List Byte :=
  match ecMul 256 k (some p256G) with
  | none => List.replicate 64 0
  | some (x, _) =>
    let r := x % p256N
    be 32 r ++ be 32 (invMod p256N k * (ofBe hash + r * d) % p256N)

end Sys2Proof.Machine
end

