-- ==== Sys2Proof/Config.lean ====
section
/-! DEFINITION. What one module's making fixes and what the spec leaves open: constants without a body, so that
nothing can be proved of their values. -/

namespace Sys2Proof

/-- The sign and payload of a NaN an operation delivers (left open by IEEE 754; log entry 3). -/
opaque Config.nanPayload : Nat → Nat

/-- The n-th value the module draws: session IDs, job handles, nonces, ephemeral keys and the like (log entry 4). -/
opaque Config.draw : Nat → Nat

/-- A result that a rule leaves unstated, by the place it is needed at (numbered in log entry 4) and by what it rests on. -/
opaque Config.unstated : Nat → List Nat → BitVec 32

/-- The fine count at which the field side of bank `n % 16` set a flag in tick `n / 16`: the model holds no time within a
tick (Table 04-5; log entry 4). -/
opaque Config.eventFine : Nat → Nat

/-- The lower or higher of two numbers of which one is a NaN, as an extreme of a cell: stated nowhere (R34; log entry 4). -/
opaque Config.extremeNaN : Bool → BitVec 32 → BitVec 32 → BitVec 32

/-- The pulse detection threshold of a comb line, in µA above the least value that Table 07-1 allows (log entry 4). -/
opaque Config.combPulse : Nat

/-- The multiple-node threshold, likewise (log entry 4). -/
opaque Config.combMultiple : Nat

/-- An item of a factory calibration record: channel, group, load class, band and item in one number (R196; log entry 5). -/
opaque Config.factoryCal : Nat → Nat

/-- The device private key, made at manufacture in a store that nothing can read (R386). -/
opaque Config.deviceKey : Nat

/-- The public key X ‖ Y of the subject of a DER certificate, if it is an X.509 v3 certificate (R388; log entry 6). -/
opaque Config.certKey : List (BitVec 8) → Option (List (BitVec 8))

/-- Whether the signature of a certificate verifies against a public key (R388, R392; log entry 6). -/
opaque Config.certSigned : List (BitVec 8) → List (BitVec 8) → Bool

/-- Whether the key usage of a certificate allows digital signatures (R388, R389; log entry 6). -/
opaque Config.certSigns : List (BitVec 8) → Bool

/-- Whether a certificate carries keyUsage digitalSignature and extendedKeyUsage id-kp-codeSigning (R388; log entry 6). -/
opaque Config.certCodeSigning : List (BitVec 8) → Bool

end Sys2Proof
end

