-- ==== Sys2Proof/Machine/State.lean ====
section
/-! DEFINITION. The state of the module, as plain data: everything the spec gives it, the queue of waiting
commands, and the state right after reset. -/

namespace Sys2Proof.Machine

/-- A sparse table: entries in strictly rising key order, none equal to the table's default. -/
abbrev Tab (α : Type) := List (Nat × α)

/-- Why the machine stops with a fault. The spec gives no step of the module that stops it for good: a
refused command is a reply, a failed start is boot hold. The one reason is never raised by a step. -/
inductive Fault where
  /-- Raised by nobody: every command has an effect (safe). -/
  | halted
  deriving DecidableEq, Repr

/-- Why a command has no meaning. -/
inductive Refusal where
  /-- Raised by the dispatcher for a command not modelled yet (safe). -/
  | notModelled (mnemonic : String)
  deriving DecidableEq, Repr

/-- Unit states (Table 01-3). -/
inductive UState where
  | stopped | active | auto | manual | stopping | hold | fault
  deriving DecidableEq, Repr

/-- Power states (Table 14-1). -/
inductive Power where
  | dormant | watch | hush | run
  deriving DecidableEq, Repr

/-- The common record of a unit slot (R20, Table 01-2; R22, R23). Kind, parent and REQUIRED stand in the
active content. `resume` is the state held before a stop; `holdDue`, `faultDue` (with their codes) and `windDone` are the events
that wait for the next boundary. -/
structure UnitRec where
  st          : UState := .stopped
  faultCode   : Nat := 0
  cmdDropped  : Bool := false
  capChanged  : Bool := false
  inputSubst  : Bool := false
  inputUnusable : Bool := false
  memberFault : Bool := false
  resume      : UState := .stopped
  holdDue     : Option Nat := none
  faultDue    : Option Nat := none
  windDone    : Bool := false
  deriving DecidableEq, Repr

/-- A cell as its writer left it (Table 01-6). MIN, MAX, EPOCH and EXTREMES_VALID stand beside, because a
force does not move them aside. -/
structure CellVal where
  value      : Val := 0
  stamp      : Nat := 0
  source     : Nat := 0
  quality    : Nat := 7
  conditions : BitVec 8 := 0x40#8
  type       : Nat := 0
  deriving DecidableEq, Repr

/-- One cell of the comb (R33, R34, R38): what readers see when nothing is forced, the forced value if any,
and the extremes. `written` is false until the first write since its writer was added. -/
structure Cell where
  own      : CellVal := {}
  forced   : Option CellVal := none
  written  : Bool := false
  min      : F32 := 0
  max      : F32 := 0
  epoch    : Nat := 0
  extremesValid : Bool := false
  deriving DecidableEq, Repr

/-- Logic-side state of a channel unit (R113, R151 to R162, R168, R179, R180, R183, R190 to R194, R210, R216). -/
structure ChanState where
  /-- last two conversions used, newest first (R113) -/
  history   : List Conv := []
  missRun   : Nat := 0
  /-- the batch in use in this tick, whether it was substituted, and whether no cell is written (R113, R114) -/
  batch     : List Conv := []
  subst     : Bool := false
  skip      : Bool := true
  edgeCount : Nat := 0
  stuckRun  : Nat := 0
  stuck     : Bool := false
  chatCount : Nat := 0
  chatter   : Bool := false
  count     : Nat := 0
  refValid  : Bool := false
  ref       : Nat := 0
  acc       : Nat := 0
  idle      : Nat := 0
  settled   : Bool := false
  /-- the value of functions 1 to 3 (R159), or the last value computed by another mode -/
  value     : F32 := 0
  valueBad  : Bool := false
  mismatchRun : Nat := 0
  /-- tick before which digital cells carry SETTLING (R173) -/
  settleUntil : Nat := 0
  /-- output value sent to the field, and whether one exists since the start (R161, R202) -/
  out       : Val := 0
  outSafe   : Bool := true
  lastUsable : Option Val := none
  openRun   : Nat := 0
  openLoad  : Bool := false
  /-- RES: the value selected for this unit's terminal and its condition mask (R191) -/
  x         : F32 := 0
  xConds    : BitVec 8 := 0
  xLimit    : Bool := false
  excRun    : Nat := 0
  dcRun     : Nat := 0
  /-- the last record's status byte and voltages, read by clearing rules (Table 04-4) -/
  lastRec   : Conv := ⟨0, 0, 0⟩
  /-- it has come back into service and its settling interval has not ended; the boundary that took it out of service last
  (Table 01-9, R45) -/
  back      : Bool := false
  outAt     : Option Nat := none
  deriving DecidableEq, Repr

/-- Loop unit (R263 to R277, R294). -/
structure LoopState where
  iPrev     : F32 := 0
  dPrev     : F32 := 0
  yPrev     : F32 := 0
  uLast     : F32 := 0
  errLast   : F32 := 0
  manual    : F32 := 0
  spLast    : Option F32 := none
  ff1Last   : Option F32 := none
  ff2Last   : Option F32 := none
  ff1Dropped : Bool := false
  ff2Dropped : Bool := false
  lossRun   : Nat := 0
  inputLoss : Bool := false
  presetDue : Bool := false
  sat       : Int := 0
  extSat    : Int := 0
  spClamp   : Int := 0
  rateLimited : Bool := false
  preset    : Bool := false
  tracking  : Bool := false
  selected  : Bool := false
  ffHeld    : Bool := false
  spHeld    : Bool := false
  calmSafe  : Bool := false
  /-- it wrote a usable OUT_CELL in this tick, and the value (R283) -/
  wroteTick : Nat := 0
  deriving DecidableEq, Repr

/-- Profile generator (R284 to R288). -/
structure ProfState where
  x         : F32 := 0
  v         : F32 := 0
  a         : F32 := 0
  manual    : F32 := 0
  stopAt    : F32 := 0
  targetLast : Option F32 := none
  lossRun   : Nat := 0
  brakeAt   : Option F32 := none
  overshoot : Bool := false
  reversing : Bool := false
  atTarget  : Bool := false
  calmSafe  : Bool := false
  targetHeld : Bool := false
  braking   : Bool := false
  deriving DecidableEq, Repr

/-- Churn (R289 to R293). The table is sparse over its bins, default 0. -/
structure ChurnState where
  table     : Tab F32 := []
  tag       : Int := 0
  band      : Int := 0
  fadeCount : Nat := 0
  bPrev     : Option Nat := none
  bOut      : Nat := 0
  phaseLost : Bool := false
  lostSince : Bool := false
  learning  : Bool := false
  fadingOut : Bool := false
  fadingIn  : Bool := false
  hostNotReady : Bool := false
  bandLeft  : Bool := false
  clamped   : Bool := false
  deriving DecidableEq, Repr

/-- A sweep record as delivered to a probe unit (Table 06-4). -/
structure SweepRec where
  clamp    : Bool := false
  missed   : Bool := true
  overload : Bool := false
  opened   : Bool := false
  calMismatch : Bool := false
  dcFault  : Bool := false
  amplitude : Nat := 0
  loadClass : Nat := 0
  set      : Nat := 0xFF
  points   : List (F32 × F32) := []
  deriving DecidableEq, Repr

/-- Probe unit (R227, R231). -/
structure ProbeState where
  mf     : Option F32 := none
  last   : Option SweepRec := none
  deriving DecidableEq, Repr

/-- One node entry of a round record (Tables 07-6, 07-7). -/
structure NodeEntry where
  position : Nat
  status   : BitVec 8
  temp     : BitVec 16
  rh       : BitVec 16
  co2      : BitVec 16
  deriving DecidableEq, Repr

/-- A round's record (Table 07-6) with its tick. -/
structure RoundRec where
  missed      : Bool := true
  clamp       : Bool := false
  start       : Bool := false
  unmapped    : Bool := false
  lowFeed     : Bool := false
  noHeadroom  : Bool := false
  enumerating : Bool := false
  baselineUa  : Nat := 0
  entries     : List NodeEntry := []
  /-- COMB_MISS_LIMIT as the round started (R248) -/
  limit       : Nat := 3
  deriving DecidableEq, Repr

/-- Comb line unit (R246 to R255). -/
structure CombState where
  missRun  : Tab Nat := []
  last     : Option RoundRec := none
  roundsMissed : Nat := 0
  /-- COMB_MAP conditions present in the last round: reason 256 × reason + position (R255) -/
  raised   : List Nat := []
  deriving DecidableEq, Repr

/-- Program unit (R305 to R310). -/
structure ProgState where
  step      : Nat := 0
  entry     : Nat := 0
  entryDue  : Bool := false
  setPoints : List F32 := List.replicate 8 0
  batches   : Nat := 0
  unusableSince : Option Nat := none
  /-- the entry tick stays when the entry actions run again (R308) -/
  rerun     : Bool := false
  /-- step, entry tick and a due entry held when a stop arrived (R308) -/
  heldStep  : Nat := 0
  heldEntry : Nat := 0
  heldDue   : Bool := false
  /-- the tick of the last batch end, for the recorder (R368) -/
  batchAt   : Option Nat := none
  /-- actions that wait for the next boundary: code (1 start, 2 stop, 3 auto, 4 manual) and handle (R307) -/
  actions   : List (Nat × Nat) := []
  /-- the boundary at which the stops of PRG_FAULT_STOP are due: one after the entry into FAULT (R310) -/
  faultStop : Option Nat := none
  calmSafe  : Bool := false
  condMet   : Bool := false
  condUnusable : Bool := false
  actionDropped : Bool := false
  timedOut  : Bool := false
  batchEnded : Bool := false
  deriving DecidableEq, Repr

/-- One member of a chain (R311 to R313): steps since its start and its stop. -/
structure MemberState where
  /-- its plug cell read as plugged at the last step (R311) -/
  plugged   : Bool := false
  running   : Bool := false
  proven    : Bool := false
  everRan   : Bool := false
  sinceStart : Nat := 0
  sinceStop : Nat := 0
  lowRun    : Nat := 0
  deriving DecidableEq, Repr

/-- Chain unit (R311 to R315). -/
structure ChainState where
  members   : Tab MemberState := []
  starting  : Bool := false
  running   : Bool := false
  stoppingFlow : Bool := false
  /-- the lowest running member stops at the next step; an ordinary stop is due at the next boundary (R312) -/
  stopNow   : Bool := false
  stopDue   : Bool := false
  tripped   : Bool := false
  tripMember : Nat := 0
  tripCode  : Nat := 0
  waitingPermit : Bool := false
  permitLost : Bool := false
  deriving DecidableEq, Repr

/-- Observer column unit (R300 to R303). -/
structure ObsState where
  m        : List F32 := List.replicate 64 0
  g        : List F32 := List.replicate 64 0
  acc      : F32 := 0
  shifted  : Nat := 0
  factor   : F32 := 0x3F800000#32
  ring     : List (Nat × F32) := []
  /-- last usable value of each input, by position in the unit's input list (R300) -/
  lastIn   : Tab F32 := []
  lossRun  : Nat := 0
  corrStamp : Option Nat := none
  initDue  : Bool := true
  filled   : Bool := false
  inputHeld : Bool := false
  corrected : Bool := false
  factorLimit : Bool := false
  corrSkipped : Bool := false
  shiftLimit : Bool := false
  lowFlow  : Bool := false
  rateInvalid : Bool := false
  deriving DecidableEq, Repr

/-- Bin unit (R316 to R319): rings of samples keyed by 64 × line + position, newest first; the CO2 ring. -/
structure BinState where
  rings    : Tab (List (Nat × Option F32)) := []
  co2Ring  : List (Nat × Option F32) := []
  /-- the two rates and their conditions since the last sample (R318) -/
  rise     : F32 := 0
  riseConds : BitVec 8 := 0x04#8
  co2Rate  : F32 := 0
  co2Conds : BitVec 8 := 0x04#8
  permit   : Bool := false
  changedAt : Nat := 0
  hotLine  : Nat := 0
  hotPosition : Nat := 0
  hotForced : Bool := false
  minOnHold : Bool := false
  minOffHold : Bool := false
  airUnusable : Bool := false
  ratesSettling : Bool := false
  hot      : Bool := false
  riseAlarm : Bool := false
  deriving DecidableEq, Repr

/-- Phases of the fan start sequence (Table 10-4). -/
inductive FanSeq where
  | off | kick | proving | running | pause
  deriving DecidableEq, Repr

/-- One fan record (Table 10-1). -/
structure FanRec where
  edges  : Nat := 0
  status : BitVec 8 := 0
  fine   : Nat := 0xFFFF
  vOut   : Nat := 0
  iOut   : Nat := 0
  deriving DecidableEq, Repr

/-- Fan port unit (R326 to R337). -/
structure FanState where
  seq       : FanSeq := .off
  retries   : Nat := 0
  /-- steps since the kick began; steps of the pause still to come -/
  kickSteps : Nat := 0
  pauseLeft : Nat := 0
  cLast     : F32 := 0
  cApplied  : F32 := 0
  manual    : F32 := 0
  /-- tach counting (R326): as in R159 -/
  count     : Nat := 0
  refValid  : Bool := false
  ref       : Nat := 0
  acc       : Nat := 0
  idle      : Nat := 0
  settled   : Bool := false
  speed     : F32 := 0
  lowRun    : Nat := 0
  /-- over the low run: every step at current limit; no edge and current in the running band (Table 10-5) -/
  lowLimited : Bool := true
  lowNoTach : Bool := true
  recs      : List (Nat × FanRec) := []
  lastRec   : FanRec := {}
  /-- supervision was suspended at the last step (R323, R324) -/
  suspended : Bool := false
  calmSafe  : Bool := false
  failsafe  : Bool := false
  enableOff : Bool := false
  tachLost  : Bool := false
  ramping   : Bool := false
  deriving DecidableEq, Repr

/-- One histogram accumulator (R367, Table 12-3). -/
structure HistAcc where
  bins   : Tab Nat := []
  any    : Bool := false
  min    : F32 := 0
  max    : F32 := 0
  minAt  : Nat := 0
  maxAt  : Nat := 0
  worst  : Nat := 0
  deriving DecidableEq, Repr

/-- The recorder's committed accumulators (R366 to R368). `batchMask`, `cutNow`: causes that fall in this tick. -/
structure RecAcc where
  hists   : Tab HistAcc := []
  samples : Nat := 0
  tStart  : Nat := 0
  opened  : Bool := false
  timeStep : Bool := false
  timeBack : Bool := false
  causes  : BitVec 8 := 0
  deriving DecidableEq, Repr, Inhabited

/-- A REMOTE cell entry that waits for its boundary (R354). -/
structure RemoteEntry where
  ref   : Nat
  due   : Nat
  entry : CellEntry
  deriving DecidableEq, Repr

/-- Everything that is double-buffered (R102): units, their states, running parameter values and the comb. -/
structure Plant where
  units   : Tab UnitRec
  cells   : Tab Cell
  running : List (Nat × Nat × Val)
  chans   : Tab ChanState
  loops   : Tab LoopState
  profs   : Tab ProfState
  churns  : Tab ChurnState
  probes  : Tab ProbeState
  combs   : Tab CombState
  progs   : Tab ProgState
  chains  : Tab ChainState
  obs     : Tab ObsState
  fans    : Tab FanState
  bins    : Tab BinState
  recAcc  : RecAcc
  deriving DecidableEq, Repr, Inhabited

/-- A parameter value: a scalar in its 8 bytes, or the bytes of a block (R443). -/
inductive PVal where
  | scalar (v : Val)
  | block (bytes : List Byte)
  deriving DecidableEq, Repr

/-- A configuration content (R377): records (TAG, INSTANCE, value), sorted, none at its default. The tag of a
unit header is 0x0101, its parameter ID (R451). -/
abbrev Content := List (Nat × Nat × PVal)

/-- Generation states (R382) and origins (Table 12-7). -/
inductive GenState where
  | active | stored | awaiting | abandoned | failed | reverted
  deriving DecidableEq, Repr

/-- A stored generation (Table 12-7). `oldFormat`: FORMAT_LEVEL and ORIGIN of an old-format copy held beside the new
one (R383). -/
structure Generation where
  number  : Nat
  parent  : Nat
  state   : GenState
  origin  : Nat
  format  : Nat
  cl      : Nat
  created : Nat
  wall    : Int
  content : Content
  oldFormat : Option (Nat × Nat) := none
  deriving DecidableEq, Repr

/-- A generation change that waits for its boundary (R379, R380, R384). -/
structure Awaiting where
  number : Nat
  at_    : Nat
  revert : Bool
  deriving DecidableEq, Repr

/-- The pending generation and its holder (R76). -/
structure Pending where
  holder  : BitVec 16
  base    : Nat
  content : Content
  deriving DecidableEq, Repr

/-- A reply packet (R57, R59). -/
structure Reply where
  seq     : BitVec 16
  opcode  : BitVec 16
  session : BitVec 16
  etick   : Option Nat
  auth    : Bool
  status  : BitVec 8
  detail  : BitVec 8
  job     : BitVec 16
  data    : List Byte
  /-- the authentication tag, present when `auth` (R66) -/
  tag     : List Byte
  deriving DecidableEq, Repr

/-- An open session (R61, R63, R65, R66). -/
structure Session where
  id      : BitVec 16
  label   : List Byte
  idle    : Nat
  expect  : BitVec 16
  lastSeq : BitVec 16
  lastTick : Nat
  cached  : Option Reply
  /-- the last accepted command was sent on to a forager and its reply is not cached (R358) -/
  awaits  : Bool
  nonce   : Option (List Byte)
  key     : Option (List Byte)
  deriving DecidableEq, Repr

/-- A scheduled command (R69). `auth`: it needed authorisation when accepted. -/
structure Sched where
  at_     : Nat
  session : BitVec 16
  seq     : BitVec 16
  opcode  : BitVec 16
  payload : List Byte
  auth    : Bool
  deriving DecidableEq, Repr

/-- An event record (Table 02-11). -/
structure Event where
  tick   : Nat
  cause  : Nat
  handle : Nat
  code   : Nat
  data   : BitVec 32
  deriving DecidableEq, Repr

/-- Job states (R81). -/
inductive JobState where
  | queued | running | paused | done | failed | cancelled
  deriving DecidableEq, Repr

/-- One value collected for a calibration (R200): the codes before calibration, or in the 3- and 4-wire forms of RES the
difference of the members' codes that gives the resistance (Table 05-9); the quality of the value. -/
structure CalConv where
  coarse  : F64
  fine    : F64
  quality : Nat
  deriving DecidableEq, Repr

/-- A job (R79 to R82). `args`: its command's payload. `out`: job data not yet returned, in the parts JOB_STATUS
returns them. `pauseDue`, `cancelDue`: requests that take effect at its next checkpoint. -/
structure Job where
  handle   : Nat
  session  : Option (BitVec 16)
  opcode   : BitVec 16
  state    : JobState
  progress : Nat
  status   : BitVec 8
  detail   : BitVec 8
  etick    : Option Nat
  /-- the effective tick asked for, and whether ETV was set (R82) -/
  wanted   : Nat
  wantedSet : Bool
  args     : List Byte
  out      : List (List Byte)
  data     : List Byte
  pauseDue : Bool
  cancelDue : Bool
  /-- tick + 1 of its first run; 0 before it -/
  started  : Nat
  /-- CAL_RUN: the values collected, the load class and band they were taken under, and STATUS and DETAIL of what has ended
  the collection (R200) -/
  coll     : List CalConv := []
  tags     : Option (Nat × Nat) := none
  bar      : Option (Nat × Nat) := none
  deriving DecidableEq, Repr

/-- Bank states (Table 04-1). -/
inductive BankSt where
  | unpowered | starting | inService | failed | retired
  deriving DecidableEq, Repr

/-- A stamp of an edge (R91, R154): channel, direction, tick, fine count. -/
structure Stamp where
  ch   : Nat
  rise : Bool
  tick : Nat
  fine : Nat
  late : Bool := false
  deriving DecidableEq, Repr

/-- A host stamp FIFO entry (Table 04-10). -/
structure FifoEntry where
  tick  : Nat
  fine  : Nat
  channel : BitVec 8
  kind  : Nat
  count : Nat
  deriving DecidableEq, Repr

/-- A calibration record (Table 05-13). -/
structure CalRec where
  group      : Nat
  loadClass  : Nat
  band       : Nat
  coarseGain : F32
  coarseOffset : Int
  fineGain   : F32
  fineOffset : Int
  tick       : Nat
  deriving DecidableEq, Repr

/-- What the logic side tells the field to do with an output terminal (rows 6 to 10 of Table 04-2). -/
inductive DriveCmd where
  | off | hiZ | safe
  | value (v : Val)
  deriving DecidableEq, Repr

/-- The records of the windows of a channel that ended with tick `tick`, as the field side forms them once, whatever becomes
of the frames that carry them: excitation measured (R188), codes before calibration and the tags in force (R200). -/
structure Formed where
  tick  : Nat
  recs  : List Conv
  exc   : Nat × Nat
  raws  : List (F64 × F64)
  tags  : Nat × Nat
  deriving DecidableEq, Repr

/-- The field side of a channel (R148 to R150, R154, R164 to R168, R189, R203 to R206): not double-buffered. -/
structure FieldChan where
  level     : Bool := false
  /-- accepted edges of the running tick: both directions, by COUNT_EDGE, and the last fine counts -/
  edges     : Nat := 0
  lastFine  : Option Nat := none
  counted   : Nat := 0
  countFine : Option Nat := none
  /-- the digital record latched at the last boundary, with its tick -/
  latched   : Option (Nat × Conv) := none
  /-- the drive carried by the last refresh frame, and the last one other than the safe state (R136) -/
  cmd       : DriveCmd := .off
  driven    : DriveCmd := .off
  /-- a refresh frame has arrived since the mode was entered (R173) -/
  refreshed : Bool := false
  trip      : Option Nat := none
  partner   : Nat := 0xFF
  /-- channel flags: latched (Table 04-7), and the part whose condition is present -/
  flags     : BitVec 16 := 0
  present   : BitVec 16 := 0
  serviceOff : Bool := false
  /-- excitation current of the running window and of the window that ended last (R189); 0: none yet -/
  excNow    : Nat := 0
  excRec    : Nat := 0
  /-- windows in which FINE_VALID is still held at 0 (R178) -/
  fineHold  : Nat := 0
  /-- internal conversions the post-filter holds, oldest first, and the tick of the newest (R182) -/
  raw       : List Conv := []
  rawTick   : Nat := 0
  /-- the records of the windows that ended last -/
  formed    : Option Formed := none
  /-- the switch was on at the last window end, and the tick in which it turned off last (R195) -/
  wasOn     : Bool := false
  offTick   : Option Nat := none
  /-- windows of the settling interval to come, and how many were to come when the last window ended (R210) -/
  settle    : Nat := 0
  settleRec : Nat := 0
  /-- windows of a settling interval that begins when the output stage turns on (Table 05-16) -/
  settleDue : Nat := 0
  /-- the field record in use (none: factory) and whether it mismatches, in the running and in the last window (R198) -/
  calNow    : Option CalRec := none
  calEnd    : Option CalRec := none
  mismatchNow : Bool := false
  mismatchRec : Bool := false
  /-- load class and band that chose the record of the running window, and of the last one (R196, R198) -/
  tagsNow   : Nat × Nat := (0, 0xFF)
  tagsRec   : Nat × Nat := (0, 0xFF)
  /-- GUARD_SAFE, VFLD_OFF and VFLD_LOW, the trip, and the switch (without and with a high waveform) as the last window
  ended (Table 04-4a) -/
  condRec   : Nat := 0
  tripRec   : Bool := false
  switchRec : Bool × Bool := (false, false)
  /-- the boundary at which a window of the channel ended last -/
  windowEnd : Nat := 0
  openLoop  : Bool := false
  /-- batches substituted, a counter of the chapter on the tick (SUBST_COUNT) -/
  substCount : Nat := 0
  pulseNow  : Val := 0
  pulseNext : Option Val := none
  fieldRecs : List (Nat × CalRec) := []
  /-- new records and the tick from which they are used (R200) -/
  newRecs   : List (Nat × CalRec) := []
  /-- AO-I: loop resistance last measured, as terminal mV over µA (R203) -/
  loopOhm   : Option (Nat × Nat) := none
  calInvalid : List Nat := []
  deriving DecidableEq, Repr

/-- A bank (R130 to R144, R156, R169, R197, R217). -/
structure Bank where
  state      : BankSt := .unpowered
  guardArmed : Bool := false
  guardTripped : Bool := false
  guardTime  : Nat := 100
  stretched  : Bool := false
  /-- the throttle factor last received (R432) -/
  throttle   : F32 := 0x3F800000#32
  goodUp     : Nat := 0
  missUp     : Nat := 0
  sawUp      : Bool := false
  /-- the uplink frame of this tick has been requested again (R133) -/
  retried    : Bool := false
  /-- the AO-I rail in mV and the ticks for which less was needed (R203) -/
  rail       : Nat := 4000
  railLow    : Nat := 0
  failDue    : Option BankFailCause := none
  restarts   : Nat := 0
  restartAt  : Nat := 0
  uvlo       : Bool := true
  vfldLow    : Bool := true
  vfld       : Nat := 0
  vfldMin    : Nat := 0xFFFF
  guardTrips : Nat := 0
  crcErrors  : Nat := 0
  retries    : Nat := 0
  lateSamples : Nat := 0
  lostField  : Nat := 0
  lostFifo   : Nat := 0
  fifoHigh   : Nat := 0
  uvloEvents : Nat := 0
  lowEvents  : Nat := 0
  flags      : BitVec 16 := 0
  present    : BitVec 16 := 0
  faultBit   : Bool := false
  lastEvent  : Nat × Nat := (0, 0)
  /-- sequence numbers: next downlink frame sent, next one the field side expects, next uplink frame (R133, R134) -/
  seqDown    : BitVec 16 := 0
  seqNext    : BitVec 16 := 0
  seqUp      : BitVec 16 := 0
  /-- load class (R197): in use, those decided with their first tick, the mean reported, the load currents summed by block
  and the first block that is not decided -/
  loadClass  : Nat := 0
  loadNext   : List (Nat × Nat) := []
  loadMean   : F32 := 0
  loadSums   : Tab Nat := []
  loadBlock  : Nat := 0
  engine     : Nat := 0
  stamps     : List Stamp := []
  /-- the stamp batch latched for delivery and the batch held back, each with its LOST counts -/
  batch      : List Stamp := []
  lost       : List (Nat × Nat) := []
  heldBack   : List Stamp := []
  heldLost   : List (Nat × Nat) := []
  batchIn    : Bool := false
  fifo       : List FifoEntry := []
  fifoLost   : Tab (Nat × Nat × Nat) := []
  deriving DecidableEq, Repr

/-- One frequency of a probe calibration set (Table 06-2): YO, ZS and C0. -/
structure CalPoint where
  freq : Nat
  yoRe : F32
  yoIm : F32
  zsRe : F32
  zsIm : F32
  c0   : F32
  deriving DecidableEq, Repr

/-- A probe calibration set as it stands in the field side (Table 06-2, R225). -/
structure CalSet where
  flags     : BitVec 8 := 0
  amplitude : Nat := 0
  loadClass : Nat := 0
  tickOpen  : Nat := 0
  tickShort : Nat := 0
  tickRef   : Nat := 0
  points    : List CalPoint := []
  /-- used from the first sweep at or after this tick (R225) -/
  usableAt  : Nat := 0
  deriving DecidableEq, Repr

/-- What the engine runs at one point of a sweep: frequency, DDS phase increment and whole cycles (R218). -/
structure EnginePoint where
  freq      : Nat
  increment : Nat
  cycles    : Nat
  deriving DecidableEq, Repr

/-- A sweep in flight (R219 to R222). -/
structure SweepRun where
  start     : Nat
  set       : Option Nat
  mismatch  : Bool
  amplitude : Nat
  loadClass : Nat
  plan      : List EnginePoint
  dcFault   : Bool := false
  clamp     : Bool := false
  missed    : Bool := false
  deriving DecidableEq, Repr

/-- The field side of a probe: calibration sets, the sweep in flight and the record delivered for evaluation. -/
structure FieldProbe where
  sets   : Tab CalSet := []
  run    : Option SweepRun := none
  ready  : Option (Nat × SweepRec) := none
  deriving DecidableEq, Repr

/-- A frame on a comb line with the fields the host sends (Table 07-4). -/
inductive CombFrame where
  | convert
  | read (address type : Nat)
  | assign (id address : Nat)
  | presenceNew
  | rangeQuery (lo hi : Nat)
  | claimId (lo hi : Nat)
  deriving DecidableEq, Repr

/-- A comb round in flight (R246 to R248): the frames it sends, and the miss limit in force as it starts. -/
structure RoundRun where
  t0       : Nat
  start    : Bool
  missed   : Bool
  lowFeed  : Bool
  noHeadroom : Bool
  enumerating : Bool
  clamp    : Bool := false
  frames   : List CombFrame := []
  limit    : Nat := 3
  deriving DecidableEq, Repr

/-- The line side of a comb line unit (R246, R254, Table 07-9). `needAssign`: positions whose last transaction
ended with NO_REPLY or CRC_ERROR. -/
structure FieldComb where
  startDue   : Bool := true
  run        : Option RoundRun := none
  ready      : Option (Nat × RoundRec) := none
  /-- a round that is over and not evaluated, with its record once delivered (R247) -/
  ended      : Option (RoundRun × Option RoundRec) := none
  needAssign : List Nat := []
  found      : Option (List Byte) := none
  /-- an enumeration runs, from which tick, and whether the channel unit has been in FAULT since (R254) -/
  enumerating : Bool := false
  enumAt     : Nat := 0
  enumFault  : Bool := false
  deriving DecidableEq, Repr

/-- A field input delivered for evaluation and kept until the commit (R103): batches by channel. -/
structure InBuf where
  batches  : Tab (List Conv) := []
  /-- measured excitation of a RES window, both phases in pA (R211) -/
  excites  : Tab (Nat × Nat) := []
  /-- codes before calibration with the load class and band in force (R200) -/
  raws     : Tab ((Nat × Nat) × List (F64 × F64)) := []
  fans     : Tab FanRec := []
  sweeps   : Tab SweepRec := []
  rounds   : Tab RoundRec := []
  /-- stamp batches by bank, each with its LOST counts by channel of the bank (R155) -/
  edges    : Tab (List Stamp × List (Nat × Nat)) := []
  deriving DecidableEq, Repr

/-- A cut summary (Tables 12-2, 12-3), with its SEQ and the RESTART mark of R370. -/
structure Summary where
  seq     : Nat
  restart : Bool
  bytes   : List Byte
  /-- held when a clear took effect: written to the founding area only (R373) -/
  foundOnly : Bool := false
  /-- the sector whose uncorrectable error makes it unreadable (R374) -/
  unreadable : Option Nat := none
  deriving DecidableEq, Repr

/-- The recorder outside the accumulators (R370 to R374). -/
structure RecStore where
  nextSeq   : Nat := 0
  restart   : Bool := true
  /-- cut summaries not yet written; held while frozen -/
  queue     : List Summary := []
  frozen    : Bool := false
  frozenAt  : Nat := 0
  founding  : List Summary := []
  rolling   : List Summary := []
  /-- the lowest SEQ not overwritten or cleared (R372) -/
  rollFloor : Nat := 0
  /-- a cut resets the extremes of these cells at the next boundary (R368) -/
  extremesDue : List Nat := []
  clearing  : Bool := false
  foundSpares : Nat := 2
  rollSpares  : Nat := 8
  retired   : Nat := 0
  foundLost : Nat := 0
  rollLost  : Nat := 0
  healthRecs : List (List Byte) := []
  unrecorded : Bool := false
  failures  : Nat := 0
  lastSector : Nat := 0
  anyFailure : Bool := false
  deriving DecidableEq, Repr

/-- The input record and replay (R117 to R126). `hash` is H(w) as 32 bytes, `window` the strings of the running
window. `replay`: the loaded chunks; `replayOk`: a complete record is loaded. -/
structure InRec where
  entries   : List (List Byte) := []
  open_     : Bool := false
  t0        : Nat := 0
  scope     : Nat := 0xFFFF
  count     : Nat := 0
  tickHi    : Nat := 0
  hash      : List Byte := []
  window    : List Byte := []
  replay    : List Byte := []
  replayOk  : Bool := false
  result    : List Byte := List.replicate 32 0
  /-- the commands applied in this tick, in their order: opcode and payload -/
  cmds      : List (Nat × List Byte) := []
  /-- what else this tick brings to the record: (TYPE, REF, payload) -/
  notes     : List (Nat × Nat × List Byte) := []
  deriving DecidableEq, Repr

/-- Pages laid out region after region, each region taking its number of pages from the front of `pages`. -/
def layPages : List Nat → List Nat → List (List Nat)
  | [], _ => []
  | n :: t, pages => pages.take n :: layPages t (pages.drop n)

/-- SRAM pages (R107 to R111): the pages of each region in the order of its logical range, retired pages, corrected addresses
per page with their ticks. Which pages a region has at first the spec leaves open: they lie region after region from page 0
(DESIGN CHOICE, log entry 43). `zeroed`: the pages that the last resize zeroed. -/
structure Sram where
  map      : List (List Nat) := layPages [256, 256, 256, 16, 64, 256, 48, 64, 64, 128, 128, 16] (List.range 2048)
  zeroed   : List Nat := []
  retired  : List Nat := []
  retireDue : List Nat := []
  corrected : Tab (List (Nat × Nat)) := []
  corrCount : Nat := 0
  redoCount : Nat := 0
  redoTick  : Nat := 0
  /-- redos of that tick so far (R104) -/
  redoRun   : Nat := 0
  lagMax   : Nat := 0
  scrubbed : List Nat := []
  deriving DecidableEq, Repr

/-- The sizes of the regions in pages (Table 03-3). -/
def Sram.regions (m : Sram) : List Nat := m.map.map List.length

/-- Update states (Table 13-5). -/
inductive UpdState where
  | idle | receiving | received | verifying | verified | trial | failed
  deriving DecidableEq, Repr

/-- Owner of an update session (R399). -/
inductive UpdOwner where
  | none | session (id : BitVec 16) | link
  deriving DecidableEq, Repr

/-- The update session and the boot record (R395 to R413). -/
structure Update where
  state     : UpdState := .idle
  owner     : UpdOwner := .none
  manifest  : List Byte := []
  staged    : List (Nat × List Byte) := []
  nextBlock : Nat := 0
  verified  : Nat := 0
  image     : List (List Byte) := []
  sectorFails : Nat := 0
  lastStatus : BitVec 8 := 0
  lastDetail : BitVec 8 := 0
  fallbackReason : Nat := 0
  activateAt : Option Nat := none
  /-- the pause at `activateAt` is that of a fallback by UPD_ABORT (R413) -/
  fallbackDue : Bool := false
  /-- UPD_ABORT waits for the running UPD_VERIFY to be cancelled (R405) -/
  abortDue  : Bool := false
  /-- boot record: active slot B, TRIAL, trials left, fallback slot B -/
  slotB     : Bool := false
  trial     : Bool := false
  trialsLeft : Nat := 0
  fallbackB : Bool := false
  selectCount : Nat := 0
  selectCopy : Bool := false
  slotBad   : List Bool := [false, true]
  /-- manifests of slots A and B -/
  manifests : List (List Byte) := [[], []]
  fwVersion : Nat := 0x01000000
  secVersion : Nat := 0
  deriving DecidableEq, Repr

/-- What is set at manufacture and the identity area (R386 to R392). -/
structure Identity where
  orderingCode : List Byte
  sg1064    : Bool
  gradeX    : Bool
  serial    : List Byte
  macs      : List (List Byte)
  devicePub : List Byte
  deviceCert : List Byte
  rootPub   : List Byte
  clHighest : Nat
  formatLevel : Nat
  oemKey    : Option (List Byte)
  instCert  : Option (List Byte)
  locked    : Bool
  deriving DecidableEq, Repr

/-- A peer on the link (R347 to R350, R364): on a queen a forager by its node, on a forager its queen as node 0.
`state` is the STATE code of R364. -/
structure Peer where
  state    : Nat := 0
  port     : Nat := 0xFF
  hops     : Nat := 0
  align    : Nat := 0
  theta    : Int := 0
  serial   : List Byte := List.replicate 16 0
  /-- the public key its certificate shows, and what its PROOF signs (R346) -/
  pub      : List Byte := []
  proofHash : List Byte := []
  challengeAt : Nat := 0
  keyDown  : List Byte := []
  keyUp    : List Byte := []
  oemHash  : List Byte := []
  txCounter : Nat := 0
  lastRx   : Nat := 0
  joinAt   : Option Nat := none
  lostDue  : Bool := false
  /-- it was joined and is lost (Table 01-9) -/
  wasLost  : Bool := false
  rootWord : BitVec 32 := 0
  deriving DecidableEq, Repr

/-- A link port (Table 11-5). -/
structure Port where
  up        : Bool := false
  amplitude : Nat := 0
  upstream  : Bool := false
  relayAt   : Option Nat := none
  refused   : Bool := false
  conflict  : Bool := false
  sqiLow    : Bool := false
  neighbour : Bool := false
  deriving DecidableEq, Repr

/-- A frame the module sends on a link port (R341, Tables 11-2 and 11-3), with its body before encryption. `peer` names
the keys of a protected frame. -/
structure Frame where
  port : Nat
  broadcast : Bool
  type : Nat
  node : Nat
  up   : Bool
  more : Bool
  peer : Option Nat
  msg  : Nat
  index : Nat
  counter : Nat
  body : List Byte
  deriving DecidableEq, Repr

/-- The Xista link (R340 to R364). `sent` is the model's own log of frames handed to the ports. -/
structure Link where
  ports     : List Port := [{}, {}]
  peers     : Tab Peer := []
  /-- own node number: 0 queen or standalone -/
  nodeId    : Nat := 0
  joined    : Bool := false
  offset    : Int := 0
  goodSync  : Nat := 0
  badSync   : Nat := 0
  failSync  : Nat := 0
  /-- crystal cycles to be added to a tick still to come, and those of the running tick (R352) -/
  lengthen  : Option Nat := none
  thisLong  : Nat := 0
  /-- the transmit stamp of an exchange under way (R350) -/
  syncSent  : Option Int := none
  subscribed : List Nat := []
  subFrom   : Nat := 0
  subNext   : List Nat := []
  /-- subscribed cells whose entries wait (R353) -/
  sendQueue : List Nat := []
  /-- queen: entries that wait for their boundary (R354), and the references subscribed to -/
  remote    : List RemoteEntry := []
  wanted    : List Nat := []
  authFailures : Nat := 0
  lateUpdates : Nat := 0
  discards  : Nat := 0
  losses    : Nat := 0
  /-- forager: the last reply kept per host session ID (R358) -/
  replies   : List (BitVec 16 × BitVec 16 × List Byte) := []
  /-- ephemeral key, nonce and body of the last HELLO (R346) -/
  ephKey    : Nat := 0
  nonceF    : List Byte := []
  helloBody : List Byte := []
  feedDue   : Bool := false
  msg       : Nat := 0
  sent      : List Frame := []
  deriving DecidableEq, Repr

/-- A boot journal record (Table 14-11). -/
structure Journal where
  startCount : Nat := 0
  tick       : Nat := 0
  cause      : Nat := 0
  close      : Nat := 0
  outcome    : List Nat := List.replicate 13 0
  pagesRetired : Nat := 0
  banksOut   : BitVec 16 := 0
  fanOut     : BitVec 8 := 0
  linkOut    : BitVec 8 := 0
  combStored : BitVec 64 := 0
  cfgLoaded  : Nat := 0
  fwSlot     : Nat := 0
  power      : Nat := 0
  deriving DecidableEq, Repr

/-- Start-up, marks and what retained RAM keeps (R423, R437 to R440). -/
structure Boot where
  journals : List Journal := [{}, {}]
  hold     : Bool := false
  marksSlot : List Nat := []
  marksPages : List Nat := []
  marksGens : List Nat := []
  marksBanks : List Nat := []
  marksFans : List Nat := []
  marksLinks : List Nat := []
  marksCombs : List Nat := []
  retry    : BitVec 8 := 0
  /-- IDs of the sessions open when the logic domain stopped (R63) -/
  sessionsOpen : List (BitVec 16) := []
  /-- CLOSE of the run under way or just ended (Table 14-11) -/
  closed   : Nat := 1
  /-- the cause of the start that is to come (R47, R48, R435, R461) -/
  startDue : Option Nat := none
  deriving DecidableEq, Repr

/-- The housekeeper (R427 to R435). `history`: readings of the last 120 rounds, newest first. -/
structure Hk where
  rounds   : Nat := 0
  sites    : List (Option F32) := List.replicate 6 none
  history  : List (List (Option F32)) := []
  excluded : List Bool := List.replicate 6 false
  devRun   : List Nat := List.replicate 6 0
  backRun  : List Nat := List.replicate 6 0
  coolRun  : List Nat := List.replicate 6 0
  sensorFault : Bool := false
  theta    : F32 := 0
  rho      : F32 := 0
  rates    : List F32 := List.replicate 6 0
  /-- none before the first round of the module's life -/
  maxLife  : Option F32 := none
  rateWarn : Bool := false
  throttling : Bool := false
  shutdownDue : Bool := false
  shutdown : Bool := false
  setRun   : List Nat := [0, 0, 0]
  clearRun : List Nat := [0, 0, 0]
  throttle : F32 := 0x3F800000#32
  /-- the factor as this tick's base refresh frames carry it (R432) -/
  sent     : F32 := 0x3F800000#32
  crystalFail : Bool := false
  vinLow   : Bool := false
  vinHigh  : Bool := false
  vin      : F32 := 0
  vfld     : List F32 := List.replicate 16 0
  vfan     : F32 := 0
  fresh    : Bool := false
  deriving DecidableEq, Repr

/-- The fan domain (R322 to R324, R331). -/
structure FanDomain where
  powered  : Bool := false
  uvlo     : Bool := true
  low      : Bool := true
  millivolts : Nat := 0
  guardTripped : Bool := false
  guardArmed : Bool := false
  goodUp   : Nat := 0
  sawUp    : Bool := false
  seqDown  : BitVec 16 := 0
  seqNext  : BitVec 16 := 0
  stretched : Bool := false
  /-- the throttle factor last received (R432) -/
  throttle : F32 := 0x3F800000#32
  driven   : List F32 := List.replicate 8 0
  /-- the return from the UVLO in which supervision began, and the first clearing of the low flag, are still to come -/
  quietUvlo : Bool := false
  quietLow  : Bool := false
  /-- FANn_PWR on by the last refreshed drive (R330) -/
  supplyOn : List Bool := List.replicate 8 false
  supplyShort : List Bool := List.replicate 8 false
  deriving DecidableEq, Repr

/-- A command whose reply is still to be sent: it waits for a forager's REPLY, or behind one that does (R62, R356, R358). -/
structure Held where
  session  : BitVec 16
  seq      : BitVec 16
  opcode   : BitVec 16
  /-- the key of the reply's tag, when the command carried AUTH -/
  key      : Option (List Byte) := none
  /-- the node that is to answer, and the last tick of the wait -/
  node     : Nat := 0
  deadline : Nat := 0
  reply    : Option Reply := none
  deriving DecidableEq, Repr

/-- The host interface (R46 to R62, R78, R83). `sent` is the model's own log of replies handed to the host;
it is no register of the module. -/
structure HostIf where
  uart     : Bool := false
  vioOk    : Bool := true
  alive    : Bool := true
  resetHeld : Bool := false
  replies  : List Reply := []
  sent     : List Reply := []
  baud     : Nat := 115200
  baudAt   : Option Nat := none
  /-- the rate that applies once the reply to SET_BAUD has been sent (R54) -/
  baudNext : Option Nat := none
  /-- the bytes of a UART packet under way, from its sync bytes (R55) -/
  rx       : List Byte := []
  /-- the bytes that the module put on HOST_MISO in the last SPI transaction of a row SPI_READ: the model's own log -/
  miso     : List Byte := []
  overrun  : Nat := 0
  framing  : Nat := 0
  crcErr   : Nat := 0
  sessions : List Session := []
  authFails : Nat := 0
  barUntil : Option Nat := none
  cause    : BitVec 32 := 0x00000C00#32
  events   : List Event := []
  lost     : Nat := 0
  overflowed : Bool := false
  /-- commands whose replies are still to be sent, in order of acceptance: from the first that waits for a forager (R51,
  R62, R356) -/
  line     : List Held := []
  deriving DecidableEq, Repr

/-- The smoker (R84 to R87). -/
structure Smoker where
  last   : Nat := 0
  /-- the timeout that runs from `last` has passed: it calms no second time (R85) -/
  spent  : Bool := false
  calmed : Bool := false
  held   : Bool := false
  /-- the boundary at which the module calms, decided at the end of the tick before it (R87) -/
  due    : Option Nat := none
  deriving DecidableEq, Repr

/-- The state of the module. -/
structure State where
  /-- commands that wait, first in first out -/
  pending  : List Instr
  tick     : Nat
  /-- last checkpoint in flash: tick, and wall time less tick (R89, R375) -/
  checkpoint : Nat × Int
  fineValid : Bool
  wallDiff : Int
  wallStale : Bool
  vinOn    : Bool
  power    : Power
  id       : Identity
  host     : HostIf
  smoker   : Smoker
  sched    : List Sched
  jobs     : List Job
  gens     : List Generation
  topNumber : Nat
  activeGen : Nat
  awaiting : Option Awaiting
  pendGen  : Option Pending
  importBuf : List Byte
  /-- evaluation order (R40) -/
  order    : List Nat
  /-- committed at the end of the last tick; after this tick's boundary; working (R102) -/
  prev     : Plant
  base     : Plant
  work     : Plant
  evaluated : Bool
  committed : Bool
  /-- the tick whose work is open: it trails `tick` under lag (R96) -/
  workTick : Nat
  /-- field inputs by the tick they belong to, kept until that work commits (R94, R103) -/
  inbufs   : Tab InBuf
  /-- the last tick whose input deadline has passed (R96) -/
  deadlineAt : Nat
  /-- units whose committed state showed an uncorrectable error in this tick: not evaluated (R105) -/
  skip     : List Nat
  banks    : Tab Bank
  fieldChans : Tab FieldChan
  fprobes  : Tab FieldProbe
  fcombs   : Tab FieldComb
  fanDom   : FanDomain
  recorder : RecStore
  inrec    : InRec
  sram     : Sram
  upd      : Update
  link     : Link
  boot     : Boot
  hk       : Hk
  /-- counter of free values drawn, and its value when the evaluation of the tick of work began, so that a redo draws the
  same ones: the model's own fields, no registers of the module -/
  draws    : Nat
  drawsAt  : Nat
  deriving DecidableEq, Repr

/-! ## Right after reset -/

/-- Units and comb of the empty configuration as its units are set up (R376, R423): the root hive and the housekeeping
unit run, no cell has been written. -/
def Plant.first : Plant :=
  { units := [(0, { st := .active }), (983, { st := .active })]
    cells := [], running := [], chans := [], loops := [], profs := [], churns := [], probes := [], combs := [], progs := []
    chains := [], obs := [], fans := [], bins := [], recAcc := {} }

/-- What is set at manufacture, of an SG1128-W. The serial number, the MAC addresses, keys and certificates are those of one
chip and nowhere stated: zeros and empty (DESIGN CHOICE, log entry 2). -/
def Identity.first : Identity :=
  { orderingCode := [0x53#8, 0x47#8, 0x31#8, 0x31#8, 0x32#8, 0x38#8, 0x2d#8, 0x57#8]
    sg1064 := false, gradeX := false
    serial := List.replicate 16 0
    macs := List.replicate 2 (List.replicate 6 0)
    devicePub := List.replicate 64 0
    deviceCert := []
    rootPub := List.replicate 64 0
    clHighest := 1, formatLevel := 1, oemKey := none, instCert := none, locked := false }

/-- A bank that has come into service with its supply in range (R131, R169). -/
def Bank.first : Bank :=
  { state := .inService, guardTime := 100, uvlo := false, vfldLow := false, engine := 1, vfld := 24000, vfldMin := 24000 }

/-- The boot journal's record of the first start (Table 14-11). -/
def Journal.first : Journal :=
  { startCount := 1, close := 1, outcome := [0, 0, 0, 0, 0, 0, 0, 2, 0, 0, 0, 0, 0], cfgLoaded := 1, power := 1 }

/-- The module right after its first power-on start, which found nothing to object to: WATCH (R423), generation 1, the
empty configuration (R376), the cause register at its reset value with the events BOOT and INTERFACE_READY in the queue
(R83, R437). Where the spec gives no value, log entry 2 names it. -/
def State.reset : State :=
  { pending := []
    tick := 0, checkpoint := (0, 0), fineValid := true, wallDiff := 0, wallStale := true
    vinOn := true, power := .watch
    id := Identity.first
    host := { events := [⟨0, 10, 0xFFFF, 0xFF00, 0⟩, ⟨0, 11, 0xFFFF, 0, 0⟩] }
    smoker := {}
    sched := [], jobs := []
    gens := [⟨1, 0, .active, 0, 1, 1, 0, 0, [], none⟩]
    topNumber := 1, activeGen := 1, awaiting := none, pendGen := none, importBuf := []
    order := [0, 983]
    prev := Plant.first, base := Plant.first, work := Plant.first
    evaluated := true, committed := true, workTick := 0
    inbufs := [], deadlineAt := 0, skip := []
    banks := (List.range 16).map (fun b => (b, Bank.first))
    fieldChans := [], fprobes := [], fcombs := []
    fanDom := { uvlo := false, low := false }
    recorder := {}, inrec := {}, sram := {}, upd := {}, link := {}
    boot := { journals := [Journal.first, {}] }
    hk := {}
    draws := 0, drawsAt := 0 }

end Sys2Proof.Machine
end

