-- ==== Sys2Proof/Machine/Tab.lean ====
section
/-! DEFINITION. Sparse tables in one canonical form: keys strictly rising, and no entry equal to the value an
unlisted key reads as. Equal tables are equal lists. -/

namespace Sys2Proof.Machine

/-- What key `k` reads as; `d` is what an unlisted key reads as. -/
def Tab.get {α : Type} (d : α) : Tab α → Nat → α
  | [], _ => d
  | (k, v) :: t, j => if j = k then v else Tab.get d t j

/-- The table without key `j`. -/
def Tab.erase {α : Type} : Tab α → Nat → Tab α
  | [], _ => []
  | (k, v) :: t, j => if j = k then Tab.erase t j else (k, v) :: Tab.erase t j

/-- Key `j` placed at its position with value `v`, default or not. -/
def Tab.insert {α : Type} : Tab α → Nat → α → Tab α
  | [], j, v => [(j, v)]
  | (k, w) :: t, j, v =>
    if j < k then (j, v) :: (k, w) :: t
    else if j = k then (j, v) :: t
    else (k, w) :: Tab.insert t j v

/-- Key `j` reads as `v` afterwards; a default value is not listed. -/
def Tab.put {α : Type} [DecidableEq α] (d : α) (t : Tab α) (j : Nat) (v : α) : Tab α :=
  if v = d then t.erase j else t.insert j v

/-- The canonical form. -/
def Tab.wf {α : Type} [DecidableEq α] (d : α) (t : Tab α) : Prop :=
  t.Pairwise (fun a b => a.1 < b.1) ∧ ∀ e ∈ t, e.2 ≠ d

/-- The keys that are listed. -/
def Tab.keys {α : Type} (t : Tab α) : List Nat := t.map (·.1)

end Sys2Proof.Machine
end

