-- ==== Sys2Proof/Machine/CombWire.lean ====
section
/-! DEFINITION. The wire of a comb line: cells and frames as the module sends them, read slots as it takes them, and what a
node's reply says (R240 to R245, R254). -/

namespace Sys2Proof.Machine

/-! ## Cells (R240, Table 07-2) -/

/-- What a cell carries. -/
inductive CombCell where
  | write (b : Bool)
  | readSlot | lineBreak | idle
  deriving DecidableEq, Repr

/-- Low time in fine counts. -/
def CombCell.low : CombCell → Nat
  | .write false => 3413
  | .write true => 10240
  | .readSlot => 3413
  | .lineBreak => 27306
  | .idle => 0

/-- Cells of T = 13,653 fine counts that it lasts. -/
def CombCell.length : CombCell → Nat
  | .lineBreak => 2
  | _ => 1

/-- What a node takes from a low of `low` fine counts: a break above 1.25T, else the bit that stands on the line at 0.5T
(R241). -/
def nodeHears (low : Nat) : Option Bool := if 5 * 13653 < 4 * low then none else some (decide (13653 < 2 * low))

/-! ## Frames (R243, R245, Table 07-4) -/

/-- Command byte and host fields, most significant byte first, without the check byte. -/
def CombFrame.fields : CombFrame → List Byte
  | .convert => [0xC3]
  | .read a _ => 0xA5 :: be 1 a
  | .assign id a => 0x69 :: (be 6 id ++ be 1 a)
  | .presenceNew => [0x3C]
  | .rangeQuery lo hi => 0x96 :: (be 6 lo ++ be 6 hi)
  | .claimId lo hi => 0x87 :: (be 6 lo ++ be 6 hi)

/-- What the host sends after the break. -/
def CombFrame.bytes (f : CombFrame) : List Byte := f.fields ++ [BitVec.ofNat 8 (crc8 f.fields)]

/-- Bytes of a READ reply by TYPE: STATUS, TEMP, RH and CO2 where the node has them, and the check byte. -/
def replyBytes (type : Nat) : Nat := 4 + (if type / 2 % 2 = 1 then 2 else 0) + (if type / 4 % 2 = 1 then 2 else 0)

/-- Read slots of a frame. -/
def CombFrame.slots : CombFrame → Nat
  | .convert => 0
  | .read _ type => 8 * replyBytes type
  | .assign _ _ => 1
  | .presenceNew => 1
  | .rangeQuery _ _ => 1
  | .claimId _ _ => 56

/-- The bits of bytes, most significant first. -/
def bitsMsb (l : List Byte) : List Bool := l.flatMap (fun b => [7, 6, 5, 4, 3, 2, 1, 0].map b.getLsbD)

/-- The cells of a frame on the line: break, host bits, read slots, and an idle cell after read slots. -/
def CombFrame.wire (f : CombFrame) : List CombCell :=
  .lineBreak :: ((bitsMsb f.bytes).map .write ++ List.replicate f.slots .readSlot ++ (if f.slots = 0 then [] else [.idle]))

/-- Cells that a frame lasts (Table 07-4). -/
def CombFrame.cells (f : CombFrame) : Nat := (f.wire.map CombCell.length).foldl (· + ·) 0

/-! ## Read slots (R242, Table 07-1) -/

/-- The pulse detection threshold in µA: the module's own, within Table 07-1. -/
def pulseThreshold : Nat := 3500 + Config.combPulse % 1001

/-- The multiple-node threshold in µA: the module's own, within Table 07-1. -/
def multipleThreshold : Nat := 10500 + Config.combMultiple % 1001

/-- The slot reads 1. -/
def readsOne (r : ReadSlot) : Bool := decide (r.baseUa + pulseThreshold < r.pulseUa)

/-- The slot records MULTIPLE. -/
def readsMultiple (r : ReadSlot) : Bool := decide (r.baseUa + multipleThreshold < r.pulseUa)

/-- The bytes that bits spell, most significant bit first; what is left over is dropped. -/
def bytesMsb : List Bool → List Byte
  | a :: b :: c :: d :: e :: f :: g :: h :: t =>
    BitVec.ofNat 8 ([a, b, c, d, e, f, g, h].foldl (fun n x => 2 * n + (if x then 1 else 0)) 0) :: bytesMsb t
  | _ => []

/-- What the read slots of one frame gave: the bytes of a reply, whether its check byte holds over the bytes before it,
whether any slot read 1, and whether any recorded MULTIPLE. -/
structure CombReply where
  bytes    : List Byte
  checked  : Bool
  heard    : Bool
  multiple : Bool
  deriving DecidableEq, Repr

/-- The slots of a frame taken together. -/
def combReply (slots : List ReadSlot) : CombReply :=
  let bytes := bytesMsb (slots.map readsOne)
  ⟨bytes, decide (bytes ≠ []) && ofBe (bytes.drop (bytes.length - 1)) == crc8 bytes.dropLast, slots.any readsOne,
    slots.any readsMultiple⟩

/-! ## The search of the ID space (R254) -/

/-- The frame that a running enumeration waits for. -/
inductive EnumAsk where
  | query (lo hi : Nat)
  | claim (lo hi attempt : Nat) (several : Bool)
  | assign (id : Nat)
  | finished
  | failed
  deriving DecidableEq, Repr

/-- The search: the frame asked for, the ranges that wait with the lowest first, and the IDs found with their DUPLICATE. -/
structure EnumRun where
  ask     : EnumAsk := .query 0 (2 ^ 48 - 1)
  pending : List (Nat × Nat) := []
  found   : List (Nat × Bool) := []
  deriving DecidableEq, Repr

/-- The next range that waits. -/
def EnumRun.next (e : EnumRun) : EnumRun :=
  match e.pending with
  | [] => { e with ask := .finished }
  | (lo, hi) :: t => { e with ask := .query lo hi, pending := t }

/-- A range in which several nodes answered is halved; its lower half comes first. -/
def EnumRun.halve (e : EnumRun) (lo hi : Nat) : EnumRun :=
  let mid := lo + (hi - lo) / 2
  EnumRun.next { e with pending := (lo, mid) :: (mid + 1, hi) :: e.pending }

/-- The frame that is asked for; temporary addresses in the order found. -/
def EnumRun.frame (e : EnumRun) : Option CombFrame :=
  match e.ask with
  | .query lo hi => some (.rangeQuery lo hi)
  | .claim lo hi _ _ => some (.claimId lo hi)
  | .assign id => some (.assign id e.found.length)
  | _ => none

/-- The answer to the frame asked for. -/
def EnumRun.answer (e : EnumRun) (slots : List ReadSlot) : EnumRun :=
  let r := combReply slots
  match e.ask with
  | .query lo hi =>
    if !r.heard then e.next
    else if r.multiple && decide (lo < hi) then e.halve lo hi
    else { e with ask := .claim lo hi 1 r.multiple }
  | .claim lo hi attempt several =>
    if !r.checked then { e with ask := if attempt < 3 then .claim lo hi (attempt + 1) several else .failed }
    else if r.multiple && decide (lo < hi) then e.halve lo hi
    else
      let id := ofBe (r.bytes.take 6)
      { e with ask := .assign id, found := e.found ++ [(id, several || r.multiple)] }
  | .assign id => EnumRun.next { e with found := e.found.map (fun f => if f.1 = id then (id, f.2 || r.multiple) else f) }
  | .finished => e
  | .failed => e

/-- A search over the answers that came; an answer without the slots of its frame ends it there. -/
def EnumRun.run : EnumRun → List (List ReadSlot) → EnumRun
  | e, [] => e
  | e, a :: t =>
    match e.frame with
    | some f => if a.length = f.slots then EnumRun.run (e.answer a) t else e
    | none => e

end Sys2Proof.Machine
end

