-- ==== Sys2Proof/Machine/Fp.lean ====
section
/-! DEFINITION. IEEE 754 binary32 and binary64 arithmetic, round to nearest, ties to even (R179, R267, R296), on
exact naturals: a finite value is a sign, an integer and a power of two. -/

namespace Sys2Proof.Machine

/-- A floating-point format: `p` bits of significand, exponent field of `w` bits. -/
structure FpFmt where
  p : Nat
  w : Nat
  deriving DecidableEq, Repr

/-- binary32. -/
def fmt32 : FpFmt := ⟨24, 8⟩
/-- binary64. -/
def fmt64 : FpFmt := ⟨53, 11⟩

/-- The exponent of the last place of subnormal values. -/
def fpEmin (f : FpFmt) : Int := 3 - (2 ^ (f.w - 1) : Nat) - f.p

/-- The bit pattern of positive infinity. -/
def fpInf (f : FpFmt) : Nat := (2 ^ f.w - 1) * 2 ^ (f.p - 1)

/-- The sign bit. -/
def fpSign (f : FpFmt) : Nat := 2 ^ (f.w + f.p - 1)

/-- A value read from its bit pattern. `fin neg m e` is ±m·2^e. -/
inductive Fp where
  | nan
  | inf (neg : Bool)
  | fin (neg : Bool) (m : Nat) (e : Int)
  deriving DecidableEq, Repr

/-- The value of a bit pattern. -/
def fpDecode (f : FpFmt) (n : Nat) : Fp :=
  let neg := decide (fpSign f ≤ n)
  let a := n % fpSign f
  let ex := a / 2 ^ (f.p - 1)
  let m := a % 2 ^ (f.p - 1)
  if fpInf f < a then .nan
  else if a = fpInf f then .inf neg
  else if ex = 0 then .fin neg m (fpEmin f)
  else .fin neg (m + 2 ^ (f.p - 1)) (fpEmin f + ex - 1)

/-- The quiet NaN an operation delivers; IEEE 754 leaves its sign and payload open. -/
def fpNan (f : FpFmt) : Nat :=
  fpInf f + 2 ^ (f.p - 2) + Config.nanPayload f.p % 2 ^ (f.p - 2) + (Config.nanPayload f.w % 2) * fpSign f

/-- A quotient rounded to the nearest integer, ties to even. -/
def rneDiv (num den : Nat) : Nat :=
  let q := num / den
  let r := num % den
  if 2 * r < den then q else if den < 2 * r then q + 1 else q + q % 2

/-- The pattern nearest to ±num/den (den not 0). A result beyond the range is infinity. -/
def fpRound (f : FpFmt) (neg : Bool) (num den : Nat) : Nat :=
  let s := if neg then fpSign f else 0
  if num = 0 then s
  else
    let e0 : Int := (Nat.log2 num : Int) - Nat.log2 den - f.p
    let k0 := max (fpEmin f) e0
    let scaled (k : Int) : Nat := rneDiv (num * 2 ^ (-k).toNat) (den * 2 ^ k.toNat)
    let k := if 2 ^ f.p < scaled k0 then k0 + 1 else k0
    s + min (fpInf f) ((k - fpEmin f).toNat * 2 ^ (f.p - 1) + scaled k)

/-- The pattern of an exact ±m·2^e, rounded. -/
def fpOfDyadic (f : FpFmt) (neg : Bool) (m : Nat) (e : Int) : Nat :=
  fpRound f neg (m * 2 ^ e.toNat) (2 ^ (-e).toNat)

/-- The pattern of a value. -/
def fpEncode (f : FpFmt) : Fp → Nat
  | .nan => fpNan f
  | .inf neg => fpInf f + if neg then fpSign f else 0
  | .fin neg m e => fpOfDyadic f neg m e

/-- The signed integer and exponent of a finite value. -/
def fpSigned (neg : Bool) (m : Nat) : Int := if neg then -(m : Int) else m

/-- Sum: exact, then rounded; an exact zero sum of unlike signs is +0. -/
def fpAdd (f : FpFmt) : Fp → Fp → Nat
  | .nan, _ => fpNan f
  | _, .nan => fpNan f
  | .inf a, .inf b => if a = b then fpEncode f (.inf a) else fpNan f
  | .inf a, _ => fpEncode f (.inf a)
  | _, .inf b => fpEncode f (.inf b)
  | .fin a m e, .fin b n d =>
    let k := min e d
    let v := fpSigned a (m * 2 ^ (e - k).toNat) + fpSigned b (n * 2 ^ (d - k).toNat)
    if v = 0 then fpOfDyadic f (a && b) 0 0
    else fpOfDyadic f (decide (v < 0)) v.natAbs k

/-- Product. -/
def fpMul (f : FpFmt) : Fp → Fp → Nat
  | .nan, _ => fpNan f
  | _, .nan => fpNan f
  | .inf a, .inf b => fpEncode f (.inf (a ^^ b))
  | .inf a, .fin b n _ => if n = 0 then fpNan f else fpEncode f (.inf (a ^^ b))
  | .fin a m _, .inf b => if m = 0 then fpNan f else fpEncode f (.inf (a ^^ b))
  | .fin a m e, .fin b n d => fpOfDyadic f (a ^^ b) (m * n) (e + d)

/-- Quotient. -/
def fpDiv (f : FpFmt) : Fp → Fp → Nat
  | .nan, _ => fpNan f
  | _, .nan => fpNan f
  | .inf _, .inf _ => fpNan f
  | .inf a, .fin b _ _ => fpEncode f (.inf (a ^^ b))
  | .fin a _ _, .inf b => fpOfDyadic f (a ^^ b) 0 0
  | .fin a m e, .fin b n d =>
    if n = 0 then (if m = 0 then fpNan f else fpEncode f (.inf (a ^^ b)))
    else fpRound f (a ^^ b) (m * 2 ^ (e - d).toNat) (n * 2 ^ (d - e).toNat)

/-- The integer `n`-th root by bits: the largest r with r^n at most `x`, bits from `k` down. -/
def iroot (n x : Nat) : Nat → Nat → Nat
  | 0, r => r
  | k + 1, r => iroot n x k (if (r + 2 ^ k) ^ n ≤ x then r + 2 ^ k else r)

/-- The root of an exact m·2^e, rounded: an inexact root is represented by the middle of its last place. -/
def fpRootDyadic (f : FpFmt) (n : Nat) (neg : Bool) (m : Nat) (e : Int) : Nat :=
  if m = 0 then fpOfDyadic f neg 0 0
  else
    let sh : Nat := 3 * 64 * n - Nat.log2 m
    let sh' : Nat := sh + ((e - sh) % n).toNat
    let x := m * 2 ^ sh'
    let r := iroot n x 256 0
    let q := (e - sh') / (n : Int)
    if r ^ n = x then fpOfDyadic f neg r q else fpOfDyadic f neg (2 * r + 1) (q - 1)

/-- Square root. -/
def fpSqrt (f : FpFmt) : Fp → Nat
  | .nan => fpNan f
  | .inf neg => if neg then fpNan f else fpInf f
  | .fin neg m e => if neg ∧ m ≠ 0 then fpNan f else fpRootDyadic f 2 neg m e

/-- Cube root. -/
def fpCbrt (f : FpFmt) : Fp → Nat
  | .nan => fpNan f
  | .inf neg => fpEncode f (.inf neg)
  | .fin neg m e => fpRootDyadic f 3 neg m e

/-- Order of two values; `none` when one is a NaN. -/
def fpCompare : Fp → Fp → Option Ordering
  | .nan, _ => none
  | _, .nan => none
  | .inf a, .inf b => some (compare (!a) (!b))
  | .inf a, .fin _ _ _ => some (if a then .lt else .gt)
  | .fin _ _ _, .inf b => some (if b then .gt else .lt)
  | .fin a m e, .fin b n d =>
    let k := min e d
    some (compare (fpSigned a (m * 2 ^ (e - k).toNat)) (fpSigned b (n * 2 ^ (d - k).toNat)))

/-- The value as an exact integer rounded by `r` (floor, or to nearest); `none` when not finite. -/
def fpFloorInt : Fp → Option Int
  | .fin neg m e => some (fpSigned neg (m * 2 ^ e.toNat) / (2 ^ (-e).toNat : Nat))
  | _ => none

/-- The value rounded to the nearest integer, ties to even; `none` when not finite. -/
def fpRneInt : Fp → Option Int
  | .fin neg m e => some (fpSigned neg (rneDiv (m * 2 ^ e.toNat) (2 ^ (-e).toNat)))
  | _ => none

/-! Fixed point with 256 fraction bits, for functions whose exact value is irrational. -/

/-- One, in fixed point. -/
def fxOne : Nat := 2 ^ 256

/-- Product in fixed point. -/
def fxMul (a b : Int) : Int := a * b / (fxOne : Int)

/-- The odd series z + z³/3 + z⁵/5 + … , `n` more terms from index `k`, with `t` the running power. -/
def fxAtanhSeries : Nat → Int → Int → Nat → Int
  | 0, _, _, _ => 0
  | n + 1, z2, t, k => t / (2 * k + 1 : Nat) + fxAtanhSeries n z2 (fxMul t z2) (k + 1)

/-- ln of m/2^(log2 m), for m not 0, in fixed point. -/
def fxLnMant (m : Nat) : Int :=
  let one := 2 ^ Nat.log2 m
  let z : Int := (((m - one) * fxOne / (m + one) : Nat) : Int)
  2 * fxAtanhSeries 90 (fxMul z z) z 0

/-- ln 2 in fixed point. -/
def fxLn2 : Int :=
  let z : Int := ((fxOne / 3 : Nat) : Int)
  2 * fxAtanhSeries 90 (fxMul z z) z 0

/-- ln of m·2^e in fixed point (m not 0). -/
def fxLn (m : Nat) (e : Int) : Int := fxLnMant m + (e + Nat.log2 m) * fxLn2

/-- The exponential series, `n` more terms from index `k`. -/
def fxExpSeries : Nat → Int → Int → Nat → Int
  | 0, _, _, _ => 0
  | n + 1, x, t, k => t + fxExpSeries n x (fxMul t x / (k + 1 : Nat)) (k + 1)

/-- exp of a fixed-point value as (fixed-point value between 1/2 and 2, power of two). -/
def fxExp (x : Int) : Nat × Int :=
  let k := x / fxLn2
  ((fxExpSeries 80 (x - k * fxLn2) fxOne 0).toNat, k)

/-- An approximation v·2^e with at least 200 good bits, rounded to the format. A value within 2^-60 of a place of
the next finer format counts as that place: the exact values that are short have no other neighbour that near. -/
def fpRoundApprox (f : FpFmt) (neg : Bool) (v : Nat) (e : Int) : Nat :=
  let cut := Nat.log2 v - f.p
  let g := v / 2 ^ (cut - 60)
  let near := (g + 2 ^ 30) / 2 ^ 31
  if g - near * 2 ^ 31 + (near * 2 ^ 31 - g) < 2 then fpOfDyadic f neg near (e + (cut - 60 : Nat) + 31)
  else fpOfDyadic f neg v e

/-- Natural logarithm, correctly rounded (R296). -/
def fpLn (f : FpFmt) : Fp → Nat
  | .nan => fpNan f
  | .inf neg => if neg then fpNan f else fpInf f
  | .fin neg m e =>
    if m = 0 then fpEncode f (.inf true)
    else if neg then fpNan f
    else
      let v := fxLn m e
      if v = 0 then 0 else fpRoundApprox f (decide (v < 0)) v.natAbs (-256)

/-- The exponential of a fixed-point value, rounded. -/
def fpOfExp (f : FpFmt) (neg : Bool) (x : Int) : Nat :=
  let r := fxExp x
  fpRoundApprox f neg r.1 (r.2 - 256)

/-- Beyond this magnitude of the exponent every result is infinite or zero. -/
def fpExpClamp (f : FpFmt) (neg : Bool) (x : Int) : Nat :=
  let s := if neg then fpSign f else 0
  if (2000 * fxOne : Nat) < x then s + fpInf f
  else if x < -(2000 * fxOne : Nat) then s
  else fpOfExp f neg x

/-- Exponential, correctly rounded (R296). -/
def fpExp (f : FpFmt) : Fp → Nat
  | .nan => fpNan f
  | .inf neg => if neg then 0 else fpInf f
  | .fin neg m e =>
    if m = 0 then fpOfDyadic f false 1 0
    else fpExpClamp f false (fpSigned neg (m * fxOne * 2 ^ e.toNat / 2 ^ (-e).toNat))

/-- Whether ±m·2^e is an integer. -/
def fpIsInt (m : Nat) (e : Int) : Bool := m * 2 ^ e.toNat % 2 ^ (-e).toNat == 0
/-- Whether ±m·2^e is an odd integer. -/
def fpIsOdd (m : Nat) (e : Int) : Bool := fpIsInt m e && (m * 2 ^ e.toNat / 2 ^ (-e).toNat) % 2 == 1

/-- Power, correctly rounded (R296), with the special values of IEEE 754. -/
def fpPow (f : FpFmt) : Fp → Fp → Nat
  | .nan, .fin _ n _ => if n = 0 then fpOfDyadic f false 1 0 else fpNan f
  | .nan, _ => fpNan f
  | .fin a m e, .nan => if ¬ a ∧ m = 2 ^ (f.p - 1) ∧ e = 1 - f.p then fpOfDyadic f false 1 0 else fpNan f
  | .inf _, .nan => fpNan f
  | .inf a, .inf b => if b then 0 else if a then fpInf f else fpInf f
  | .inf a, .fin b n d =>
    if n = 0 then fpOfDyadic f false 1 0
    else
      let s := if a && fpIsOdd n d then fpSign f else 0
      if b then s else s + fpInf f
  | .fin _ m e, .inf b =>
    match fpCompare (.fin false m e) (.fin false 1 0) with
    | some .eq => fpOfDyadic f false 1 0
    | some .lt => if b then fpInf f else 0
    | _ => if b then 0 else fpInf f
  | .fin a m e, .fin b n d =>
    let neg := a && fpIsOdd n d
    let s := if neg then fpSign f else 0
    if n = 0 then fpOfDyadic f false 1 0
    else if m = 0 then (if b then s + fpInf f else s)
    else if a && !fpIsInt n d then fpNan f
    else if fpCompare (.fin false m e) (.fin false 1 0) = some .eq then s + fpOfDyadic f false 1 0
    else fpExpClamp f neg (fpSigned b (((fxLn m e).natAbs * n * 2 ^ d.toNat / 2 ^ (-d).toNat : Nat)) *
      (if fxLn m e < 0 then -1 else 1))

/-- The alternating series of sine (from x) and cosine (from 1): `n` more terms, next factors k + 1 and k + 2. -/
def fxTrigSeries : Nat → Int → Int → Nat → Int
  | 0, _, _, _ => 0
  | n + 1, x2, t, k => t + fxTrigSeries n x2 (-(fxMul t x2) / ((k + 1) * (k + 2) : Nat)) (k + 2)

/-- The series of the arc tangent of 1/q, `n` more terms from index `k`. -/
def fxAtanInv : Nat → Nat → Int → Nat → Int
  | 0, _, _, _ => 0
  | n + 1, q, t, k => t / (2 * k + 1 : Nat) + fxAtanInv n q (-t / ((q * q : Nat) : Int)) (k + 1)

/-- π in fixed point (Machin's formula). -/
def fxPi : Int :=
  16 * fxAtanInv 60 5 (fxOne / 5 : Nat) 0 - 4 * fxAtanInv 20 239 (fxOne / 239 : Nat) 0

/-- Sine of a finite value in fixed point, of at most 2^30 in magnitude. -/
def fxSin (x : Int) : Int :=
  let r := x - (x + fxPi) / (2 * fxPi) * (2 * fxPi)
  fxTrigSeries 50 (fxMul r r) r 1

/-- Cosine. -/
def fxCos (x : Int) : Int :=
  let r := x - (x + fxPi) / (2 * fxPi) * (2 * fxPi)
  fxTrigSeries 50 (fxMul r r) fxOne 0

/-- A function of fixed point applied to a value of the format, correctly rounded. -/
def fpOfFx (f : FpFmt) (g : Int → Int) : Fp → Nat
  | .fin neg m e =>
    let v := g (fpSigned neg (m * fxOne * 2 ^ e.toNat / 2 ^ (-e).toNat))
    if v = 0 then 0 else fpRoundApprox f (decide (v < 0)) v.natAbs (-256)
  | _ => fpNan f

/-! ## binary32 -/

/-- The value of a pattern. -/
def f32v (a : F32) : Fp := fpDecode fmt32 a.toNat
/-- A pattern as a word. -/
def f32o (n : Nat) : F32 := BitVec.ofNat 32 n

def fadd (a b : F32) : F32 := f32o (fpAdd fmt32 (f32v a) (f32v b))
/-- Negation flips the sign bit. -/
def fneg (a : F32) : F32 := a ^^^ 0x80000000#32
def fsub (a b : F32) : F32 := f32o (fpAdd fmt32 (f32v a) (f32v (fneg b)))
def fmul (a b : F32) : F32 := f32o (fpMul fmt32 (f32v a) (f32v b))
def fdiv (a b : F32) : F32 := f32o (fpDiv fmt32 (f32v a) (f32v b))
def fsqrt (a : F32) : F32 := f32o (fpSqrt fmt32 (f32v a))
def fcbrt (a : F32) : F32 := f32o (fpCbrt fmt32 (f32v a))
def fln (a : F32) : F32 := f32o (fpLn fmt32 (f32v a))
def fexp (a : F32) : F32 := f32o (fpExp fmt32 (f32v a))
def fpow (a b : F32) : F32 := f32o (fpPow fmt32 (f32v a) (f32v b))
/-- Magnitude. -/
def fabs (a : F32) : F32 := a &&& 0x7FFFFFFF#32
/-- Finite: neither infinite nor a NaN. -/
def fFinite (a : F32) : Bool := decide ((fabs a).toNat < 0x7F800000)
/-- Not a number. -/
def fNaN (a : F32) : Bool := decide (0x7F800000 < (fabs a).toNat)
def flt (a b : F32) : Bool := fpCompare (f32v a) (f32v b) == some .lt
def fle (a b : F32) : Bool := match fpCompare (f32v a) (f32v b) with | some .gt => false | none => false | _ => true
def feq (a b : F32) : Bool := fpCompare (f32v a) (f32v b) == some .eq
/-- Lower and higher of two values; equal values give the first. -/
def fmin (a b : F32) : F32 := if flt b a then b else a
def fmax (a b : F32) : F32 := if flt a b then b else a
/-- `x` limited to lo and hi. -/
def fclamp (x lo hi : F32) : F32 := fmin (fmax x lo) hi
/-- An integer, rounded (R263). -/
def fOfInt (i : Int) : F32 := f32o (fpOfDyadic fmt32 (decide (i < 0)) i.natAbs 0)
def fOfNat (n : Nat) : F32 := f32o (fpOfDyadic fmt32 false n 0)
/-- The decimal n/d, rounded, as the spec writes constants. -/
def fRat (n : Int) (d : Nat) : F32 := f32o (fpRound fmt32 (decide (n < 0)) n.natAbs d)
/-- Zero test (either sign). -/
def fZero (a : F32) : Bool := fabs a == 0#32
def fPos (a : F32) : Bool := flt 0#32 a
def fNeg? (a : F32) : Bool := flt a 0#32
/-- Sign of a value as an integer; sign(0) = 0 (R285). -/
def fsgn (a : F32) : Int := if fPos a then 1 else if fNeg? a then -1 else 0
/-- Floor as an integer (0 for a value that is not finite). -/
def ffloor (a : F32) : Int := (fpFloorInt (f32v a)).getD 0
/-- Nearest integer, ties to even. -/
def frne (a : F32) : Int := (fpRneInt (f32v a)).getD 0
def fone : F32 := 0x3F800000#32

/-! ## binary64 -/

def f64v (a : F64) : Fp := fpDecode fmt64 a.toNat
def f64o (n : Nat) : F64 := BitVec.ofNat 64 n
def dadd (a b : F64) : F64 := f64o (fpAdd fmt64 (f64v a) (f64v b))
def dneg (a : F64) : F64 := a ^^^ 0x8000000000000000#64
def dsub (a b : F64) : F64 := f64o (fpAdd fmt64 (f64v a) (f64v (dneg b)))
def dmul (a b : F64) : F64 := f64o (fpMul fmt64 (f64v a) (f64v b))
def ddiv (a b : F64) : F64 := f64o (fpDiv fmt64 (f64v a) (f64v b))
def dsqrt (a : F64) : F64 := f64o (fpSqrt fmt64 (f64v a))
def dln (a : F64) : F64 := f64o (fpLn fmt64 (f64v a))
def dexp (a : F64) : F64 := f64o (fpExp fmt64 (f64v a))
def dcbrt (a : F64) : F64 := f64o (fpCbrt fmt64 (f64v a))
def dsin (a : F64) : F64 := f64o (fpOfFx fmt64 fxSin (f64v a))
def dcos (a : F64) : F64 := f64o (fpOfFx fmt64 fxCos (f64v a))
def dOfInt (i : Int) : F64 := f64o (fpOfDyadic fmt64 (decide (i < 0)) i.natAbs 0)
def dRat (n : Int) (d : Nat) : F64 := f64o (fpRound fmt64 (decide (n < 0)) n.natAbs d)
def dabs (a : F64) : F64 := a &&& 0x7FFFFFFFFFFFFFFF#64
def dFinite (a : F64) : Bool := decide ((dabs a).toNat < 0x7FF0000000000000)
def dlt (a b : F64) : Bool := fpCompare (f64v a) (f64v b) == some .lt
def dle (a b : F64) : Bool := match fpCompare (f64v a) (f64v b) with | some .gt => false | none => false | _ => true
def deq (a b : F64) : Bool := fpCompare (f64v a) (f64v b) == some .eq
/-- Nearest integer, ties to even (0 for a value that is not finite). -/
def drne (a : F64) : Int := (fpRneInt (f64v a)).getD 0
/-- π rounded to binary64. -/
def dpi : F64 := f64o (fpRoundApprox fmt64 false fxPi.toNat (-256))
/-- binary32 widened. -/
def toF64 (a : F32) : F64 := f64o (fpEncode fmt64 (f32v a))
/-- binary64 rounded to binary32. -/
def toF32 (a : F64) : F32 := f32o (fpEncode fmt32 (f64v a))

end Sys2Proof.Machine
end

