-- ==== Sys2Proof/Machine/Params.lean ====
section
/-! DEFINITION. The parameter tables of every chapter, row by row: ID, type,
own range (R474), access, when it takes effect, instances
and default. -/

namespace Sys2Proof.Machine

/-- Parameter types (R443). A block has a size in bytes. -/
inductive ParamTy where
  | u8 | u16 | u32 | u64 | i32 | f32
  | block (size : Nat)
  deriving DecidableEq, Repr

/-- The own range of a value (R474): what the row says without reference to another parameter. Floating-point bounds
are binary32 patterns. -/
inductive ParamRange where
  | any
  | nat (lo hi : Nat)
  | orZero (lo hi : Nat)
  | orNone (lo hi : Nat)
  | oneOf (l : List Nat)
  | mult (lo hi step : Nat)
  | pow2 (lo hi : Nat)
  /-- a channel of the fitted part: even ones only, or with 0xFF for none -/
  | channel (even none : Bool)
  /-- pages of a region (Table 03-3) -/
  | region
  | finite
  | finiteNonzero
  | positive
  | zeroOrPos
  | real (lo hi : F32)
  | realOrZero (lo hi : F32)
  deriving DecidableEq, Repr

/-- Access: read-write, read-only, write-only. -/
inductive Access where
  | rw | ro | wo
  deriving DecidableEq, Repr

/-- When a write takes effect. -/
inductive Effect where
  | tick | commit | start | never
  deriving DecidableEq, Repr

/-- What an instance index counts (R442). -/
inductive Inst where
  | single | port | slot | hive | hive1 | hostCell | region | bank | channel | evenChannel | probe | crop | line
  | loop | coef | profile | churn | observer | program | chain | bin | fan | fan4 | site | journal
  deriving DecidableEq, Repr

/-- One row of a parameter table. `dflt` holds the default of a scalar in its 8 bytes. -/
structure ParamInfo where
  id    : Nat
  ty    : ParamTy
  range : ParamRange
  acc   : Access
  eff   : Effect
  inst  : Inst
  dflt  : Nat
  deriving DecidableEq, Repr

abbrev P.ORDERING_CODE : Nat := 0x0001
abbrev P.PART_CODE : Nat := 0x0002
abbrev P.TEMP_GRADE : Nat := 0x0003
abbrev P.CL_HIGHEST : Nat := 0x0004
abbrev P.LINK_MAC : Nat := 0x0005
abbrev P.HOST_IRQ_MASK : Nat := 0x0010
abbrev P.SMOKER_TIMEOUT : Nat := 0x0011
abbrev P.RX_OVERRUN_COUNT : Nat := 0x0012
abbrev P.FRAMING_ERROR_COUNT : Nat := 0x0013
abbrev P.CRC_ERROR_COUNT : Nat := 0x0014
abbrev P.SESSIONS_OPEN : Nat := 0x0015
abbrev P.SCHEDULE_USED : Nat := 0x0016
abbrev P.EVENT_QUEUE_LEVEL : Nat := 0x0017
abbrev P.UNIT_STATUS_WORD : Nat := 0x0100
abbrev P.UNIT_HEADER : Nat := 0x0101
abbrev P.UNIT_EVAL_INDEX : Nat := 0x0102
abbrev P.HIVE_FACE_KIND : Nat := 0x0103
abbrev P.HIVE_FACE_BINDINGS : Nat := 0x0104
abbrev P.CELL_HOST : Nat := 0x0110
abbrev P.CELL_HOST_TYPE : Nat := 0x0111
abbrev P.CELL_FRESH : Nat := 0x0112
abbrev P.COMPAT_LEVEL : Nat := 0x0300
abbrev P.REGION_PAGES : Nat := 0x0310
abbrev P.PAGES_FREE : Nat := 0x0311
abbrev P.PAGES_RETIRED : Nat := 0x0312
abbrev P.ECC_CORRECTED : Nat := 0x0313
abbrev P.REDO_COUNT : Nat := 0x0314
abbrev P.TICK_LAG_MAX : Nat := 0x0315
abbrev P.SUBST_RULE : Nat := 0x0320
abbrev P.SUBST_LIMIT : Nat := 0x0321
abbrev P.SUBST_COUNT : Nat := 0x0322
abbrev P.INREC_SCOPE : Nat := 0x0330
abbrev P.INREC_MODE : Nat := 0x0331
abbrev P.INREC_SEGMENT_TICKS : Nat := 0x0332
abbrev P.INREC_BYTES_USED : Nat := 0x0333
abbrev P.BANK_STATE : Nat := 0x0400
abbrev P.GUARD_TIME : Nat := 0x0401
abbrev P.VFLD_MONITOR : Nat := 0x0402
abbrev P.VFLD_LATCH : Nat := 0x0403
abbrev P.FIELD_FAULT_BANKS : Nat := 0x0404
abbrev P.CH_MODE : Nat := 0x0410
abbrev P.CH_START_MODE : Nat := 0x0411
abbrev P.SAFE_STATE : Nat := 0x0412
abbrev P.DI_TYPE : Nat := 0x0413
abbrev P.DI_INVERT : Nat := 0x0414
abbrev P.DEBOUNCE : Nat := 0x0415
abbrev P.STAMP_EN : Nat := 0x0416
abbrev P.STUCK_LIMIT : Nat := 0x0417
abbrev P.CHATTER_MAX : Nat := 0x0418
abbrev P.CHATTER_ACTION : Nat := 0x0419
abbrev P.COUNT_EDGE : Nat := 0x041A
abbrev P.COUNT_FUNC : Nat := 0x041B
abbrev P.COUNT_PPR : Nat := 0x041C
abbrev P.COUNT_GATE : Nat := 0x041D
abbrev P.COUNT_ZERO_TIMEOUT : Nat := 0x041E
abbrev P.AUX_CELL : Nat := 0x041F
abbrev P.OUT_SRC : Nat := 0x0420
abbrev P.OUT_SRC_BIT : Nat := 0x0421
abbrev P.SRC_LOSS_ACTION : Nat := 0x0422
abbrev P.DO_PAIR : Nat := 0x0423
abbrev P.OPEN_LOAD_EN : Nat := 0x0424
abbrev P.STAMP_FIFO_LEVEL : Nat := 0x0430
abbrev P.AI_RATE : Nat := 0x0500
abbrev P.MAINS_FILTER : Nat := 0x0501
abbrev P.AI_RANGE : Nat := 0x0502
abbrev P.RANGE_PATH : Nat := 0x0503
abbrev P.MATCH_LIMIT : Nat := 0x0504
abbrev P.AI_NE43 : Nat := 0x0505
abbrev P.AI_IN_LO : Nat := 0x0506
abbrev P.AI_IN_HI : Nat := 0x0507
abbrev P.AI_EU_LO : Nat := 0x0508
abbrev P.AI_EU_HI : Nat := 0x0509
abbrev P.RES_ELEMENT : Nat := 0x0510
abbrev P.RES_WIRING : Nat := 0x0511
abbrev P.RES_SENSE_1 : Nat := 0x0512
abbrev P.RES_SENSE_2 : Nat := 0x0513
abbrev P.EXC_CURRENT : Nat := 0x0514
abbrev P.EXC_SETTLE : Nat := 0x0515
abbrev P.CHOP_DISCARD : Nat := 0x0516
abbrev P.RES_LEAD_OHM : Nat := 0x0517
abbrev P.RES_LEAD_MAX : Nat := 0x0518
abbrev P.RES_R0 : Nat := 0x0519
abbrev P.CVD_A : Nat := 0x051A
abbrev P.CVD_B : Nat := 0x051B
abbrev P.CVD_C : Nat := 0x051C
abbrev P.NTC_A : Nat := 0x051D
abbrev P.NTC_B : Nat := 0x051E
abbrev P.NTC_C : Nat := 0x051F
abbrev P.RETX_SRC_LO : Nat := 0x0520
abbrev P.RETX_SRC_HI : Nat := 0x0521
abbrev P.RETX_OUT_LO : Nat := 0x0522
abbrev P.RETX_OUT_HI : Nat := 0x0523
abbrev P.AO_NE43 : Nat := 0x0524
abbrev P.AO_SAFE_VALUE : Nat := 0x0525
abbrev P.DP_FUNC : Nat := 0x0526
abbrev P.DP_FREQ : Nat := 0x0527
abbrev P.DP_DUTY : Nat := 0x0528
abbrev P.DP_PULLDOWN : Nat := 0x0529
abbrev P.BANK_LOAD_CLASS : Nat := 0x0530
abbrev P.BANK_LOAD_CURRENT : Nat := 0x0531
abbrev P.CAL_TABLE : Nat := 0x0532
abbrev P.PROBE_CHANNEL : Nat := 0x0600
abbrev P.PROBE_SLOT : Nat := 0x0601
abbrev P.PROBE_PERIOD : Nat := 0x0602
abbrev P.PROBE_START_MODE : Nat := 0x0603
abbrev P.DIEL_AMPLITUDE : Nat := 0x0604
abbrev P.PROBE_PLAN : Nat := 0x0605
abbrev P.PROBE_REF_POINT : Nat := 0x0606
abbrev P.PROBE_CROP : Nat := 0x0607
abbrev P.TEMP_CELL : Nat := 0x0608
abbrev P.DENS_CELL : Nat := 0x0609
abbrev P.MOIST_CELL : Nat := 0x060A
abbrev P.EPS_CELL : Nat := 0x060B
abbrev P.LOSS_CELL : Nat := 0x060C
abbrev P.MOIST_FILTER : Nat := 0x060D
abbrev P.PROBE_SPECTRUM : Nat := 0x060E
abbrev P.PROBE_CAL_TABLE : Nat := 0x060F
abbrev P.CROP_TABLE : Nat := 0x0610
abbrev P.ENGINE_STATE : Nat := 0x0611
abbrev P.COMB_CHANNEL : Nat := 0x0700
abbrev P.COMB_START_MODE : Nat := 0x0701
abbrev P.COMB_PERIOD : Nat := 0x0702
abbrev P.COMB_PHASE : Nat := 0x0703
abbrev P.COMB_MISS_LIMIT : Nat := 0x0704
abbrev P.COMB_FRESH : Nat := 0x0705
abbrev P.COMB_SLOTS : Nat := 0x0706
abbrev P.CELL_TEMP_BASE : Nat := 0x0707
abbrev P.CELL_RH_BASE : Nat := 0x0708
abbrev P.CELL_CO2_BASE : Nat := 0x0709
abbrev P.COMB_NODEMAP : Nat := 0x070A
abbrev P.COMB_LAST_ROUND : Nat := 0x070B
abbrev P.COMB_LINE_STATE : Nat := 0x070C
abbrev P.COMB_ROUNDS_MISSED : Nat := 0x070D
abbrev P.LOOP_K : Nat := 0x0800
abbrev P.LOOP_PHASE : Nat := 0x0801
abbrev P.LOOP_START_MODE : Nat := 0x0802
abbrev P.LOOP_ACTION : Nat := 0x0803
abbrev P.PV_CELL : Nat := 0x0804
abbrev P.SP_MODE : Nat := 0x0805
abbrev P.SP : Nat := 0x0806
abbrev P.SP_CELL : Nat := 0x0807
abbrev P.RATIO : Nat := 0x0808
abbrev P.RATIO_BIAS : Nat := 0x0809
abbrev P.SP_LO : Nat := 0x080A
abbrev P.SP_HI : Nat := 0x080B
abbrev P.SP_TRACK : Nat := 0x080C
abbrev P.BETA : Nat := 0x080D
abbrev P.GAIN_SET : Nat := 0x080E
abbrev P.KP : Nat := 0x0810
abbrev P.TI : Nat := 0x0811
abbrev P.TD : Nat := 0x0812
abbrev P.TF : Nat := 0x0813
abbrev P.OUT_LO : Nat := 0x0814
abbrev P.OUT_HI : Nat := 0x0815
abbrev P.OUT_RATE : Nat := 0x0816
abbrev P.FF1_CELL : Nat := 0x0817
abbrev P.FF1_GAIN : Nat := 0x0818
abbrev P.FF2_CELL : Nat := 0x0819
abbrev P.FF2_GAIN : Nat := 0x081A
abbrev P.FF_BIAS : Nat := 0x081B
abbrev P.FF_LOSS : Nat := 0x081C
abbrev P.TRACK_CELL : Nat := 0x081D
abbrev P.TRACK_OUT : Nat := 0x081E
abbrev P.OUT_CELL : Nat := 0x0820
abbrev P.ERR_CELL : Nat := 0x0821
abbrev P.SPE_CELL : Nat := 0x0822
abbrev P.LOSS_ACTION : Nat := 0x0823
abbrev P.LOSS_OUTPUT : Nat := 0x0824
abbrev P.LOSS_FAULT_STEPS : Nat := 0x0825
abbrev P.SAFE_MODE : Nat := 0x0826
abbrev P.SAFE_OUTPUT : Nat := 0x0827
abbrev P.STOP_MODE : Nat := 0x0828
abbrev P.STOP_OUTPUT : Nat := 0x0829
abbrev P.STOP_RATE : Nat := 0x082A
abbrev P.LOOP_STATUS : Nat := 0x082B
abbrev P.LOOP_INTEGRATOR : Nat := 0x082C
abbrev P.MANUAL_VALUE : Nat := 0x082D
abbrev P.PROF_K : Nat := 0x0840
abbrev P.PROF_PHASE : Nat := 0x0841
abbrev P.PROF_START_MODE : Nat := 0x0842
abbrev P.PROF_TARGET : Nat := 0x0843
abbrev P.PROF_TARGET_CELL : Nat := 0x0844
abbrev P.PROF_OUT_CELL : Nat := 0x0845
abbrev P.PROF_VEL_CELL : Nat := 0x0846
abbrev P.PROF_VMAX : Nat := 0x0847
abbrev P.PROF_AMAX : Nat := 0x0848
abbrev P.PROF_JMAX : Nat := 0x0849
abbrev P.PROF_TOL : Nat := 0x084A
abbrev P.PROF_INIT : Nat := 0x084B
abbrev P.PROF_INIT_CELL : Nat := 0x084C
abbrev P.PROF_LOSS : Nat := 0x084D
abbrev P.PROF_LOSS_STEPS : Nat := 0x084E
abbrev P.PROF_STATUS : Nat := 0x084F
abbrev P.PROF_MOTION : Nat := 0x0850
abbrev P.CHURN_LOOP : Nat := 0x0860
abbrev P.CHURN_START_MODE : Nat := 0x0861
abbrev P.CHURN_PHASE_MODE : Nat := 0x0862
abbrev P.CHURN_PHASE_CELL : Nat := 0x0863
abbrev P.CHURN_CYCLE : Nat := 0x0864
abbrev P.CHURN_EPOCH : Nat := 0x0865
abbrev P.CHURN_BINS : Nat := 0x0866
abbrev P.CHURN_LEAD : Nat := 0x0867
abbrev P.CHURN_GAIN : Nat := 0x0868
abbrev P.CHURN_FORGET : Nat := 0x0869
abbrev P.CHURN_LIMIT : Nat := 0x086A
abbrev P.CHURN_FADE : Nat := 0x086B
abbrev P.CHURN_BAND_CELL : Nat := 0x086C
abbrev P.CHURN_BAND_ORIGIN : Nat := 0x086D
abbrev P.CHURN_BAND_WIDTH : Nat := 0x086E
abbrev P.CHURN_BAND_HYST : Nat := 0x086F
abbrev P.CHURN_OUT_CELL : Nat := 0x0870
abbrev P.CHURN_STATUS : Nat := 0x0871
abbrev P.CHURN_TABLE : Nat := 0x0872
abbrev P.CHURN_CLEAR : Nat := 0x0873
abbrev P.LHIVE_TYPE : Nat := 0x0880
abbrev P.LHIVE_SELECT : Nat := 0x0881
abbrev P.LHIVE_OUT_CELL : Nat := 0x0882
abbrev P.OBS_START_MODE : Nat := 0x0900
abbrev P.OBS_STEP : Nat := 0x0901
abbrev P.OBS_PHASE : Nat := 0x0902
abbrev P.OBS_SEGMENTS : Nat := 0x0903
abbrev P.OBS_VOLUME : Nat := 0x0904
abbrev P.OBS_CROP : Nat := 0x0905
abbrev P.OBS_INLET_M_CELL : Nat := 0x0906
abbrev P.OBS_INLET_T_CELL : Nat := 0x0907
abbrev P.OBS_DISCH_CELL : Nat := 0x0908
abbrev P.OBS_DISCH_SCALE : Nat := 0x0909
abbrev P.OBS_D_MIN : Nat := 0x090A
abbrev P.OBS_ZONES : Nat := 0x090B
abbrev P.OBS_MEAS_CELL : Nat := 0x090C
abbrev P.OBS_MEAS_DELAY : Nat := 0x090D
abbrev P.OBS_CORR_GAIN : Nat := 0x090E
abbrev P.OBS_FACTOR_LO : Nat := 0x090F
abbrev P.OBS_FACTOR_HI : Nat := 0x0910
abbrev P.OBS_TARGET : Nat := 0x0911
abbrev P.OBS_HORIZON : Nat := 0x0912
abbrev P.OBS_INIT : Nat := 0x0913
abbrev P.OBS_LOSS_STEPS : Nat := 0x0914
abbrev P.OBS_OUT_CELL : Nat := 0x0915
abbrev P.OBS_OUT_T_CELL : Nat := 0x0916
abbrev P.OBS_PRED_CELL : Nat := 0x0917
abbrev P.OBS_RATE_CELL : Nat := 0x0918
abbrev P.OBS_RES_CELL : Nat := 0x0919
abbrev P.OBS_SEG_BASE : Nat := 0x091A
abbrev P.OBS_FACTOR : Nat := 0x091B
abbrev P.OBS_STATUS : Nat := 0x091C
abbrev P.OBS_STATE : Nat := 0x091D
abbrev P.PRG_START_MODE : Nat := 0x0930
abbrev P.PRG_MODE : Nat := 0x0931
abbrev P.PRG_PHASE : Nat := 0x0932
abbrev P.PRG_TABLE : Nat := 0x0933
abbrev P.PRG_START_STEP : Nat := 0x0934
abbrev P.PRG_STOP_STEP : Nat := 0x0935
abbrev P.PRG_REPEAT : Nat := 0x0936
abbrev P.PRG_SP_BASE : Nat := 0x0937
abbrev P.PRG_SP_INIT : Nat := 0x0938
abbrev P.PRG_STEP_CELL : Nat := 0x0939
abbrev P.PRG_FAULT_STOP : Nat := 0x093A
abbrev P.PRG_STRICT : Nat := 0x093B
abbrev P.PRG_LOSS_TIME : Nat := 0x093C
abbrev P.PRG_GOTO : Nat := 0x093D
abbrev P.PRG_STATUS : Nat := 0x093E
abbrev P.PRG_BATCH_COUNT : Nat := 0x093F
abbrev P.CHAIN_START_MODE : Nat := 0x0950
abbrev P.CHAIN_PHASE : Nat := 0x0951
abbrev P.CHAIN_COUNT : Nat := 0x0952
abbrev P.CHAIN_MEMBERS : Nat := 0x0953
abbrev P.CHAIN_RUN_BASE : Nat := 0x0954
abbrev P.CHAIN_STATUS_CELL : Nat := 0x0955
abbrev P.CHAIN_PERMIT_CELL : Nat := 0x0956
abbrev P.CHAIN_STATUS : Nat := 0x0957
abbrev P.BIN_START_MODE : Nat := 0x0970
abbrev P.BIN_PHASE : Nat := 0x0971
abbrev P.BIN_LINES : Nat := 0x0972
abbrev P.BIN_CROP : Nat := 0x0973
abbrev P.BIN_LEVEL_CELL : Nat := 0x0974
abbrev P.BIN_AMB_T_CELL : Nat := 0x0975
abbrev P.BIN_AMB_RH_CELL : Nat := 0x0976
abbrev P.BIN_GRAIN_M : Nat := 0x0977
abbrev P.BIN_GRAIN_M_CELL : Nat := 0x0978
abbrev P.BIN_SAMPLE : Nat := 0x0979
abbrev P.BIN_RATE_SPAN : Nat := 0x097A
abbrev P.BIN_HOT_LIMIT : Nat := 0x097B
abbrev P.BIN_RISE_LIMIT : Nat := 0x097C
abbrev P.BIN_CO2_LIMIT : Nat := 0x097D
abbrev P.BIN_AER_DT : Nat := 0x097E
abbrev P.BIN_AER_WET : Nat := 0x097F
abbrev P.BIN_AER_DRY : Nat := 0x0980
abbrev P.BIN_AER_MIN_ON : Nat := 0x0981
abbrev P.BIN_AER_MIN_OFF : Nat := 0x0982
abbrev P.BIN_HOT_FORCE : Nat := 0x0983
abbrev P.BIN_OUT_BASE : Nat := 0x0984
abbrev P.BIN_STATUS : Nat := 0x0985
abbrev P.FAN_START_MODE : Nat := 0x0A00
abbrev P.FAN_PHASE : Nat := 0x0A01
abbrev P.FAN_DRIVE : Nat := 0x0A02
abbrev P.FAN_SUPPLY : Nat := 0x0A03
abbrev P.FAN_PWM_FREQ : Nat := 0x0A04
abbrev P.FAN_PWM_OUT : Nat := 0x0A05
abbrev P.FAN_PWM_INVERT : Nat := 0x0A06
abbrev P.FAN_V_FIXED : Nat := 0x0A07
abbrev P.FAN_V_MIN : Nat := 0x0A08
abbrev P.FAN_V_MAX : Nat := 0x0A09
abbrev P.FAN_I_LIMIT : Nat := 0x0A0A
abbrev P.FAN_I_RUN_MIN : Nat := 0x0A0B
abbrev P.FAN_SRC_CELLS : Nat := 0x0A0C
abbrev P.FAN_CURVE : Nat := 0x0A0D
abbrev P.FAN_FAILSAFE : Nat := 0x0A0E
abbrev P.FAN_ENABLE_CELL : Nat := 0x0A0F
abbrev P.FAN_ENABLE_LOSS : Nat := 0x0A10
abbrev P.FAN_OFF_BELOW : Nat := 0x0A11
abbrev P.FAN_DEMAND_MIN : Nat := 0x0A12
abbrev P.FAN_RAMP : Nat := 0x0A13
abbrev P.FAN_KICK_DEMAND : Nat := 0x0A14
abbrev P.FAN_KICK_TIME : Nat := 0x0A15
abbrev P.FAN_START_TIME : Nat := 0x0A16
abbrev P.FAN_RETRY_PAUSE : Nat := 0x0A17
abbrev P.FAN_PPR : Nat := 0x0A18
abbrev P.FAN_TACH_GATE : Nat := 0x0A19
abbrev P.FAN_TACH_ZERO : Nat := 0x0A1A
abbrev P.FAN_TACH_MIN : Nat := 0x0A1B
abbrev P.FAN_FAULT_TIME : Nat := 0x0A1C
abbrev P.FAN_FAULT_ACTION : Nat := 0x0A1D
abbrev P.FAN_SAFE : Nat := 0x0A1E
abbrev P.FAN_DEMAND_CELL : Nat := 0x0A1F
abbrev P.FAN_SPEED_CELL : Nat := 0x0A20
abbrev P.FAN_CURRENT_CELL : Nat := 0x0A21
abbrev P.FAN_STATUS : Nat := 0x0A22
abbrev P.FAN_GUARD_TIME : Nat := 0x0A23
abbrev P.FAN_MANUAL_VALUE : Nat := 0x0A24
abbrev P.LINK_ROLE : Nat := 0x0B00
abbrev P.LINK_NODES : Nat := 0x0B01
abbrev P.LINK_QUEEN : Nat := 0x0B02
abbrev P.LINK_SITE_CHECK : Nat := 0x0B03
abbrev P.XISTA_LATENCY : Nat := 0x0B04
abbrev P.LINK_LOSS_TICKS : Nat := 0x0B05
abbrev P.LINK_FRESH : Nat := 0x0B06
abbrev P.LINK_REPLY_TICKS : Nat := 0x0B07
abbrev P.LINK_AMPLITUDE : Nat := 0x0B08
abbrev P.LINK_PORT_START_MODE : Nat := 0x0B09
abbrev P.LINK_PORT_STATUS : Nat := 0x0B0A
abbrev P.LINK_NODE_ID : Nat := 0x0B0B
abbrev P.LINK_OFFSET : Nat := 0x0B0C
abbrev P.LINK_AUTH_FAILURES : Nat := 0x0B0D
abbrev P.LINK_LATE_UPDATES : Nat := 0x0B0E
abbrev P.LINK_DISCARDS : Nat := 0x0B0F
abbrev P.LINK_LOSSES : Nat := 0x0B10
abbrev P.REC_START_MODE : Nat := 0x0C00
abbrev P.REC_INTERVAL : Nat := 0x0C01
abbrev P.REC_SAMPLE : Nat := 0x0C02
abbrev P.REC_HISTS : Nat := 0x0C03
abbrev P.REC_RESET_EXTREMES : Nat := 0x0C04
abbrev P.REC_STATUS_BLOCK : Nat := 0x0C05
abbrev P.REC_HEALTH : Nat := 0x0C06
abbrev P.CFG_ACTIVE : Nat := 0x0C10
abbrev P.CFG_FORMAT_LEVEL : Nat := 0x0C11
abbrev P.CFG_CONTENT_HASH : Nat := 0x0C12
abbrev P.SERIAL_NUMBER : Nat := 0x0D00
abbrev P.DEVICE_PUBKEY : Nat := 0x0D01
abbrev P.FW_VERSION : Nat := 0x0D02
abbrev P.FW_SLOT : Nat := 0x0D03
abbrev P.SEC_VERSION : Nat := 0x0D04
abbrev P.LOCK_STATE : Nat := 0x0D05
abbrev P.OEM_KEY_HASH : Nat := 0x0D06
abbrev P.UPD_STATUS_BLOCK : Nat := 0x0D07
abbrev P.PWR_STATE : Nat := 0x0E00
abbrev P.PWR_CONDITION : Nat := 0x0E01
abbrev P.THROTTLE_FACTOR : Nat := 0x0E02
abbrev P.MODULE_TEMP : Nat := 0x0E03
abbrev P.MODULE_RATE : Nat := 0x0E04
abbrev P.TS_INCLUDED : Nat := 0x0E05
abbrev P.TS_RATE : Nat := 0x0E06
abbrev P.TEMP_MAX_LIFE : Nat := 0x0E07
abbrev P.BOOT_JOURNAL : Nat := 0x0E08
abbrev P.BOOT_RETRY : Nat := 0x0E09
abbrev P.HK_ROUNDS : Nat := 0x0E0A

/-- Rows of block 0x00. -/
def paramRows00a : List ParamInfo :=
  [⟨P.ORDERING_CODE, .block 16, .any, .ro, .never, .single, 0⟩,
   ⟨P.PART_CODE, .u8, .any, .ro, .never, .single, 0⟩,
   ⟨P.TEMP_GRADE, .u8, .any, .ro, .never, .single, 0⟩,
   ⟨P.CL_HIGHEST, .u16, .any, .ro, .never, .single, 0⟩,
   ⟨P.LINK_MAC, .block 6, .any, .ro, .never, .port, 0⟩,
   ⟨P.HOST_IRQ_MASK, .u32, .nat 0 0x7FFF, .rw, .tick, .single, 0x00003FFF⟩,
   ⟨P.SMOKER_TIMEOUT, .u32, .orZero 10 600000, .rw, .commit, .single, 10000⟩,
   ⟨P.RX_OVERRUN_COUNT, .u32, .any, .ro, .never, .single, 0⟩,
   ⟨P.FRAMING_ERROR_COUNT, .u32, .any, .ro, .never, .single, 0⟩,
   ⟨P.CRC_ERROR_COUNT, .u32, .any, .ro, .never, .single, 0⟩,
   ⟨P.SESSIONS_OPEN, .u8, .any, .ro, .never, .single, 0⟩,
   ⟨P.SCHEDULE_USED, .u16, .any, .ro, .never, .single, 0⟩,
   ⟨P.EVENT_QUEUE_LEVEL, .u16, .any, .ro, .never, .single, 0⟩]

/-- Rows of block 0x01. -/
def paramRows01a : List ParamInfo :=
  [⟨P.UNIT_STATUS_WORD, .u32, .any, .ro, .never, .slot, 0x00000000⟩,
   ⟨P.UNIT_HEADER, .block 4, .any, .rw, .commit, .slot, 0⟩,
   ⟨P.UNIT_EVAL_INDEX, .u16, .any, .ro, .never, .slot, 0⟩,
   ⟨P.HIVE_FACE_KIND, .u8, .nat 2 0xE, .rw, .commit, .hive, 0x02⟩,
   ⟨P.HIVE_FACE_BINDINGS, .block 260, .any, .rw, .commit, .hive1, 0⟩,
   ⟨P.CELL_HOST, .u8, .nat 0 1, .rw, .commit, .hostCell, 0⟩,
   ⟨P.CELL_HOST_TYPE, .u8, .nat 0 4, .rw, .commit, .hostCell, 0x00⟩,
   ⟨P.CELL_FRESH, .u16, .nat 1 65535, .rw, .commit, .hostCell, 1024⟩]

/-- Rows of block 0x03. -/
def paramRows03a : List ParamInfo :=
  [⟨P.COMPAT_LEVEL, .u16, .nat 1 65535, .rw, .commit, .single, 1⟩,
   ⟨P.REGION_PAGES, .u16, .region, .rw, .commit, .region, 0⟩,
   ⟨P.PAGES_FREE, .u16, .any, .ro, .never, .single, 0⟩,
   ⟨P.PAGES_RETIRED, .u16, .any, .ro, .never, .single, 0⟩,
   ⟨P.ECC_CORRECTED, .u32, .any, .ro, .never, .single, 0⟩,
   ⟨P.REDO_COUNT, .u32, .any, .ro, .never, .single, 0⟩,
   ⟨P.TICK_LAG_MAX, .u16, .any, .ro, .never, .single, 0⟩,
   ⟨P.SUBST_RULE, .u8, .nat 0 2, .rw, .commit, .channel, 0⟩,
   ⟨P.SUBST_LIMIT, .u8, .nat 1 255, .rw, .commit, .channel, 4⟩,
   ⟨P.SUBST_COUNT, .u32, .any, .ro, .never, .channel, 0⟩,
   ⟨P.INREC_SCOPE, .u16, .any, .rw, .tick, .single, 0xFFFF⟩,
   ⟨P.INREC_MODE, .u8, .nat 0 2, .rw, .tick, .single, 0⟩,
   ⟨P.INREC_SEGMENT_TICKS, .u32, .mult 1024 1048576 1024, .rw, .tick, .single, 65536⟩,
   ⟨P.INREC_BYTES_USED, .u32, .any, .ro, .never, .single, 0⟩]

/-- Rows of block 0x04. -/
def paramRows04a : List ParamInfo :=
  [⟨P.BANK_STATE, .u8, .any, .ro, .never, .bank, 0⟩,
   ⟨P.GUARD_TIME, .u16, .nat 1 1000, .rw, .commit, .bank, 100⟩,
   ⟨P.VFLD_MONITOR, .u8, .nat 0 1, .rw, .commit, .bank, 1⟩,
   ⟨P.VFLD_LATCH, .u8, .nat 0 1, .rw, .commit, .bank, 0⟩,
   ⟨P.FIELD_FAULT_BANKS, .u16, .any, .ro, .never, .single, 0x0000⟩,
   ⟨P.CH_MODE, .u8, .nat 0 0xB, .rw, .commit, .channel, 0x00⟩,
   ⟨P.CH_START_MODE, .u8, .nat 0 1, .rw, .commit, .channel, 1⟩,
   ⟨P.SAFE_STATE, .u8, .nat 0 4, .rw, .commit, .channel, 0⟩,
   ⟨P.DI_TYPE, .u8, .oneOf [1, 3], .rw, .commit, .channel, 3⟩,
   ⟨P.DI_INVERT, .u8, .nat 0 1, .rw, .commit, .channel, 0⟩,
   ⟨P.DEBOUNCE, .u16, .nat 0 65535, .rw, .commit, .channel, 0⟩,
   ⟨P.STAMP_EN, .u8, .nat 0 3, .rw, .tick, .channel, 0⟩,
   ⟨P.STUCK_LIMIT, .u16, .nat 0 65535, .rw, .commit, .channel, 0⟩,
   ⟨P.CHATTER_MAX, .u16, .nat 0 65535, .rw, .commit, .channel, 0⟩,
   ⟨P.CHATTER_ACTION, .u8, .nat 0 1, .rw, .commit, .channel, 0⟩,
   ⟨P.COUNT_EDGE, .u8, .nat 0 2, .rw, .commit, .channel, 0⟩,
   ⟨P.COUNT_FUNC, .u8, .nat 0 3, .rw, .commit, .channel, 0⟩,
   ⟨P.COUNT_PPR, .u8, .nat 1 255, .rw, .commit, .channel, 1⟩,
   ⟨P.COUNT_GATE, .u16, .nat 1 65535, .rw, .commit, .channel, 64⟩,
   ⟨P.COUNT_ZERO_TIMEOUT, .u16, .nat 1 65535, .rw, .commit, .channel, 2048⟩]

/-- Rows of block 0x04. -/
def paramRows04b : List ParamInfo :=
  [⟨P.AUX_CELL, .u16, .orZero 256 8191, .rw, .commit, .channel, 0⟩,
   ⟨P.OUT_SRC, .u16, .nat 0 8191, .rw, .commit, .channel, 0⟩,
   ⟨P.OUT_SRC_BIT, .u8, .nat 0 63, .rw, .commit, .channel, 0⟩,
   ⟨P.SRC_LOSS_ACTION, .u8, .nat 0 1, .rw, .commit, .channel, 1⟩,
   ⟨P.DO_PAIR, .u8, .nat 0 1, .rw, .commit, .evenChannel, 0⟩,
   ⟨P.OPEN_LOAD_EN, .u8, .nat 0 1, .rw, .commit, .channel, 0⟩,
   ⟨P.STAMP_FIFO_LEVEL, .u16, .any, .ro, .never, .bank, 0⟩]

/-- Rows of block 0x05. -/
def paramRows05a : List ParamInfo :=
  [⟨P.AI_RATE, .u8, .nat 0 6, .rw, .commit, .channel, 1⟩,
   ⟨P.MAINS_FILTER, .u8, .nat 0 1, .rw, .commit, .channel, 1⟩,
   ⟨P.AI_RANGE, .u8, .nat 0 1, .rw, .commit, .channel, 0⟩,
   ⟨P.RANGE_PATH, .u8, .nat 0 2, .rw, .commit, .channel, 0⟩,
   ⟨P.MATCH_LIMIT, .f32, .real 0x3D4CCCCD 0x40A00000, .rw, .commit, .channel, 0x3F200000⟩,
   ⟨P.AI_NE43, .u8, .nat 0 1, .rw, .commit, .channel, 0⟩,
   ⟨P.AI_IN_LO, .f32, .finite, .rw, .commit, .channel, 0x00000000⟩,
   ⟨P.AI_IN_HI, .f32, .finite, .rw, .commit, .channel, 0x41200000⟩,
   ⟨P.AI_EU_LO, .f32, .finite, .rw, .commit, .channel, 0x00000000⟩,
   ⟨P.AI_EU_HI, .f32, .finite, .rw, .commit, .channel, 0x41200000⟩,
   ⟨P.RES_ELEMENT, .u8, .nat 0 5, .rw, .commit, .channel, 0⟩,
   ⟨P.RES_WIRING, .u8, .nat 2 4, .rw, .commit, .channel, 2⟩,
   ⟨P.RES_SENSE_1, .u8, .orNone 0 7, .rw, .commit, .channel, 0xFF⟩,
   ⟨P.RES_SENSE_2, .u8, .orNone 0 7, .rw, .commit, .channel, 0xFF⟩,
   ⟨P.EXC_CURRENT, .u16, .nat 320 64000, .rw, .tick, .channel, 16000⟩,
   ⟨P.EXC_SETTLE, .u8, .nat 1 16, .rw, .commit, .channel, 2⟩,
   ⟨P.CHOP_DISCARD, .u8, .nat 1 7, .rw, .commit, .channel, 3⟩,
   ⟨P.RES_LEAD_OHM, .f32, .real 0x00000000 0x42C80000, .rw, .commit, .channel, 0x00000000⟩,
   ⟨P.RES_LEAD_MAX, .f32, .real 0x3F800000 0x43FA0000, .rw, .commit, .channel, 0x42480000⟩,
   ⟨P.RES_R0, .f32, .real 0x41200000 0x461C4000, .rw, .commit, .channel, 0⟩]

/-- Rows of block 0x05. -/
def paramRows05b : List ParamInfo :=
  [⟨P.CVD_A, .f32, .finite, .rw, .commit, .channel, 0x3B801132⟩,
   ⟨P.CVD_B, .f32, .finiteNonzero, .rw, .commit, .channel, 0xB51B057F⟩,
   ⟨P.CVD_C, .f32, .finite, .rw, .commit, .channel, 0xAC932D1D⟩,
   ⟨P.NTC_A, .f32, .finite, .rw, .commit, .channel, 0x3A93FFEB⟩,
   ⟨P.NTC_B, .f32, .finite, .rw, .commit, .channel, 0x39757F73⟩,
   ⟨P.NTC_C, .f32, .finite, .rw, .commit, .channel, 0x33BC4759⟩,
   ⟨P.RETX_SRC_LO, .f32, .finite, .rw, .commit, .channel, 0x00000000⟩,
   ⟨P.RETX_SRC_HI, .f32, .finite, .rw, .commit, .channel, 0x42C80000⟩,
   ⟨P.RETX_OUT_LO, .f32, .finite, .rw, .commit, .channel, 0x40800000⟩,
   ⟨P.RETX_OUT_HI, .f32, .finite, .rw, .commit, .channel, 0x41A00000⟩,
   ⟨P.AO_NE43, .u8, .nat 0 1, .rw, .commit, .channel, 1⟩,
   ⟨P.AO_SAFE_VALUE, .f32, .finite, .rw, .commit, .channel, 0x00000000⟩,
   ⟨P.DP_FUNC, .u8, .nat 0 1, .rw, .commit, .channel, 0⟩,
   ⟨P.DP_FREQ, .f32, .real 0x3DCCCCCD 0x47C35000, .rw, .commit, .channel, 0x447A0000⟩,
   ⟨P.DP_DUTY, .f32, .real 0x00000000 0x42C80000, .rw, .commit, .channel, 0x42480000⟩,
   ⟨P.DP_PULLDOWN, .u8, .nat 0 1, .rw, .commit, .channel, 0⟩,
   ⟨P.BANK_LOAD_CLASS, .u8, .any, .ro, .never, .bank, 0⟩,
   ⟨P.BANK_LOAD_CURRENT, .f32, .any, .ro, .never, .bank, 0x00000000⟩,
   ⟨P.CAL_TABLE, .block 544, .any, .ro, .never, .channel, 0⟩]

/-- Rows of block 0x06. -/
def paramRows06a : List ParamInfo :=
  [⟨P.PROBE_CHANNEL, .u8, .channel true false, .rw, .commit, .probe, 0⟩,
   ⟨P.PROBE_SLOT, .u8, .nat 0 3, .rw, .commit, .probe, 0⟩,
   ⟨P.PROBE_PERIOD, .u8, .nat 8 16, .rw, .commit, .probe, 10⟩,
   ⟨P.PROBE_START_MODE, .u8, .nat 0 1, .rw, .commit, .probe, 1⟩,
   ⟨P.DIEL_AMPLITUDE, .u8, .nat 0 3, .rw, .commit, .probe, 2⟩,
   ⟨P.PROBE_PLAN, .block 100, .any, .rw, .commit, .probe, 0⟩,
   ⟨P.PROBE_REF_POINT, .u8, .any, .rw, .commit, .probe, 5⟩,
   ⟨P.PROBE_CROP, .u8, .orNone 0 63, .rw, .commit, .probe, 0xFF⟩,
   ⟨P.TEMP_CELL, .u16, .any, .rw, .commit, .probe, 0⟩,
   ⟨P.DENS_CELL, .u16, .any, .rw, .commit, .probe, 0⟩,
   ⟨P.MOIST_CELL, .u16, .orZero 256 8191, .rw, .commit, .probe, 0⟩,
   ⟨P.EPS_CELL, .u16, .orZero 256 8191, .rw, .commit, .probe, 0⟩,
   ⟨P.LOSS_CELL, .u16, .orZero 256 8191, .rw, .commit, .probe, 0⟩,
   ⟨P.MOIST_FILTER, .u8, .nat 0 8, .rw, .commit, .probe, 0⟩,
   ⟨P.PROBE_SPECTRUM, .block 200, .any, .ro, .never, .probe, 0⟩,
   ⟨P.PROBE_CAL_TABLE, .block 2816, .any, .ro, .never, .probe, 0⟩,
   ⟨P.CROP_TABLE, .block 160, .any, .rw, .commit, .crop, 0⟩,
   ⟨P.ENGINE_STATE, .u8, .any, .ro, .never, .bank, 0⟩]

/-- Rows of block 0x07. -/
def paramRows07a : List ParamInfo :=
  [⟨P.COMB_CHANNEL, .u8, .channel false true, .rw, .commit, .line, 0xFF⟩,
   ⟨P.COMB_START_MODE, .u8, .nat 0 1, .rw, .commit, .line, 1⟩,
   ⟨P.COMB_PERIOD, .u8, .nat 2 30, .rw, .commit, .line, 30⟩,
   ⟨P.COMB_PHASE, .u16, .any, .rw, .commit, .line, 0⟩,
   ⟨P.COMB_MISS_LIMIT, .u8, .nat 1 16, .rw, .commit, .line, 3⟩,
   ⟨P.COMB_FRESH, .u16, .nat 2048 65535, .rw, .commit, .line, 63488⟩,
   ⟨P.COMB_SLOTS, .u8, .nat 1 48, .rw, .commit, .line, 48⟩,
   ⟨P.CELL_TEMP_BASE, .u16, .nat 256 8191, .rw, .commit, .line, 0⟩,
   ⟨P.CELL_RH_BASE, .u16, .orZero 256 8191, .rw, .commit, .line, 0⟩,
   ⟨P.CELL_CO2_BASE, .u16, .orZero 256 8191, .rw, .commit, .line, 0⟩,
   ⟨P.COMB_NODEMAP, .block 580, .any, .rw, .commit, .line, 0⟩,
   ⟨P.COMB_LAST_ROUND, .block 388, .any, .ro, .never, .line, 0⟩,
   ⟨P.COMB_LINE_STATE, .u8, .any, .ro, .never, .line, 0⟩,
   ⟨P.COMB_ROUNDS_MISSED, .u32, .any, .ro, .never, .line, 0⟩]

/-- Rows of block 0x08. -/
def paramRows08a : List ParamInfo :=
  [⟨P.LOOP_K, .u8, .nat 0 16, .rw, .commit, .loop, 4⟩,
   ⟨P.LOOP_PHASE, .u16, .any, .rw, .commit, .loop, 0⟩,
   ⟨P.LOOP_START_MODE, .u8, .nat 0 3, .rw, .commit, .loop, 0⟩,
   ⟨P.LOOP_ACTION, .u8, .nat 0 1, .rw, .commit, .loop, 0⟩,
   ⟨P.PV_CELL, .u16, .any, .rw, .commit, .loop, 0⟩,
   ⟨P.SP_MODE, .u8, .nat 0 2, .rw, .commit, .loop, 0⟩,
   ⟨P.SP, .f32, .finite, .rw, .tick, .loop, 0x00000000⟩,
   ⟨P.SP_CELL, .u16, .any, .rw, .commit, .loop, 0⟩,
   ⟨P.RATIO, .f32, .finite, .rw, .tick, .loop, 0x3F800000⟩,
   ⟨P.RATIO_BIAS, .f32, .finite, .rw, .tick, .loop, 0x00000000⟩,
   ⟨P.SP_LO, .f32, .finite, .rw, .commit, .loop, 0xC9742400⟩,
   ⟨P.SP_HI, .f32, .finite, .rw, .commit, .loop, 0x49742400⟩,
   ⟨P.SP_TRACK, .u8, .nat 0 1, .rw, .commit, .loop, 0⟩,
   ⟨P.BETA, .f32, .real 0x00000000 0x3F800000, .rw, .tick, .loop, 0x3F800000⟩,
   ⟨P.GAIN_SET, .u8, .nat 0 3, .rw, .tick, .loop, 0⟩,
   ⟨P.KP, .f32, .finiteNonzero, .rw, .tick, .coef, 0x3F800000⟩,
   ⟨P.TI, .f32, .realOrZero 0x3A83126F 0x47C35000, .rw, .tick, .coef, 0x42700000⟩,
   ⟨P.TD, .f32, .real 0x00000000 0x461C4000, .rw, .tick, .coef, 0x00000000⟩,
   ⟨P.TF, .f32, .real 0x00000000 0x447A0000, .rw, .tick, .coef, 0x00000000⟩,
   ⟨P.OUT_LO, .f32, .finite, .rw, .commit, .loop, 0x00000000⟩]

/-- Rows of block 0x08. -/
def paramRows08b : List ParamInfo :=
  [⟨P.OUT_HI, .f32, .finite, .rw, .commit, .loop, 0x42C80000⟩,
   ⟨P.OUT_RATE, .f32, .zeroOrPos, .rw, .tick, .loop, 0x00000000⟩,
   ⟨P.FF1_CELL, .u16, .any, .rw, .commit, .loop, 0⟩,
   ⟨P.FF1_GAIN, .f32, .finite, .rw, .tick, .loop, 0x3F800000⟩,
   ⟨P.FF2_CELL, .u16, .any, .rw, .commit, .loop, 0⟩,
   ⟨P.FF2_GAIN, .f32, .finite, .rw, .tick, .loop, 0x3F800000⟩,
   ⟨P.FF_BIAS, .f32, .finite, .rw, .tick, .loop, 0x00000000⟩,
   ⟨P.FF_LOSS, .u8, .nat 0 3, .rw, .commit, .loop, 0x00⟩,
   ⟨P.TRACK_CELL, .u16, .any, .rw, .commit, .loop, 0⟩,
   ⟨P.TRACK_OUT, .f32, .finite, .rw, .tick, .loop, 0x00000000⟩,
   ⟨P.OUT_CELL, .u16, .nat 256 8191, .rw, .commit, .loop, 0⟩,
   ⟨P.ERR_CELL, .u16, .orZero 256 8191, .rw, .commit, .loop, 0⟩,
   ⟨P.SPE_CELL, .u16, .orZero 256 8191, .rw, .commit, .loop, 0⟩,
   ⟨P.LOSS_ACTION, .u8, .nat 0 1, .rw, .commit, .loop, 0⟩,
   ⟨P.LOSS_OUTPUT, .f32, .finite, .rw, .commit, .loop, 0x00000000⟩,
   ⟨P.LOSS_FAULT_STEPS, .u16, .nat 0 65535, .rw, .commit, .loop, 0⟩,
   ⟨P.SAFE_MODE, .u8, .nat 0 1, .rw, .commit, .loop, 0⟩,
   ⟨P.SAFE_OUTPUT, .f32, .finite, .rw, .commit, .loop, 0x00000000⟩,
   ⟨P.STOP_MODE, .u8, .nat 0 2, .rw, .commit, .loop, 0⟩,
   ⟨P.STOP_OUTPUT, .f32, .finite, .rw, .commit, .loop, 0x00000000⟩]

/-- Rows of block 0x08. -/
def paramRows08c : List ParamInfo :=
  [⟨P.STOP_RATE, .f32, .positive, .rw, .commit, .loop, 0x41200000⟩,
   ⟨P.LOOP_STATUS, .u32, .any, .ro, .never, .loop, 0x00000000⟩,
   ⟨P.LOOP_INTEGRATOR, .f32, .any, .ro, .never, .loop, 0x00000000⟩,
   ⟨P.MANUAL_VALUE, .f32, .any, .ro, .never, .loop, 0x00000000⟩,
   ⟨P.PROF_K, .u8, .nat 0 16, .rw, .commit, .profile, 6⟩,
   ⟨P.PROF_PHASE, .u16, .any, .rw, .commit, .profile, 0⟩,
   ⟨P.PROF_START_MODE, .u8, .nat 0 3, .rw, .commit, .profile, 0⟩,
   ⟨P.PROF_TARGET, .f32, .finite, .rw, .tick, .profile, 0x00000000⟩,
   ⟨P.PROF_TARGET_CELL, .u16, .any, .rw, .commit, .profile, 0⟩,
   ⟨P.PROF_OUT_CELL, .u16, .nat 256 8191, .rw, .commit, .profile, 0⟩,
   ⟨P.PROF_VEL_CELL, .u16, .orZero 256 8191, .rw, .commit, .profile, 0⟩,
   ⟨P.PROF_VMAX, .f32, .positive, .rw, .tick, .profile, 0x3F800000⟩,
   ⟨P.PROF_AMAX, .f32, .positive, .rw, .tick, .profile, 0x3F800000⟩,
   ⟨P.PROF_JMAX, .f32, .positive, .rw, .tick, .profile, 0x3F800000⟩,
   ⟨P.PROF_TOL, .f32, .zeroOrPos, .rw, .tick, .profile, 0x3C23D70A⟩,
   ⟨P.PROF_INIT, .u8, .nat 0 1, .rw, .commit, .profile, 0⟩,
   ⟨P.PROF_INIT_CELL, .u16, .any, .rw, .commit, .profile, 0⟩,
   ⟨P.PROF_LOSS, .u8, .nat 0 1, .rw, .commit, .profile, 0⟩,
   ⟨P.PROF_LOSS_STEPS, .u16, .nat 0 65535, .rw, .commit, .profile, 0⟩,
   ⟨P.PROF_STATUS, .u8, .any, .ro, .never, .profile, 0x00⟩]

/-- Rows of block 0x08. -/
def paramRows08d : List ParamInfo :=
  [⟨P.PROF_MOTION, .block 12, .any, .ro, .never, .profile, 0⟩,
   ⟨P.CHURN_LOOP, .u16, .any, .rw, .commit, .churn, 0xFFFF⟩,
   ⟨P.CHURN_START_MODE, .u8, .nat 0 1, .rw, .commit, .churn, 1⟩,
   ⟨P.CHURN_PHASE_MODE, .u8, .nat 0 1, .rw, .commit, .churn, 0⟩,
   ⟨P.CHURN_PHASE_CELL, .u16, .any, .rw, .commit, .churn, 0⟩,
   ⟨P.CHURN_CYCLE, .u32, .nat 2 16777215, .rw, .commit, .churn, 1024⟩,
   ⟨P.CHURN_EPOCH, .u32, .nat 0 4294967295, .rw, .commit, .churn, 0⟩,
   ⟨P.CHURN_BINS, .u16, .nat 1 4096, .rw, .commit, .churn, 256⟩,
   ⟨P.CHURN_LEAD, .u16, .any, .rw, .commit, .churn, 0⟩,
   ⟨P.CHURN_GAIN, .f32, .real 0x00000000 0x42C80000, .rw, .commit, .churn, 0x3F000000⟩,
   ⟨P.CHURN_FORGET, .f32, .real 0x3F666666 0x3F800000, .rw, .commit, .churn, 0x3F800000⟩,
   ⟨P.CHURN_LIMIT, .f32, .positive, .rw, .commit, .churn, 0x41200000⟩,
   ⟨P.CHURN_FADE, .u16, .nat 1 65535, .rw, .commit, .churn, 256⟩,
   ⟨P.CHURN_BAND_CELL, .u16, .any, .rw, .commit, .churn, 0⟩,
   ⟨P.CHURN_BAND_ORIGIN, .f32, .finite, .rw, .commit, .churn, 0x00000000⟩,
   ⟨P.CHURN_BAND_WIDTH, .f32, .positive, .rw, .commit, .churn, 0x3F800000⟩,
   ⟨P.CHURN_BAND_HYST, .f32, .zeroOrPos, .rw, .commit, .churn, 0x00000000⟩,
   ⟨P.CHURN_OUT_CELL, .u16, .nat 256 8191, .rw, .commit, .churn, 0⟩,
   ⟨P.CHURN_STATUS, .u32, .any, .ro, .never, .churn, 0x00000000⟩,
   ⟨P.CHURN_TABLE, .block 16388, .any, .ro, .never, .churn, 0⟩]

/-- Rows of block 0x08. -/
def paramRows08e : List ParamInfo :=
  [⟨P.CHURN_CLEAR, .u8, .nat 1 1, .wo, .tick, .churn, 0⟩,
   ⟨P.LHIVE_TYPE, .u8, .nat 0 4, .rw, .commit, .hive1, 0⟩,
   ⟨P.LHIVE_SELECT, .u8, .nat 0 1, .rw, .commit, .hive1, 0⟩,
   ⟨P.LHIVE_OUT_CELL, .u16, .nat 256 8191, .rw, .commit, .hive1, 0⟩]

/-- Rows of block 0x09. -/
def paramRows09a : List ParamInfo :=
  [⟨P.OBS_START_MODE, .u8, .nat 0 1, .rw, .commit, .observer, 1⟩,
   ⟨P.OBS_STEP, .u16, .mult 512 10240 64, .rw, .commit, .observer, 1024⟩,
   ⟨P.OBS_PHASE, .u16, .any, .rw, .commit, .observer, 0⟩,
   ⟨P.OBS_SEGMENTS, .u8, .nat 2 64, .rw, .commit, .observer, 32⟩,
   ⟨P.OBS_VOLUME, .f32, .positive, .rw, .commit, .observer, 0x41A00000⟩,
   ⟨P.OBS_CROP, .u8, .nat 0 63, .rw, .commit, .observer, 0⟩,
   ⟨P.OBS_INLET_M_CELL, .u16, .any, .rw, .commit, .observer, 0⟩,
   ⟨P.OBS_INLET_T_CELL, .u16, .any, .rw, .commit, .observer, 0⟩,
   ⟨P.OBS_DISCH_CELL, .u16, .any, .rw, .commit, .observer, 0⟩,
   ⟨P.OBS_DISCH_SCALE, .f32, .positive, .rw, .commit, .observer, 0x3F800000⟩,
   ⟨P.OBS_D_MIN, .f32, .positive, .rw, .commit, .observer, 0x3DCCCCCD⟩,
   ⟨P.OBS_ZONES, .block 64, .any, .rw, .commit, .observer, 0⟩,
   ⟨P.OBS_MEAS_CELL, .u16, .any, .rw, .commit, .observer, 0⟩,
   ⟨P.OBS_MEAS_DELAY, .u32, .any, .rw, .commit, .observer, 0⟩,
   ⟨P.OBS_CORR_GAIN, .f32, .real 0x00000000 0x3F800000, .rw, .tick, .observer, 0x3D4CCCCD⟩,
   ⟨P.OBS_FACTOR_LO, .f32, .real 0x3E800000 0x3F800000, .rw, .commit, .observer, 0x3F000000⟩,
   ⟨P.OBS_FACTOR_HI, .f32, .real 0x3F800000 0x40800000, .rw, .commit, .observer, 0x40000000⟩,
   ⟨P.OBS_TARGET, .f32, .real 0x40A00000 0x42200000, .rw, .tick, .observer, 0x41700000⟩,
   ⟨P.OBS_HORIZON, .u32, .orZero 1 86400, .rw, .tick, .observer, 0⟩,
   ⟨P.OBS_INIT, .u8, .nat 0 1, .rw, .commit, .observer, 0⟩]

/-- Rows of block 0x09. -/
def paramRows09b : List ParamInfo :=
  [⟨P.OBS_LOSS_STEPS, .u16, .nat 0 65535, .rw, .commit, .observer, 0⟩,
   ⟨P.OBS_OUT_CELL, .u16, .any, .rw, .commit, .observer, 0⟩,
   ⟨P.OBS_OUT_T_CELL, .u16, .any, .rw, .commit, .observer, 0⟩,
   ⟨P.OBS_PRED_CELL, .u16, .any, .rw, .commit, .observer, 0⟩,
   ⟨P.OBS_RATE_CELL, .u16, .any, .rw, .commit, .observer, 0⟩,
   ⟨P.OBS_RES_CELL, .u16, .any, .rw, .commit, .observer, 0⟩,
   ⟨P.OBS_SEG_BASE, .u16, .any, .rw, .commit, .observer, 0⟩,
   ⟨P.OBS_FACTOR, .f32, .any, .ro, .never, .observer, 0x3F800000⟩,
   ⟨P.OBS_STATUS, .u16, .any, .ro, .never, .observer, 0x0000⟩,
   ⟨P.OBS_STATE, .block 516, .any, .ro, .never, .observer, 0⟩,
   ⟨P.PRG_START_MODE, .u8, .nat 0 3, .rw, .commit, .program, 0⟩,
   ⟨P.PRG_MODE, .u8, .nat 0 1, .rw, .commit, .program, 0⟩,
   ⟨P.PRG_PHASE, .u8, .nat 0 63, .rw, .commit, .program, 0⟩,
   ⟨P.PRG_TABLE, .block 2048, .any, .rw, .commit, .program, 0⟩,
   ⟨P.PRG_START_STEP, .u8, .nat 0 63, .rw, .commit, .program, 0⟩,
   ⟨P.PRG_STOP_STEP, .u8, .orNone 0 63, .rw, .commit, .program, 0xFF⟩,
   ⟨P.PRG_REPEAT, .u8, .nat 0 1, .rw, .commit, .program, 0⟩,
   ⟨P.PRG_SP_BASE, .u16, .any, .rw, .commit, .program, 0⟩,
   ⟨P.PRG_SP_INIT, .block 32, .any, .rw, .commit, .program, 0⟩,
   ⟨P.PRG_STEP_CELL, .u16, .any, .rw, .commit, .program, 0⟩]

/-- Rows of block 0x09. -/
def paramRows09c : List ParamInfo :=
  [⟨P.PRG_FAULT_STOP, .block 8, .any, .rw, .commit, .program, 0⟩,
   ⟨P.PRG_STRICT, .u8, .nat 0 1, .rw, .commit, .program, 0⟩,
   ⟨P.PRG_LOSS_TIME, .u16, .nat 0 65535, .rw, .commit, .program, 0⟩,
   ⟨P.PRG_GOTO, .u8, .nat 0 63, .wo, .tick, .program, 0⟩,
   ⟨P.PRG_STATUS, .u16, .any, .ro, .never, .program, 0x0000⟩,
   ⟨P.PRG_BATCH_COUNT, .u32, .any, .ro, .never, .program, 0⟩,
   ⟨P.CHAIN_START_MODE, .u8, .nat 0 1, .rw, .commit, .chain, 0⟩,
   ⟨P.CHAIN_PHASE, .u8, .nat 0 63, .rw, .commit, .chain, 0⟩,
   ⟨P.CHAIN_COUNT, .u8, .nat 1 16, .rw, .commit, .chain, 1⟩,
   ⟨P.CHAIN_MEMBERS, .block 256, .any, .rw, .commit, .chain, 0⟩,
   ⟨P.CHAIN_RUN_BASE, .u16, .any, .rw, .commit, .chain, 0⟩,
   ⟨P.CHAIN_STATUS_CELL, .u16, .any, .rw, .commit, .chain, 0⟩,
   ⟨P.CHAIN_PERMIT_CELL, .u16, .any, .rw, .commit, .chain, 0⟩,
   ⟨P.CHAIN_STATUS, .u16, .any, .ro, .never, .chain, 0x0000⟩,
   ⟨P.BIN_START_MODE, .u8, .nat 0 1, .rw, .commit, .bin, 1⟩,
   ⟨P.BIN_PHASE, .u16, .nat 0 1023, .rw, .commit, .bin, 0⟩,
   ⟨P.BIN_LINES, .block 16, .any, .rw, .commit, .bin, 0⟩,
   ⟨P.BIN_CROP, .u8, .nat 0 63, .rw, .commit, .bin, 0⟩,
   ⟨P.BIN_LEVEL_CELL, .u16, .any, .rw, .commit, .bin, 0⟩,
   ⟨P.BIN_AMB_T_CELL, .u16, .any, .rw, .commit, .bin, 0⟩]

/-- Rows of block 0x09. -/
def paramRows09d : List ParamInfo :=
  [⟨P.BIN_AMB_RH_CELL, .u16, .any, .rw, .commit, .bin, 0⟩,
   ⟨P.BIN_GRAIN_M, .f32, .real 0x40A00000 0x42200000, .rw, .tick, .bin, 0x41600000⟩,
   ⟨P.BIN_GRAIN_M_CELL, .u16, .any, .rw, .commit, .bin, 0⟩,
   ⟨P.BIN_SAMPLE, .u32, .mult 61440 88473600 1024, .rw, .commit, .bin, 3686400⟩,
   ⟨P.BIN_RATE_SPAN, .u32, .nat 1024 0xFFFFFFFF, .rw, .commit, .bin, 22118400⟩,
   ⟨P.BIN_HOT_LIMIT, .f32, .finite, .rw, .tick, .bin, 0x420C0000⟩,
   ⟨P.BIN_RISE_LIMIT, .f32, .positive, .rw, .tick, .bin, 0x3F800000⟩,
   ⟨P.BIN_CO2_LIMIT, .f32, .positive, .rw, .tick, .bin, 0x44BB8000⟩,
   ⟨P.BIN_AER_DT, .f32, .real 0x00000000 0x41F00000, .rw, .tick, .bin, 0x40A00000⟩,
   ⟨P.BIN_AER_WET, .f32, .real 0x00000000 0x41200000, .rw, .tick, .bin, 0x3F000000⟩,
   ⟨P.BIN_AER_DRY, .f32, .real 0x00000000 0x42200000, .rw, .tick, .bin, 0x3FC00000⟩,
   ⟨P.BIN_AER_MIN_ON, .u16, .nat 0 65535, .rw, .commit, .bin, 600⟩,
   ⟨P.BIN_AER_MIN_OFF, .u16, .nat 0 65535, .rw, .commit, .bin, 600⟩,
   ⟨P.BIN_HOT_FORCE, .u8, .nat 0 1, .rw, .commit, .bin, 0⟩,
   ⟨P.BIN_OUT_BASE, .u16, .any, .rw, .commit, .bin, 0⟩,
   ⟨P.BIN_STATUS, .u32, .any, .ro, .never, .bin, 0x00000000⟩]

/-- Rows of block 0x0A. -/
def paramRows0Aa : List ParamInfo :=
  [⟨P.FAN_START_MODE, .u8, .nat 0 3, .rw, .commit, .fan, 0⟩,
   ⟨P.FAN_PHASE, .u8, .nat 0 63, .rw, .commit, .fan, 0⟩,
   ⟨P.FAN_DRIVE, .u8, .nat 0 3, .rw, .commit, .fan, 1⟩,
   ⟨P.FAN_SUPPLY, .u8, .nat 0 2, .rw, .commit, .fan4, 0⟩,
   ⟨P.FAN_PWM_FREQ, .f32, .real 0x42C80000 0x44FA0000, .rw, .commit, .fan, 0x447A0000⟩,
   ⟨P.FAN_PWM_OUT, .u8, .nat 0 1, .rw, .commit, .fan, 0⟩,
   ⟨P.FAN_PWM_INVERT, .u8, .nat 0 1, .rw, .commit, .fan, 0⟩,
   ⟨P.FAN_V_FIXED, .f32, .real 0x40A00000 0x41C00000, .rw, .commit, .fan, 0x41400000⟩,
   ⟨P.FAN_V_MIN, .f32, .real 0x40A00000 0x41C00000, .rw, .commit, .fan, 0x40A00000⟩,
   ⟨P.FAN_V_MAX, .f32, .real 0x40A00000 0x41C00000, .rw, .commit, .fan, 0x41C00000⟩,
   ⟨P.FAN_I_LIMIT, .f32, .real 0x3D4CCCCD 0x3ECCCCCD, .rw, .commit, .fan, 0x3ECCCCCD⟩,
   ⟨P.FAN_I_RUN_MIN, .f32, .zeroOrPos, .rw, .commit, .fan, 0x3CA3D70A⟩,
   ⟨P.FAN_SRC_CELLS, .block 16, .any, .rw, .commit, .fan, 0⟩,
   ⟨P.FAN_CURVE, .block 68, .any, .rw, .commit, .fan, 0⟩,
   ⟨P.FAN_FAILSAFE, .f32, .real 0x00000000 0x42C80000, .rw, .tick, .fan, 0x42C80000⟩,
   ⟨P.FAN_ENABLE_CELL, .u16, .any, .rw, .commit, .fan, 0⟩,
   ⟨P.FAN_ENABLE_LOSS, .u8, .nat 0 1, .rw, .commit, .fan, 0⟩,
   ⟨P.FAN_OFF_BELOW, .f32, .real 0x00000000 0x42C80000, .rw, .tick, .fan, 0x40A00000⟩,
   ⟨P.FAN_DEMAND_MIN, .f32, .real 0x00000000 0x42C80000, .rw, .tick, .fan, 0x41A00000⟩,
   ⟨P.FAN_RAMP, .f32, .zeroOrPos, .rw, .tick, .fan, 0x00000000⟩]

/-- Rows of block 0x0A. -/
def paramRows0Ab : List ParamInfo :=
  [⟨P.FAN_KICK_DEMAND, .f32, .real 0x00000000 0x42C80000, .rw, .commit, .fan, 0x42C80000⟩,
   ⟨P.FAN_KICK_TIME, .u16, .nat 0 160, .rw, .commit, .fan, 16⟩,
   ⟨P.FAN_START_TIME, .u16, .nat 16 960, .rw, .commit, .fan, 64⟩,
   ⟨P.FAN_RETRY_PAUSE, .u8, .nat 1 60, .rw, .commit, .fan, 5⟩,
   ⟨P.FAN_PPR, .u8, .nat 1 4, .rw, .commit, .fan, 2⟩,
   ⟨P.FAN_TACH_GATE, .u16, .nat 1 65535, .rw, .commit, .fan, 64⟩,
   ⟨P.FAN_TACH_ZERO, .u16, .nat 1 65535, .rw, .commit, .fan, 2048⟩,
   ⟨P.FAN_TACH_MIN, .f32, .real 0x00000000 0x46EA6000, .rw, .commit, .fan, 0x43960000⟩,
   ⟨P.FAN_FAULT_TIME, .u8, .nat 1 60, .rw, .commit, .fan, 5⟩,
   ⟨P.FAN_FAULT_ACTION, .u8, .nat 0 1, .rw, .commit, .fan, 1⟩,
   ⟨P.FAN_SAFE, .u8, .nat 0 2, .rw, .commit, .fan, 1⟩,
   ⟨P.FAN_DEMAND_CELL, .u16, .any, .rw, .commit, .fan, 0⟩,
   ⟨P.FAN_SPEED_CELL, .u16, .any, .rw, .commit, .fan, 0⟩,
   ⟨P.FAN_CURRENT_CELL, .u16, .any, .rw, .commit, .fan, 0⟩,
   ⟨P.FAN_STATUS, .u16, .any, .ro, .never, .fan, 0x0000⟩,
   ⟨P.FAN_GUARD_TIME, .u16, .nat 1 1000, .rw, .commit, .single, 100⟩,
   ⟨P.FAN_MANUAL_VALUE, .f32, .any, .ro, .never, .fan, 0x00000000⟩]

/-- Rows of block 0x0B. -/
def paramRows0Ba : List ParamInfo :=
  [⟨P.LINK_ROLE, .u8, .nat 0 2, .rw, .commit, .single, 0⟩,
   ⟨P.LINK_NODES, .block 112, .any, .rw, .commit, .single, 0⟩,
   ⟨P.LINK_QUEEN, .block 16, .any, .rw, .commit, .single, 0⟩,
   ⟨P.LINK_SITE_CHECK, .u8, .nat 0 1, .rw, .commit, .single, 0⟩,
   ⟨P.XISTA_LATENCY, .u8, .nat 2 64, .rw, .commit, .single, 8⟩,
   ⟨P.LINK_LOSS_TICKS, .u16, .nat 64 65535, .rw, .commit, .single, 256⟩,
   ⟨P.LINK_FRESH, .u16, .nat 1 65535, .rw, .commit, .single, 512⟩,
   ⟨P.LINK_REPLY_TICKS, .u16, .nat 16 1024, .rw, .commit, .single, 64⟩,
   ⟨P.LINK_AMPLITUDE, .u8, .nat 0 2, .rw, .commit, .port, 0⟩,
   ⟨P.LINK_PORT_START_MODE, .u8, .nat 0 1, .rw, .commit, .port, 1⟩,
   ⟨P.LINK_PORT_STATUS, .u16, .any, .ro, .never, .port, 0x0000⟩,
   ⟨P.LINK_NODE_ID, .u8, .any, .ro, .never, .single, 0⟩,
   ⟨P.LINK_OFFSET, .u64, .any, .ro, .never, .single, 0⟩,
   ⟨P.LINK_AUTH_FAILURES, .u32, .any, .ro, .never, .single, 0⟩,
   ⟨P.LINK_LATE_UPDATES, .u32, .any, .ro, .never, .single, 0⟩,
   ⟨P.LINK_DISCARDS, .u32, .any, .ro, .never, .single, 0⟩,
   ⟨P.LINK_LOSSES, .u32, .any, .ro, .never, .single, 0⟩]

/-- Rows of block 0x0C. -/
def paramRows0Ca : List ParamInfo :=
  [⟨P.REC_START_MODE, .u8, .nat 0 1, .rw, .commit, .single, 1⟩,
   ⟨P.REC_INTERVAL, .u16, .nat 1 1440, .rw, .commit, .single, 15⟩,
   ⟨P.REC_SAMPLE, .u32, .pow2 64 65536, .rw, .commit, .single, 1024⟩,
   ⟨P.REC_HISTS, .block 288, .any, .rw, .commit, .single, 0⟩,
   ⟨P.REC_RESET_EXTREMES, .u8, .nat 0 1, .rw, .commit, .single, 0⟩,
   ⟨P.REC_STATUS_BLOCK, .block 32, .any, .ro, .never, .single, 0⟩,
   ⟨P.REC_HEALTH, .u32, .any, .ro, .never, .single, 0x00000000⟩,
   ⟨P.CFG_ACTIVE, .u32, .any, .ro, .never, .single, 1⟩,
   ⟨P.CFG_FORMAT_LEVEL, .u16, .any, .ro, .never, .single, 1⟩,
   ⟨P.CFG_CONTENT_HASH, .block 32, .any, .ro, .never, .single, 0⟩]

/-- Rows of block 0x0D. -/
def paramRows0Da : List ParamInfo :=
  [⟨P.SERIAL_NUMBER, .block 16, .any, .ro, .never, .single, 0⟩,
   ⟨P.DEVICE_PUBKEY, .block 64, .any, .ro, .never, .single, 0⟩,
   ⟨P.FW_VERSION, .u32, .any, .ro, .never, .single, 0⟩,
   ⟨P.FW_SLOT, .u8, .any, .ro, .never, .single, 0⟩,
   ⟨P.SEC_VERSION, .u8, .any, .ro, .never, .single, 0⟩,
   ⟨P.LOCK_STATE, .u8, .any, .ro, .never, .single, 0⟩,
   ⟨P.OEM_KEY_HASH, .block 32, .any, .ro, .never, .single, 0⟩,
   ⟨P.UPD_STATUS_BLOCK, .block 32, .any, .ro, .never, .single, 0⟩]

/-- Rows of block 0x0E. -/
def paramRows0Ea : List ParamInfo :=
  [⟨P.PWR_STATE, .u8, .any, .ro, .never, .single, 0⟩,
   ⟨P.PWR_CONDITION, .u8, .any, .ro, .never, .single, 0x00⟩,
   ⟨P.THROTTLE_FACTOR, .f32, .any, .ro, .never, .single, 0x3F800000⟩,
   ⟨P.MODULE_TEMP, .f32, .any, .ro, .never, .single, 0⟩,
   ⟨P.MODULE_RATE, .f32, .any, .ro, .never, .single, 0x00000000⟩,
   ⟨P.TS_INCLUDED, .u8, .any, .ro, .never, .single, 0x3F⟩,
   ⟨P.TS_RATE, .f32, .any, .ro, .never, .site, 0x00000000⟩,
   ⟨P.TEMP_MAX_LIFE, .f32, .any, .ro, .never, .single, 0⟩,
   ⟨P.BOOT_JOURNAL, .block 64, .any, .ro, .never, .journal, 0⟩,
   ⟨P.BOOT_RETRY, .u8, .nat 0 31, .wo, .start, .single, 0x00⟩,
   ⟨P.HK_ROUNDS, .u32, .any, .ro, .never, .single, 0⟩]

/-- The rows of a parameter block (Table 15-1). -/
def paramBlock : Nat → List ParamInfo
  | 0x00 => paramRows00a
  | 0x01 => paramRows01a
  | 0x03 => paramRows03a
  | 0x04 => paramRows04a ++ paramRows04b
  | 0x05 => paramRows05a ++ paramRows05b
  | 0x06 => paramRows06a
  | 0x07 => paramRows07a
  | 0x08 => paramRows08a ++ paramRows08b ++ paramRows08c ++ paramRows08d ++ paramRows08e
  | 0x09 => paramRows09a ++ paramRows09b ++ paramRows09c ++ paramRows09d
  | 0x0A => paramRows0Aa ++ paramRows0Ab
  | 0x0B => paramRows0Ba
  | 0x0C => paramRows0Ca
  | 0x0D => paramRows0Da
  | 0x0E => paramRows0Ea
  | _ => []

/-- The row of a parameter ID, if any (R448). -/
def paramInfo (id : Nat) : Option ParamInfo := (paramBlock (id / 256)).find? (fun r => r.id == id)

end Sys2Proof.Machine
end

