-- ==== Sys2Proof/Machine/Cfg.lean ====
section
/-! DEFINITION. Reading the configuration: slots and kinds (Table 01-1), the content of a generation (R377), the
defaults of parameters and blocks, running values (R378) and the serialised content. -/

namespace Sys2Proof.Machine

/-! ## Slots -/

/-- Kind code of a slot (Table 01-1); 0 for a reserved slot. -/
def slotKind (slot : Nat) : Nat :=
  if slot = 0 then 0x01 else if slot ≤ 128 then 0x03 else if slot ≤ 384 then 0x04 else if slot ≤ 448 then 0x05
  else if slot ≤ 480 then 0x06 else if slot ≤ 544 then 0x07 else if slot ≤ 608 then 0x08 else if slot ≤ 612 then 0x09
  else if slot ≤ 644 then 0x0A else if slot ≤ 652 then 0x0B else if slot ≤ 660 then 0x0C else if slot ≤ 724 then 0x0D
  else if slot ≤ 979 then 0x02 else if slot = 980 then 0x0E else if slot ≤ 982 then 0x0F else if slot = 983 then 0x10
  else 0x00

/-- The slot of instance 0 of a kind; for hives, of hive 0 in the numbering of hives 1–255. -/
def kindBase (kind : Nat) : Nat :=
  match kind with
  | 0x02 => 724 | 0x03 => 1 | 0x04 => 129 | 0x05 => 385 | 0x06 => 449 | 0x07 => 481 | 0x08 => 545 | 0x09 => 609
  | 0x0A => 613 | 0x0B => 645 | 0x0C => 653 | 0x0D => 661 | 0x0E => 980 | 0x0F => 981 | 0x10 => 983 | _ => 0

/-- Instance number of a slot within its kind. -/
def slotInst (slot : Nat) : Nat := slot - kindBase (slotKind slot)

def chanSlot (n : Nat) : Nat := 1 + n
def loopSlot (n : Nat) : Nat := 129 + n
def profSlot (n : Nat) : Nat := 385 + n
def churnSlot (n : Nat) : Nat := 449 + n
def probeSlot (n : Nat) : Nat := 481 + n
def combSlot (n : Nat) : Nat := 545 + n
def progSlot (n : Nat) : Nat := 609 + n
def chainSlot (n : Nat) : Nat := 613 + n
def obsSlot (n : Nat) : Nat := 645 + n
def fanSlot (n : Nat) : Nat := 653 + n
def binSlot (n : Nat) : Nat := 661 + n
/-- Hive h: the root hive is hive 0. -/
def hiveSlot (h : Nat) : Nat := if h = 0 then 0 else 724 + h
/-- Hive number of a hive's slot. -/
def hiveNumber (slot : Nat) : Nat := if slot = 0 then 0 else slot - 724
def recSlot : Nat := 980
def portSlot (n : Nat) : Nat := 981 + n
def hkSlot : Nat := 983

/-- Whether a slot is a hive, the root hive included. -/
def isHive (slot : Nat) : Bool := slotKind slot == 0x01 || slotKind slot == 0x02

/-! ## Content -/

/-- The value a content holds for a parameter instance, if it is not at its default. -/
def contentGet : Content → Nat → Nat → Option PVal
  | [], _, _ => none
  | (i, n, v) :: t, id, inst => if i = id ∧ n = inst then some v else contentGet t id inst

/-- Order of content entries: by ID, then instance. -/
def entryBefore (a b : Nat × Nat) : Bool := decide (a.1 < b.1) || (a.1 == b.1 && decide (a.2 < b.2))

/-- The content without a parameter instance. -/
def contentErase (c : Content) (id inst : Nat) : Content := c.filter (fun e => !(e.1 == id && e.2.1 == inst))

/-- A parameter instance placed in its order. -/
def contentInsert : Content → Nat → Nat → PVal → Content
  | [], id, inst, v => [(id, inst, v)]
  | (i, n, w) :: t, id, inst, v =>
    if entryBefore (id, inst) (i, n) then (id, inst, v) :: (i, n, w) :: t
    else (i, n, w) :: contentInsert t id inst v

/-- Default R0 of a RES element (Table 05-8); 0 where the table gives none. -/
def resR0Default (element : Nat) : Nat :=
  match element with
  | 0 => 0x42C80000 | 1 => 0x43FA0000 | 2 => 0x447A0000 | 3 => 0x447A0000 | _ => 0

/-- Default, least and most pages of a region (Table 03-3). -/
def regionBounds (r : Nat) : Nat × Nat × Nat :=
  [(256, 256, 256), (128, 256, 512), (0, 256, 256), (4, 16, 32), (32, 64, 128), (16, 256, 1024),
   (48, 48, 64), (32, 64, 128), (32, 64, 128), (64, 128, 256), (0, 128, 512), (16, 16, 32)].getD r (0, 0, 0)

/-- Default of a scalar parameter, in its 8 bytes; RES_R0 depends on RES_ELEMENT, REGION_PAGES on the region. -/
def scalarDefault (c : Content) (id inst : Nat) : Nat :=
  if id = P.REGION_PAGES then (regionBounds inst).2.1
  else if id = P.RES_R0 then
    match contentGet c P.RES_ELEMENT inst with
    | some (.scalar v) => resR0Default v.toNat
    | _ => resR0Default 0
  else
    match paramInfo id with
    | some r => r.dflt
    | none => 0

/-- One step of the default PRG_TABLE: END, no actions, no set-points. -/
def prgStepDefault : List Byte :=
  List.replicate 16 0 ++ [0xFF, 0xFF, 0xFF, 0xFF, 0xFF, 0xFF] ++ List.replicate 10 0

/-- Default of a block parameter. -/
def blockDefault (id : Nat) : List Byte :=
  if id = P.PROBE_PLAN then
    padTo 100 ([8, 0, 0, 0] ++
      ([20000, 50000, 100000, 200000, 500000, 1000000, 2000000, 5000000].map (le 4)).flatten)
  else if id = P.PRG_TABLE then (List.replicate 64 prgStepDefault).flatten
  else if id = P.PRG_FAULT_STOP then List.replicate 8 0xFF
  else if id = P.BIN_LINES then List.replicate 16 0xFF
  else if id = P.OBS_ZONES then
    [0, 1] ++ List.replicate 14 0 ++
      (List.replicate 3 ((0xFF : Byte) :: List.replicate 15 0)).flatten
  else if id = P.FAN_CURVE then
    padTo 68 ([2, 0, 0, 0] ++ le 4 0 ++ le 4 0 ++ le 4 0x42C80000 ++ le 4 0x42C80000)
  else
    match paramInfo id with
    | some r => match r.ty with | .block n => List.replicate n 0 | _ => []
    | none => []

/-- The value a content gives a scalar parameter (R445: a parameter left out reads as its default). -/
def scalarOf (c : Content) (id inst : Nat) : Nat :=
  match contentGet c id inst with
  | some (.scalar v) => v.toNat
  | _ => scalarDefault c id inst

/-- The bytes a content gives a block parameter. -/
def blockOf (c : Content) (id inst : Nat) : List Byte :=
  match contentGet c id inst with
  | some (.block b) => b
  | _ => blockDefault id

/-- A scalar parameter set; a value at its default is not held (R377). -/
def contentSetScalar (c : Content) (id inst : Nat) (v : Val) : Content :=
  let c' := contentErase c id inst
  if v.toNat = scalarDefault c' id inst then c' else contentInsert c' id inst (.scalar v)

/-- A block parameter set. -/
def contentSetBlock (c : Content) (id inst : Nat) (b : List Byte) : Content :=
  let c' := contentErase c id inst
  if b = blockDefault id then c' else contentInsert c' id inst (.block b)

/-- A unit header: kind, REQUIRED flag, parent handle. The headers of the root hive and the housekeeping unit are
fixed (R377). -/
structure Header where
  kind     : Nat
  required : Bool
  parent   : Nat
  deriving DecidableEq, Repr

/-- The header of a slot in a content; kind 0 when it is vacant. -/
def headerOf (c : Content) (slot : Nat) : Header :=
  if slot = 0 then ⟨0x01, false, 0xFFFF⟩
  else if slot = hkSlot then ⟨0x10, false, 0⟩
  else
    let b := blockOf c P.UNIT_HEADER slot
    ⟨field b 0 1, (field b 1 1) % 2 == 1, field b 2 2⟩

/-- Whether a content configures a slot (R17). -/
def configured (c : Content) (slot : Nat) : Bool := (headerOf c slot).kind != 0

/-- The configured slots, ascending. -/
def configuredSlots (c : Content) : List Nat :=
  let own := c.filterMap (fun e => if e.1 = P.UNIT_HEADER ∧ configured c e.2.1 then some e.2.1 else none)
  (0 :: own.filter (· < hkSlot)) ++ (hkSlot :: own.filter (hkSlot < ·))

/-- Configured slots of a kind. -/
def slotsOfKind (c : Content) (kind : Nat) : List Nat := (configuredSlots c).filter (fun u => slotKind u == kind)

/-- Direct members of a hive, ascending slots. -/
def membersOf (c : Content) (hive : Nat) : List Nat :=
  (configuredSlots c).filter (fun u => u != 0 && (headerOf c u).parent == hive)

/-- The face bindings of hive `h`: face item, member, member item (Table 15-5). -/
def bindingsOf (c : Content) (h : Nat) : List (Nat × Nat × Nat) :=
  let b := blockOf c P.HIVE_FACE_BINDINGS h
  (List.range (min 32 (field b 0 1))).map (fun j =>
    (field b (4 + 8 * j) 2, field b (6 + 8 * j) 2, field b (8 + 8 * j) 2))

/-- The face item that stands for the operator mode (Table 15-5). -/
abbrev modeItem : Nat := 0xFFF0

/-- The member and item a face item is bound to. -/
def boundTo (c : Content) (h item : Nat) : Option (Nat × Nat) :=
  ((bindingsOf c h).find? (fun e => e.1 == item)).map (fun e => (e.2.1, e.2.2))

/-! ## State -/

/-- The content of a stored generation by number. -/
def State.generation (s : State) (n : Nat) : Option Generation := s.gens.find? (fun g => g.number == n)

/-- The content of the active generation. -/
def State.content (s : State) : Content :=
  match s.generation s.activeGen with
  | some g => g.content
  | none => []

/-- A stored ("commit") scalar parameter of the active generation. -/
def State.cfg (s : State) (id inst : Nat) : Nat := scalarOf s.content id inst

/-- A binary32 parameter of the active generation. -/
def State.cfgF (s : State) (id inst : Nat) : F32 := BitVec.ofNat 32 (s.cfg id inst)

/-- A block parameter of the active generation. -/
def State.cfgBlock (s : State) (id inst : Nat) : List Byte := blockOf s.content id inst

/-- The running value of a "tick" parameter in a copy of the plant (R378). -/
def runningOf (pl : Plant) (c : Content) (id inst : Nat) : Nat :=
  match pl.running.find? (fun e => e.1 == id && e.2.1 == inst) with
  | some e => e.2.2.toNat
  | none => scalarOf c id inst

/-- The running value that evaluation sees. -/
def State.run (s : State) (id inst : Nat) : Nat := runningOf s.work s.content id inst

/-- A running binary32 value. -/
def State.runF (s : State) (id inst : Nat) : F32 := BitVec.ofNat 32 (s.run id inst)

/-- Whether the active generation configures a slot. -/
def State.has (s : State) (slot : Nat) : Bool := configured s.content slot

/-- Channels, banks and probes of the fitted part (R3). That an SG1064 lacks the probe instances 32 to 63 is a DESIGN CHOICE
(log entry 30). -/
def State.channels (s : State) : Nat := if s.id.sg1064 then 64 else 128
def State.bankCount (s : State) : Nat := if s.id.sg1064 then 8 else 16
def State.probeCount (s : State) : Nat := if s.id.sg1064 then 32 else 64

/-- A slot of the fitted part: on an SG1064 the slots of UFC64 to UFC127 do not exist (R4, R19). -/
def State.slotExists (s : State) (slot : Nat) : Bool := decide (slot < 1024) && !(s.id.sg1064 && 65 ≤ slot && slot ≤ 128)

/-! ## Serialised content (R377) -/

/-- What a parameter instance belongs to. -/
inductive Owner where
  | module
  | unit (slot : Nat)
  | bank (b : Nat)
  | crop (n : Nat)
  deriving DecidableEq, Repr

/-- The owner of a parameter instance. -/
def paramOwner (id inst : Nat) : Owner :=
  match paramInfo id with
  | none => .module
  | some r =>
    match r.inst with
    | .slot => .unit inst
    | .hive => .unit (hiveSlot inst)
    | .hive1 => .unit (hiveSlot inst)
    | .bank => .bank inst
    | .channel => .unit (chanSlot inst)
    | .evenChannel => .unit (chanSlot inst)
    | .probe => .unit (probeSlot inst)
    | .crop => .crop inst
    | .line => .unit (combSlot inst)
    | .loop => .unit (loopSlot inst)
    | .coef => .unit (loopSlot (inst / 4))
    | .profile => .unit (profSlot inst)
    | .churn => .unit (churnSlot inst)
    | .observer => .unit (obsSlot inst)
    | .program => .unit (progSlot inst)
    | .chain => .unit (chainSlot inst)
    | .bin => .unit (binSlot inst)
    | .fan => .unit (fanSlot inst)
    | .fan4 => .unit (fanSlot inst)
    | .port => if id = P.LINK_MAC then .module else .unit (portSlot inst)
    | .single => if 0x0C00 ≤ id ∧ id ≤ 0x0C06 then .unit recSlot else .module
    | .hostCell => .module
    | .region => .module
    | .site => .module
    | .journal => .module

/-- The banks and crop tables a unit depends on (R377). -/
def unitDepends (c : Content) (slot : Nat) : List Owner :=
  let n := slotInst slot
  match slotKind slot with
  | 0x03 => [.bank (n / 8)]
  | 0x07 =>
    let crop := scalarOf c P.PROBE_CROP n
    .bank (scalarOf c P.PROBE_CHANNEL n / 8) :: (if crop = 0xFF then [] else [.crop crop])
  | 0x0B => [.crop (scalarOf c P.OBS_CROP n)]
  | 0x0D => [.crop (scalarOf c P.BIN_CROP n)]
  | _ => []

/-- Bytes of a scalar of a parameter (R377). That a value has the size of its type is deduced from the padding, which
nothing else would need: every block that is serialised is a multiple of 4 (log entry 24). -/
def scalarSize (id : Nat) : Nat :=
  match paramInfo id with
  | some r => match r.ty with | .u8 => 1 | .u16 => 2 | .u64 => 8 | _ => 4
  | none => 4

/-- Bytes of a value in a content. -/
def valueBytes (id : Nat) : PVal → List Byte
  | .block b => b
  | .scalar v => le (scalarSize id) v.toNat

/-- One record of a content. -/
def recordBytes (tag inst : Nat) (value : List Byte) : List Byte :=
  le 2 tag ++ le 2 inst ++ le 2 value.length ++ [0, 0] ++ value ++ List.replicate ((4 - value.length % 4) % 4) 0

/-- The records of one owner, ascending TAG and INSTANCE. -/
def ownerRecords (c : Content) (o : Owner) : List Byte :=
  ((c.filter (fun e => e.1 != P.UNIT_HEADER && decide (paramOwner e.1 e.2.1 = o))).map
    (fun e => recordBytes e.1 e.2.1 (valueBytes e.1 e.2.2))).flatten

/-- The section of a configured unit: header, own parameters, shared records. -/
def unitSection (c : Content) (slot : Nat) : List Byte :=
  recordBytes 0xFFFE slot (blockOf c P.UNIT_HEADER slot) ++ ownerRecords c (.unit slot) ++
    ((unitDepends c slot).map (ownerRecords c)).flatten

/-- Units that have a section. -/
def sectionSlots (c : Content) : List Nat := (configuredSlots c).filter (fun u => u != 0 && u != hkSlot)

/-- The module section: module parameters, and shared items that no configured unit depends on. -/
def moduleSection (c : Content) : List Byte :=
  let used := ((sectionSlots c).map (unitDepends c)).flatten
  ((c.filter (fun e =>
      match paramOwner e.1 e.2.1 with
      | .module => true
      | .unit slot => (slot == 0 || slot == hkSlot) && e.1 != P.UNIT_HEADER
      | o => !(used.contains o))).map
    (fun e => recordBytes e.1 e.2.1 (valueBytes e.1 e.2.2))).flatten

/-- The serialised content. -/
def contentBytes (c : Content) : List Byte :=
  moduleSection c ++ ((sectionSlots c).map (unitSection c)).flatten

/-- CONTENT_HASH (Table 12-7). -/
def contentHash (c : Content) : List Byte := sha256 (contentBytes c)

/-- Parameters of vacant slots are dropped at commit (R377). -/
def dropVacant (c : Content) : Content :=
  c.filter (fun e =>
    match paramOwner e.1 e.2.1 with
    | .unit slot => configured c slot
    | _ => true)

end Sys2Proof.Machine
end

