-- ==== Sys2Proof/Machine/Ops.lean ====
section
/-! DEFINITION. The named operations over the state: causes and events, free values, units, cells, jobs and replies. -/

namespace Sys2Proof.Machine

/-! ## Small arithmetic -/

/-- What a command answers. -/
abbrev Result := Host.Outcome State Fault Refusal

/-- A 32-bit counter that saturates (R447). -/
def sat32 (n : Nat) : Nat := min n 0xFFFFFFFF
/-- A 16-bit counter that saturates. -/
def sat16 (n : Nat) : Nat := min n 0xFFFF
/-- Bit `b` of a number. -/
def bit (n b : Nat) : Bool := n / 2 ^ b % 2 == 1
/-- A flag as the bit `b` of a word. -/
def flagBit (f : Bool) (b : Nat) : Nat := if f then 2 ^ b else 0
/-- Bit `b` of a 16-bit word set or cleared. -/
def setBit16 (w : BitVec 16) (b : Nat) (on : Bool) : BitVec 16 :=
  if on then w ||| BitVec.ofNat 16 (2 ^ b) else w &&& ~~~BitVec.ofNat 16 (2 ^ b)

/-! ## Free values (log entry 4) -/

/-- The next value the module draws, and the state that has drawn it. -/
def State.drawFree (s : State) : Nat × State := (Config.draw s.draws, { s with draws := s.draws + 1 })

/-- The `v`-th number from `lo` up that is not in the ascending list `used`. -/
def skipUsed : List Nat → Nat → Nat
  | [], v => v
  | u :: t, v => if u ≤ v then skipUsed t (v + 1) else v

/-- Insertion into an ascending list without repeats. -/
def insertSorted : List Nat → Nat → List Nat
  | [], n => [n]
  | m :: t, n => if n < m then n :: m :: t else if n = m then m :: t else m :: insertSorted t n

/-- An ascending list without repeats of the same numbers. -/
def sortNats (l : List Nat) : List Nat := l.foldl insertSorted []

/-- A free 16-bit number from 1 up that is not among `used` (at most 65,534 of them). -/
def freshId (v : Nat) (used : List Nat) : Nat :=
  let u := sortNats used
  skipUsed u (1 + v % (65535 - u.length))

/-- Free bytes. -/
def State.drawBytes (s : State) (n : Nat) : List Byte × State :=
  let (v, s') := s.drawFree
  (be n v, s')

/-! ## Causes and events (R78, R83, R478) -/

/-- Bit numbers of the cause register (Table 02-12). -/
abbrev causeReplyReady : Nat := 0
abbrev causeJobDone : Nat := 1
abbrev causeCombMap : Nat := 2
abbrev causeFieldFault : Nat := 3
abbrev causeUnitState : Nat := 4
abbrev causeSmoker : Nat := 5
abbrev causeThermal : Nat := 6
abbrev causeLink : Nat := 7
abbrev causeRecorder : Nat := 8
abbrev causeUpdate : Nat := 9
abbrev causeBoot : Nat := 10
abbrev causeReady : Nat := 11
abbrev causeSupply : Nat := 12
abbrev causeSession : Nat := 13
abbrev causeOverflow : Nat := 14

/-- The pending bit of a cause set. -/
def HostIf.setCause (h : HostIf) (b : Nat) : HostIf := { h with cause := h.cause ||| BitVec.ofNat 32 (2 ^ b) }

/-- An event record placed in the queue, or counted as lost (R78). -/
def HostIf.place (h : HostIf) (e : Event) : HostIf :=
  if h.events.length < 255 then { h with events := h.events ++ [e] }
  else
    let h := { h with lost := sat16 (h.lost + 1) }
    if h.overflowed then h
    else
      { (h.setCause causeOverflow) with
        overflowed := true
        events := h.events ++ [⟨e.tick, causeOverflow, 0xFFFF, 0, 0⟩] }

/-- A cause raised with its event record, at tick `t`. -/
def State.raiseAt (s : State) (t cause handle code : Nat) (data : Nat) : State :=
  { s with host := (s.host.setCause cause).place ⟨t, cause, handle, code, BitVec.ofNat 32 data⟩ }

/-- A cause raised in the running tick. -/
def State.raise (s : State) (cause handle code data : Nat) : State := s.raiseAt s.tick cause handle code data

/-! ## The plant -/

/-- What the host and other readers outside evaluation see: the committed copy (R102). -/
def State.view (s : State) : Plant := if s.committed then s.work else s.base

/-- A change of the working copy. -/
def State.modWork (s : State) (f : Plant → Plant) : State := { s with work := f s.work }

/-- A change that stands whatever becomes of the running tick: in the working copy and in the copy a redo starts from. -/
def State.modPlants (s : State) (f : Plant → Plant) : State := { s with work := f s.work, base := f s.base }

/-- The record of a unit. -/
def Plant.unit (p : Plant) (slot : Nat) : UnitRec := Tab.get {} p.units slot
/-- A unit's record changed. -/
def Plant.modUnit (p : Plant) (slot : Nat) (f : UnitRec → UnitRec) : Plant :=
  { p with units := Tab.put {} p.units slot (f (p.unit slot)) }

def Plant.chan (p : Plant) (n : Nat) : ChanState := Tab.get {} p.chans n
def Plant.setChan (p : Plant) (n : Nat) (x : ChanState) : Plant := { p with chans := Tab.put {} p.chans n x }
def Plant.loop (p : Plant) (n : Nat) : LoopState := Tab.get {} p.loops n
def Plant.setLoop (p : Plant) (n : Nat) (x : LoopState) : Plant := { p with loops := Tab.put {} p.loops n x }
def Plant.prof (p : Plant) (n : Nat) : ProfState := Tab.get {} p.profs n
def Plant.setProf (p : Plant) (n : Nat) (x : ProfState) : Plant := { p with profs := Tab.put {} p.profs n x }
def Plant.churn (p : Plant) (n : Nat) : ChurnState := Tab.get {} p.churns n
def Plant.setChurn (p : Plant) (n : Nat) (x : ChurnState) : Plant := { p with churns := Tab.put {} p.churns n x }
def Plant.probe (p : Plant) (n : Nat) : ProbeState := Tab.get {} p.probes n
def Plant.setProbe (p : Plant) (n : Nat) (x : ProbeState) : Plant := { p with probes := Tab.put {} p.probes n x }
def Plant.comb (p : Plant) (n : Nat) : CombState := Tab.get {} p.combs n
def Plant.setComb (p : Plant) (n : Nat) (x : CombState) : Plant := { p with combs := Tab.put {} p.combs n x }
def Plant.prog (p : Plant) (n : Nat) : ProgState := Tab.get {} p.progs n
def Plant.setProg (p : Plant) (n : Nat) (x : ProgState) : Plant := { p with progs := Tab.put {} p.progs n x }
def Plant.chain (p : Plant) (n : Nat) : ChainState := Tab.get {} p.chains n
def Plant.setChain (p : Plant) (n : Nat) (x : ChainState) : Plant := { p with chains := Tab.put {} p.chains n x }
def Plant.observer (p : Plant) (n : Nat) : ObsState := Tab.get {} p.obs n
def Plant.setObs (p : Plant) (n : Nat) (x : ObsState) : Plant := { p with obs := Tab.put {} p.obs n x }
def Plant.fan (p : Plant) (n : Nat) : FanState := Tab.get {} p.fans n
def Plant.setFan (p : Plant) (n : Nat) (x : FanState) : Plant := { p with fans := Tab.put {} p.fans n x }
def Plant.bin (p : Plant) (n : Nat) : BinState := Tab.get {} p.bins n
def Plant.setBin (p : Plant) (n : Nat) (x : BinState) : Plant := { p with bins := Tab.put {} p.bins n x }

/-- A running value placed in order of ID and instance. -/
def runningInsert : List (Nat × Nat × Val) → Nat → Nat → Val → List (Nat × Nat × Val)
  | [], id, inst, v => [(id, inst, v)]
  | (i, n, w) :: t, id, inst, v =>
    if entryBefore (id, inst) (i, n) then (id, inst, v) :: (i, n, w) :: t
    else (i, n, w) :: runningInsert t id inst v

/-- The running value of a parameter set (R378): listed while it differs from the stored one. -/
def Plant.setRunning (p : Plant) (c : Content) (id inst : Nat) (v : Val) : Plant :=
  let rest := p.running.filter (fun e => !(e.1 == id && e.2.1 == inst))
  { p with running := if v.toNat = scalarOf c id inst then rest else runningInsert rest id inst v }

/-- The unit's record that evaluation sees. -/
def State.unit (s : State) (slot : Nat) : UnitRec := s.work.unit slot
/-- A unit's record changed by evaluation or at a boundary. -/
def State.modUnit (s : State) (slot : Nat) (f : UnitRec → UnitRec) : State := s.modWork (·.modUnit slot f)

/-- Field side of banks, channels, probes and lines. -/
def State.bank (s : State) (b : Nat) : Bank := Tab.get {} s.banks b
def State.setBank (s : State) (b : Nat) (x : Bank) : State := { s with banks := Tab.put {} s.banks b x }
def State.fch (s : State) (n : Nat) : FieldChan := Tab.get {} s.fieldChans n
def State.setFch (s : State) (n : Nat) (x : FieldChan) : State := { s with fieldChans := Tab.put {} s.fieldChans n x }
def State.fprobe (s : State) (n : Nat) : FieldProbe := Tab.get {} s.fprobes n
def State.setFprobe (s : State) (n : Nat) (x : FieldProbe) : State := { s with fprobes := Tab.put {} s.fprobes n x }
def State.fcomb (s : State) (n : Nat) : FieldComb := Tab.get {} s.fcombs n
def State.setFcomb (s : State) (n : Nat) (x : FieldComb) : State := { s with fcombs := Tab.put {} s.fcombs n x }
/-- Field inputs that belong to tick `t`. -/
def State.inputs (s : State) (t : Nat) : InBuf := Tab.get {} s.inbufs t
def State.setInputs (s : State) (t : Nat) (x : InBuf) : State := { s with inbufs := Tab.put {} s.inbufs t x }

/-! ## Unit states -/

/-- State codes (Table 01-3). -/
def UState.code : UState → Nat
  | .stopped => 0 | .active => 1 | .auto => 2 | .manual => 3 | .stopping => 4 | .hold => 5 | .fault => 6

/-- ACTIVE, AUTO or MANUAL. -/
def UState.running : UState → Bool
  | .active | .auto | .manual => true
  | _ => false

/-- A fault found by an evaluation or by an event: the unit enters FAULT with this code at the next boundary (R22).
The first one found stands. -/
def UnitRec.detect (u : UnitRec) (code : Nat) : UnitRec :=
  if u.faultDue.isSome then u else { u with faultDue := some code }

/-- A fault detected while the tick is evaluated. -/
def State.detect (s : State) (slot code : Nat) : State := s.modUnit slot (·.detect code)

/-! ## Cells (R31 to R39) -/

/-- What a reader sees of a cell. -/
structure Seen where
  value      : Val
  stamp      : Nat
  source     : Nat
  quality    : Nat
  conditions : BitVec 8
  type       : Nat
  deriving DecidableEq, Repr

/-- The null cell (R31). -/
def nullSeen : Seen := ⟨0, 0, 0, 7, 0x40#8, 0⟩

/-- The condition bit of a quality code: bit n − 1 (Table 01-6). -/
def condBit (q : Nat) : BitVec 8 := if q = 0 then 0 else BitVec.ofNat 8 (2 ^ (q - 1))

/-- Highest code among the conditions present (R35). -/
def condQuality (c : BitVec 8) : Nat :=
  let n := c.toNat % 128
  if n = 0 then 0 else Nat.log2 n + 1

def Plant.cell (p : Plant) (ref : Nat) : Cell := Tab.get {} p.cells ref
def Plant.setCell (p : Plant) (ref : Nat) (c : Cell) : Plant := { p with cells := Tab.put {} p.cells ref c }

/-- Period in ticks of a channel unit's schedule (R93): 1 but for analogue inputs below 1,024 S/s (Table 05-5). -/
def rateP (rate : Nat) : Nat := [256, 64, 16, 4, 1, 1, 1].getD rate 1

/-- The force channel of a 3- or 4-wire element that channel `n` measures for; itself otherwise (Table 05-9, R192). -/
def resForce (c : Content) (n : Nat) : Nat :=
  let names (f : Nat) : Bool :=
    let w := scalarOf c P.RES_WIRING f
    scalarOf c P.CH_MODE f == 9 && f != n &&
      ((decide (3 ≤ w) && scalarOf c P.RES_SENSE_1 f == n % 8) || (w == 4 && scalarOf c P.RES_SENSE_2 f == n % 8))
  if scalarOf c P.CH_MODE n = 9 then
    (((List.range 8).map (8 * (n / 8) + ·)).find? names).getD n
  else n

/-- Period of a channel unit's schedule in ticks (R93, R94, R192): by rate in AI-V, AI-I and RES, else 1. -/
def chanPeriod (c : Content) (n : Nat) : Nat :=
  let mode := scalarOf c P.CH_MODE n
  if mode = 5 ∨ mode = 6 then rateP (scalarOf c P.AI_RATE n)
  else if mode = 9 then rateP (scalarOf c P.AI_RATE (resForce c n))
  else 1

/-- Conversions in a batch of a channel (Table 05-5). -/
def chanConvs (c : Content) (n : Nat) : Nat :=
  let mode := scalarOf c P.CH_MODE n
  if mode = 5 ∨ mode = 6 then
    match scalarOf c P.AI_RATE n with
    | 5 => 4
    | 6 => 16
    | _ => 1
  else 1

/-- The loop a churn serves. -/
def churnHost (c : Content) (n : Nat) : Nat := slotInst (scalarOf c P.CHURN_LOOP n)

/-- Member loop units of a hive, ascending slots. -/
def memberLoops (c : Content) (hive : Nat) : List Nat := (membersOf c hive).filter (fun u => slotKind u == 0x04)

/-- The exponent of a probe's period: in HUSH a PROBE_PERIOD below 12 counts as 12 (R222). -/
def probeExp (c : Content) (pw : Power) (p : Nat) : Nat :=
  if pw = .hush then max 12 (scalarOf c P.PROBE_PERIOD p) else scalarOf c P.PROBE_PERIOD p

/-- The period of the unit in a slot, for kinds with a period of their own: R93, R219, R262, R284, R297 and the chapters of
the other kinds. None for comb line units (R37). -/
def unitPeriod (c : Content) (pw : Power) (slot : Nat) : Option Nat :=
  let n := slotInst slot
  match slotKind slot with
  | 0x03 => some (chanPeriod c n)
  | 0x04 => some (2 ^ scalarOf c P.LOOP_K n)
  | 0x05 => some (2 ^ scalarOf c P.PROF_K n)
  | 0x06 => some (2 ^ scalarOf c P.LOOP_K (churnHost c n))
  | 0x07 => some (2 ^ probeExp c pw n)
  | 0x09 => some 64
  | 0x0A => some 64
  | 0x0B => some (scalarOf c P.OBS_STEP n)
  | 0x0C => some 64
  | 0x0D => some 1024
  | 0x02 => some (match memberLoops c slot with | u :: _ => 2 ^ scalarOf c P.LOOP_K (slotInst u) | [] => 1)
  | 0x10 => some 512
  | _ => none

/-- Whether a power state excludes a unit from evaluation (Table 14-1, R418). -/
def restsIn (c : Content) (p : Power) (slot : Nat) : Bool :=
  let n := slotInst slot
  match p with
  | .run => false
  | .dormant => true
  | .watch =>
    let mode := scalarOf c P.CH_MODE n
    !(slotKind slot == 0x10 || (slotKind slot == 0x03 && (mode == 1 || mode == 2)))
  | .hush =>
    match slotKind slot with
    | 0x04 => decide (scalarOf c P.LOOP_K n < 6)
    | 0x05 => decide (scalarOf c P.PROF_K n < 6)
    | 0x06 => decide (scalarOf c P.LOOP_K (churnHost c n) < 6)
    | _ => false

/-- Whether a unit is resting. -/
def State.rests (s : State) (slot : Nat) : Bool := restsIn s.content s.power slot

/-- Freshness limit of a cell (R37): twice the writer's period, or the cell's or line's own parameter. -/
def freshLimit (c : Content) (pw : Power) (ref source : Nat) : Nat :=
  if 8192 ≤ ref then scalarOf c P.LINK_FRESH 0
  else if source = 0 then scalarOf c P.CELL_FRESH ref
  else
    match unitPeriod c pw source with
    | some p => 2 * p
    | none => scalarOf c P.COMB_FRESH (slotInst source)

/-- A cell as a reader at tick `t` in power state `pw` sees it (R31, R35, R37, R38). A REMOTE cell without a source waits
for its first entry (R355). A cell never written reads OFFLINE and is not judged for staleness (DESIGN CHOICE, log entry
31). -/
def Plant.see (p : Plant) (c : Content) (pw : Power) (t ref : Nat) : Seen :=
  if ref % 8192 = 0 ∨ (ref < 8192 ∧ 154 ≤ ref ∧ ref ≤ 255) then nullSeen
  else
    let cell := p.cell ref
    match cell.forced with
    | some f => ⟨f.value, f.stamp, f.source, f.quality, f.conditions, f.type⟩
    | none =>
      let o := cell.own
      if !cell.written then { nullSeen with type := o.type }
      else if 8192 ≤ ref ∧ o.source = 0 then ⟨o.value, o.stamp, o.source, o.quality, o.conditions, o.type⟩
      else if o.stamp + freshLimit c pw ref o.source < t then
        ⟨o.value, o.stamp, o.source, max o.quality 4, o.conditions ||| condBit 4, o.type⟩
      else ⟨o.value, o.stamp, o.source, o.quality, o.conditions, o.type⟩

/-- A value of a type as binary32, for extremes and for inputs (R33, R262). -/
def valueF32 (type : Nat) (v : Val) : F32 :=
  match type with
  | 0 => v.setWidth 32
  | 1 => fOfInt (toSigned 4 (v.toNat % 2 ^ 32))
  | 2 => fOfNat (v.toNat % 2 ^ 32)
  | 3 => fOfNat v.toNat
  | _ => 0

/-- A binary32 as a VALUE. -/
def valF32 (x : F32) : Val := x.setWidth 64

/-- An extreme `a` with a new value `x`; with a NaN among them the outcome is stated nowhere (log entry 4). -/
def extremeOf (highest : Bool) (a x : F32) : F32 :=
  if fNaN a || fNaN x then Config.extremeNaN highest a x else if highest then fmax a x else fmin a x

/-- Extremes taken in by a write of quality GOOD, CALMISMATCH or SUBST (R34). -/
def Cell.takeExtremes (c : Cell) (v : CellVal) : Cell :=
  if v.quality ≤ 2 ∧ v.type ≠ 4 then
    let x := valueF32 v.type v.value
    if c.extremesValid then { c with min := extremeOf false c.min x, max := extremeOf true c.max x }
    else { c with min := x, max := x, extremesValid := true }
  else c

/-- A write by the cell's writer (R34, R38). -/
def Cell.write (c : Cell) (v : CellVal) : Cell :=
  let c' := { c with own := v, written := true }
  if c.forced.isSome then c' else c'.takeExtremes v

/-- A force from tick `e` (R38). -/
def Cell.force (c : Cell) (type : Nat) (value : Val) (e : Nat) : Cell :=
  let v : CellVal := ⟨value, e, 0, 0, 0x80#8, type⟩
  { c.takeExtremes v with forced := some v }

/-- The end of a force: the writer's latest value comes back and enters the extremes (R38). -/
def Cell.release (c : Cell) : Cell :=
  if c.forced.isSome then
    let c' := { c with forced := none }
    if c.written then c'.takeExtremes c.own else c'
  else c

/-- A reset of the extremes at tick `e` (R34). -/
def Cell.resetExtremes (c : Cell) (e : Nat) : Cell :=
  { c with extremesValid := false, epoch := e % 2 ^ 32 }

/-- A cell whose source is out of service or lost: OFFLINE, with its last value and tick stamp (R25, R39, R43). -/
def Cell.offline (c : Cell) : Cell := { c with own := { c.own with quality := 7, conditions := 0x40#8 } }

/-- A cell whose source has come back: SETTLING (Table 01-9, Table 01-3), with its last value and tick stamp, which the table
does not say (DESIGN CHOICE, log entry 51). -/
def Cell.settling (c : Cell) : Cell := { c with own := { c.own with quality := 3, conditions := 0x04#8 } }

/-- The end of the settling interval of a channel that has come back: a cell that still reads SETTLING from then is GOOD
(Table 01-9). -/
def Cell.settled (c : Cell) : Cell :=
  if c.own.quality = 3 ∧ c.own.conditions = 0x04#8 then { c with own := { c.own with quality := 0, conditions := 0 } }
  else c

/-- A cell read by evaluation, as it stands in this tick (R42). -/
def State.see (s : State) (ref : Nat) : Seen := s.work.see s.content s.power s.workTick ref

/-- A cell read with the previous-tick marker (R41). -/
def State.seePrev (s : State) (ref : Nat) : Seen := s.prev.see s.content s.power s.workTick ref

/-- Whether reading `ref` from unit `slot` is a read of a cell that unit writes itself (R40). -/
def State.seeFrom (s : State) (slot ref : Nat) : Seen :=
  if ref < 8192 ∧ (s.work.cell ref).own.source = slot ∧ slot ≠ 0 ∧ (s.work.cell ref).written then s.seePrev ref
  else s.see ref

/-- A reference to cell 0 of any node means no input, as cell 0 does (R31). -/
def nullRef (r : Nat) : Nat := if r % 8192 = 0 then 0 else r

/-- A configured cell reference. -/
def State.cfgCell (s : State) (id n : Nat) : Nat := nullRef (s.cfg id n)

/-- A cell written by a unit: stamp, quality and conditions as given. -/
def State.writeCell (s : State) (slot ref : Nat) (type : Nat) (value : Val) (stamp : Nat) (conds : BitVec 8) : State :=
  if ref = 0 then s
  else
    s.modWork (fun p => p.setCell ref
      ((p.cell ref).write ⟨value, stamp, slot, condQuality conds, conds, type⟩))

/-- A binary32 cell written. -/
def State.writeF (s : State) (slot ref : Nat) (x : F32) (stamp : Nat) (conds : BitVec 8) : State :=
  s.writeCell slot ref 0 (valF32 x) stamp conds

/-- Usable by loops and their like: quality below 0x03 (R35). -/
def Seen.usable (v : Seen) : Bool := decide (v.quality < 3)

/-- The value as binary32. -/
def Seen.f (v : Seen) : F32 := valueF32 v.type v.value

/-- The CONDITIONS a contributing input adds, the FORCED bit among them (R36). -/
def Seen.conds (v : Seen) : BitVec 8 := v.conditions

/-- What a unit notes of its inputs in an evaluation (R20). -/
def State.noteInputs (s : State) (slot : Nat) (subst unusable : Bool) : State :=
  s.modUnit slot (fun u => { u with inputSubst := subst, inputUnusable := unusable })

/-- An input that carried SUBST. -/
def Seen.isSubst (v : Seen) : Bool := v.conditions.getLsbD 1

/-! ## Jobs (R79 to R82) -/

/-- Job state codes (R81). -/
def JobState.code : JobState → Nat
  | .queued => 0 | .running => 1 | .paused => 2 | .done => 3 | .failed => 4 | .cancelled => 5

/-- A job that has ended. -/
def JobState.ended : JobState → Bool
  | .done | .failed | .cancelled => true
  | _ => false

def State.job (s : State) (h : Nat) : Option Job := s.jobs.find? (fun j => j.handle == h)

def State.modJob (s : State) (h : Nat) (f : Job → Job) : State :=
  { s with jobs := s.jobs.map (fun j => if j.handle = h then f j else j) }

/-- A job ends: its result stands, JOB_DONE is raised; a job whose session is gone is removed at once (R79, R81). -/
def State.endJob (s : State) (h : Nat) (st : JobState) (status detail : Nat) (data : List Byte) : State :=
  match s.job h with
  | none => s
  | some j =>
    let s := s.modJob h (fun j => { j with
      state := st, status := BitVec.ofNat 8 status, detail := BitVec.ofNat 8 detail, data := data
      progress := if st = .done then 1000 else j.progress, pauseDue := false, cancelDue := false })
    let s := s.raise causeJobDone 0xFFFF h (st.code + 256 * status + 65536 * (detail % 256))
    if j.session.isNone then { s with jobs := s.jobs.filter (fun k => k.handle != h) } else s

/-! ## Replies (R52, R59, R66) -/

/-- Status codes (Table 02-9). -/
abbrev stOk : Nat := 0x00
abbrev stAccepted : Nat := 0x01
abbrev stBadVersion : Nat := 0x10
abbrev stBadLength : Nat := 0x11
abbrev stBadOpcode : Nat := 0x12
abbrev stBadPayload : Nat := 0x13
abbrev stBadFlags : Nat := 0x14
abbrev stRange : Nat := 0x15
abbrev stInvalid : Nat := 0x16
abbrev stSequence : Nat := 0x17
abbrev stSessionUnknown : Nat := 0x18
abbrev stNotAuthorised : Nat := 0x19
abbrev stAuthFailed : Nat := 0x1A
abbrev stTooLate : Nat := 0x1B
abbrev stTooFar : Nat := 0x1C
abbrev stState : Nat := 0x1D
abbrev stReadOnly : Nat := 0x1E
abbrev stBusy : Nat := 0x20
abbrev stPowerState : Nat := 0x21
abbrev stConfigRefused : Nat := 0x22
abbrev stCalmed : Nat := 0x23
abbrev stNodeUnreachable : Nat := 0x24
abbrev stJobUnknown : Nat := 0x25
abbrev stVerifyFailed : Nat := 0x30
abbrev stSignature : Nat := 0x31
abbrev stSecVersion : Nat := 0x32
abbrev stInternal : Nat := 0x3F

/-- What a command answers: STATUS, DETAIL, JOB and the data after the prefix. -/
structure Answer where
  status : Nat
  detail : Nat := 0
  job    : Nat := 0
  data   : List Byte := []
  /-- a job whose effective tick is already fixed, or none to take the command's -/
  etick  : Option Nat := none
  deriving DecidableEq, Repr

/-- Executed, with data. -/
def okData (d : List Byte) : Answer := ⟨stOk, 0, 0, d, none⟩
/-- Executed, or scheduled. -/
def okAns : Answer := ⟨stOk, 0, 0, [], none⟩
/-- Refused. -/
def refuse (status : Nat) (detail : Nat := 0) : Answer := ⟨status, detail, 0, [], none⟩

/-- The bytes of a reply: header, prefix, data, tag if any, CRC-32C (R57 to R59). -/
def Reply.body (r : Reply) : List Byte :=
  let len := 8 + r.data.length + (if r.auth then 16 else 0)
  let flags := 0x80 + flagBit r.etick.isSome 6 + flagBit r.auth 5
  [0xB7, 0x4D, 0x01, BitVec.ofNat 8 flags] ++ le 2 r.seq.toNat ++ le 2 r.opcode.toNat ++ le 2 len ++
    le 2 r.session.toNat ++ le 4 (r.etick.getD 0) ++
    [r.status, r.detail] ++ le 2 r.job.toNat ++ le 2 ((r.etick.getD 0) / 2 ^ 32) ++ [0, 0] ++ r.data

/-- A whole reply packet. -/
def Reply.packet (r : Reply) : List Byte := withCrc (r.body ++ r.tag)

/-- The rate that SET_BAUD asked for applies; from now 2 s run (R54). -/
def State.newBaud (s : State) : State :=
  match s.host.baudNext with
  | some rate => { s with host := { s.host with baud := rate, baudAt := some s.tick, baudNext := none } }
  | none => s

/-- The new rate applies from the end of the reply to SET_BAUD (R54). -/
def State.baudChange (s : State) (r : Reply) : State :=
  if r.opcode = 0x0009#16 ∧ r.status = 0#8 then s.newBaud else s

/-- A reply goes out: pending in SPI with REPLY_READY, sent at once in UART (R52, R54, R55, R83). -/
def State.send (s : State) (r : Reply) : State :=
  if s.host.uart then ({ s with host := { s.host with sent := s.host.sent ++ [r] } } : State).baudChange r
  else { s with host := { (s.host.setCause causeReplyReady) with replies := s.host.replies ++ [r] } }

/-! ## Input record notes (R117): what the running tick brings to the record -/

/-- An entry noted for the record of the running tick: TYPE, REF, payload. -/
def State.note (s : State) (type ref : Nat) (payload : List Byte) : State :=
  { s with inrec := { s.inrec with notes := s.inrec.notes ++ [(type, ref, payload)] } }

/-- 4-byte little-endian field of a BitVec-free number with three reserved bytes, as HOLD and CAPACITY entries carry. -/
def code4 (n : Nat) : List Byte := [BitVec.ofNat 8 n, 0, 0, 0]

/-- The module's node number: 0 until a queen has admitted it (R342, R343). -/
def State.nodeNumber (s : State) : Nat := if (Tab.get {} s.link.peers 0).state < 2 then 0 else s.link.nodeId

end Sys2Proof.Machine
end

