-- ==== Sys2Proof/Machine/Memory.lean ====
section
/-! DEFINITION. The SRAM's pages: regions, the free pool, resizes, retirement and the scrub (R106 to R111). -/

namespace Sys2Proof.Machine

/-- Free pages of the pool (R107, R111). -/
def State.pagesFree (s : State) : Nat := 2048 - (s.sram.regions.foldl (· + ·) 0 + s.sram.retired.length)

/-- The free pool: pages of no region that are not retired (R107). -/
def Sram.pool (m : Sram) : List Nat :=
  (List.range 2048).filter (fun p => !m.retired.contains p && !m.map.any (·.contains p))

/-- Regions that have kept their pages, each grown to its size with pages from the front of the pool. -/
def growPages : List (List Nat × Nat) → List Nat → List (List Nat)
  | [], _ => []
  | (have_, n) :: t, pool =>
    (have_ ++ pool.take (n - have_.length)) :: growPages t (pool.drop (n - have_.length))

/-- A resize (R109, R110): a region that shrinks keeps the front of its range; the pages that leave go to the pool, those that
a growing region takes come from it, and all of these are zeroed. -/
def Sram.resize (m : Sram) (sizes : List Nat) : Sram :=
  let kept := m.map.zipIdx.map (fun e => e.1.take (sizes.getD e.2 0))
  let grown := growPages (kept.zipIdx.map (fun e => (e.1, sizes.getD e.2 0))) { m with map := kept }.pool
  let left := (m.map.zip kept).flatMap (fun e => e.1.drop e.2.length)
  let gained := (grown.zip kept).flatMap (fun e => e.1.drop e.2.length)
  { m with map := grown, zeroed := left ++ gained }

/-- The regions laid out anew over the pages in service, as a start does. -/
def Sram.lay (m : Sram) (sizes : List Nat) : Sram :=
  { m with map := layPages sizes ((List.range 2048).filter (fun p => !m.retired.contains p)), zeroed := [] }

/-- A page is retired (R111): a page of the pool takes its place in its region's range, with its content. None when a page of a
region finds no free one. -/
def Sram.retire (m : Sram) (p : Nat) : Option Sram :=
  let out := { m with retired := sortNats (p :: m.retired) }
  if m.map.any (·.contains p) then
    match m.pool with
    | [] => none
    | q :: _ => some { out with map := m.map.map (fun r => r.map (fun x => if x = p then q else x)) }
  else some out

/-- REGION_PAGES of a content. -/
def regionSizes (c : Content) : List Nat := (List.range 12).map (scalarOf c P.REGION_PAGES)

/-- Pages of region `i` that its owner writes: from the start of tick E − 2 a region that shrinks at E is confined to those it
keeps (R109). -/
def State.regionPages (s : State) (i : Nat) : Nat :=
  let now := s.sram.regions.getD i 0
  match s.awaiting with
  | some a =>
    if a.at_ ≤ s.tick + 2 then
      match s.generation a.number with
      | some g => Nat.min now (scalarOf g.content P.REGION_PAGES i)
      | none => now
    else now
  | none => now

/-- The scrub has read a page; after the last one it begins anew (R106). -/
def Sram.scrub (m : Sram) (page : Nat) : Sram :=
  let l := insertSorted m.scrubbed page
  { m with scrubbed := if l.length = 2048 then [] else l }

end Sys2Proof.Machine
end

