-- ==== Sys2Proof/Machine/Field.lean ====
section
/-! DEFINITION. The field side of channels: what a terminal does (Table 04-2), records and their status bytes
(Tables 04-3, 04-4a, 05-2), windows, calibration records in use, flags of the diagnostic page, and the batches that
evaluation takes (R113 to R116). -/

namespace Sys2Proof.Machine

/-! ## Modes and banks -/

/-- Mode of a channel: OFF for a vacant slot (Table 04-17). -/
def State.mode (s : State) (ch : Nat) : Nat := if s.has (chanSlot ch) then s.cfg P.CH_MODE ch else 0
/-- Modes fed by VFLD (R127): DO, DO-PULSE, AO-I, AO-V, COMB. -/
def modeOutput (mode : Nat) : Bool := mode == 3 || mode == 4 || mode == 7 || mode == 8 || mode == 0x0B
/-- DI and DI-COUNT. -/
def modeDi (mode : Nat) : Bool := mode == 1 || mode == 2
/-- DO and DO-PULSE. -/
def modeDo (mode : Nat) : Bool := mode == 3 || mode == 4
/-- Modes with digital records (R141). -/
def modeDigital (mode : Nat) : Bool := decide (1 ≤ mode ∧ mode ≤ 4)

/-- Channels of a bank. -/
def bankChannels (b : Nat) : List Nat := (List.range 8).map (8 * b + ·)

/-- The field side has power: IN_SERVICE, STARTING, or FAILED otherwise than by its supply (Table 04-1, R132). -/
def Bank.powered (b : Bank) : Bool :=
  match b.state with
  | .unpowered | .retired => false
  | .failed => !b.present.getLsbD 1
  | _ => true

/-- Table 04-1. -/
def BankSt.code : BankSt → Nat
  | .unpowered => 0 | .starting => 1 | .inService => 2 | .failed => 3 | .retired => 4

/-- VFLD supervision acts on a bank (R129). -/
def State.monitored (s : State) (b : Nat) : Bool := s.cfg P.VFLD_MONITOR b == 1
/-- The VFLD-fed stages of a bank are off (R169). -/
def State.stagesOff (s : State) (b : Nat) : Bool := s.monitored b && (s.bank b).uvlo
/-- VFLD_LOW as the bank shows it. -/
def State.lowShown (s : State) (b : Nat) : Bool := s.monitored b && (s.bank b).vfldLow

/-! ## Flags of the diagnostic page (R144, Tables 04-6 and 04-7) -/

/-- Fine counts of the running tick (R90, R352). -/
def State.tickFine (s : State) : Nat := 32000 + 1000 * s.link.thisLong

/-- The instant in tick `t` at which the field side of a bank sets a flag: fine count, tick (R91, Table 04-5). -/
def State.eventStamp (s : State) (b t : Nat) : Nat × Nat :=
  (if s.fineValid then Config.eventFine (16 * t + b) % (if t = s.tick then s.tickFine else 32000) else 0xFFFF, t)

/-- A bank flag whose condition comes or goes: set while present, latched until a read. -/
def State.bankFlag (s : State) (b bit : Nat) (on : Bool) : State :=
  let k := s.bank b
  if on && !k.flags.getLsbD bit then
    s.setBank b { k with present := setBit16 k.present bit true, flags := setBit16 k.flags bit true
                         lastEvent := s.eventStamp b s.tick }
  else s.setBank b { k with present := setBit16 k.present bit on, flags := if on then setBit16 k.flags bit true else k.flags }

/-- A bank flag that marks an occurrence without duration. -/
def State.bankMark (s : State) (b bit : Nat) : State := (s.bankFlag b bit true).bankFlag b bit false

/-- A channel flag whose condition comes or goes in tick `t`. -/
def State.chanFlagAt (s : State) (ch bit : Nat) (on : Bool) (t : Nat) : State :=
  let f := s.fch ch
  let fresh := on && !f.flags.getLsbD bit
  let s := s.setFch ch { f with present := setBit16 f.present bit on
                                flags := if on then setBit16 f.flags bit true else f.flags }
  if fresh then s.setBank (ch / 8) { s.bank (ch / 8) with lastEvent := s.eventStamp (ch / 8) t } else s

/-- A channel flag whose condition comes or goes now. -/
def State.chanFlag (s : State) (ch bit : Nat) (on : Bool) : State := s.chanFlagAt ch bit on s.tick

/-- A channel flag that marks an occurrence without duration. -/
def State.chanMark (s : State) (ch bit : Nat) : State := (s.chanFlag ch bit true).chanFlag ch bit false

/-- The common fault bit of a bank: any flag other than COMMON_FAULT (R143). -/
def State.commonFault (s : State) (b : Nat) : Bool :=
  ((s.bank b).flags &&& 0xFFFE#16) != 0 || (bankChannels b).any (fun ch => (s.fch ch).flags != 0)

/-- The VFLD flags of a bank follow its supply; VFLD_MONITOR 0 suppresses them (R129). -/
def State.vfldFlags (s : State) (b : Nat) : State :=
  let k := s.bank b
  let clear (w : BitVec 16) : BitVec 16 := w &&& 0xFF9F#16
  if s.monitored b then (s.bankFlag b 5 k.uvlo).bankFlag b 6 k.vfldLow
  else s.setBank b { k with present := clear k.present, flags := clear k.flags }

/-- Whether a channel is out of service: by CHANNEL_SERVICE, or because its bank has failed or is out. -/
def State.outOfService (s : State) (ch : Nat) : Bool :=
  (s.fch ch).serviceOff || (s.bank (ch / 8)).state == .failed || (s.bank (ch / 8)).state == .retired

/-- FIELD_FAULT_BANKS. -/
def State.faultBanks (s : State) : Nat :=
  (List.range 16).foldl (fun a b => a + flagBit (s.bank b).faultBit b) 0

/-! ## Calibration records (R196 to R199) -/

/-- Group of a mode's calibration records (R196). -/
def calGroup (mode : Nat) : Option Nat :=
  match mode with
  | 5 => some 0 | 6 => some 1 | 9 => some 2 | 7 => some 3 | 8 => some 4 | _ => none

/-- Excitation band of a current (Table 05-6). -/
def excBand (exc : Nat) : Nat := if exc < 1600 then 0 else if exc < 8000 then 1 else if exc < 32000 then 2 else 3

/-- The band tag of a channel: 0xFF outside RES. -/
def State.calBand (s : State) (ch : Nat) : Nat :=
  if s.mode ch = 9 then excBand (s.fch (resForce s.content ch)).excNow else 0xFF

/-- A factory record: what its making put into it is fixed and nowhere stated. -/
def factoryRec (ch group lc band : Nat) : CalRec :=
  let item (k : Nat) : Nat := Config.factoryCal ((((ch * 8 + group) * 4 + lc) * 256 + band) * 8 + k)
  ⟨group, lc, band, BitVec.ofNat 32 (item 0), toSigned 4 (item 1 % 2 ^ 32), BitVec.ofNat 32 (item 2),
    toSigned 4 (item 3 % 2 ^ 32), item 4 % 2 ^ 48⟩

/-- Distance of a record's tags from the present ones; the lower band or class wins a tie (R198). -/
def calDistance (band lc : Nat) (r : CalRec) : Nat :=
  let d (a b : Nat) : Nat := (a - b) + (b - a)
  ((d r.band band * 256 + r.band) * 4 + d r.loadClass lc) * 4 + r.loadClass

/-- The first of the records with the least distance. -/
def calNearest (band lc : Nat) : List CalRec → Option CalRec
  | [] => none
  | r :: t =>
    match calNearest band lc t with
    | none => some r
    | some q => if calDistance band lc q < calDistance band lc r then some q else some r

/-- The field record chosen for a window, if any, and CALMISMATCH (R198). -/
def State.chooseCal (s : State) (ch : Nat) : Option CalRec × Bool :=
  match calGroup (s.mode ch) with
  | none => (none, false)
  | some g =>
    let lc := (s.bank (ch / 8)).loadClass
    let band := s.calBand ch
    match calNearest band lc (((s.fch ch).fieldRecs.map (·.2)).filter (fun r => r.group == g)) with
    | none => (none, false)
    | some r => (some r, !(r.loadClass == lc && r.band == band))

/-- The record in use in a window that load class and band `tags` chose. -/
def State.calInUse (s : State) (ch : Nat) (r : Option CalRec) (tags : Nat × Nat) : CalRec :=
  r.getD (factoryRec ch ((calGroup (s.mode ch)).getD 0) tags.1 tags.2)

/-! ## Output terminals (R136, R139, R207, R239) -/

/-- What a terminal does. `input`: the circuits of an input mode are connected, such as the sink of DI and the shunt of
AI-I (R185). `wave`: a DO-PULSE waveform of a value. `stage`: an analogue output stage at a value, with the gain and the
offset in DAC steps of its calibration record, which the spec names and gives no formula for (R196). -/
inductive Terminal where
  | dead | off | hiZ | input
  | drives (v : Val)
  | wave (v : Val)
  | stage (v : Val) (gain : F32) (offset : Int)
  deriving DecidableEq, Repr

/-- Codes for which the terminal is off whatever the guard says (Tables 04-4, 05-17, 07-10). -/
def faultOff (code : Nat) : Bool := code == 0x03 || decide (0x10 ≤ code ∧ code ≤ 0x13) || code == 0x22 ||
  code == 0x40 || code == 0x41

/-- A value as the mode of a channel puts it out. -/
def State.valueTerminal (s : State) (ch : Nat) (v : Val) : Terminal :=
  match s.mode ch with
  | 4 => .wave v
  | 7 | 8 =>
    let f := s.fch ch
    let r := s.calInUse ch f.calNow f.tagsNow
    .stage v r.fineGain r.fineOffset
  | _ => .drives v

/-- A terminal that holds what was refreshed last (R136). -/
def State.heldTerminal (s : State) (ch : Nat) : Terminal :=
  let f := s.fch ch
  if !f.refreshed then .off
  else
    match f.driven with
    | .value v => s.valueTerminal ch v
    | .hiZ => .hiZ
    | _ => .off

/-- The SAFE_STATE of a terminal (R136, Table 05-14, R239). -/
def State.safeTerminal (s : State) (ch : Nat) : Terminal :=
  let v := s.cfg P.SAFE_STATE ch
  let hold := s.heldTerminal ch
  match s.mode ch with
  | 3 => if v = 1 then .drives 1 else if v = 2 then hold else .off
  | 4 => if v = 1 then .drives 1 else if v = 2 then hold else .off
  | 7 =>
    match v with
    | 1 => hold
    | 2 => s.valueTerminal ch (valF32 (fRat 36 10))
    | 3 => s.valueTerminal ch (valF32 (fRat 21 1))
    | 4 => s.valueTerminal ch (valF32 (s.cfgF P.AO_SAFE_VALUE ch))
    | _ => .off
  | 8 =>
    match v with
    | 1 => hold
    | 2 => s.valueTerminal ch (valF32 (s.cfgF P.AO_SAFE_VALUE ch))
    | _ => .off
  | 0x0B => if v = 1 then .drives 1 else .off
  | _ => .off

/-- The row of Table 04-2 that decides a terminal: 1 to 5 on the field side, 6 for what the last refresh frame carried. -/
def State.driveRow (s : State) (ch : Nat) : Nat :=
  let b := s.bank (ch / 8)
  let f := s.fch ch
  let u := s.view.unit (chanSlot ch)
  if !b.powered || !b.guardArmed then 1
  else if modeOutput (s.mode ch) && s.stagesOff (ch / 8) then 2
  else if f.serviceOff then 3
  else if f.trip.isSome || (u.st == .fault && faultOff u.faultCode) then 4
  else if b.guardTripped && modeOutput (s.mode ch) then 5
  else 6

/-- The feed of a COMB channel is off for the first 100 ms of a start round or an enumeration (R246, R254): in that tick and
102 more. -/
def State.feedCut (s : State) (ch : Nat) : Bool :=
  let within (t0 : Nat) : Bool := decide (t0 ≤ s.tick ∧ s.tick ≤ t0 + 102)
  s.fcombs.any (fun e => s.has (combSlot e.1) && s.cfg P.COMB_CHANNEL e.1 == ch &&
    (e.2.run.any (fun r => r.start && !r.missed && within r.t0) || (e.2.enumerating && within e.2.enumAt)))

/-- The drive of an output terminal (R139). -/
def State.outTerminal (s : State) (ch : Nat) : Terminal :=
  let t : Terminal :=
    match s.driveRow ch with
    | 1 => .dead
    | 2 => .off
    | 3 => .hiZ
    | 4 => .off
    | 5 => s.safeTerminal ch
    | _ =>
      match (s.fch ch).cmd with
      | .off => .off
      | .hiZ => .hiZ
      | .safe => s.safeTerminal ch
      | .value v => s.valueTerminal ch v
  match t with
  | .drives _ => if s.mode ch == 0x0B && s.feedCut ch then .off else t
  | _ => t

/-- The terminal of an input channel: connected whenever the bank has power and the channel is in service (R185); with
DIEL_DC the engine's drive is disabled and the sense input is at high impedance (Table 06-1). -/
def State.inTerminal (s : State) (ch : Nat) : Terminal :=
  let u := s.view.unit (chanSlot ch)
  if !(s.bank (ch / 8)).powered then .dead
  else if (s.fch ch).serviceOff || s.mode ch == 0 then .hiZ
  else if s.mode ch == 0x0A && u.st == .fault && u.faultCode == 0x30 then (if ch % 2 = 0 then .off else .hiZ)
  else .input

/-- The channel that governs a terminal: the even one of a pair for both (R166). -/
def State.pairLead (s : State) (ch : Nat) : Nat :=
  if ch % 2 == 1 && !s.has (chanSlot ch) && modeDo (s.mode (ch - 1)) && s.cfg P.DO_PAIR (ch - 1) == 1 then ch - 1 else ch

/-- What a terminal does. -/
def State.terminal (s : State) (ch : Nat) : Terminal :=
  let c := s.pairLead ch
  if modeOutput (s.mode c) then s.outTerminal c else s.inTerminal c

/-- Rows 6 to 10 of Table 04-2 as the logic side sends them, from the state of the unit in a copy of the plant. -/
def State.driveCmd (s : State) (p : Plant) (ch : Nat) : DriveCmd :=
  let slot := chanSlot ch
  let u := p.unit slot
  let c := p.chan ch
  let mode := s.mode ch
  let own : DriveCmd := if mode = 0x0B then .value 1 else if c.outSafe then .safe else .value c.out
  if !s.has slot || mode == 0 then .hiZ
  else if !modeOutput mode then .off
  else
    match u.st with
    | .fault => if faultOff u.faultCode then .off else .safe
    | .hold => own
    | .stopped => .off
    | _ => if s.rests slot && mode != 0x0B then .off else own

/-- What a valid refresh frame brings a channel (R133). A DO-PULSE value waits for the end of the period of a waveform that
runs, and the last of several applies (R206). -/
def FieldChan.refresh (f : FieldChan) (pulse running : Bool) (c : DriveCmd) : FieldChan :=
  let f := { f with cmd := c, refreshed := true, driven := if c = .safe then f.driven else c }
  match c with
  | .value v =>
    if !pulse then f
    else if !running then { f with pulseNow := v, pulseNext := none }
    else { f with pulseNext := if f.pulseNow = v then none else some v }
  | _ => f

/-! ## DO-PULSE waveforms (R206) -/

/-- Period and high time in whole fine counts for a value y; none for a static level (R206). -/
def State.pulseTimes (s : State) (ch : Nat) (y : F32) : Option (Nat × Nat) :=
  let pwm := s.cfg P.DP_FUNC ch == 0
  let f := toF64 (if pwm then s.cfgF P.DP_FREQ ch else y)
  let duty := toF64 (if pwm then y else s.cfgF P.DP_DUTY ch)
  if !pwm && flt y (fRat 1 10) then none
  else
    let period := ddiv (dOfInt 32768000) f
    let high := ddiv (dmul period duty) (dOfInt 100)
    let p := (drne period).toNat
    let h := (drne high).toNat
    if h < 66 then none else if p < h + 66 then some (p, p) else some (p, h)

/-- Whether the switch of a terminal is on at a window end; `level` is the instant's level of a waveform that switches. -/
def State.switchOn (s : State) (ch : Nat) (level : Bool) : Bool :=
  match s.terminal ch with
  | .wave _ =>
    match s.pulseTimes ch ((s.fch ch).pulseNow.setWidth 32) with
    | none => false
    | some (p, h) => p == h || level
  | .drives v => v != 0
  | .stage v _ _ => v != 0
  | _ => false

/-! ## Calibrated codes (R199) -/

/-- A binary32 as a fraction. -/
def f32Frac (a : F32) : Int × Nat :=
  match f32v a with
  | .fin neg m e => (fpSigned neg m * (2 ^ e.toNat : Nat), 2 ^ (-e).toNat)
  | _ => (0, 1)

/-- A fraction rounded to the nearest integer, ties to even. -/
def rneInt (num : Int) (den : Nat) : Int :=
  if num < 0 then -(rneDiv num.natAbs den : Int) else rneDiv num.natAbs den

/-- int24, saturating. -/
def sat24 (i : Int) : Int := max (-8388608) (min 8388607 i)

/-- (num/den − offset) × gain, exactly and then rounded once to int24 (R199). -/
def calCode (num : Int) (den : Nat) (offset : Int) (gain : F32) : Int :=
  let g := f32Frac gain
  sat24 (rneInt ((num - offset * den) * g.1) (den * g.2))

/-! ## The mains post-filter and the chop cycle (R182, R188) -/

/-- Term j of the post-filter before its scaling, in binary64. -/
def mainsTerm (j : Nat) : F64 :=
  let m := dsub (dOfInt j) (dRat 635 10)
  let s := ddiv (dsin (ddiv (dmul (dmul (dmul (dOfInt 2) dpi) (dOfInt 10)) m) (dOfInt 1024))) (dmul dpi m)
  let c (k : Int) : F64 := dcos (ddiv (dmul (dmul (dOfInt k) dpi) (dOfInt j)) (dOfInt 127))
  let w := dsub (dadd (dsub (dRat 35875 100000) (dmul (dRat 48829 100000) (c 2))) (dmul (dRat 14128 100000) (c 4)))
    (dmul (dRat 1168 100000) (c 6))
  dmul s w

/-- The coefficients h[0] to h[127] at CL 1. -/
def mainsFilter : List F32 :=
  let g := (List.range 128).map mainsTerm
  match g with
  | [] => []
  | a :: t =>
    let total := t.foldl dadd a
    g.map (fun x => toF32 (ddiv x total))

/-- Whether the post-filter acts on a channel (R182). -/
def State.mainsActs (s : State) (ch : Nat) : Bool :=
  let mode := s.mode ch
  (mode == 5 || mode == 6) && s.cfg P.AI_RATE ch == 1 && s.cfg P.MAINS_FILTER ch == 1

/-- Σ h[j] × code[j] as a fraction. -/
def firSum : List F32 → List Int → Int × Nat
  | h :: hs, c :: cs =>
    let g := f32Frac h
    let r := firSum hs cs
    (g.1 * c * r.2 + r.1 * g.2, g.2 * r.2)
  | _, _ => (0, 1)

/-- The post-filter over 128 internal conversions with calibration, exact and rounded once (R182, R199). -/
def firCode (codes : List Int) (offset : Int) (gain : F32) : Int :=
  let f := firSum mainsFilter (codes.map (· - offset))
  let g := f32Frac gain
  sat24 (rneInt (f.1 * g.1) (f.2 * g.2))

/-- A member's code over a chop cycle of 16 internal conversions, as a fraction (R188). `nominal` is i_nominal, `iPos`
and `iNeg` what was measured, in pA. -/
def chopFrac (codes : List Int) (discard nominal iPos iNeg : Nat) : Int × Nat :=
  let kept (ph : List Int) : Int := (ph.drop discard).foldl (· + ·) 0
  let m := 8 - discard
  let p := kept (codes.take 8)
  let n := kept ((codes.drop 8).take 8)
  ((p * nominal * iNeg - n * nominal * iPos), 2 * m * iPos * iNeg)

/-! ## Records (Tables 04-3, 04-4a, 05-2) -/

/-- GUARD_SAFE, VFLD_OFF and VFLD_LOW, common to every record, as they stand. -/
def State.statusHigh (s : State) (ch : Nat) : Nat :=
  flagBit (s.driveRow ch == 5) 6 + flagBit (s.stagesOff (ch / 8)) 5 + flagBit (s.lowShown (ch / 8)) 4

/-- What a record shows of the terminal is latched as its window ends, not as its frame arrives (R176, R93). -/
def State.latchStatus (s : State) (ch t : Nat) : State :=
  if s.mode ch ≠ 0 ∧ t % chanPeriod s.content ch = 0 then
    let f := s.fch ch
    s.setFch ch { f with windowEnd := if s.rests (chanSlot ch) then f.windowEnd else t, condRec := s.statusHigh ch, tripRec := f.trip.isSome
                         switchRec := (s.switchOn ch false, s.switchOn ch true) }
  else s

/-- The record of a DI or DI-COUNT channel at a window end (Table 04-3), but for CLAMP. -/
def State.diRecord (s : State) (ch : Nat) : Conv :=
  let f := s.fch ch
  let fine (o : Option Nat) : Int := match o with | some x => x | none => -1
  let st := BitVec.ofNat 8 (f.condRec + flagBit f.tripRec 3 + flagBit f.level 2)
  if s.mode ch = 1 then ⟨f.edges, fine f.lastFine, st⟩ else ⟨f.counted, fine f.countFine, st⟩

/-- Whether the conduction of the demagnetisation clamp in the window of the last tick lies within the 10 ms after the switch
turned off (R195): less than 10 ticks after the tick in which it did, or in a waveform of at most 10 ms (DEDUCED, log entry
46). -/
def State.turnOff (s : State) (ch : Nat) (on : Bool) : Bool :=
  let f := s.fch ch
  let t := s.tick - 1
  (f.wasOn && !on) || f.offTick.any (fun o => decide (t < o + 10)) ||
    (match s.terminal ch with
     | .wave _ =>
       match s.pulseTimes ch (f.pulseNow.setWidth 32) with
       | some (p, h) => p != h && decide (p ≤ 327680)
       | none => false
     | _ => false)

/-- The record of a DO or DO-PULSE channel from what was measured at the window end (Table 04-3). -/
def State.doRecord (s : State) (ch : Nat) (m : Conv) : Conv :=
  let f := s.fch ch
  let on := if m.status.getLsbD 1 then f.switchRec.2 else f.switchRec.1
  let clamp := m.status.getLsbD 7 || (m.status.getLsbD 0 && !s.turnOff ch on)
  ⟨sat24 m.coarse, sat24 m.fine, BitVec.ofNat 8 (flagBit clamp 7 + f.condRec +
    flagBit f.tripRec 3 + flagBit (decide (1200 < m.fine)) 2 + flagBit on 1)⟩

/-- The status byte of an analogue record (Table 05-2). `j` counts the windows of the tick. -/
def State.anStatus (s : State) (ch j : Nat) (clamp fineValid limit : Bool) : BitVec 8 :=
  let f := s.fch ch
  BitVec.ofNat 8 (flagBit clamp 7 + f.condRec + flagBit f.mismatchRec 3 + flagBit fineValid 2 +
    flagBit (decide (j < f.settleRec)) 1 + flagBit limit 0)

/-- FINE_VALID of a conversion and the hold after it (R178): `kept` when the fine modulator kept its range. -/
def fineOk (path hold : Nat) (kept : Bool) : Bool × Nat :=
  if !kept then (false, 2) else if 0 < hold then (false, hold - 1) else (path != 1, 0)

/-- The records of an AI-V or AI-I channel without post-filter, conversion by conversion. -/
def State.aiRecords (s : State) (ch : Nat) : Nat → List Conv → List Conv × State
  | _, [] => ([], s)
  | j, m :: t =>
    let f := s.fch ch
    let r := s.calInUse ch f.calEnd f.tagsRec
    let v := fineOk (s.cfg P.RANGE_PATH ch) f.fineHold (m.status.getLsbD 2)
    let c : Conv := ⟨calCode m.coarse 1 r.coarseOffset r.coarseGain, calCode m.fine 1 r.fineOffset r.fineGain,
      s.anStatus ch j (m.status.getLsbD 7) v.1 (m.status.getLsbD 0)⟩
    let rest := State.aiRecords (s.setFch ch { f with fineHold := v.2 }) ch (j + 1) t
    (c :: rest.1, rest.2)

/-- A code the spec leaves open, of the record that ends with the last tick: free in its int24 range (log entry 4). -/
def State.freeCode (s : State) (ch path : Nat) : Int :=
  ((Config.unstated 1 [ch, path, s.tick]).toNat % 2 ^ 24 : Nat) - 8388608

/-- The record of a channel with the post-filter: the last 128 internal conversions (R182). Until so many have been
taken since the filter began, the code is open. -/
def State.filteredRecord (s : State) (ch : Nat) (ms : List Conv) : List Conv × State :=
  let f := s.fch ch
  let r := s.calInUse ch f.calEnd f.tagsRec
  let raw := (if f.rawTick + chanPeriod s.content ch = s.tick - 1 then f.raw else []) ++ ms
  let raw := raw.drop (raw.length - 128)
  let v := fineOk (s.cfg P.RANGE_PATH ch) f.fineHold (raw.all (·.status.getLsbD 2))
  let st := s.anStatus ch 0 (ms.any (·.status.getLsbD 7)) v.1 (ms.any (·.status.getLsbD 0))
  let s := s.setFch ch { f with raw := raw, rawTick := s.tick - 1, fineHold := v.2 }
  if raw.length = 128 then
    ([⟨firCode (raw.map (·.coarse)) r.coarseOffset r.coarseGain, firCode (raw.map (·.fine)) r.fineOffset r.fineGain, st⟩], s)
  else
    ([⟨s.freeCode ch 0, s.freeCode ch 1, st⟩], s)

/-- Twice the excitation current in the 3-wire form (R188), in pA. -/
def State.excNominal (s : State) (force : Nat) : Nat :=
  (s.fch force).excRec * 31250 * (if s.cfg P.RES_WIRING force = 3 then 2 else 1)

/-- The record of a RES member over one chop cycle (R188). With no current measured the ratio is open. -/
def State.resRecord (s : State) (ch : Nat) (m : ChanMeas) : List Conv × State :=
  let f := s.fch ch
  let force := resForce s.content ch
  let r := s.calInUse ch f.calEnd f.tagsRec
  let d := s.cfg P.CHOP_DISCARD force
  let v := fineOk (s.cfg P.RANGE_PATH ch) f.fineHold (m.convs.all (·.status.getLsbD 2))
  let st := s.anStatus ch 0 (m.convs.any (·.status.getLsbD 7)) v.1 (m.convs.any (·.status.getLsbD 0))
  let s := s.setFch ch { f with fineHold := v.2 }
  if m.iPos = 0 ∨ m.iNeg = 0 then
    ([⟨s.freeCode ch 0, s.freeCode ch 1, st⟩], s)
  else
    let c := chopFrac (m.convs.map (·.coarse)) d (s.excNominal force) m.iPos m.iNeg
    let x := chopFrac (m.convs.map (·.fine)) d (s.excNominal force) m.iPos m.iNeg
    ([⟨calCode c.1 c.2 r.coarseOffset r.coarseGain, calCode x.1 x.2 r.fineOffset r.fineGain, st⟩], s)

/-- Internal conversions a window takes (R182, R188, Table 05-5). -/
def State.rawCount (s : State) (ch : Nat) : Nat :=
  if s.mode ch = 9 then 16 else if s.mainsActs ch then 64 else chanConvs s.content ch

/-- The record of an output, DIEL or COMB channel that has one conversion: coarse corrected in the AO groups (R196). -/
def State.plainRecord (s : State) (ch : Nat) (m : Conv) : Conv :=
  let f := s.fch ch
  let mode := s.mode ch
  let r := s.calInUse ch f.calEnd f.tagsRec
  let coarse := if mode = 7 ∨ mode = 8 then calCode m.coarse 1 r.coarseOffset r.coarseGain else sat24 m.coarse
  let limit := if mode = 7 then f.openLoop && m.status.getLsbD 0 else mode != 0x0A && m.status.getLsbD 0
  ⟨coarse, if mode = 0x0A then 0 else sat24 m.fine, s.anStatus ch 0 (m.status.getLsbD 7) false limit⟩

/-- The records of the windows of a channel that ended in the last tick, from what was measured; none when something is
missing. -/
def State.formRecords (s : State) (m : ChanMeas) : List Conv × State :=
  let ch := m.ch
  let mode := s.mode ch
  if m.convs.length ≠ s.rawCount ch ∧ !modeDi mode then ([], s)
  else if modeDo mode then (m.convs.map (s.doRecord ch), s)
  else if mode = 9 then s.resRecord ch m
  else if mode = 5 ∨ mode = 6 then
    if s.mainsActs ch then s.filteredRecord ch m.convs else s.aiRecords ch 0 m.convs
  else (m.convs.map (s.plainRecord ch), s)

/-! ## Windows (R93, R189, R198, R210) -/

/-- Settling windows at entry into a mode, return to service or bank start, and for the listed parameter changes. -/
def State.settleEntry (s : State) (ch : Nat) : Nat :=
  match s.mode ch with
  | 5 => if s.mainsActs ch then 5 else 3
  | 6 => if s.mainsActs ch then 5 else 3
  | 9 => s.cfg P.EXC_SETTLE (resForce s.content ch) + 1
  | 7 => 2
  | 8 => 2
  | _ => 0

/-- Settling windows at UNIT_START from STOPPED: at once, and from the window in which the stage turns on (Table 05-16). -/
def State.settleStart (s : State) (ch : Nat) : Nat × Nat :=
  match s.mode ch with
  | 9 => (s.cfg P.EXC_SETTLE (resForce s.content ch) + 1, 0)
  | 7 => (0, 2)
  | 8 => (0, 2)
  | _ => (0, 0)

/-- Tick from which the records of a DI channel are no longer in the debounce interval that began at `t0` (R173). -/
def State.diSettle (s : State) (ch t0 : Nat) : Nat :=
  t0 + (s.cfg P.DEBOUNCE ch * 32768 + 1000 + 31999999) / 32000000 - 1

/-- A settling interval begins at tick `t` (Table 05-16, R173). -/
def State.beginSettle (s : State) (ch windows t : Nat) : State :=
  let s := s.setFch ch { s.fch ch with settle := windows }
  if modeDi (s.mode ch) then
    s.modPlants (fun p => p.setChan ch { p.chan ch with settleUntil := s.diSettle ch t })
  else s

/-- Windows of a channel that end in one tick in which windows end. -/
def State.windowsPerTick (s : State) (ch : Nat) : Nat := chanConvs s.content ch

/-- The end of the windows that close with the tick before `t`: what settling and calibration they ran under is latched
for their records. -/
def State.endWindow (s : State) (ch t : Nat) : State :=
  if t % chanPeriod s.content ch = 0 then
    let f := s.fch ch
    let on := match s.terminal ch with | .stage _ _ _ => true | _ => false
    let settle := if on then Nat.max f.settle f.settleDue else f.settle
    s.setFch ch { f with settleRec := settle, settle := settle - s.windowsPerTick ch
                         settleDue := if on then 0 else f.settleDue, calEnd := f.calNow
                         mismatchRec := f.mismatchNow, tagsRec := f.tagsNow, excRec := f.excNow }
  else s

/-- Channels of a RES element: force, then sense members (Table 05-9). -/
def resMembers (c : Content) (force : Nat) : List Nat :=
  let at_ (k : Nat) : Nat := 8 * (force / 8) + k % 8
  match scalarOf c P.RES_WIRING force with
  | 3 => [force, at_ (scalarOf c P.RES_SENSE_1 force)]
  | 4 => [force, at_ (scalarOf c P.RES_SENSE_1 force), at_ (scalarOf c P.RES_SENSE_2 force)]
  | _ => [force]

/-- Whether the excitation of a RES element is on: every member is ACTIVE, in service and does not rest (R174, R194, R211,
R419). -/
def State.excOn (s : State) (force : Nat) : Bool :=
  (resMembers s.content force).all (fun m =>
    !(s.fch m).serviceOff && (s.unit (chanSlot m)).st == .active && !s.rests (chanSlot m))

/-- The excitation of a channel at boundary `t`: off at once; a new current begins with the first window at or after its
effective tick, with its settling count (R189). -/
def State.applyExc (s : State) (ch t : Nat) : State :=
  let f := s.fch ch
  let force := resForce s.content ch
  let want := if s.mode ch = 9 ∧ s.excOn force then s.run P.EXC_CURRENT force else 0
  let settle := s.cfg P.EXC_SETTLE force
  if f.excNow = want then s
  else if want = 0 then s.setFch ch { f with excNow := 0 }
  else if t % chanPeriod s.content ch = 0 then
    s.setFch ch { f with excNow := want, settle := if f.excNow = 0 then Nat.max f.settle settle else settle }
  else s

/-- A new field record takes the place of one with its group and tags, or a free one (R200). -/
def placeRec (l : List (Nat × CalRec)) (r : CalRec) : List (Nat × CalRec) :=
  let l := l.filter (fun e => !(e.2.group == r.group && e.2.loadClass == r.loadClass && e.2.band == r.band))
  match (List.range 16).find? (fun i => !(l.map (·.1)).contains i) with
  | some i => l ++ [(i, r)]
  | none => l

/-- The start of a window at tick `t`: the record that the whole window uses (R198, R200). -/
def State.beginWindow (s : State) (ch t : Nat) : State :=
  if t % chanPeriod s.content ch = 0 then
    let f := s.fch ch
    let due := f.newRecs.filter (fun r => decide (r.1 ≤ t))
    let s := s.setFch ch { f with newRecs := f.newRecs.filter (fun r => decide (t < r.1))
                                  fieldRecs := (due.map (·.2)).foldl placeRec f.fieldRecs }
    let c := s.chooseCal ch
    s.setFch ch { s.fch ch with calNow := c.1, mismatchNow := c.2
                                tagsNow := ((s.bank (ch / 8)).loadClass, s.calBand ch) }
  else s

/-- A digital input's record is latched at the end of its window and its edge counts start again. -/
def State.latchDi (s : State) (ch t : Nat) : State :=
  let f := s.fch ch
  s.setFch ch { f with latched := some (t, s.diRecord ch), edges := 0, lastFine := none
                       counted := 0, countFine := none }

/-! ## Stamp batches (R154, R155) -/

/-- The first 8 stamps of each channel get places; the rest share what remains of 64, in time order. Answers the stamps
placed, in order, and those dropped. -/
def placeStamps (l : List Stamp) : List Stamp × List Stamp :=
  let nth (i : Nat) (x : Stamp) : Nat := ((l.take i).filter (fun y => y.ch == x.ch)).length
  let idx := l.zipIdx
  let first := idx.filter (fun e => decide (nth e.2 e.1 < 8))
  let rest := idx.filter (fun e => !decide (nth e.2 e.1 < 8))
  let more := (rest.take (64 - first.length)).map (·.2)
  let ok (e : Stamp × Nat) : Bool := decide (nth e.2 e.1 < 8) || more.contains e.2
  ((idx.filter ok).map (·.1), (idx.filter (fun e => !ok e)).map (·.1))

/-- Time order, ties by ascending channel. -/
def stampBefore (a b : Stamp) : Bool :=
  decide (a.tick < b.tick) || (a.tick == b.tick && (decide (a.fine < b.fine) || (a.fine == b.fine && decide (a.ch ≤ b.ch))))

/-- Insertion in time order, after equal stamps. -/
def insertStamp : List Stamp → Stamp → List Stamp
  | [], x => [x]
  | y :: t, x => if stampBefore y x then y :: insertStamp t x else x :: y :: t

/-- Adds to a small table of counts. -/
def addCount (l : List (Nat × Nat)) (k n : Nat) : List (Nat × Nat) :=
  if l.any (fun e => e.1 == k) then l.map (fun e => if e.1 = k then (e.1, e.2 + n) else e)
  else if n = 0 then l else l ++ [(k, n)]

/-- The stamp batch of the ended tick is formed (R154). -/
def State.latchStamps (s : State) (b : Nat) : State :=
  let k := s.bank b
  let p := placeStamps k.stamps
  let s := s.setBank b { k with stamps := [], batch := p.1, batchIn := false
                                lost := p.2.foldl (fun l x => addCount l (x.ch % 8) 1) []
                                lostField := sat32 (k.lostField + p.2.length) }
  p.2.foldl (fun s x => s.chanMark x.ch 8) s

/-- A stamp batch that has missed its deadline is held back; one held back before it is discarded (R115, R155). -/
def State.holdStamps (s : State) (b : Nat) : State :=
  let k := s.bank b
  if k.batchIn then s
  else s.setBank b { k with
    heldBack := k.batch.map (fun x => { x with late := true })
    heldLost := k.lost
    batch := []
    lost := []
    lateSamples := sat32 (k.lateSamples + k.heldBack.length) }

/-- The stamp batch of the last tick is delivered, after one held back (R115, R155). -/
def State.deliverStamps (s : State) (b : Nat) : State :=
  let k := s.bank b
  if k.batchIn then s
  else
    let lost := k.lost.foldl (fun l e => addCount l e.1 e.2) k.heldLost
    let i := s.inputs (s.tick - 1)
    let s := s.setInputs (s.tick - 1) { i with edges := Tab.put ([], []) i.edges b (k.heldBack ++ k.batch, lost) }
    s.setBank b { k with
      batchIn := true
      batch := []
      lost := []
      heldBack := []
      heldLost := [] }

/-- Channels of a bank with windows of analogue kind. -/
def State.windowChannels (s : State) (b : Nat) : List Nat :=
  (bankChannels b).filter (fun ch => !modeDigital (s.mode ch) && s.mode ch != 0)

/-! ## Loop rail and channel flags (R144, R203) -/

/-- Terminal voltage that an AO-I channel needs at its set current, in mV; the rail's maximum without a measured
resistance. -/
def State.railNeed (s : State) (ch : Nat) : Nat :=
  let most := (s.bank (ch / 8)).vfld - 1500
  match s.terminal ch with
  | .stage v _ _ =>
    match (s.fch ch).loopOhm with
    | some (mv, ua) => (frne (fmul (v.setWidth 32) (fOfNat 1000))).toNat * mv / ua
    | none => most
  | _ => 0

/-- The rail of a bank in a tick: it rises at once, and falls after the lower need has lasted 10 ms, which 11 ticks hold. -/
def State.railStep (s : State) (b : Nat) : State :=
  let k := s.bank b
  let chs := (bankChannels b).filter (fun ch => s.mode ch == 7)
  let need := (chs.map s.railNeed).foldl Nat.max 0 + 2000
  let rail := Nat.min (Nat.max need 4000) (Nat.max 4000 (k.vfld - 1500))
  if k.rail ≤ rail ∨ 11 ≤ k.railLow then s.setBank b { k with rail := rail, railLow := 0 }
  else s.setBank b { k with railLow := k.railLow + 1 }

/-- The flags of a channel that show a condition of the field side (Table 04-7). -/
def State.fieldFlags (s : State) (ch : Nat) : State :=
  let f := s.fch ch
  let b := ch / 8
  let out := modeOutput (s.mode ch)
  let wired := (bankChannels b).any (fun c => (s.fch c).trip == some 0x12 && (s.fch c).partner == ch % 8)
  let s := s.chanFlag ch 2 (f.trip == some 0x10)
  let s := s.chanFlag ch 3 (f.trip == some 0x11)
  let s := s.chanFlag ch 4 (f.trip == some 0x12 || wired)
  let s := s.chanFlag ch 5 (f.trip == some 0x13)
  let s := s.chanFlag ch 9 (out && s.driveRow ch == 5)
  let s := s.chanFlag ch 10 (out && s.stagesOff b)
  s.chanFlag ch 11 (s.outOfService ch)

/-- The flags of a bank's channels. -/
def State.bankFlags (s : State) (b : Nat) : State :=
  ((bankChannels b).filter (fun ch => s.has (chanSlot ch))).foldl State.fieldFlags s

/-- A load class decided earlier applies from its tick on (R197). -/
def State.applyLoad (s : State) (t b : Nat) : State :=
  let k := s.bank b
  match (k.loadNext.filter (fun e => decide (e.1 ≤ t))).getLast? with
  | none => s
  | some e => s.setBank b { k with loadClass := e.2, loadNext := k.loadNext.filter (fun e => decide (t < e.1)) }

/-- What the field side does with the windows and edges of a bank that end as tick `t` begins. -/
def State.fieldBoundary (s : State) (t b : Nat) : State :=
  if (s.bank b).powered then
    let s := (bankChannels b).foldl (fun s ch => s.latchStatus ch t) s
    let s := (bankChannels b).foldl (fun s ch => if modeDi (s.mode ch) then s.latchDi ch (t - 1) else s) s
    ((s.windowChannels b).foldl (fun s ch => s.endWindow ch t) (s.latchStamps b)).railStep b
  else s

/-- The windows of a bank's channels that start at tick `t`, after the events of its boundary. -/
def State.windowBoundary (s : State) (t b : Nat) : State :=
  let chs := s.windowChannels b
  let s := (s.applyLoad t b).bankFlags b
  let s := chs.foldl (fun s ch => s.applyExc ch t) s
  chs.foldl (fun s ch => s.beginWindow ch t) s

end Sys2Proof.Machine
end

