-- ==== Sys2Proof/Machine/Channels.lean ====
section
/-! DEFINITION. Channel units (kind 0x03) but for DIEL and COMB: batches and their substitution, and the evaluation of
the modes DI, DI-COUNT, DO, DO-PULSE, AI-V, AI-I, RES, AO-I and AO-V. -/

namespace Sys2Proof.Machine

/-! ## Batches (R94, R113 to R116) -/

/-- The status bits of a batch together. -/
def batchStatus (l : List Conv) : BitVec 8 := l.foldl (fun a c => a ||| c.status) 0

/-- A conversion in the 8 bytes of a SAMPLE entry (Table 03-6). -/
def convBytes (c : Conv) : List Byte := leInt 3 c.coarse ++ leInt 3 c.fine ++ [c.status, 0]

/-- Conversion k after the last one used, by linear extrapolation (R113). -/
def extrapolate (last prev : Conv) (k : Nat) : Conv :=
  ⟨sat24 (last.coarse + k * (last.coarse - prev.coarse)), sat24 (last.fine + k * (last.fine - prev.fine)), last.status⟩

/-- The batch that replaces an incomplete one, by rule, with the rule that applied (R113, R114). `m` is the number of
the batch in its run, `n` its conversions. -/
def substBatch (rule limit m n : Nat) (history : List Conv) : Nat × List Conv :=
  let rule := if limit < m then 2 else rule
  match rule, history with
  | 0, x :: _ => (0, List.replicate n x)
  | 1, x :: y :: _ => (1, (List.range n).map (fun j => extrapolate x y ((m - 1) * n + j + 1)))
  | _, _ => (2, [])

/-- The batch that channel `ch` uses in the tick being evaluated (R116): delivered, substituted or none. -/
def State.gather (s : State) (ch : Nat) : State :=
  let slot := chanSlot ch
  let mode := s.mode ch
  let c := s.work.chan ch
  if mode = 0 ∨ s.rests slot ∨ s.workTick % chanPeriod s.content ch ≠ 0 then
    s.modWork (·.setChan ch { c with batch := [], skip := true, subst := false })
  else
    let n := chanConvs s.content ch
    let b := Tab.get [] (s.inputs (s.workTick - 1)).batches ch
    if b.length = n then
      (s.modWork (·.setChan ch { c with batch := b, skip := false, subst := false, missRun := 0
                                        history := (b.reverse ++ c.history).take 2 })).note 0x10 slot
        (b.map convBytes).flatten
    else
      let m := c.missRun + 1
      let r := substBatch (s.cfg P.SUBST_RULE ch) (s.cfg P.SUBST_LIMIT ch) m n c.history
      (s.modWork (·.setChan ch { c with batch := r.2, skip := r.1 == 2, subst := r.1 != 2, missRun := m })).note 0x30 slot
        [BitVec.ofNat 8 r.1, BitVec.ofNat 8 (min m 255), BitVec.ofNat 8 n, 0]

/-- A batch that missed its input deadline, apart from evaluation: SUBST_COUNT, and LATE_BATCH of a bank in service
(Table 04-6). -/
def State.countSubst (s : State) (ch : Nat) : State :=
  if (s.work.chan ch).missRun ≠ (s.base.chan ch).missRun ∧ (s.work.chan ch).missRun ≠ 0 then
    let s := s.setFch ch { s.fch ch with substCount := sat32 ((s.fch ch).substCount + 1) }
    if (s.bank (ch / 8)).state = .inService ∧ s.workTick ≤ (s.fch ch).windowEnd then s.bankMark (ch / 8) 3 else s
  else s

/-! ## Conditions and faults of a record -/

/-- The conditions that a batch brings to the cells computed from it (R36, R173, R195, R198, R210). -/
def batchConds (mode : Nat) (st : BitVec 8) (subst : Bool) : BitVec 8 :=
  (if st.getLsbD 7 then condBit 5 else 0) ||| (if subst then condBit 2 else 0) |||
    (if modeDigital mode then 0
     else (if st.getLsbD 1 then condBit 3 else 0) ||| (if st.getLsbD 3 then condBit 1 else 0))

/-- BAD. -/
def badIf (b : Bool) : BitVec 8 := if b then condBit 6 else 0

/-- Open-load detection over records (R168). -/
def openLoadStep (enabled on : Bool) (ma : Int) (c : ChanState) : ChanState :=
  if !enabled then { c with openRun := 0, openLoad := false }
  else if !on then { c with openRun := 0 }
  else if ma < 3 then
    { c with openRun := c.openRun + 1, openLoad := c.openLoad || decide (1024 ≤ c.openRun + 1) }
  else { c with openRun := 0, openLoad := false }

/-- OPEN_LOAD of a DO or DO-PULSE channel follows its records whatever the state of its unit (R168). -/
def State.openLoadRecord (s : State) (ch : Nat) : State :=
  let c := s.work.chan ch
  match c.batch.getLast? with
  | some r =>
    if !modeDo (s.mode ch) then s
    else
      let c := openLoadStep (s.cfg P.OPEN_LOAD_EN ch == 1) (r.status.getLsbD 1) r.coarse c
      (s.modWork (·.setChan ch c)).chanFlagAt ch 6 c.openLoad (s.workTick - 1)
  | none => s

/-- Faults that a record raises, whatever the unit's state (R142, R165, R171, R201): a protection trip when it first
shows, a VFLD loss under VFLD_LATCH, an invalid factory record of the mode's group. -/
def State.recordFaults (s : State) (ch : Nat) : State :=
  let slot := chanSlot ch
  let mode := s.mode ch
  let c := s.work.chan ch
  let st := batchStatus c.batch
  let f := s.fch ch
  let s := if !c.skip && modeDo mode && st.getLsbD 3 && !c.lastRec.status.getLsbD 3 then s.detect slot (f.trip.getD 0x10) else s
  let s :=
    if !c.skip && modeOutput mode && st.getLsbD 5 && s.cfg P.VFLD_LATCH (ch / 8) == 1 && (s.unit slot).st != .stopped then
      s.detect slot 0x03
    else s
  let s :=
    match calGroup mode with
    | some g => if f.calInvalid.contains g then s.detect slot 0x22 else s
    | none => s
  let s := s.openLoadRecord ch
  match c.batch.getLast? with
  | some r => s.modWork (·.setChan ch { s.work.chan ch with lastRec := r })
  | none => s

/-! ## Digital inputs (R151 to R153) -/

/-- Edges that reach the active level among `n` alternating ones that end at level `active` (R151). -/
def activeEdges (n : Nat) (active : Bool) : Nat := if active then (n + 1) / 2 else n / 2

/-- Runs of the active level and STUCK (R152). `limit` in seconds, 0 for off. -/
def stuckStep (limit : Nat) (active : Bool) (c : ChanState) : ChanState :=
  let run := if active then c.stuckRun + 1 else 0
  { c with stuckRun := run
           stuck := if !active || limit == 0 then false else c.stuck || decide (limit * 1024 < run) }

/-- The edge count of a block of 1,024 records and CHATTER (R153), at the record of tick `t` with `n` edges. -/
def chatterStep (max t n : Nat) (c : ChanState) : ChanState :=
  let first := t % 1024 == 0
  let count := (if first then 0 else c.chatCount) + n
  let set := decide (0 < max) && decide (max < count)
  let stay := c.chatter && decide (0 < max) && !(first && decide (c.chatCount ≤ max))
  { c with chatCount := count, chatter := set || stay }

/-- DI: level and active-going edges (R151). -/
def State.evalDi (s : State) (ch : Nat) : State :=
  let slot := chanSlot ch
  let c := s.work.chan ch
  let t := s.workTick - 1
  match c.batch.getLast? with
  | none => s.modWork (·.setChan ch (chatterStep (s.cfg P.CHATTER_MAX ch) t 0 c))
  | some r =>
    let active := r.status.getLsbD 2 != (s.cfg P.DI_INVERT ch == 1)
    let n := r.coarse.toNat
    let c := { c with edgeCount := (c.edgeCount + activeEdges n active) % 2 ^ 32 }
    let c := stuckStep (s.cfg P.STUCK_LIMIT ch) active c
    let c := chatterStep (s.cfg P.CHATTER_MAX ch) t n c
    let conds := batchConds 1 (batchStatus c.batch) c.subst |||
      (if t < c.settleUntil then condBit 3 else 0) |||
      badIf (c.stuck || (c.chatter && s.cfg P.CHATTER_ACTION ch == 1))
    let s := s.modWork (·.setChan ch c)
    let s := (s.chanFlagAt ch 0 c.stuck t).chanFlagAt ch 1 c.chatter t
    let s := s.writeCell slot slot 2 (if active then 1 else 0) t conds
    s.writeCell slot (s.cfg P.AUX_CELL ch) 2 (BitVec.ofNat 64 c.edgeCount) t conds

/-! ## Counting inputs (R158 to R160) -/

/-- Frequency, period or tach from `a` edges over `d` fine counts, in binary64 and rounded once (R159). -/
def countCompute (func ppr a d : Nat) : F32 :=
  let x := dmul (dOfInt a) (dOfInt 32768000)
  let dd := dOfInt d
  match func with
  | 1 => toF32 (ddiv x dd)
  | 2 => toF32 (ddiv dd x)
  | _ => toF32 (ddiv (dmul x (dOfInt 60)) (dmul (dOfInt ppr) dd))

/-- One step of reciprocal counting: `n` edges, the last at fine count `fine` of tick `t` (R159). Without a valid fine
count the edges count and no value is computed (R150). -/
def countStep (func ppr gate timeout t n : Nat) (fine : Int) (c : ChanState) : ChanState :=
  if 0 < n then
    let c := { c with count := (c.count + n) % 2 ^ 32, idle := 0 }
    if fine < 0 ∨ 62999 < fine then (if c.refValid then { c with acc := c.acc + n } else c)
    else
      let last := t * 32000 + fine.toNat
      if !c.refValid then { c with ref := last, acc := 0, refValid := true }
      else
        let c := { c with acc := c.acc + n }
        if gate * 32000 ≤ last - c.ref then
          { c with value := countCompute func ppr c.acc (last - c.ref), ref := last, acc := 0, settled := true
                   valueBad := false }
        else c
  else
    let c := { c with idle := c.idle + 1 }
    if timeout ≤ c.idle then
      { c with refValid := false, value := 0, settled := true, valueBad := func == 2 }
    else c

/-- DI-COUNT. -/
def State.evalCount (s : State) (ch : Nat) : State :=
  let slot := chanSlot ch
  let c := s.work.chan ch
  let t := s.workTick - 1
  match c.batch.getLast? with
  | none => s
  | some r =>
    let func := s.cfg P.COUNT_FUNC ch
    let c := countStep func (s.cfg P.COUNT_PPR ch) (s.cfg P.COUNT_GATE ch) (s.cfg P.COUNT_ZERO_TIMEOUT ch) t
      r.coarse.toNat r.fine c
    let conds := batchConds 2 (batchStatus c.batch) c.subst
    let s := s.modWork (·.setChan ch c)
    if func = 0 then s.writeCell slot slot 2 (BitVec.ofNat 64 c.count) t conds
    else
      let conds := conds ||| (if c.settled then 0 else condBit 3)
      let s := s.writeF slot slot c.value t (conds ||| badIf c.valueBad)
      s.writeCell slot (s.cfg P.AUX_CELL ch) 2 (BitVec.ofNat 64 c.count) t conds

/-! ## Outputs (R161, R162, R202) -/

/-- Limits of an output value (R202), in mA, V, % or Hz. -/
def State.outLimits (s : State) (ch : Nat) : F32 × F32 :=
  match s.mode ch with
  | 7 => if s.cfg P.AO_NE43 ch = 1 then (fRat 38 10, fRat 205 10) else (0, fRat 24 1)
  | 8 => (0, fRat 105 10)
  | _ => if s.cfg P.DP_FUNC ch = 0 then (0, fRat 100 1) else (0, fRat 100000 1)

/-- Retransmission (R202): y from a source value. -/
def State.retransmit (s : State) (ch : Nat) (v : F32) : F32 :=
  let lo := s.cfgF P.RETX_OUT_LO ch
  let k := fdiv (fsub (s.cfgF P.RETX_OUT_HI ch) lo) (fsub (s.cfgF P.RETX_SRC_HI ch) (s.cfgF P.RETX_SRC_LO ch))
  let y := fadd lo (fmul (fsub v (s.cfgF P.RETX_SRC_LO ch)) k)
  let l := s.outLimits ch
  fclamp y l.1 l.2

/-- The switch condition of a DO source by its TYPE (R161). -/
def doSource (type bitNo : Nat) (v : Val) : Bool :=
  match type with
  | 0 => fle (fRat 1 2) (v.setWidth 32)
  | 4 => v.getLsbD bitNo
  | _ => v != 0

/-- A usable source of an output: below STALE and SETTLING, no NaN (R161, R162). -/
def Seen.drives (v : Seen) : Bool := v.usable && !(v.type == 0 && fNaN (v.value.setWidth 32))

/-- The output value of a channel from its source (R161, R162, R202). -/
def State.evalSource (s : State) (ch : Nat) : State :=
  let slot := chanSlot ch
  let v := s.seeFrom slot (s.cfg P.OUT_SRC ch)
  let c := s.work.chan ch
  let s := s.noteInputs slot v.isSubst (!v.drives)
  let c :=
    if v.drives then
      let y : Val :=
        if s.mode ch = 3 then (if doSource v.type (s.cfg P.OUT_SRC_BIT ch) v.value then 1 else 0)
        else valF32 (s.retransmit ch v.f)
      { c with out := y, outSafe := false, lastUsable := some y }
    else
      match s.cfg P.SRC_LOSS_ACTION ch, c.lastUsable with
      | 0, some y => { c with out := y, outSafe := false }
      | _, _ => { c with outSafe := true }
  s.modWork (·.setChan ch c)

/-- DO and DO-PULSE: source, then the cells from the record (R161, R168, R170, R206). -/
def State.evalDo (s : State) (ch : Nat) : State :=
  let slot := chanSlot ch
  let s := s.evalSource ch
  let c := s.work.chan ch
  let t := s.workTick - 1
  match c.batch.getLast? with
  | none => s
  | some r =>
    let off := r.status.getLsbD 5
    let conds := batchConds 3 (batchStatus c.batch) c.subst ||| badIf off
    let s :=
      if s.mode ch = 3 then s.writeCell slot slot 2 (if !off && r.status.getLsbD 1 then 1 else 0) t conds
      else s.writeCell slot slot 0 (if off then 0 else c.out) t conds
    s.writeF slot (s.cfg P.AUX_CELL ch) (fRat r.coarse 1000) t conds

/-- AO-I and AO-V: source, then the readback (R203 to R205, R208). -/
def State.evalAo (s : State) (ch : Nat) : State :=
  let slot := chanSlot ch
  let s := s.evalSource ch
  let c := s.work.chan ch
  let t := s.workTick - 1
  match c.batch.getLast? with
  | none => s
  | some r =>
    let current := s.mode ch == 7
    let off := r.status.getLsbD 5
    let conds := batchConds 7 (batchStatus c.batch) c.subst ||| badIf (off || (current && r.status.getLsbD 0))
    let lsbC := if current then fRat 32 (1000 * 2 ^ 23) else fRat 12 (2 ^ 23)
    let lsbF := if current then fRat 1 100 else fRat 1 1000000
    let s := s.writeF slot slot (if off then 0 else fmul (fOfInt r.coarse) lsbC) t conds
    s.writeF slot (s.cfg P.AUX_CELL ch) (fmul (fOfInt r.fine) lsbF) t conds

/-! ## Two paths and their selection (R177, R179, R180) -/

/-- Constants of Tables 05-1 and 05-3. -/
structure PathConst where
  lsbC   : F32
  lsbF   : F32
  bandLo : F32
  bandHi : F32
  invW   : F32
  fullF  : F32
  deriving DecidableEq, Repr

/-- AI-I, or AI-V and RES. -/
def pathConst (mode : Nat) : PathConst :=
  if mode = 6 then
    ⟨fRat 32 (1000 * 2 ^ 23), fRat 32 (10000 * 2 ^ 23), fRat 24 10000, fRat 30 10000, fRat 10000 6, fRat 32 10000⟩
  else ⟨fRat 12 (2 ^ 23), fRat 16 (100 * 2 ^ 23), fRat 12 100, fRat 15 100, fRat 100 3, fRat 16 100⟩

/-- The value of one conversion, whether it is BAD for want of a valid fine path, and the run of mismatches after it
(R179, R180). -/
def pathSelect (k : PathConst) (path : Nat) (matchLimit : F32) (run : Nat) (c : Conv) : F32 × Bool × Nat :=
  let xc := fmul (fOfInt c.coarse) k.lsbC
  let xf := fmul (fOfInt c.fine) k.lsbF
  let ok := c.status.getLsbD 2
  match path with
  | 1 => (xc, false, run)
  | 2 => (xf, !ok, run)
  | _ =>
    if !ok then (xc, false, run)
    else
      let a := fabs xf
      if fle a k.bandLo then (xf, false, run)
      else if fle k.bandHi a then (xc, false, run)
      else
        let w := fmul (fsub k.bandHi a) k.invW
        let d := fsub xf xc
        (fadd xc (fmul w d), false, if flt matchLimit (fabs d) then run + 1 else 0)

/-- The values of a batch, conversion by conversion. -/
def pathBatch (k : PathConst) (path : Nat) (matchLimit : F32) : Nat → List Conv → List (F32 × Bool) × Nat
  | run, [] => ([], run)
  | run, c :: t =>
    let x := pathSelect k path matchLimit run c
    let r := pathBatch k path matchLimit x.2.2 t
    ((x.1, x.2.1) :: r.1, r.2)

/-- match_limit (R180). -/
def State.matchLimit (s : State) (ch : Nat) : F32 :=
  fmul (fdiv (s.cfgF P.MATCH_LIMIT ch) (fRat 100 1)) (pathConst (s.mode ch)).fullF

/-- The values of the batch in use, with the fault of R180 when the run reaches 64. -/
def State.selectPaths (s : State) (ch : Nat) : List (F32 × Bool) × State :=
  let c := s.work.chan ch
  let r := pathBatch (pathConst (s.mode ch)) (s.cfg P.RANGE_PATH ch) (s.matchLimit ch) c.mismatchRun c.batch
  let s := s.modWork (·.setChan ch { c with mismatchRun := r.2 })
  (r.1, if 64 ≤ r.2 then s.detect (chanSlot ch) 0x21 else s)

/-! ## Voltage and current inputs (R183 to R186) -/

/-- The BAD tests of AI-V and AI-I on one value (R184, R185). -/
def State.aiBad (s : State) (ch : Nat) (x : F32) (limit : Bool) : Bool :=
  if s.mode ch = 5 then
    if s.cfg P.AI_RANGE ch = 0 then flt (fRat 11 1) (fabs x)
    else flt x (fRat (-5) 10) || flt (fRat 11 1) x
  else
    flt x (fRat (-5) 10000) || flt (fRat 25 1000) x || limit ||
      (s.cfg P.AI_NE43 ch == 1 && (fle x (fRat 36 10000) || fle (fRat 21 1000) x))

/-- The engineering value (R186). -/
def State.aiValue (s : State) (ch : Nat) (x : F32) : F32 :=
  let k := fdiv (fsub (s.cfgF P.AI_EU_HI ch) (s.cfgF P.AI_EU_LO ch)) (fsub (s.cfgF P.AI_IN_HI ch) (s.cfgF P.AI_IN_LO ch))
  fadd (s.cfgF P.AI_EU_LO ch) (fmul (fsub x (s.cfgF P.AI_IN_LO ch)) k)

/-- AI-V and AI-I. -/
def State.evalAi (s : State) (ch : Nat) : State :=
  let slot := chanSlot ch
  let (xs, s) := s.selectPaths ch
  let c := s.work.chan ch
  let t := s.workTick - 1
  match xs with
  | [] => s
  | (x0, _) :: rest =>
    let x := if rest = [] then x0 else fdiv ((rest.map (·.1)).foldl fadd x0) (fOfNat xs.length)
    let each := (xs.zip c.batch).any (fun e => e.1.2 || s.aiBad ch e.1.1 (e.2.status.getLsbD 0))
    let conds := batchConds 5 (batchStatus c.batch) c.subst ||| badIf (each || s.aiBad ch x false)
    let s := s.writeF slot slot (s.aiValue ch x) t conds
    s.writeF slot (s.cfg P.AUX_CELL ch) x t conds

/-! ## Resistance (R190 to R194) -/

/-- The selected value of a RES member, kept for the element's results. -/
def State.selectRes (s : State) (ch : Nat) : State :=
  let (xs, s) := s.selectPaths ch
  let c := s.work.chan ch
  match xs with
  | [] => s
  | (x, bad) :: _ =>
    let st := batchStatus c.batch
    s.modWork (·.setChan ch { c with x := x, xConds := batchConds 9 st c.subst ||| badIf bad, xLimit := st.getLsbD 0 })

/-- Volts over the excitation current, in Ω (R193); `k` multiplies the current. -/
def ohms (d : F64) (exc k : Nat) : F64 := ddiv (dmul d (dOfInt 32000000)) (dOfInt (exc * k : Nat))

/-- Resistance range of an element (Table 05-8). -/
def resRange (element : Nat) : F64 × F64 :=
  match element with
  | 0 => (dRat 1852 100, dRat 39048 100)
  | 1 => (dRat 926 10, dRat 19524 10)
  | 2 => (dRat 1852 10, dRat 39048 10)
  | 3 => (dRat 6952 10, dRat 22315 10)
  | 4 => (dRat 10 1, dRat 1000000 1)
  | _ => (dRat 0 1, dRat 10000 1)

/-- Newton steps. -/
def newton (f g : F64 → F64) : Nat → F64 → F64
  | 0, t => t
  | n + 1, t => newton f g n (dsub t (ddiv (f t) (g t)))

/-- Callendar–Van Dusen (R193). -/
def cvdTemp (a b c r : F64) : F64 :=
  let root := dsqrt (dsub (dmul a a) (dmul (dmul (dOfInt 4) b) (dsub (dOfInt 1) r)))
  let t0 := ddiv (dadd (dneg a) root) (dmul (dOfInt 2) b)
  if dle (dOfInt 1) r then t0
  else
    let cube (t : F64) : F64 := dmul (dmul t t) t
    let f (t : F64) : F64 :=
      dsub (dadd (dadd (dadd (dOfInt 1) (dmul a t)) (dmul b (dmul t t)))
        (dmul (dmul c (dsub t (dOfInt 100))) (cube t))) r
    let g (t : F64) : F64 :=
      dadd (dadd a (dmul (dmul (dOfInt 2) b) t))
        (dmul c (dsub (dmul (dOfInt 4) (cube t)) (dmul (dOfInt 300) (dmul t t))))
    newton f g 3 t0

/-- The DIN 43760 polynomial (R193). -/
def ni1000Temp (r : F64) : F64 :=
  let c1 := dRat 5485 1000000
  let c2 := dRat 665 100000000
  let c4 := dRat 2805 100000000000000
  let c6 := dRat 2 100000000000000000
  let sq (t : F64) : F64 := dmul t t
  let f (t : F64) : F64 :=
    dsub (dsub (dadd (dadd (dadd (dOfInt 1) (dmul c1 t)) (dmul c2 (sq t))) (dmul c4 (dmul (sq t) (sq t))))
      (dmul c6 (dmul (dmul (sq t) (sq t)) (sq t)))) r
  let g (t : F64) : F64 :=
    dsub (dadd (dadd c1 (dmul (dmul (dOfInt 2) c2) t)) (dmul (dmul (dOfInt 4) c4) (dmul (sq t) t)))
      (dmul (dmul (dOfInt 6) c6) (dmul (dmul (sq t) (sq t)) t))
  newton f g 5 (ddiv (dsub r (dOfInt 1)) c1)

/-- Steinhart–Hart (R193). -/
def ntcTemp (a b c r : F64) : F64 :=
  let l := dln r
  dsub (ddiv (dOfInt 1) (dadd (dadd a (dmul b l)) (dmul c (dmul (dmul l l) l)))) (dRat 27315 100)

/-- The result of an element in the primary cell, from its resistance (R193). -/
def State.resResult (s : State) (force : Nat) (r : F64) : F32 :=
  let p (id : Nat) : F64 := toF64 (s.cfgF id force)
  match s.cfg P.RES_ELEMENT force with
  | 3 => toF32 (ni1000Temp (ddiv r (p P.RES_R0)))
  | 4 => toF32 (ntcTemp (p P.NTC_A) (p P.NTC_B) (p P.NTC_C) r)
  | 5 => toF32 r
  | _ => toF32 (cvdTemp (p P.CVD_A) (p P.CVD_B) (p P.CVD_C) (ddiv r (p P.RES_R0)))

/-- Lead resistances of the sense members in their order (Table 05-9), from the selected values. -/
def resLeads (wiring exc : Nat) (x : List F32) : List F32 :=
  let d (i : Nat) : F64 := toF64 (x.getD i 0)
  match wiring with
  | 3 => [toF32 (ohms (d 1) exc 3)]
  | 4 => [toF32 (ohms (dsub (d 0) (d 1)) exc 1), toF32 (ohms (d 2) exc 1)]
  | _ => []

/-- The resistance of an element (Table 05-9). -/
def resOhms (wiring exc : Nat) (lead : F32) (x : List F32) : F64 :=
  let d (i : Nat) : F64 := toF64 (x.getD i 0)
  match wiring with
  | 3 => ohms (dsub (d 0) (d 1)) exc 1
  | 4 => ohms (dsub (d 1) (d 2)) exc 1
  | _ => dsub (ohms (d 0) exc 1) (toF64 lead)

/-- The members, by their place, whose values a result is computed from: the resistance, and each lead (Table 05-9). -/
def resUses (wiring : Nat) : List Nat × List (List Nat) :=
  match wiring with
  | 3 => ([0, 1], [[1]])
  | 4 => ([1, 2], [[0, 1], [2]])
  | _ => ([0], [])

/-- A lead outside −1.0 Ω to RES_LEAD_MAX (R194). -/
def State.leadBad (s : State) (force : Nat) (l : F32) : Bool :=
  flt l (fRat (-1) 1) || flt (s.cfgF P.RES_LEAD_MAX force) l

/-- A cell rewritten with its last value, OFFLINE. -/
def State.writeOffline (s : State) (slot ref type t : Nat) : State :=
  s.writeCell slot ref type (s.work.cell ref).own.value t (condBit 7)

/-- The measured excitation against the set value: more than 2 % off in both phases' mean (R211). -/
def excOff (nominal iPos iNeg : Nat) : Bool :=
  let m := iPos + iNeg
  decide (2 * nominal * 102 < m * 100) || decide (m * 100 < 2 * nominal * 98)

/-- RES (R191 to R194): the force member writes the result, a sense member its lead. -/
def State.evalRes (s : State) (ch : Nat) : State :=
  let slot := chanSlot ch
  let t := s.workTick - 1
  let force := resForce s.content ch
  let ms := resMembers s.content force
  let cs := ms.map s.work.chan
  let wiring := s.cfg P.RES_WIRING force
  let exc := (s.fch force).excRec
  let allActive := ms.all (fun m => (s.unit (chanSlot m)).st == .active)
  let aux := s.cfg P.AUX_CELL ch
  let uses := resUses wiring
  let condsOf (l : List Nat) : BitVec 8 := (l.filterMap (fun i => cs[i]?)).foldl (fun a c => a ||| c.xConds) 0
  let x := cs.map (·.x)
  let leads := resLeads wiring exc x
  if !allActive then (s.writeOffline slot slot 0 t).writeOffline slot aux 0 t
  else if ch = force then
    if cs.any (·.skip) then s
    else
      let r := resOhms wiring exc (s.cfgF P.RES_LEAD_OHM force) x
      let range := resRange (s.cfg P.RES_ELEMENT force)
      let bad := cs.any (·.xLimit) || !(dle range.1 r && dle r range.2) || leads.any (s.leadBad force)
      let i := Tab.get (0, 0) (s.inputs t).excites force
      let c := s.work.chan force
      let off := !c.subst && exc != 0 && excOff (s.excNominal force) i.1 i.2
      let run := if cs.any (·.xLimit) || !off then 0 else c.excRun + 1
      let s := s.modWork (·.setChan force { c with excRun := run })
      let s := if 16 ≤ run then s.detect slot 0x20 else s
      let conds := condsOf uses.1 ||| badIf bad
      let free (v : F32) : F32 := if exc = 0 then Config.unstated 6 [ch, t] else v
      let s := s.writeF slot slot (free (s.resResult force r)) t conds
      s.writeF slot aux (free (toF32 r)) t conds
  else
    match (ms.drop 1).idxOf? ch with
    | none => s
    | some k =>
      let mine := uses.2.getD k []
      if (mine.filterMap (fun i => cs[i]?)).any (·.skip) then s
      else
        let l := leads.getD k 0
        s.writeF slot slot (if exc = 0 then Config.unstated 6 [ch, t] else l) t (condsOf mine ||| badIf (s.leadBad force l))

end Sys2Proof.Machine
end

