-- ==== Sys2Proof/Machine/Probe.lean ====
section
/-! DEFINITION. Dielectric moisture: DIEL channels, the sweep schedule, calibration sets, permittivity and the probe
unit (kind 0x07), and the calibration job. -/

namespace Sys2Proof.Machine

/-! ## Complex binary64 (R226) -/

/-- A complex number in binary64. -/
abbrev C64 := F64 × F64

def csub (a b : C64) : C64 := (dsub a.1 b.1, dsub a.2 b.2)

/-- 1/(a + jb) as (a − jb)/(a² + b²), step by step. -/
def cinv (z : C64) : C64 :=
  let d := dadd (dmul z.1 z.1) (dmul z.2 z.2)
  (ddiv z.1 d, ddiv (dneg z.2) d)

/-- a / b as a conjugate product over |b|², step by step; the spec gives complex division no steps (DESIGN CHOICE, log entry
49). -/
def cdiv (a b : C64) : C64 :=
  let d := dadd (dmul b.1 b.1) (dmul b.2 b.2)
  (ddiv (dadd (dmul a.1 b.1) (dmul a.2 b.2)) d, ddiv (dsub (dmul a.2 b.1) (dmul a.1 b.2)) d)

/-- The measured admittance of a point: sense current over drive voltage. -/
def rawYm (p : RawPoint) : C64 := cdiv (p.iRe, p.iIm) (p.vRe, p.vIm)

/-- 2π f. -/
def omega (f : Nat) : F64 := dmul (dmul (dOfInt 2) dpi) (dOfInt f)

/-! ## Plan and schedule (R217, R219, R222) -/

/-- Frequencies of a probe's plan. -/
def planOf (b : List Byte) : List Nat := (List.range (min 24 (field b 0 1))).map (fun i => field b (4 + 4 * i) 4)

/-- The plan of a probe. -/
def State.probePlan (s : State) (p : Nat) : List Nat := planOf (s.cfgBlock P.PROBE_PLAN p)

/-- Drive member of a probe; the sense member is the next channel (R214). -/
def State.probeDrive (s : State) (p : Nat) : Nat := s.cfg P.PROBE_CHANNEL p

/-- Period of a probe's sweeps: in HUSH at least 2^12 ticks (R222). -/
def State.probePeriod (s : State) (p : Nat) : Nat :=
  let k := s.cfg P.PROBE_PERIOD p
  2 ^ (if s.power = .hush then max 12 k else k)

/-- The first tick of a probe's sweep slot (R217). -/
def State.probeSlotAt (s : State) (p : Nat) : Nat := 64 * s.cfg P.PROBE_SLOT p

/-- The tick at which a sweep's record is evaluated: 41 ticks after each start, also of a sweep that started under another
period or slot (R219, R221). -/
def State.probeDue (s : State) (p t : Nat) : Bool :=
  t % s.probePeriod p == s.probeSlotAt p + 41 || (s.fprobe p).run.any (fun r => r.start + 41 == t) ||
    (s.inputs (t - 1)).sweeps.any (fun e => e.1 == p)

/-- What the engine runs at one frequency: the DDS phase increment for its clock of 20 MHz, ties to even, and the least whole
cycles that last 1.4 ms (R218). -/
def enginePoint (f : Nat) : EnginePoint := ⟨f, rneDiv (f * 2 ^ 32) 20000000, (f * 14 + 9999) / 10000⟩

/-- Both members are ACTIVE. -/
def State.membersActive (s : State) (p : Nat) : Bool :=
  let d := s.probeDrive p
  (s.unit (chanSlot d)).st == .active && (s.unit (chanSlot (d + 1))).st == .active

/-! ## Calibration sets (R223, R224) -/

/-- Complete for a plan (R223), and stored early enough for a sweep that starts at `t` (R225). -/
def CalSet.completeFor (c : CalSet) (plan : List Nat) (t : Nat) : Bool :=
  c.flags == 0x07#8 && plan.all (fun f => c.points.any (fun q => q.freq == f)) && decide (c.usableAt ≤ t)

/-- Distance of a set's tags: amplitude first, then load class; the lower code wins a tie (R224). -/
def setDistance (amp lc : Nat) (c : CalSet) : Nat :=
  let d (a b : Nat) : Nat := (a - b) + (b - a)
  ((d c.amplitude amp * 4 + c.amplitude) * 4 + d c.loadClass lc) * 4 + c.loadClass

/-- The set with the least distance among numbered ones. -/
def nearestSet (amp lc : Nat) : List (Nat × CalSet) → Option (Nat × CalSet)
  | [] => none
  | c :: t =>
    match nearestSet amp lc t with
    | none => some c
    | some q => if setDistance amp lc q.2 < setDistance amp lc c.2 then some q else some c

/-- The set chosen for a sweep that starts at `t`, with CALMISMATCH (R224). -/
def State.chooseSet (s : State) (p t : Nat) : Option (Nat × Bool) :=
  let plan := s.probePlan p
  let amp := s.cfg P.DIEL_AMPLITUDE p
  let lc := (s.bank (s.probeDrive p / 8)).loadClass
  (nearestSet amp lc ((s.fprobe p).sets.filter (fun e => e.2.completeFor plan t))).map
    (fun e => (e.1, !(e.2.amplitude == amp && e.2.loadClass == lc)))

/-- A fault that stands whatever becomes of the running tick. -/
def State.detectNow (s : State) (slot code : Nat) : State := s.modPlants (·.modUnit slot (·.detect code))

/-- What a self-test of a bank's impedance engine found (R234). -/
def State.engineFound (s : State) (b : Nat) (ok : Bool) : State :=
  let s := s.setBank b { s.bank b with engine := if ok then 1 else 2 }
  if ok then s
  else
    ((slotsOfKind s.content 0x07).filter (fun u => s.probeDrive (slotInst u) / 8 == b)).foldl (fun s u => s.detectNow u 0x02) s

/-- A sweep starts at its tick (R217, R221, R222, R224, R233). -/
def State.startSweep (s : State) (p : Nat) : State :=
  let slot := probeSlot p
  let t := s.tick
  let f := s.fprobe p
  let b := s.probeDrive p / 8
  let due := s.has slot && !s.rests slot && t % s.probePeriod p == s.probeSlotAt p &&
    !(f.run.any (fun r => r.start == t))
  if due && (s.unit slot).st == .active && (s.bank b).state == .inService && s.membersActive p then
    match s.chooseSet p t with
    | none => s.detectNow slot 0x01
    | some (n, mismatch) =>
      s.setFprobe p { f with
        ready := none
        run := some { start := t, set := some n, mismatch := mismatch, amplitude := s.cfg P.DIEL_AMPLITUDE p
                      loadClass := (s.bank b).loadClass, plan := (s.probePlan p).map enginePoint } }
  else s

/-- Permittivity of a point and whether its capacitance is below half of C0 (R226). -/
def epsPoint (c : CalPoint) (ym : C64) : (F32 × F32) × Bool :=
  let zm := cinv ym
  let yx := csub (cinv (csub zm (toF64 c.zsRe, toF64 c.zsIm))) (toF64 c.yoRe, toF64 c.yoIm)
  let wc := dmul (omega c.freq) (toF64 c.c0)
  ((toF32 (ddiv yx.2 wc), toF32 (ddiv yx.1 wc)),
    dlt (ddiv yx.2 (omega c.freq)) (dmul (dRat 1 2) (toF64 c.c0)))

/-- The record of a sweep from the lock-in's points (R226). -/
def sweepRecord (r : SweepRun) (set : CalSet) (m : SweepMeas) : SweepRec :=
  let at_ (f : Nat) : CalPoint := (set.points.find? (fun q => q.freq == f)).getD ⟨f, 0, 0, 0, 0, 0⟩
  let pts := (r.plan.zip m.points).map (fun e => epsPoint (at_ e.1.freq) (rawYm e.2))
  { missed := false, overload := m.overload, opened := pts.all (·.2), calMismatch := r.mismatch
    amplitude := r.amplitude, loadClass := r.loadClass, set := r.set.getD 0xFF, points := pts.map (·.1) }

/-- A record delivered with MISSED (R220, R221). -/
def missedSweep (r : SweepRun) : SweepRec := { amplitude := r.amplitude, loadClass := r.loadClass }

/-- A record that arrives after its deadline is counted and not used (R115, R220, R248). -/
def State.countLate (s : State) (b : Nat) : State :=
  s.setBank b { s.bank b with lateSamples := sat32 ((s.bank b).lateSamples + 1) }

/-- What the lock-in delivers for a sweep in flight; late or double, it is counted and not used (R220). -/
def State.deliverSweep (s : State) (p : Nat) (m : SweepMeas) : State :=
  let f := s.fprobe p
  let b := s.probeDrive p / 8
  match f.run with
  | some r =>
    if f.ready.isSome then s
    else if r.start + 41 ≤ s.deadlineAt then s.countLate b
    else
      let set := Tab.get {} f.sets (r.set.getD 0)
      let rec_ := if m.complete && !r.missed && m.points.length == r.plan.length then sweepRecord r set m else missedSweep r
      s.setFprobe p { f with ready := some (r.start + 40, rec_) }
  | none => if s.has (probeSlot p) then s.countLate b else s

/-- The record that the evaluation at tick `w` takes: with the DC and clamp flags gathered over the sweep's ticks; MISSED
when none is complete (R220, R226). The sweep is then over. -/
def State.takeSweep (s : State) (p w : Nat) : State :=
  let f := s.fprobe p
  match f.run with
  | none => s
  | some r =>
    if r.start + 41 = w then
      let rec_ :=
        match f.ready with
        | some (_, x) =>
          if r.missed then missedSweep r
          else { x with dcFault := r.dcFault, clamp := r.clamp }
        | none => missedSweep r
      let b := s.inputs (w - 1)
      (s.setFprobe p { f with run := none, ready := none }).setInputs (w - 1)
        { b with sweeps := Tab.insert b.sweeps p rec_ }
    else s

/-- A member's record in a sweep's ticks brings its DC fault and CLAMP to the sweep (R226). -/
def State.sweepMember (s : State) (ch t : Nat) (r : Conv) : State :=
  let dc := decide (2 * 2 ^ 23 < 12 * r.coarse.natAbs)
  (List.range s.probeCount).foldl (fun s p =>
    if s.has (probeSlot p) && s.probeDrive p / 2 == ch / 2 then
      let f := s.fprobe p
      match f.run with
      | some q =>
        if decide (q.start ≤ t ∧ t ≤ q.start + 40) then
          s.setFprobe p { f with run := some { q with dcFault := q.dcFault || dc, clamp := q.clamp || r.status.getLsbD 7 } }
        else s
      | none => s
    else s) s

/-! ## DIEL channels (R215, R216) -/

/-- DIEL: the DC voltage of the terminal. -/
def State.evalDiel (s : State) (ch : Nat) : State :=
  let slot := chanSlot ch
  let c := s.work.chan ch
  let t := s.workTick - 1
  match c.batch.getLast? with
  | none => s
  | some r =>
    let v := fmul (fOfInt r.coarse) (pathConst 0x0A).lsbC
    let run := if flt (fRat 2 1) (fabs v) then c.dcRun + 1 else 0
    let s := s.modWork (·.setChan ch { c with dcRun := run })
    let s := if 16 ≤ run then s.detect slot 0x30 else s
    s.writeF slot slot v t (batchConds 0x0A (batchStatus c.batch) c.subst)

/-! ## The probe unit (R227, R229 to R233) -/

/-- FLAGS of a sweep record (Table 06-4). -/
def SweepRec.flags (r : SweepRec) : Nat :=
  flagBit r.clamp 7 + flagBit r.missed 6 + flagBit r.overload 5 + flagBit r.opened 4 + flagBit r.calMismatch 3 +
    flagBit r.dcFault 2

/-- A sweep record as SWEEP entries and PROBE_SPECTRUM carry it (Table 06-4). -/
def SweepRec.bytes (r : SweepRec) : List Byte :=
  [BitVec.ofNat 8 r.points.length, BitVec.ofNat 8 r.flags, BitVec.ofNat 8 r.amplitude, BitVec.ofNat 8 r.loadClass,
    BitVec.ofNat 8 r.set, 0, 0, 0] ++ (r.points.map (fun p => le 4 p.1.toNat ++ le 4 p.2.toNat)).flatten

/-- A binary32 field of a block. -/
def fieldF (b : List Byte) (off : Nat) : F32 := BitVec.ofNat 32 (field b off 4)

/-- Moisture before rounding and its BAD (R229, R230), from a crop table, the two points, temperature and density. -/
def moisture (crop : List Byte) (ea eb lb : F32) (tGrain : F32) (rho : Option F32) : F64 × Bool :=
  let g (off : Nat) : F64 := toF64 (fieldF crop off)
  let a (i : Nat) : F64 := g (64 + 4 * i)
  let b (i : Nat) : F64 := g (88 + 4 * i)
  if flt ea (fieldF crop 36) || fle eb fone then (0, true)
  else
    let u := dsub (dsqrt (toF64 ea)) (dOfInt 1)
    let u := match rho with
      | some r => ddiv (dmul u (g 32)) (toF64 r)
      | none => u
    let v := ddiv (toF64 lb) (dsub (toF64 eb) (dOfInt 1))
    let d := dsub (toF64 tGrain) (g 28)
    let m := dadd (dadd (dadd (dadd (dadd (a 0) (dmul (a 1) u)) (dmul (dmul (a 2) u) u)) (dmul (a 3) v))
      (dmul (dmul (a 4) v) v)) (dmul (dmul (a 5) u) v)
    let m := dadd (dadd m (dmul d (dadd (dadd (b 0) (dmul (b 1) u)) (dmul (b 2) v)))) (dmul (dmul (b 3) d) d)
    let out (x lo hi : F64) : Bool := !(dle lo x && dle x hi)
    let bad := out m (g 40) (g 44) || out (toF64 tGrain) (g 48) (g 52) ||
      (match rho with
       | some r => out (toF64 r) (g 56) (g 60)
       | none => false)
    (m, bad)

/-- The moisture filter (R231). -/
def moistFilter (n : Nat) (usable : Bool) (m : F32) (mf : Option F32) : F32 × Option F32 :=
  if n = 0 ∨ !usable then (m, mf)
  else
    match mf with
    | none => (m, some m)
    | some f =>
      let x := fadd f (fmul (fsub m f) (fRat 1 (2 ^ n)))
      (x, some x)

/-- A probe unit's evaluation in the tick after its sweep (R229 to R233). -/
def State.evalProbe (s : State) (p : Nat) : State :=
  let slot := probeSlot p
  let t := s.workTick - 1
  let moistCell := s.cfg P.MOIST_CELL p
  let epsCell := s.cfg P.EPS_CELL p
  let lossCell := s.cfg P.LOSS_CELL p
  let crop := s.cfg P.PROBE_CROP p
  let cells := (if crop = 0xFF then [] else [moistCell]) ++ [epsCell, lossCell]
  let sweep := (s.inputs t).sweeps.find? (fun e => e.1 == p)
  let q := s.work.probe p
  let s := match sweep with
    | some (_, r) => (s.note 0x14 slot r.bytes).modWork (·.setProbe p { q with last := some r })
    | none => s
  if !s.membersActive p then
    cells.foldl (fun s c => s.writeOffline slot c 0 t) s
  else
    match sweep with
    | none => s
    | some (_, r) =>
      if r.missed then s
      else
        let d := s.probeDrive p
        let v1 := s.see (chanSlot d)
        let v2 := s.see (chanSlot (d + 1))
        let plan := s.probePlan p
        let tempCell := s.cfgCell P.TEMP_CELL p
        let densCell := s.cfgCell P.DENS_CELL p
        let table := s.cfgBlock P.CROP_TABLE crop
        let tv := s.see tempCell
        let dv := s.see densCell
        let densUsed := densCell != 0 && fPos (fieldF table 32)
        let own : BitVec 8 := (if r.clamp then condBit 5 else 0) ||| (if r.calMismatch then condBit 1 else 0)
        let base := own ||| v1.conds ||| v2.conds
        let ref := r.points.getD (s.cfg P.PROBE_REF_POINT p) (0, 0)
        let used := [v1, v2] ++ (if tempCell = 0 ∨ crop = 0xFF then [] else [tv]) ++
          (if densUsed && crop != 0xFF then [dv] else [])
        let s := s.noteInputs slot (used.any (·.isSubst)) (used.any (fun v => !v.usable))
        let s := s.writeF slot epsCell ref.1 t base
        let s := s.writeF slot lossCell ref.2 t base
        if crop = 0xFF then s
        else
          let at_ (f : Nat) : F32 × F32 := r.points.getD ((plan.idxOf? f).getD 0) (0, 0)
          let pa := at_ (field table 20 4)
          let pb := at_ (field table 24 4)
          let tGrain := if tempCell = 0 then fieldF table 28 else tv.f
          let m := moisture table pa.1 pb.1 pb.2 tGrain (if densUsed then some dv.f else none)
          let conds := base ||| (if tempCell = 0 then 0 else tv.conds) ||| (if densUsed then dv.conds else 0) |||
            badIf (m.2 || r.overload || r.opened || r.dcFault)
          let usable := decide (condQuality conds < 3)
          let f := moistFilter (s.cfg P.MOIST_FILTER p) usable (toF32 m.1) q.mf
          let s := s.modWork (fun pl => pl.setProbe p { pl.probe p with mf := f.2 })
          s.writeF slot moistCell f.1 t conds

/-! ## PROBE_CAL (R225) -/

/-- The mean of the raw admittance of point `i` over sweeps (R225). -/
def meanAdmittance (sweeps : List RawSweep) (i : Nat) : C64 :=
  let pts := sweeps.map (fun w => rawYm (w.points.getD i ⟨0, 0, 0, 0⟩))
  let n := dOfInt sweeps.length
  match pts with
  | [] => (0, 0)
  | p :: t => (ddiv (t.foldl (fun a q => dadd a q.1) p.1) n, ddiv (t.foldl (fun a q => dadd a q.2) p.2) n)

/-- A point with one standard measured, or nothing when its check fails (R225). -/
def calPoint (standard : Nat) (old : CalPoint) (ym : C64) : Option CalPoint :=
  let w := omega old.freq
  match standard with
  | 0 =>
    if dle (ddiv ym.2 w) (dRat 2000 (10 ^ 12)) then
      some { old with yoRe := toF32 ym.1, yoIm := toF32 ym.2 }
    else none
  | 1 =>
    let z := cinv ym
    if dle (dsqrt (dadd (dmul z.1 z.1) (dmul z.2 z.2))) (dOfInt 10) then
      some { old with zsRe := toF32 z.1, zsIm := toF32 z.2 }
    else none
  | _ =>
    let y := csub (cinv (csub (cinv ym) (toF64 old.zsRe, toF64 old.zsIm))) (toF64 old.yoRe, toF64 old.yoIm)
    let c := ddiv y.2 w
    if dle (dRat 5 (10 ^ 13)) c && dle c (dRat 200 (10 ^ 12)) then some { old with c0 := toF32 c } else none

/-- All points or nothing. -/
def allSome {α : Type} : List (Option α) → Option (List α)
  | [] => some []
  | none :: _ => none
  | some a :: t => (allSome t).map (a :: ·)

/-- The number of the set a calibration writes: tags that match, else the first empty one (R225). -/
def calTarget (sets : Tab CalSet) (amp lc : Nat) : Option Nat :=
  let get (n : Nat) : CalSet := Tab.get {} sets n
  match (List.range 4).find? (fun n => (get n).flags != 0 && (get n).amplitude == amp && (get n).loadClass == lc) with
  | some n => some n
  | none => (List.range 4).find? (fun n => (get n).flags == 0)

/-- The outcome of a collected calibration: the set written, or STATUS and DETAIL (R225). A set whose frequencies are not
those of the plan begins afresh. -/
def calSetResult (sets : Tab CalSet) (plan : List Nat) (standard t : Nat) (sweeps : List RawSweep) :
    Except (Nat × Nat) (Nat × CalSet) :=
  match sweeps with
  | [] => .error (stState, 0x06)
  | w :: _ =>
    if sweeps.any (fun x => x.bad || x.points.length != plan.length) then .error (stState, 0x06)
    else if sweeps.any (fun x => x.amplitude != w.amplitude || x.loadClass != w.loadClass) then .error (stRange, 0x02)
    else
      match calTarget sets w.amplitude w.loadClass with
      | none => .error (stRange, 0x03)
      | some n =>
        let old := Tab.get {} sets n
        let same := old.points.map (·.freq) == plan
        if standard = 2 ∧ !(same && old.flags.getLsbD 0 && old.flags.getLsbD 1) then .error (stRange, 0x04)
        else
          let pts := if same then old.points else plan.map (fun f => ⟨f, 0, 0, 0, 0, 0⟩)
          let new := (pts.zipIdx).map (fun e => calPoint standard e.1 (meanAdmittance sweeps e.2))
          match allSome new with
          | none => .error (stRange, 0x01)
          | some ps =>
            let old := if same then old else {}
            let s : CalSet := { old with amplitude := w.amplitude, loadClass := w.loadClass, points := ps, usableAt := t + 2 }
            .ok (n, match standard with
              | 0 => { s with flags := (old.flags ||| 1#8) &&& 3#8, tickOpen := t }
              | 1 => { s with flags := (old.flags ||| 2#8) &&& 3#8, tickShort := t }
              | _ => { s with flags := old.flags ||| 4#8, tickRef := t })

/-- A calibration set in its 704 bytes (Table 06-2). -/
def CalSet.bytes (c : CalSet) : List Byte :=
  if c = {} then List.replicate 704 0
  else
    let pt (q : CalPoint) : List Byte :=
      le 4 q.freq ++ le 4 q.yoRe.toNat ++ le 4 q.yoIm.toNat ++ le 4 q.zsRe.toNat ++ le 4 q.zsIm.toNat ++ le 4 q.c0.toNat ++
        le 4 0
    withCrc (padTo 700 ([c.flags, BitVec.ofNat 8 c.amplitude, BitVec.ofNat 8 c.loadClass,
      BitVec.ofNat 8 c.points.length] ++ le 6 c.tickOpen ++ le 6 c.tickShort ++ le 6 c.tickRef ++ List.replicate 6 0 ++
      (c.points.map pt).flatten))

/-- PROBE_CAL_TABLE. -/
def State.probeCalTable (s : State) (p : Nat) : List Byte :=
  ((List.range 4).map (fun n => (Tab.get {} (s.fprobe p).sets n).bytes)).flatten

end Sys2Proof.Machine
end

