-- ==== Sys2Proof/Machine/CombLine.lean ====
section
/-! DEFINITION. Comb cables: COMB channels, node maps, rounds, the comb line unit (kind 0x08) and the enumeration of a
line. -/

namespace Sys2Proof.Machine

/-! ## Node maps (R244, R253, Table 07-9) -/

/-- An entry of a node map. -/
structure MapEntry where
  position : Nat
  flags    : Nat
  id       : Nat
  height   : Nat
  deriving DecidableEq, Repr

/-- TYPE of a node ID (Table 07-3). -/
def nodeType (id : Nat) : Nat := id / 2 ^ 40

/-- The entries in use of a node map block. -/
def mapOf (b : List Byte) : List MapEntry :=
  (List.range (min 48 (field b 0 1))).map (fun i =>
    ⟨field b (4 + 12 * i) 1, field b (5 + 12 * i) 1, field b (6 + 12 * i) 6, field b (12 + 12 * i) 2⟩)

/-- A node map as its block. -/
def mapBytes (m : List MapEntry) : List Byte :=
  padTo 580 ([BitVec.ofNat 8 m.length, 0, 0, 0] ++ (m.map (fun e =>
    [BitVec.ofNat 8 e.position, BitVec.ofNat 8 e.flags] ++ le 6 e.id ++ le 2 e.height ++ [0, 0])).flatten)

/-- Insertion by position. -/
def insertEntry : List MapEntry → MapEntry → List MapEntry
  | [], x => [x]
  | y :: t, x => if x.position < y.position then x :: y :: t else y :: insertEntry t x

/-- The stored map of a line, ascending positions. -/
def State.nodeMap (s : State) (l : Nat) : List MapEntry := (mapOf (s.cfgBlock P.COMB_NODEMAP l)).foldl insertEntry []

/-- The channel of a line, if it names one. -/
def State.lineChannel (s : State) (l : Nat) : Nat := s.cfg P.COMB_CHANNEL l

/-- Lines on a channel. -/
def State.linesOn (s : State) (ch : Nat) : List Nat :=
  (List.range 64).filter (fun l => s.has (combSlot l) && s.lineChannel l == ch)

/-! ## Rounds (R246 to R250) -/

/-- Ticks between rounds. -/
def State.combPeriod (s : State) (l : Nat) : Nat := s.cfg P.COMB_PERIOD l * 1024

/-- Whether a round of the line starts at tick `t` (R246, R249). -/
def State.roundAt (s : State) (l t : Nat) : Bool :=
  t % s.combPeriod l == s.cfg P.COMB_PHASE l && (s.power != .hush || t / s.combPeriod l % 2 == 0) &&
    (s.power == .run || s.power == .hush)

/-- A round that is due opens at its boundary; it runs when the line has been found fit (R248). The round before it may still
wait for its evaluation (R247). -/
def State.openRound (s : State) (l : Nat) : State :=
  if s.has (combSlot l) && (s.unit (combSlot l)).st == .active && s.roundAt l s.tick then
    let f := s.fcomb l
    s.setFcomb l { f with
      ended := (f.run.map (fun r => (r, f.ready.map (·.2)))).or f.ended
      ready := none
      run := some { t0 := s.tick, start := f.startDue, missed := true, lowFeed := false, noHeadroom := false
                    enumerating := f.enumerating, limit := s.cfg P.COMB_MISS_LIMIT l } }
  else s

/-- The feed current allowance of a bank in µA: 60 mA times the throttle factor it received, at least 25 % (R248, R432). -/
def State.feedAllowance (s : State) (b : Nat) : F32 := fmul (fRat 60000 1) (fmax (fRat 1 4) (s.bank b).throttle)

/-- The frames of a round on a line (R246): a start round assigns every address; a poll round has the nodes measure, then reads
each one, or assigns its address anew after a transaction that failed. -/
def roundFrames (start : Bool) (again : List Nat) (map : List MapEntry) : List CombFrame :=
  let node (e : MapEntry) : CombFrame :=
    if start || again.contains e.position then .assign e.id (e.position + 1) else .read (e.position + 1) (nodeType e.id)
  (if start then [] else [.convert]) ++ map.map node ++ [.presenceNew]

/-- The line as the round starts (R246, R248): it runs, or is delivered as MISSED with its reason. -/
def State.beginRound (s : State) (l : Nat) (m : LineMeas) : State :=
  let f := s.fcomb l
  let ch := s.lineChannel l
  match f.run with
  | none => s
  | some r =>
    if r.t0 = s.tick ∧ (s.view.unit (chanSlot ch)).st = .active ∧ !(s.bank (ch / 8)).guardTripped then
      let low := decide (m.millivolts < 17000)
      let head := flt (s.feedAllowance (ch / 8)) (fOfNat (m.baselineUa + 11000))
      let missed := low || head || r.enumerating
      let frames := if missed then [] else roundFrames r.start f.needAssign (s.nodeMap l)
      s.setFcomb l { f with
        startDue := f.startDue && missed
        run := some { r with missed := missed, lowFeed := low, noHeadroom := head, frames := frames } }
    else s

/-- A round in flight is abandoned; a start round is then still due (R248). -/
def State.abandonRound (s : State) (l : Nat) : State :=
  let f := s.fcomb l
  match f.run with
  | some r =>
    if s.tick < r.t0 + 2048 then
      s.setFcomb l { f with startDue := f.startDue || r.start, run := some { r with missed := true } }
    else s
  | none => s

/-- A round of a unit that stops or is held is abandoned and never evaluated (R256). -/
def State.dropRound (s : State) (l : Nat) : State :=
  let f := s.fcomb l
  s.setFcomb l { f with startDue := f.startDue || f.run.any (·.start), run := none, ready := none, ended := none }

/-- Rounds at a boundary, once the units have their states: one whose channel unit is not ACTIVE is abandoned (R248), one
whose unit is not ACTIVE is dropped (R256); an enumeration marks a channel unit in FAULT (R254). -/
def State.checkRounds (s : State) : State :=
  s.fcombs.foldl (fun s e =>
    let l := e.1
    let st := (s.unit (chanSlot (s.lineChannel l))).st
    let s := if (s.unit (combSlot l)).st != .active then s.dropRound l else if st != .active then s.abandonRound l else s
    if (s.fcomb l).enumerating && st == .fault then s.setFcomb l { s.fcomb l with enumFault := true } else s) s

/-- What the line answered to the frame of a mapped node (Tables 07-5 and 07-7). -/
def nodeEntry (assign : Bool) (e : MapEntry) (slots : List ReadSlot) : NodeEntry :=
  let ty := nodeType e.id
  let r := combReply slots
  let heard := r.heard && !assign
  let status := r.bytes.headD 0
  let at_ (i : Nat) : BitVec 16 := BitVec.ofNat 16 (ofBe (bytesAt r.bytes i 2))
  let st := flagBit (!r.heard) 7 + flagBit (heard && !r.checked) 6 + flagBit r.multiple 5 +
    (if heard then flagBit (status.getLsbD 6) 4 + flagBit (status.getLsbD 5) 3 +
      flagBit (status.getLsbD 4 || status.getLsbD 3) 2 + flagBit (status.getLsbD 7) 1 else 0) + flagBit assign 0
  ⟨e.position, BitVec.ofNat 8 st, if heard then at_ 1 else 0, if heard && bit ty 1 then at_ 3 else 0,
    if heard && bit ty 2 then at_ (if bit ty 1 then 5 else 3) else 0⟩

/-- NO_REPLY or CRC_ERROR. -/
def NodeEntry.failed (e : NodeEntry) : Bool := e.status.getLsbD 7 || e.status.getLsbD 6

/-- Whether a frame is an ASSIGN. -/
def CombFrame.isAssign : CombFrame → Bool
  | .assign _ _ => true
  | _ => false

/-- The record of a round from what the line answered to its frames (R246, R250): the baseline current is that of the read slot
of PRESENCE_NEW (DEDUCED, log entry 50). None when an answer lacks read slots of its frame. -/
def roundRecord (r : RoundRun) (map : List MapEntry) (m : RoundMeas) : Option RoundRec :=
  let frames := (if r.start then r.frames else r.frames.drop 1).dropLast
  if !m.complete ∨ frames.length ≠ map.length ∨ m.answers.map List.length ≠ frames.map CombFrame.slots then none
  else
    let es := (map.zip (frames.zip m.answers)).map (fun e => nodeEntry e.2.1.isAssign e.1 e.2.2)
    some { missed := false, start := r.start, unmapped := readsOne m.presence, baselineUa := m.presence.baseUa, entries := es
           limit := r.limit }

/-- Positions whose transaction failed. -/
def RoundRec.failures (r : RoundRec) : List Nat := (r.entries.filter (·.failed)).map (·.position)

/-- A round's transactions arrive (R246, R247, R250); late, they are counted and not used. They belong to a round that is over
and waits for its record, else to the one in flight. -/
def State.deliverRound (s : State) (l : Nat) (m : RoundMeas) : State :=
  let f := s.fcomb l
  let b := s.lineChannel l / 8
  match f.ended, f.run with
  | some (r, none), _ =>
    if r.t0 + 2048 ≤ s.deadlineAt then s.countLate b
    else if r.missed then s
    else
      match roundRecord r (s.nodeMap l) m with
      | none => s
      | some x => s.setFcomb l { f with needAssign := x.failures, ended := some (r, some x) }
  | _, some r =>
    if r.t0 + 2048 ≤ s.deadlineAt then s.countLate b
    else if r.missed ∨ f.ready.isSome then s
    else
      match roundRecord r (s.nodeMap l) m with
      | none => s
      | some x => s.setFcomb l { f with needAssign := x.failures, ready := some (r.t0 + 2047, x) }
  | _, none => if s.has (combSlot l) then s.countLate b else s

/-- A record delivered with MISSED (R248). -/
def missedRound (r : RoundRun) : RoundRec :=
  { missed := true, clamp := r.clamp, start := r.start, lowFeed := r.lowFeed, noHeadroom := r.noHeadroom
    enumerating := r.enumerating, limit := r.limit }

/-- The record of a round that is over, as it is evaluated. -/
def finishedRound (r : RoundRun) (x : Option RoundRec) : RoundRec :=
  match x with
  | some x => if r.missed then missedRound r else { x with clamp := r.clamp }
  | none => missedRound r

/-- The record that the evaluation at tick `w` takes; the round is then over (R247, R248). -/
def State.takeRound (s : State) (l w : Nat) : State :=
  let f := s.fcomb l
  let b := s.inputs (w - 1)
  let take (f : FieldComb) (x : RoundRec) : State :=
    (s.setFcomb l f).setInputs (w - 1) { b with rounds := Tab.insert b.rounds l x }
  match f.ended, f.run with
  | some (r, x), _ => if r.t0 + 2048 = w then take { f with ended := none } (finishedRound r x) else s
  | none, some r =>
    if r.t0 + 2048 = w then take { f with run := none, ready := none } (finishedRound r (f.ready.map (·.2))) else s
  | none, none => s

/-- A channel record in a round's ticks (R246, R250): CLAMP, and a line below 5 V makes a start round due. The 150 ms in
which a start round has its own feed off and on do not count. -/
def State.roundMember (s : State) (ch t : Nat) (r : Conv) : State :=
  (s.linesOn ch).foldl (fun s l =>
    let f := s.fcomb l
    let own := f.enumerating || f.run.any (fun q => q.start && !q.missed && decide (q.t0 ≤ t ∧ t ≤ q.t0 + 154))
    let mark (q : RoundRun) : RoundRun :=
      { q with clamp := q.clamp || (decide (q.t0 ≤ t ∧ t ≤ q.t0 + 2047) && r.status.getLsbD 7) }
    let f := { f with
      startDue := f.startDue || (!own && decide (r.fine < 500))
      run := f.run.map mark
      ended := f.ended.map (fun e => (mark e.1, e.2)) }
    s.setFcomb l f) s

/-- A tick in which the feed was off makes a start round due (R246), but for the time in which a start round or an enumeration
has it off. -/
def State.feedCheck (s : State) (ch : Nat) : State :=
  match s.terminal ch with
  | .drives _ => s
  | _ => if s.feedCut ch then s else (s.linesOn ch).foldl (fun s l => s.setFcomb l { s.fcomb l with startDue := true }) s

/-! ## Records as bytes (Table 07-6) -/

/-- FLAGS of a round's record, without MORE. -/
def RoundRec.flags (r : RoundRec) : Nat :=
  flagBit r.missed 6 + flagBit r.clamp 5 + flagBit r.start 4 + flagBit r.unmapped 3 + flagBit r.lowFeed 2 +
    flagBit r.noHeadroom 1 + flagBit r.enumerating 0

/-- One node entry. -/
def NodeEntry.bytes (e : NodeEntry) : List Byte :=
  [BitVec.ofNat 8 e.position, e.status] ++ le 2 e.temp.toNat ++ le 2 e.rh.toNat ++ le 2 e.co2.toNat

/-- A header with node entries. -/
def roundBytes (flags : Nat) (es : List NodeEntry) : List Byte :=
  [BitVec.ofNat 8 es.length, BitVec.ofNat 8 flags, 0, 0] ++ (es.map NodeEntry.bytes).flatten

/-- COMB_LAST_ROUND (R250). -/
def State.lastRound (s : State) (l : Nat) : List Byte :=
  match (s.view.comb l).last with
  | none => List.replicate 388 0
  | some r => padTo 388 (roundBytes r.flags r.entries)

/-- A round's NODE_REC entries: more than 30 nodes span two (R250). -/
def State.noteRound (s : State) (l : Nat) (r : RoundRec) : State :=
  if 30 < r.entries.length then
    (s.note 0x13 (combSlot l) (roundBytes (r.flags + 128) (r.entries.take 30))).note 0x13 (combSlot l)
      (roundBytes r.flags (r.entries.drop 30))
  else s.note 0x13 (combSlot l) (roundBytes r.flags r.entries)

/-! ## COMB channels (R238) -/

/-- COMB: line voltage and line current. -/
def State.evalCombChan (s : State) (ch : Nat) : State :=
  let slot := chanSlot ch
  let c := s.work.chan ch
  let t := s.workTick - 1
  match c.batch.getLast? with
  | none => s
  | some r =>
    let off := r.status.getLsbD 5
    let conds := batchConds 0x0B (batchStatus c.batch) c.subst ||| badIf off
    let s := s.writeF slot slot (if off then 0 else fmul (fOfInt r.fine) (fRat 1 100)) t conds
    s.writeF slot (s.cfg P.AUX_CELL ch) (fmul (fOfInt r.coarse) (fRat 1 1000000)) t conds

/-! ## The comb line unit (R251, R252, R255, R257) -/

/-- The three cells of a position; 0 where a kind has none. -/
def State.nodeCells (s : State) (l pos : Nat) : Nat × Nat × Nat :=
  let at_ (id : Nat) : Nat := let b := s.cfg id l; if b = 0 then 0 else b + pos
  (at_ P.CELL_TEMP_BASE, at_ P.CELL_RH_BASE, at_ P.CELL_CO2_BASE)

/-- All cells of a position OFFLINE with value 0. -/
def State.nodeOffline (s : State) (l pos t : Nat) : State :=
  let c := s.nodeCells l pos
  let slot := combSlot l
  ((s.writeF slot c.1 0 t (condBit 7)).writeF slot c.2.1 0 t (condBit 7)).writeF slot c.2.2 0 t (condBit 7)

/-- int16. -/
def int16 (w : BitVec 16) : Int := w.toInt

/-- The cells of a node whose reply holds (rows 5 and 6 of Table 07-8). -/
def State.nodeValues (s : State) (l : Nat) (e : MapEntry) (n : NodeEntry) (clamp : Bool) (t : Nat) : State :=
  let c := s.nodeCells l e.position
  let slot := combSlot l
  let ty := nodeType e.id
  let dup := n.status.getLsbD 5
  let own := if clamp && !dup then condBit 5 else 0
  let temp := fdiv (fOfInt (int16 n.temp)) (fRat 10 1)
  let rh := fdiv (fOfNat n.rh.toNat) (fRat 100 1)
  let co2 := fOfNat n.co2.toNat
  let s := s.writeF slot c.1 temp t (own ||| badIf (dup || n.status.getLsbD 4 || n.temp == 0x8000#16))
  let put (s : State) (ref tbit ebit : Nat) (x : F32) : State :=
    if dup then s.writeF slot ref x t (badIf true)
    else if bit ty tbit then s.writeF slot ref x t (own ||| badIf (n.status.getLsbD ebit))
    else s.writeF slot ref 0 t (condBit 7)
  put (put s c.2.1 1 3 rh) c.2.2 2 2 co2

/-- COMB_MAP for the conditions of this round that the last one did not have (R255). -/
def State.raiseMap (s : State) (l : Nat) (now : List Nat) : State :=
  let c := s.work.comb l
  let s := (now.filter (fun k => !c.raised.contains k)).foldl (fun s k => s.raise causeCombMap (combSlot l) l k) s
  s.modWork (fun p => p.setComb l { p.comb l with raised := now })

/-- A node at its miss limit: its cells read OFFLINE (row 4 of Table 07-8). -/
def State.nodeMissed (s : State) (l limit pos t : Nat) : State :=
  let c := s.work.comb l
  let n := Tab.get 0 c.missRun pos + 1
  let s := s.modWork (·.setComb l { c with missRun := Tab.put 0 c.missRun pos n })
  if limit ≤ n then s.nodeOffline l pos t else s

/-- One mapped node of a delivered round (rows 3 to 6 of Table 07-8). -/
def State.evalNode (s : State) (l t limit : Nat) (clamp : Bool) (e : MapEntry) (n : NodeEntry) : State :=
  if n.status.getLsbD 0 && !n.status.getLsbD 7 then s
  else if n.failed then s.nodeMissed l limit e.position t
  else
    let c := s.work.comb l
    (s.modWork (·.setComb l { c with missRun := Tab.put 0 c.missRun e.position 0 })).nodeValues l e n clamp t

/-- Conditions of R255 in a round: 256 × reason + position. -/
def State.mapConditions (s : State) (l : Nat) (r : RoundRec) : List Nat :=
  let c := s.work.comb l
  let unmapped := r.unmapped && !r.start && r.entries.all (fun e => !e.failed)
  (if unmapped then [256 + 0xFF] else []) ++
    ((r.entries.filter (fun e => decide (r.limit ≤ Tab.get 0 c.missRun e.position))).map (512 + ·.position)) ++
    ((r.entries.filter (fun e => e.status.getLsbD 5)).map (768 + ·.position))

/-- A comb line unit's evaluation (R252, R255, R257). -/
def State.evalComb (s : State) (l : Nat) : State :=
  let slot := combSlot l
  let t := s.workTick - 1
  let map := s.nodeMap l
  match (s.inputs t).rounds.find? (fun e => e.1 == l) with
  | none => s
  | some (_, r) =>
    let s := s.noteRound l r
    let c := s.work.comb l
    let s := s.modWork (·.setComb l { c with last := some r
                                             roundsMissed := if r.missed then sat32 (c.roundsMissed + 1) else c.roundsMissed })
    if (s.unit (chanSlot (s.lineChannel l))).st ≠ .active then
      map.foldl (fun s e => s.nodeOffline l e.position t) s
    else if r.missed then s
    else
      let s := (map.zip r.entries).foldl (fun s e => s.evalNode l t r.limit r.clamp e.1 e.2) s
      let now := s.mapConditions l r
      let dead := !r.entries.isEmpty && decide (r.baselineUa < 200) &&
        r.entries.all (fun e => decide (r.limit ≤ Tab.get 0 (s.work.comb l).missRun e.position))
      let s := s.raiseMap l now
      if dead then s.detect slot 0x01 else s

/-- A miss run that stands at its limit and is not yet reported (R255). -/
def State.missLimit (s : State) (l pos : Nat) : State :=
  let c := s.work.comb l
  let limit := match c.last with | some r => r.limit | none => s.cfg P.COMB_MISS_LIMIT l
  if limit ≤ Tab.get 0 c.missRun pos ∧ !c.raised.contains (512 + pos) then
    s.raiseMap l (c.raised ++ [512 + pos])
  else s

/-- COMB_LINE_STATE (Table 07-13). -/
def State.lineState (s : State) (l : Nat) : Nat :=
  let f := s.fcomb l
  let ch := s.lineChannel l
  let p := s.view
  if (p.unit (combSlot l)).st = .fault ∨ (p.unit (chanSlot ch)).st = .fault then 4
  else if f.enumerating then 3
  else
    match s.terminal ch with
    | .drives _ => if f.startDue || f.run.any (fun r => r.start && !r.missed) then 1 else 2
    | _ => if s.feedCut ch then 1 else 0

/-! ## Enumeration (R254) -/

/-- The first unit that is not in the state an enumeration needs. -/
def State.enumerateBar (s : State) (l : Nat) : Option Nat :=
  let st (slot : Nat) : UState := (s.view.unit slot).st
  if st (combSlot l) ≠ .stopped then some (st (combSlot l)).code
  else if st (chanSlot (s.lineChannel l)) ≠ .active then some (st (chanSlot (s.lineChannel l))).code
  else none

/-- The found map from the stored map and the found IDs, or none when a new ID finds no free position (R254). -/
def foundMap (stored : List MapEntry) (found : List (Nat × Bool)) : Option (List MapEntry) :=
  let dupOf (id : Nat) : Nat := if found.any (fun f => f.1 == id && f.2) then 4 else 0
  let isFound (id : Nat) : Bool := found.any (fun f => f.1 == id)
  let kept := stored.map (fun e => { e with flags := (if isFound e.id then 0 else 2) + dupOf e.id })
  let new := found.filter (fun f => !stored.any (fun e => e.id == f.1))
  let free := (List.range 48).filter (fun p => !stored.any (fun e => e.position == p))
  if free.length < new.length then none
  else
    let added := (new.zip free).map (fun e => (⟨e.2, 1 + dupOf e.1.1, e.1.1, 0xFFFF⟩ : MapEntry))
    some ((kept ++ added).foldl insertEntry [])

/-- Whether a found map differs from the stored one in IDs or positions (R255). -/
def mapDiffers (stored found : List MapEntry) : Bool :=
  let key (l : List MapEntry) : List (Nat × Nat) := l.map (fun e => (e.position, e.id))
  key stored != key found

end Sys2Proof.Machine
end

