-- ==== Sys2Proof/Machine/Loop.lean ====
section
/-! DEFINITION. The loop engine: loop units (kind 0x04), loop hives, profile generators (0x05) and churns (0x06). -/

namespace Sys2Proof.Machine

/-! ## Due ticks and inputs (R260, R262) -/

/-- Whether a unit of period 2^k and phase φ is due at tick `t` (R260). -/
def duePhase (k phase t : Nat) : Bool := (t + 2 ^ k - phase % 2 ^ k) % 2 ^ k == 0

/-- The step interval 2^k / 1,024 s, exact. -/
def stepH (k : Nat) : F32 := fRat (2 ^ k) 1024

/-- A value a loop, a profile generator or an observer may use: a number, quality below 0x03, finite (R35, R262). -/
def Seen.num (v : Seen) : Option F32 := if v.usable && v.type != 4 && fFinite v.f then some v.f else none

/-- Whether a TRACK_CELL requests tracking: non-zero or unusable (R271). -/
def Seen.tracks (v : Seen) : Bool :=
  if v.type = 4 then !v.usable || v.value != 0
  else match v.num with
    | some x => !fZero x
    | none => true

/-- A TRACK_CELL that is unusable, by its quality or as a number that is not finite (R262, R264). -/
def Seen.noTrack (v : Seen) : Bool := !v.usable || (v.type != 4 && v.num.isNone)

/-- Conditions together. -/
def unionConds (l : List Seen) : BitVec 8 := l.foldl (fun a v => a ||| v.conds) 0

/-- SUBST when something was left out or held. -/
def substIf (b : Bool) : BitVec 8 := if b then condBit 2 else 0

/-! ## Loop hives (R279 to R283) -/

/-- What a hive adds to the step of a member loop. -/
structure LoopMods where
  /-- saturation of the inner loop as the outer loop counts it (R280) -/
  extSat : Int := 0
  /-- a tracking step with this u_base, which brings these conditions (R280, R271) -/
  track  : Option (F32 × BitVec 8) := none
  /-- effective limits (R282) -/
  limits : Option (F32 × F32) := none
  /-- the selected output of an override hive (R283) -/
  uSel   : Option F32 := none
  deriving DecidableEq, Repr

/-- The outer and inner slot of a cascade: the inner loop reads the outer's OUT_CELL as its set-point (Table 08-5). -/
def cascadePair (c : Content) (hive : Nat) : Option (Nat × Nat) :=
  match memberLoops c hive with
  | [a, b] =>
    let reads (i o : Nat) : Bool :=
      scalarOf c P.SP_MODE (slotInst i) == 1 && scalarOf c P.SP_CELL (slotInst i) == scalarOf c P.OUT_CELL (slotInst o)
    if reads b a then some (a, b) else if reads a b then some (b, a) else none
  | _ => none

/-- The loop hive that is the parent of a unit: its number, if the face kind is 0x04. -/
def loopHiveOf (c : Content) (slot : Nat) : Option Nat :=
  let par := (headerOf c slot).parent
  if slotKind par = 0x02 ∧ scalarOf c P.HIVE_FACE_KIND (hiveNumber par) = 0x04 then some (hiveNumber par) else none

/-- sgn of a loop (R266). -/
def loopSgn (c : Content) (n : Nat) : Int := if scalarOf c P.LOOP_ACTION n = 0 then 1 else -1

/-- A loop unit in plain AUTO at the end of the previous tick, as its partners see it (R280, R289, R418). -/
def State.loopAuto (s : State) (n : Nat) : Bool := (s.prev.unit (loopSlot n)).st == .auto && !s.rests (loopSlot n)

/-- What the inner loop of a cascade brings to the outer (R280): the inner's committed state from the end of the
previous tick, and its PV value of this tick. -/
def State.cascadeMods (s : State) (outer inner : Nat) : LoopMods :=
  let i := s.prev.loop inner
  let prod := i.sat * loopSgn s.content inner
  let ext : Int := if prod = 1 ∨ i.spClamp = 1 then 1 else if prod = -1 ∨ i.spClamp = -1 then -1 else 0
  let track := !s.loopAuto inner || i.inputLoss || i.tracking
  let pv := s.see (s.cfg P.PV_CELL inner)
  let base : F32 × BitVec 8 := match pv.num with
    | some y => (y, pv.conds)
    | none => ((s.work.loop outer).uLast, condBit 2)
  ⟨ext, if track then some base else none, none, none⟩

/-- The subranges of a split-range hive, each with whether its channel was ACTIVE at the end of the previous tick. -/
def State.subranges (s : State) (hive : Nat) : List (F32 × F32 × Bool) :=
  ((membersOf s.content hive).filter (fun u => slotKind u == 0x03)).map (fun u =>
    let a := s.cfgF P.RETX_SRC_LO (slotInst u)
    let b := s.cfgF P.RETX_SRC_HI (slotInst u)
    (fmin a b, fmax a b, (s.prev.unit u).st == .active && !s.rests u))

/-- A run extended through adjacent ACTIVE subranges; `n` bounds the passes (R282). -/
def extendRun (ranges : List (F32 × F32 × Bool)) : Nat → F32 × F32 → F32 × F32
  | 0, r => r
  | n + 1, (lo, hi) =>
    let up := ranges.find? (fun r => r.2.2 && fle r.1 hi && flt hi r.2.1)
    let down := ranges.find? (fun r => r.2.2 && flt r.1 lo && fle lo r.2.1)
    let hi := match up with | some r => r.2.1 | none => hi
    let lo := match down with | some r => r.1 | none => lo
    extendRun ranges n (lo, hi)

/-- Effective limits of the loop of a split-range hive (R282). -/
def State.splitMods (s : State) (hive n : Nat) : LoopMods :=
  let u := (s.work.loop n).uLast
  let ranges := s.subranges hive
  match ranges.filter (fun r => r.2.2 && fle r.1 u && fle u r.2.1) with
  | [] => {}
  | r :: t =>
    let start := t.foldl (fun a x => (fmin a.1 x.1, fmax a.2 x.2.1)) (r.1, r.2.1)
    let run := extendRun ranges ranges.length start
    ⟨0, none, some (fmax run.1 (s.cfgF P.OUT_LO n), fmin run.2 (s.cfgF P.OUT_HI n)), none⟩

/-- The replacement output of an override hive for a member not selected in the previous tick (R283). -/
def State.overrideMods (s : State) (h n : Nat) : LoopMods :=
  let out := s.cfg P.LHIVE_OUT_CELL h
  if (s.prev.loop n).selected || !(s.prev.cell out).written then {}
  else ⟨0, none, none, some (s.seePrev out).f⟩

/-- What the hive of loop `n` adds to its step. -/
def State.loopMods (s : State) (n : Nat) : LoopMods :=
  match loopHiveOf s.content (loopSlot n) with
  | none => {}
  | some h =>
    let hive := hiveSlot h
    match s.cfg P.LHIVE_TYPE h with
    | 1 =>
      match cascadePair s.content hive with
      | some (o, i) => if o = loopSlot n then s.cascadeMods n (slotInst i) else {}
      | none => {}
    | 3 => s.splitMods hive n
    | 4 => s.overrideMods h n
    | _ => {}

/-! ## The PID step (R263 to R272) -/

/-- Running values and derived constants of a step (R266). -/
structure LoopConst where
  kp   : F32
  ci   : F32
  ad   : F32
  bd   : F32
  dr   : F32
  sgn  : F32
  beta : F32
  lo   : F32
  hi   : F32
  deriving DecidableEq, Repr

/-- The derived constants in the order the rule writes them. -/
def State.loopConst (s : State) (n : Nat) (lim : Option (F32 × F32)) : LoopConst :=
  let h := stepH (s.cfg P.LOOP_K n)
  let set := 4 * n + s.run P.GAIN_SET n
  let kp := s.runF P.KP set
  let ti := s.runF P.TI set
  let tf := s.runF P.TF set
  let rate := s.runF P.OUT_RATE n
  let l := lim.getD (s.cfgF P.OUT_LO n, s.cfgF P.OUT_HI n)
  { kp := kp
    ci := if fZero ti then 0 else fdiv (fmul kp h) ti
    ad := fdiv tf (fadd tf h)
    bd := fdiv (fmul kp (s.runF P.TD set)) (fadd tf h)
    dr := if fZero rate then 0 else fmul rate h
    sgn := if s.cfg P.LOOP_ACTION n = 0 then fone else fneg fone
    beta := s.runF P.BETA n
    lo := l.1, hi := l.2 }

/-- limit(v) of R267. -/
def LoopConst.limit (k : LoopConst) (uLast v : F32) : F32 :=
  let w := fmin (fmax v k.lo) k.hi
  if fPos k.dr then fmin (fmax w (fsub uLast k.dr)) (fadd uLast k.dr) else w

/-- RATE_LIMITED: u differs from v clamped to the limits. -/
def LoopConst.rated (k : LoopConst) (u v : F32) : Bool := !feq u (fmin (fmax v k.lo) k.hi)

/-- Results of a step. -/
structure StepOut where
  e    : F32
  u    : F32
  i    : F32
  d    : F32
  sat  : Int
  rate : Bool
  deriving DecidableEq, Repr

/-- e and p of a step (R267). -/
def LoopConst.errors (k : LoopConst) (r y : F32) : F32 × F32 :=
  (fmul (fsub r y) k.sgn, fmul k.kp (fmul (fsub (fmul k.beta r) y) k.sgn))

/-- The ordinary step (R267), `none` when i, d or v is not finite (R268). -/
def LoopConst.ordinary (k : LoopConst) (l : LoopState) (r y uff : F32) (ext : Int) (uSel : Option F32) : Option StepOut :=
  let ep := k.errors r y
  let e := ep.1
  let p := ep.2
  let d := fsub (fmul k.ad l.dPrev) (fmul (fmul k.bd (fsub y l.yPrev)) k.sgn)
  let iPrev := match uSel with | some u => fsub (fsub (fsub u p) d) uff | none => l.iPrev
  let di := fmul k.ci e
  let i := fadd iPrev di
  let v := fadd (fadd (fadd p i) d) uff
  let u := k.limit l.uLast v
  let hold := (fPos di && (flt u v || decide (0 < ext))) || (fNeg? di && (flt v u || decide (ext < 0)))
  let i := if hold then iPrev else i
  let v := if hold then fadd (fadd (fadd p i) d) uff else v
  let u := if hold then k.limit l.uLast v else u
  if fFinite i && fFinite d && fFinite v then
    some ⟨e, u, i, d, if flt u v then 1 else if flt v u then -1 else 0, k.rated u v⟩
  else none

/-- The preset step (R269), under OUT_LO and OUT_HI. -/
def LoopConst.preset (k : LoopConst) (lo hi : F32) (l : LoopState) (r y uff uBase : F32) : Option StepOut :=
  let ep := k.errors r y
  let u := fmin (fmax uBase lo) hi
  let i := fsub (fsub (fsub u ep.2) 0) uff
  if fFinite i then some ⟨ep.1, u, i, 0, l.sat, false⟩ else none

/-- The set-point (R263, Table 08-1): value, clamp, the state of its input and the cell read if any. -/
def State.setPoint (s : State) (n : Nat) (l : LoopState) : F32 × LoopState × Option Seen :=
  let mode := s.cfg P.SP_MODE n
  let loc := s.runF P.SP n
  let scaled (w : F32) : F32 := if mode = 2 then fadd (fmul (s.runF P.RATIO n) w) (s.runF P.RATIO_BIAS n) else w
  let v := s.seeFrom (loopSlot n) (s.cfg P.SP_CELL n)
  let got : F32 × LoopState :=
    if mode = 0 then (loc, { l with spHeld := false })
    else
      match v.num with
      | some w => (scaled w, { l with spLast := some w, spHeld := false })
      | none => (match l.spLast with | some w => scaled w | none => loc, { l with spHeld := true })
  let hi := s.cfgF P.SP_HI n
  let lo := s.cfgF P.SP_LO n
  let clamp : Int := if flt hi got.1 then 1 else if flt got.1 lo then -1 else 0
  (if clamp = 1 then hi else if clamp = -1 then lo else got.1, { got.2 with spClamp := clamp },
    if mode = 0 then none else some v)

/-- One feed-forward input (Table 08-1): the value of the term, whether it is held, whether it is dropped, the last
usable value, and whether the step is to be a preset step. -/
def ffTerm (drop wasDropped : Bool) (last : Option F32) (v : Seen) : F32 × Bool × Bool × Option F32 × Bool :=
  match v.num with
  | some x => (x, false, false, some x, wasDropped)
  | none =>
    if drop then (0, false, true, last, !wasDropped)
    else
      match last with
      | some x => (x, true, wasDropped, last, false)
      | none => (0, false, true, last, false)

/-- The feed-forward sum (R267) and the cells read. -/
def State.feedForward (s : State) (n : Nat) (l : LoopState) : F32 × LoopState × List Seen :=
  let loss := s.cfg P.FF_LOSS n
  let c1 := s.cfg P.FF1_CELL n
  let c2 := s.cfg P.FF2_CELL n
  let v1 := s.seeFrom (loopSlot n) c1
  let v2 := s.seeFrom (loopSlot n) c2
  let t1 := if c1 = 0 then (0, false, false, none, false) else ffTerm (bit loss 0) l.ff1Dropped l.ff1Last v1
  let t2 := if c2 = 0 then (0, false, false, none, false) else ffTerm (bit loss 1) l.ff2Dropped l.ff2Last v2
  let uff := fadd (fadd (fmul (s.runF P.FF1_GAIN n) t1.1) (fmul (s.runF P.FF2_GAIN n) t2.1)) (s.runF P.FF_BIAS n)
  (uff, { l with ff1Dropped := t1.2.2.1, ff2Dropped := t2.2.2.1, ff1Last := t1.2.2.2.1, ff2Last := t2.2.2.2.1
                 ffHeld := t1.2.1 || t2.2.1, presetDue := l.presetDue || t1.2.2.2.2 || t2.2.2.2.2 },
    (if c1 = 0 then [] else [v1]) ++ (if c2 = 0 then [] else [v2]))

/-- The cells of a loop written. -/
def State.writeLoop (s : State) (n : Nat) (u : F32) (uc : BitVec 8) (e : F32) (ec : BitVec 8) (r : F32) (rc : BitVec 8) :
    State :=
  let slot := loopSlot n
  let s := s.writeF slot (s.cfg P.OUT_CELL n) u s.workTick uc
  let s := s.writeF slot (s.cfg P.ERR_CELL n) e s.workTick ec
  s.writeF slot (s.cfg P.SPE_CELL n) r s.workTick rc

/-- Inputs of a step in the order read, with the state their rules leave (Table 08-1, R265, R271). -/
structure LoopIn where
  y     : Option F32
  pv    : Seen
  track : Option Seen
  r     : F32
  sp    : Option Seen
  uff   : F32
  ff    : List Seen
  l     : LoopState
  deriving DecidableEq, Repr

/-- The inputs read. SP follows PV in MANUAL and tracking steps with SP_TRACK (R263). -/
def State.readLoop (s : State) (n : Nat) (mods : LoopMods) : LoopIn × State :=
  let slot := loopSlot n
  let l := s.work.loop n
  let pv := s.seeFrom slot (s.cfg P.PV_CELL n)
  let y := pv.num
  let l := { l with inputLoss := y.isNone, lossRun := if y.isNone then min (l.lossRun + 1) 65535 else 0
                    presetDue := l.presetDue || (l.inputLoss && y.isSome) }
  let tc := s.cfg P.TRACK_CELL n
  let tr := if tc = 0 then none else some (s.seeFrom slot tc)
  let tracking := (match tr with | some v => v.tracks | none => false) || mods.track.isSome
  let l := { l with tracking := tracking, presetDue := l.presetDue || (l.tracking && !tracking) }
  let s := match y with
    | some v =>
      if s.cfg P.SP_TRACK n = 1 ∧ (tracking ∨ (s.unit slot).st = .manual) then
        s.modWork (fun p => p.setRunning s.content P.SP n (valF32 v))
      else s
    | none => s
  let sp := s.setPoint n l
  let ff := s.feedForward n sp.2.1
  (⟨y, pv, tr, sp.1, sp.2.2, ff.1, ff.2.2, ff.2.1⟩, s)

/-- The step of a loop unit in AUTO or MANUAL. -/
def State.stepLoop (s : State) (n : Nat) : State :=
  let slot := loopSlot n
  let mods := s.loopMods n
  let read := s.readLoop n mods
  let a := read.1
  let s := read.2
  let l := a.l
  let manual := (s.unit slot).st == .manual
  let k := s.loopConst n mods.limits
  let plain := s.loopConst n none
  let lo := s.cfgF P.OUT_LO n
  let hi := s.cfgF P.OUT_HI n
  let req := match a.track with | some v => v.tracks | none => false
  let spList := match a.sp with | some v => [v] | none => []
  let trList := match a.track with | some v => [v] | none => []
  let all := a.pv :: spList ++ a.ff ++ trList
  let s := s.noteInputs slot (all.any Seen.isSubst)
    (a.y.isNone || l.spHeld || a.ff.any (fun v => v.num.isNone) || trList.any Seen.noTrack)
  let limit := s.cfg P.LOSS_FAULT_STEPS n
  let s := if limit ≠ 0 ∧ a.y.isNone ∧ limit ≤ l.lossRun then s.detect slot 0x01 else s
  let used := unionConds ((spList ++ a.ff).filter (fun v => v.num.isSome)) |||
    substIf (l.spHeld || a.ff.any (fun v => v.num.isNone))
  let errConds := if l.inputLoss then a.pv.conds else unionConds (a.pv :: spList)
  let y := a.y.getD l.yPrev
  let ask := l.presetDue
  let plan : Option StepOut × BitVec 8 × Bool :=
    if req then (k.preset lo hi l a.r y a.uff (s.runF P.TRACK_OUT n),
      match a.track with
      | some v => if v.noTrack then substIf true else v.conds
      | none => 0, true)
    else
      match mods.track with
      | some b => (k.preset lo hi l a.r y a.uff b.1, b.2, true)
      | none =>
        if manual then
          let u := plain.limit l.uLast l.manual
          (some ⟨(k.errors a.r y).1, u, l.iPrev, l.dPrev, l.sat, plain.rated u l.manual⟩, 0, false)
        else if a.y.isNone then
          if s.cfg P.LOSS_ACTION n = 0 then
            (some ⟨l.errLast, l.uLast, l.iPrev, l.dPrev, l.sat, false⟩, used ||| a.pv.conds, false)
          else
            let u := plain.limit l.uLast (s.cfgF P.LOSS_OUTPUT n)
            (some ⟨l.errLast, u, l.iPrev, l.dPrev, l.sat, plain.rated u (s.cfgF P.LOSS_OUTPUT n)⟩,
              used ||| condBit 2, false)
        else if ask then (k.preset lo hi l a.r y a.uff l.uLast, used ||| a.pv.conds, true)
        else (k.ordinary l a.r y a.uff mods.extSat mods.uSel, used ||| a.pv.conds, false)
  match plan.1 with
  | none => s.detect slot 0x02
  | some o =>
    let e := if l.inputLoss then l.errLast else o.e
    let s := s.modWork (·.setLoop n { l with
      iPrev := o.i, dPrev := o.d, yPrev := y, uLast := o.u, errLast := e, sat := o.sat, extSat := mods.extSat
      rateLimited := o.rate, preset := plan.2.2, presetDue := if plan.2.2 then false else l.presetDue
      wroteTick := s.workTick })
    s.writeLoop n o.u plan.2.1 e errConds a.r (unionConds (a.pv :: spList))

/-- The wind-down step (Table 08-2). It reads no input. -/
def State.windLoop (s : State) (n : Nat) : State :=
  let l := s.work.loop n
  let lo := s.cfgF P.OUT_LO n
  let hi := s.cfgF P.OUT_HI n
  let target := s.cfgF P.STOP_OUTPUT n
  let most := fmul (s.cfgF P.STOP_RATE n) (stepH (s.cfg P.LOOP_K n))
  let u :=
    if s.cfg P.STOP_MODE n = 0 then fclamp target lo hi
    else if flt l.uLast target then fclamp (fmin target (fadd l.uLast most)) lo hi
    else fclamp (fmax target (fsub l.uLast most)) lo hi
  let s := s.modWork (·.setLoop n { l with uLast := u, preset := false, tracking := false, rateLimited := false })
  let s := (s.writeF (loopSlot n) (s.cfg P.OUT_CELL n) u s.workTick 0).noteInputs (loopSlot n) false false
  if s.cfg P.STOP_MODE n = 0 ∨ feq u target then s.modUnit (loopSlot n) (fun r => { r with windDone := true }) else s

/-- A due loop unit. -/
def State.evalLoop (s : State) (n : Nat) : State :=
  match (s.unit (loopSlot n)).st with
  | .auto => s.stepLoop n
  | .manual => s.stepLoop n
  | .stopping => s.windLoop n
  | _ => s

/-- Initial conditions of a start from STOPPED (R273). -/
def State.startLoop (s : State) (n : Nat) : State :=
  let out := s.cfg P.OUT_CELL n
  let u := if (s.work.cell out).written then (s.see out).f else s.cfgF P.STOP_OUTPUT n
  s.modWork (·.setLoop n { uLast := u, manual := u, presetDue := true })

/-! ## Override selection (R283) -/

/-- Whether a member is eligible. -/
def State.eligible (s : State) (slot : Nat) : Bool :=
  let n := slotInst slot
  let v := s.see (s.cfg P.OUT_CELL n)
  (s.unit slot).st == .auto && !(s.work.loop n).inputLoss && (s.work.loop n).wroteTick == s.workTick && v.usable

/-- The better of two candidates: lowest or highest output, ties to the lower slot, which stands first. -/
def State.better (s : State) (highest : Bool) (a b : Nat) : Nat :=
  let u (x : Nat) : F32 := (s.see (s.cfg P.OUT_CELL (slotInst x))).f
  if highest then (if flt (u a) (u b) then b else a) else (if flt (u b) (u a) then b else a)

/-- The member an override hive selects. -/
def State.selectMember (s : State) (h : Nat) : Option Nat :=
  let loops := memberLoops s.content (hiveSlot h)
  let primary := ((boundTo s.content h modeItem).map (·.1)).getD 0
  if loops.contains primary && (s.unit primary).st == .manual then
    if (s.work.loop (slotInst primary)).wroteTick == s.workTick then some primary else none
  else
    match loops.filter s.eligible with
    | [] => none
    | a :: t => some (t.foldl (s.better (s.cfg P.LHIVE_SELECT h == 1)) a)

/-- A due override hive. -/
def State.evalOverride (s : State) (h : Nat) : State :=
  let loops := memberLoops s.content (hiveSlot h)
  let out := s.cfg P.LHIVE_OUT_CELL h
  let pick := s.selectMember h
  let reads := (loops.filter (fun u => s.cfg P.OUT_CELL (slotInst u) != 0)).map (fun u => s.see (s.cfg P.OUT_CELL (slotInst u)))
  let s := s.noteInputs (hiveSlot h) (reads.any Seen.isSubst) (reads.any (fun v => !v.usable))
  let s := loops.foldl (fun s u =>
    s.modWork (fun p => p.setLoop (slotInst u) { p.loop (slotInst u) with selected := pick == some u })) s
  match pick with
  | some u =>
    let v := s.see (s.cfg P.OUT_CELL (slotInst u))
    s.writeF (hiveSlot h) out v.f s.workTick v.conds
  | none => s.writeF (hiveSlot h) out ((s.work.cell out).own.value.setWidth 32) s.workTick (condBit 7)

/-! ## Profile generators (R284 to R288) -/

/-- Running limits of a profile generator and the constants formed from them (R284). -/
structure ProfConst where
  vmax : F32
  amax : F32
  jmax : F32
  tol  : F32
  q    : F32
  a3   : F32
  h    : F32
  deriving DecidableEq, Repr

def State.profConst (s : State) (n : Nat) : ProfConst :=
  let amax := s.runF P.PROF_AMAX n
  let jmax := s.runF P.PROF_JMAX n
  let q := fdiv (fmul amax amax) jmax
  ⟨s.runF P.PROF_VMAX n, amax, jmax, s.runF P.PROF_TOL n, q, fdiv (fmul q amax) jmax, stepH (s.cfg P.PROF_K n)⟩

/-- brake_speed of R285. -/
def ProfConst.brakeSpeed (k : ProfConst) (d : F32) : F32 :=
  if fle k.a3 d then
    fmul (fsub (fsqrt (fadd (fmul k.q k.q) (fmul (fmul (fRat 8 1) k.amax) d))) k.q) (fRat 1 2)
  else fcbrt (fmul (fmul d d) k.jmax)

/-- stop_dist of R285. -/
def ProfConst.stopDist (k : ProfConst) (w : F32) : F32 :=
  if fle k.q w then fmul (fmul w (fRat 1 2)) (fadd (fdiv w k.amax) (fdiv k.amax k.jmax))
  else fmul w (fsqrt (fdiv w k.jmax))

/-- x with the sign of another value as a factor. -/
def fsignMul (sg : Int) (x : F32) : F32 := fmul (fOfInt sg) x

/-- The stopping point (R287). -/
def ProfConst.stopPoint (k : ProfConst) (p : ProfState) : F32 := fadd p.x (fsignMul (fsgn p.v) (k.stopDist (fabs p.v)))

/-- One step toward target `g` (R285). -/
def ProfConst.step (k : ProfConst) (g : F32) (p : ProfState) : ProfState :=
  let e := fsub g p.x
  let sg := fsgn e
  let ae := fabs e
  let av := fabs p.v
  if fle ae k.tol && fle av (fmul k.amax k.h) && fle (fabs p.a) (fmul k.jmax k.h) then
    { p with x := g, v := 0, a := 0, atTarget := true, overshoot := false, reversing := false, braking := false }
  else
    let moving := !fZero p.v
    let past := moving && (sg == 0 || fsgn p.v == sg) && flt (fadd ae k.tol) (k.stopDist av)
    let vt := fsignMul sg (fmin k.vmax (k.brakeSpeed ae))
    let dv := fsub vt p.v
    let ac := fsignMul (fsgn dv) (fmin k.amax (fsqrt (fmul (fmul (fRat 2 1) k.jmax) (fabs dv))))
    let da := fsub ac p.a
    let a := fadd p.a (fsignMul (fsgn da) (fmin (fmul k.jmax k.h) (fabs da)))
    let v := fadd p.v (fmul a k.h)
    { p with
      x := fadd p.x (fmul v k.h), v := v, a := a, atTarget := false, overshoot := p.overshoot || past
      reversing := moving && sg != 0 && fsgn p.v != sg }

/-- The target of a step in AUTO (R284, R288): value, conditions, and the state the loss rule leaves. -/
def State.profTarget (s : State) (n : Nat) (k : ProfConst) (p : ProfState) : F32 × BitVec 8 × ProfState × Option Seen :=
  let cell := s.cfgCell P.PROF_TARGET_CELL n
  if cell = 0 then (s.runF P.PROF_TARGET n, 0, { p with targetHeld := false, lossRun := 0, brakeAt := none }, none)
  else
    let v := s.seeFrom (profSlot n) cell
    match v.num with
    | some x => (x, v.conds, { p with targetLast := some x, targetHeld := false, lossRun := 0, brakeAt := none }, some v)
    | none =>
      let p := { p with targetHeld := true, lossRun := min (p.lossRun + 1) 65535 }
      if s.cfg P.PROF_LOSS n = 1 then
        let g := p.brakeAt.getD (k.stopPoint p)
        (g, condBit 2, { p with brakeAt := some g }, some v)
      else
        let g := p.targetLast.getD p.x
        (g, condBit 2, { p with targetLast := some g }, some v)

/-- A due profile generator. -/
def State.evalProf (s : State) (n : Nat) : State :=
  let slot := profSlot n
  let st := (s.unit slot).st
  if st = .auto ∨ st = .manual ∨ st = .stopping then
    let k := s.profConst n
    let p := s.work.prof n
    let idle := { p with targetHeld := false, lossRun := 0, brakeAt := none }
    let tg : F32 × BitVec 8 × ProfState × Option Seen :=
      if st = .auto then s.profTarget n k p
      else if st = .manual then (p.manual, 0, idle, none)
      else (p.stopAt, 0, idle, none)
    let p := tg.2.2.1
    let s := s.noteInputs slot (match tg.2.2.2 with | some v => v.isSubst | none => false) p.targetHeld
    let limit := s.cfg P.PROF_LOSS_STEPS n
    let s := if limit ≠ 0 ∧ p.targetHeld ∧ limit ≤ p.lossRun then s.detect slot 0x01 else s
    let q := k.step tg.1 p
    if fFinite q.x && fFinite q.v && fFinite q.a then
      let s := s.modWork (·.setProf n q)
      let s := s.writeF slot (s.cfg P.PROF_OUT_CELL n) q.x s.workTick tg.2.1
      let s := s.writeF slot (s.cfg P.PROF_VEL_CELL n) q.v s.workTick tg.2.1
      if st = .stopping ∧ q.atTarget then s.modUnit slot (fun r => { r with windDone := true }) else s
    else s.detect slot 0x02
  else s

/-- Initial conditions of a start from STOPPED (R287). -/
def State.startProf (s : State) (n : Nat) : State :=
  let out := s.cfg P.PROF_OUT_CELL n
  let src := if s.cfg P.PROF_INIT n = 0 ∧ (s.work.cell out).written then out else s.cfg P.PROF_INIT_CELL n
  let x := (s.see src).f
  s.modWork (·.setProf n { x := x, manual := x })

/-! ## Churns (R289 to R293) -/

/-- The bin of a step (R290): none while the phase is lost. -/
def State.churnBin (s : State) (n : Nat) : Option Nat × Option Seen :=
  let bins := s.cfg P.CHURN_BINS n
  let cycle := s.cfg P.CHURN_CYCLE n
  let epoch := s.cfg P.CHURN_EPOCH n
  if s.cfg P.CHURN_PHASE_MODE n = 0 then
    (some ((((s.workTick : Int) - epoch) % cycle).toNat * bins / cycle), none)
  else
    let v := s.seeFrom (churnSlot n) (s.cfg P.CHURN_PHASE_CELL n)
    if v.usable && v.type == 2 then
      (some ((((v.value.toNat % 2 ^ 32 : Nat) : Int) - epoch) % (2 ^ 32 : Nat) % cycle |>.toNat |> (· * bins / cycle)), some v)
    else (none, some v)

/-- The present band (R292): from the band cell as it stood at the end of the previous tick. -/
def State.churnBand (s : State) (n : Nat) (c : ChurnState) : Int × Option Seen :=
  let cell := s.cfgCell P.CHURN_BAND_CELL n
  if cell = 0 then (0, none)
  else
    let v := s.seePrev cell
    match v.num with
    | none => (c.band, some v)
    | some x =>
      let w := s.cfgF P.CHURN_BAND_WIDTH n
      let o := s.cfgF P.CHURN_BAND_ORIGIN n
      let hy := s.cfgF P.CHURN_BAND_HYST n
      let below := flt x (fsub (fadd (fmul (fOfInt c.tag) w) o) hy)
      let above := fle (fadd (fadd (fmul (fOfInt (c.tag + 1)) w) o) hy) x
      let q := fdiv (fsub x o) w
      let at_ : Int := if fFinite q then max (-32768) (min 32767 (ffloor q)) else if fNeg? q then -32768 else 32767
      (if below || above then at_ else c.tag, some v)

/-- host_ok of R291. -/
def State.hostOk (s : State) (l : Nat) : Bool :=
  let h := s.prev.loop l
  s.loopAuto l && h.sat == 0 && h.extSat == 0 && !h.inputLoss && !h.tracking && !h.preset &&
    (s.seePrev (s.cfg P.ERR_CELL l)).usable

/-- The fade of a step (R292): `left` the band differs from the tag, `lost` the phase is lost, `auto` the host loop is in AUTO and
no stop fades the churn out. -/
def churnFade (fade : Nat) (count : Bool) (left lost auto : Bool) (c : ChurnState) : ChurnState :=
  let c := { c with bandLeft := left, phaseLost := lost, lostSince := c.lostSince || lost }
  if left || lost || !auto then
    let f := c.fadeCount - 1
    let c := { c with fadingOut := decide (0 < c.fadeCount), fadingIn := false, fadeCount := f }
    if f = 0 ∧ left then
      { c with table := [], tag := c.band, fadeCount := fade, bandLeft := false, lostSince := lost }
    else if f = 0 ∧ count ∧ c.lostSince then { c with table := [], lostSince := lost }
    else c
  else if c.fadeCount < fade then
    let f := c.fadeCount + 1
    { c with fadingOut := false, fadingIn := true, fadeCount := f, lostSince := c.lostSince && decide (f < fade) }
  else { c with fadingOut := false, fadingIn := false, lostSince := false }

/-- A due churn, before its host loop. -/
def State.evalChurn (s : State) (n : Nat) : State :=
  let slot := churnSlot n
  let st := (s.unit slot).st
  if st = .active ∨ st = .stopping then
    let l := churnHost s.content n
    let fade := s.cfg P.CHURN_FADE n
    let bins := s.cfg P.CHURN_BINS n
    let c := s.work.churn n
    let bn := s.churnBin n
    let band := s.churnBand n c
    let hostOk := s.hostOk l
    let c := { c with band := band.1, hostNotReady := !hostOk, learning := false, clamped := false }
    let stopping : Bool := st == .stopping
    let left := c.fadeCount - 1
    let c := churnFade fade (s.cfg P.CHURN_PHASE_MODE n == 1) (c.band != c.tag) bn.1.isNone (s.loopAuto l && !stopping) c
    let c := if stopping then { c with fadeCount := left } else c
    let learned : ChurnState × Bool :=
      match c.bPrev, bn.1 with
      | some bp, some _ =>
        if c.fadeCount = fade ∧ hostOk then
          let lim := s.cfgF P.CHURN_LIMIT n
          let x := fadd (fmul (Tab.get 0 c.table bp) (s.cfgF P.CHURN_FORGET n))
            (fmul (s.cfgF P.CHURN_GAIN n) (s.seePrev (s.cfg P.ERR_CELL l)).f)
          let y := fclamp x (fneg lim) lim
          ({ c with table := Tab.put 0 c.table bp y, learning := true, clamped := flt lim x || flt x (fneg lim) },
            fFinite y)
        else (c, true)
      | _, _ => (c, true)
    let c : ChurnState := { learned.1 with bOut := bn.1.getD c.bOut }
    let entry := Tab.get 0 c.table ((c.bOut + s.cfg P.CHURN_LEAD n) % bins)
    let out := fmul (fdiv (fOfNat c.fadeCount) (fOfNat fade)) entry
    let cells := (match bn.2 with | some v => [v] | none => []) ++ (match band.2 with | some v => [v] | none => [])
    let bandBad := match band.2 with | some v => v.num.isNone | none => false
    let s := s.noteInputs slot (cells.any Seen.isSubst) (bn.1.isNone || bandBad)
    if learned.2 && fFinite entry then
      let s := s.modWork (fun p => p.setChurn n { c with bPrev := bn.1 })
      let s : State := s.writeF slot (s.cfg P.CHURN_OUT_CELL n) out s.workTick
        (unionConds (cells.filter Seen.usable) ||| substIf (bn.1.isNone || bandBad))
      if st = .stopping ∧ c.fadeCount = 0 then s.modUnit slot (fun r => { r with windDone := true }) else s
    else s.detect slot 0x02
  else s

/-- Initial conditions of a start from STOPPED (R293): the table stays when its tag matches the present band. -/
def State.startChurn (s : State) (n : Nat) : State :=
  let c := s.work.churn n
  let band := (s.churnBand n c).1
  s.modWork (·.setChurn n { table := if band = c.tag then c.table else [], tag := band, band := band })

/-! ## Status words (R294) -/

/-- A saturation field: 0b01 high, 0b10 low. -/
def satField (i : Int) : Nat := if 0 < i then 1 else if i < 0 then 2 else 0

/-- LOOP_STATUS (Table 08-8). -/
def LoopState.word (l : LoopState) : Nat :=
  satField l.sat + 4 * satField l.extSat + flagBit l.rateLimited 4 + flagBit l.inputLoss 5 + flagBit l.spHeld 6 +
    flagBit l.ffHeld 7 + flagBit l.selected 8 + flagBit l.tracking 9 + flagBit l.preset 10 + 2048 * satField l.spClamp +
    flagBit l.calmSafe 13

/-- PROF_STATUS (Table 08-9). -/
def ProfState.word (p : ProfState) : Nat :=
  flagBit p.braking 2 + flagBit p.targetHeld 3 + flagBit p.calmSafe 4 + flagBit p.atTarget 5 + flagBit p.reversing 6 +
    flagBit p.overshoot 7

/-- CHURN_STATUS (Table 08-10). -/
def ChurnState.word (c : ChurnState) : Nat :=
  flagBit c.clamped 1 + flagBit c.bandLeft 2 + flagBit c.hostNotReady 3 + flagBit c.phaseLost 4 + flagBit c.fadingIn 5 +
    flagBit c.fadingOut 6 + flagBit c.learning 7 + 65536 * (c.tag % 65536).toNat

/-- CHURN_TABLE (Table 08-11). -/
def ChurnState.tableBytes (c : ChurnState) : List Byte :=
  leInt 4 c.tag ++ ((List.range 4096).map (fun i => le 4 (Tab.get 0 c.table i).toNat)).flatten

end Sys2Proof.Machine
end

