-- ==== Sys2Proof/Machine/Drying.lean ====
section
/-! DEFINITION. Drying and storage: the Rolsis observer (kind 0x0B), program units (0x09), chain units (0x0A) and bin
units (0x0D). -/

namespace Sys2Proof.Machine

/-! ## Equilibrium moisture (R297) -/

/-- Wet-basis EMC of a crop table in air of temperature `ta` and relative humidity `rh`; none when unusable. -/
def emc (crop : List Byte) (ta rh : F32) : Option F32 :=
  let a := fieldF crop 104
  let b := fieldF crop 108
  let c := fieldF crop 112
  let hundred := fRat 100 1
  let phi := fdiv rh hundred
  let ib := fdiv fone b
  let ic := fdiv fone c
  if fle phi 0 || fle fone phi then none
  else
    let md :=
      match field crop 1 1 with
      | 0 => fpow (fdiv (fln (fsub fone phi)) (fmul (fneg a) (fadd ta c))) ib
      | 1 => fmul (fneg ib) (fln (fdiv (fmul (fneg (fadd ta c)) (fln phi)) a))
      | _ => fmul (fadd a (fmul b ta)) (fpow (fdiv phi (fsub fone phi)) ic)
    if fFinite md && fPos md then some (fdiv (fmul hundred md) (fadd hundred md)) else none

/-! ## The observer (R298 to R304) -/

/-- An air zone (Table 09-1). -/
structure Zone where
  first   : Nat
  drying  : Bool
  tCell   : Nat
  rhCell  : Nat
  qCell   : Nat
  rhConst : F32
  qConst  : F32
  deriving DecidableEq, Repr

/-- The zones in use, in order. -/
def zonesOf (b : List Byte) : List Zone :=
  ((List.range 4).filter (fun z => field b (16 * z) 1 != 0xFF)).map (fun z =>
    ⟨field b (16 * z) 1, bit (field b (16 * z + 1) 1) 0, field b (16 * z + 2) 2, nullRef (field b (16 * z + 4) 2),
      nullRef (field b (16 * z + 6) 2), fieldF b (16 * z + 8), fieldF b (16 * z + 12)⟩)

/-- Index of the zone of segment `i`. -/
def zoneAt (zs : List Zone) (i : Nat) : Nat := ((zs.filter (fun z => decide (z.first ≤ i))).length) - 1

/-- One observer input: its value now if usable, and the value the step uses, held if need be (R300). `known`: it has been
usable since the start; `held`: its last usable value stands in; `lost`: it is unusable now. -/
structure ObsIn where
  s     : ObsState
  value : F32
  held  : Bool
  known : Bool
  conds : BitVec 8
  subst : Bool
  lost  : Bool
  deriving DecidableEq, Repr

/-- An input taken in under key `k` of the held values. -/
def ObsState.take (o : ObsState) (k : Nat) (now : Option F32) (conds : BitVec 8) (subst : Bool) : ObsIn :=
  match now with
  | some x => ⟨{ o with lastIn := (o.lastIn.erase k).insert k x }, x, false, true, conds, subst, false⟩
  | none =>
    match o.lastIn.find? (fun e => e.1 == k) with
    | some (_, x) => ⟨o, x, true, true, 0, subst, true⟩
    | none => ⟨o, 0, false, false, 0, subst, true⟩

/-- What the inputs of a step come to: the values in order, and what of them was held, unknown or substituted. -/
structure ObsAll where
  s      : ObsState
  values : List F32
  held   : Bool
  known  : Bool
  conds  : BitVec 8
  subst  : Bool
  lost   : Bool
  deriving DecidableEq, Repr

/-- One more input. -/
def ObsAll.add (a : ObsAll) (k : Nat) (now : Option F32) (conds : BitVec 8) (subst : Bool) : ObsAll :=
  let i := a.s.take k now conds subst
  ⟨i.s, a.values ++ [i.value], a.held || i.held, a.known && i.known, a.conds ||| i.conds, a.subst || i.subst,
    a.lost || i.lost⟩

/-- A cell as an input. -/
def ObsAll.addCell (a : ObsAll) (s : State) (n k ref : Nat) : ObsAll :=
  let v := s.seeFrom (obsSlot n) ref
  a.add k v.num (if v.usable then v.conds else 0) v.isSubst

/-- The inputs of a zone: temperature, humidity, specific airflow and EMC, keys 16 + 4z and up. -/
def ObsAll.addZone (a : ObsAll) (s : State) (n : Nat) (crop : List Byte) (z : Nat) (zn : Zone) : ObsAll :=
  let a := a.addCell s n (16 + 4 * z) zn.tCell
  let ta := a.values.getLastD 0
  let a := if zn.rhCell = 0 then a.add (17 + 4 * z) (some zn.rhConst) 0 false else a.addCell s n (17 + 4 * z) zn.rhCell
  let rh := a.values.getLastD 0
  let q := if fZero zn.qConst then fieldF crop 128 else zn.qConst
  let a := if zn.qCell = 0 then a.add (18 + 4 * z) (some q) 0 false else a.addCell s n (18 + 4 * z) zn.qCell
  a.add (19 + 4 * z) (emc crop ta rh) 0 false

/-- All inputs of a step: inlet moisture and temperature, discharge, then four values for each zone. -/
def State.obsInputs (s : State) (n : Nat) (crop : List Byte) (zs : List Zone) : ObsAll :=
  let a : ObsAll := ⟨s.work.observer n, [], false, true, 0, false, false⟩
  let a := a.addCell s n 0 (s.cfg P.OBS_INLET_M_CELL n)
  let a := a.addCell s n 1 (s.cfg P.OBS_INLET_T_CELL n)
  let a := a.addCell s n 2 (s.cfg P.OBS_DISCH_CELL n)
  (zs.zipIdx).foldl (fun a e => a.addZone s n crop e.2 e.1) a

/-- What a zone does in a step (R301). -/
structure ZoneStep where
  me : F32
  k  : F32
  dm : F32
  dg : F32
  ta : F32
  drying : Bool
  deriving DecidableEq, Repr

/-- The zone constants of a step. -/
def zoneStep (crop : List Byte) (h factor : F32) (drying : Bool) (ta q me : F32) : ZoneStep :=
  let qq := fdiv q (fieldF crop 128)
  let k := fmul (fmul (fmul (fieldF crop 116) (fexp (fneg (fdiv (fieldF crop 120) (fadd ta (fRat 27315 100))))))
    (fpow qq (fieldF crop 124))) factor
  ⟨me, k, fexp (fneg (fmul k h)), fexp (fneg (fdiv (fmul h qq) (fieldF crop 132))), ta, drying⟩

/-- One segment relaxed (R301): moisture and temperature. -/
def relaxSegment (lat : F32) (z : ZoneStep) (m g : F32) : F32 × F32 :=
  let mn := fadd z.me (fmul (fsub m z.me) z.dm)
  (mn, fsub (fadd z.ta (fmul (fsub g z.ta) z.dg)) (fmul lat (fsub m mn)))

/-- The shifts of a step, at most `k` more: acc, segments and shifts done (R301). -/
def shiftColumn (mIn tIn : F32) : Nat → F32 → List (F32 × F32) → Nat → F32 × List (F32 × F32) × Nat
  | 0, acc, seg, done => (acc, seg, done)
  | k + 1, acc, seg, done =>
    if fle fone acc then shiftColumn mIn tIn k (fsub acc fone) ((mIn, tIn) :: seg.dropLast) (done + 1)
    else (acc, seg, done)

/-- The correction of R303, in tick `t`. -/
def State.correct (s : State) (n : Nat) (d : F32) (o : ObsState) : ObsState :=
  let v := s.seeFrom (obsSlot n) (s.cfgCell P.OBS_MEAS_CELL n)
  let o := { o with corrected := false }
  match v.num with
  | none => o
  | some me =>
    if !o.filled || flt d (s.cfgF P.OBS_D_MIN n) || o.corrStamp == some v.stamp then o
    else
      match o.ring.find? (fun e => decide (e.1 + s.cfg P.OBS_MEAS_DELAY n ≤ v.stamp)) with
      | none => { o with corrSkipped := true }
      | some (_, mest) =>
        let f := fmul o.factor (fexp (fneg (fmul (s.runF P.OBS_CORR_GAIN n) (fsub me mest))))
        let lo := s.cfgF P.OBS_FACTOR_LO n
        let hi := s.cfgF P.OBS_FACTOR_HI n
        { o with factor := fclamp f lo hi, corrected := true, corrSkipped := false
                 factorLimit := flt f lo || flt hi f, corrStamp := some v.stamp }

/-- Moisture carried through zones with their dwell times (R302). -/
def carry (path : List (ZoneStep × F32)) (m : F32) : F32 :=
  path.foldl (fun m z => fadd z.1.me (fmul (fsub m z.1.me) (fexp (fneg (fmul z.1.k z.2))))) m

/-- The mean of values summed in order. -/
def fmean (l : List F32) : F32 := fdiv (l.foldl fadd 0) (fOfNat l.length)

/-- Prediction, rate and residence of a step with discharge (R302): prediction, inlet prediction, mean EMC. -/
def predictions (vs d acc mIn : F32) (horizon : Nat) (zsteps : List ZoneStep) (seg : List (F32 × F32)) :
    F32 × F32 × F32 :=
  let n := zsteps.length
  let perVol := fmul (fRat 3600 1) vs
  let w := fdiv (fmul vs (fRat 3600 1)) d
  let inlet := carry (zsteps.map (fun z => (z, w))) mIn
  let moved := fdiv (fmul (fOfNat horizon) d) perVol
  let j : Int := (n : Int) - 1 - ffloor moved
  let pred :=
    if horizon = 0 ∨ !fFinite moved ∨ j < 0 then inlet
    else
      match zsteps.drop j.toNat with
      | [] => inlet
      | z :: rest => carry ((z, fmul (fsub fone acc) w) :: rest.map (fun y => (y, w))) ((seg.getD j.toNat (0, 0)).1)
  (pred, inlet, fmean ((zsteps.filter (·.drying)).map (·.me)))

/-- Every output cell of an observer that has not yet had all its inputs: SETTLING beside the conditions `more`, and no value
that the rule states (free, log entry 4). -/
def State.obsUnready (s : State) (n : Nat) (more : BitVec 8) : State :=
  let base := s.cfg P.OBS_SEG_BASE n
  let cells := [s.cfg P.OBS_OUT_CELL n, s.cfg P.OBS_OUT_T_CELL n, s.cfg P.OBS_PRED_CELL n, s.cfg P.OBS_RATE_CELL n,
    s.cfg P.OBS_RES_CELL n] ++ (if base = 0 then [] else (List.range (s.cfg P.OBS_SEGMENTS n)).map (base + ·))
  cells.foldl (fun s c => s.writeF (obsSlot n) c (Config.unstated 3 [c, s.workTick]) s.workTick (more ||| condBit 3)) s

/-- Values of the discharge outputs: prediction, residence and rate with whether the rate is valid (R302). -/
def State.obsDischarge (s : State) (n : Nat) (o : ObsState) (zsteps : List ZoneStep) (d mIn : F32)
    (seg : List (F32 × F32)) : F32 × F32 × F32 × Bool :=
  let segs := s.cfg P.OBS_SEGMENTS n
  let v := s.cfgF P.OBS_VOLUME n
  let vs := fdiv v (fOfNat segs)
  let horizon := s.run P.OBS_HORIZON n
  if fle (s.cfgF P.OBS_D_MIN n) d then
    let p := predictions vs d o.acc mIn horizon zsteps seg
    let target := s.runF P.OBS_TARGET n
    let rate := fmul d (fdiv (fln (fdiv (fsub mIn p.2.2) (fsub p.2.1 p.2.2))) (fln (fdiv (fsub mIn p.2.2) (fsub target p.2.2))))
    let ok := flt p.2.1 mIn && flt p.2.2 p.2.1 && flt target mIn && flt p.2.2 target
    (p.1, fdiv (fmul v (fRat 3600 1)) d, rate, ok)
  else
    let relaxed := (zsteps.zip seg).map (fun e =>
      fadd e.1.me (fmul (fsub e.2.1 e.1.me) (fexp (fneg (fmul e.1.k (fOfNat horizon))))))
    (fmean relaxed, 0, 0, false)

/-- Initial conditions of the first step after a start (R301): the inlet values, or the committed segments. -/
def ObsState.begin_ (o : ObsState) (keep : Bool) (mIn tIn : F32) : ObsState :=
  if !o.initDue then o
  else if keep then { o with initDue := false, filled := true }
  else
    { o with initDue := false, m := List.replicate 64 mIn, g := List.replicate 64 tIn, acc := 0, shifted := 0
             filled := false }

/-- A due observer column unit in ACTIVE (R300 to R303). -/
def State.evalObs (s : State) (n : Nat) : State :=
  let slot := obsSlot n
  let crop := s.cfgBlock P.CROP_TABLE (s.cfg P.OBS_CROP n)
  let zs := zonesOf (s.cfgBlock P.OBS_ZONES n)
  let segs := s.cfg P.OBS_SEGMENTS n
  let a := s.obsInputs n crop zs
  let run := if a.held then min (a.s.lossRun + 1) 65535 else 0
  let o := { a.s with lossRun := run, inputHeld := a.held }
  let limit := s.cfg P.OBS_LOSS_STEPS n
  let meas := s.cfg P.OBS_MEAS_CELL n
  let mv := s.seeFrom slot meas
  let s := s.noteInputs slot (a.subst || (meas % 8192 != 0 && mv.isSubst)) (a.lost || (meas % 8192 != 0 && mv.num.isNone))
  let s := if limit ≠ 0 ∧ limit ≤ run then s.detect slot 0x01 else s
  if !a.known then (s.modWork (·.setObs n o)).obsUnready n (a.conds ||| substIf a.held)
  else
    let at_ (i : Nat) : F32 := a.values.getD i 0
    let mIn := at_ 0
    let tIn := at_ 1
    let d := fmax 0 (fmul (at_ 2) (s.cfgF P.OBS_DISCH_SCALE n))
    let dMin := s.cfgF P.OBS_D_MIN n
    let h := fRat (s.cfg P.OBS_STEP n) 1024
    let vs := fdiv (s.cfgF P.OBS_VOLUME n) (fOfNat segs)
    let o := s.correct n d (o.begin_ (s.cfg P.OBS_INIT n == 1) mIn tIn)
    let zones := zs.zipIdx.map (fun e =>
      zoneStep crop h o.factor e.1.drying (at_ (3 + 4 * e.2)) (at_ (5 + 4 * e.2)) (at_ (6 + 4 * e.2)))
    let zsteps := (List.range segs).filterMap (fun i => zones[zoneAt zs i]?)
    let seg := (zsteps.zip (o.m.zip o.g)).map (fun e => relaxSegment (fieldF crop 136) e.1 e.2.1 e.2.2)
    let flow := fle dMin d
    let acc := if flow then fadd o.acc (fdiv (fmul d h) (fmul (fRat 3600 1) vs)) else o.acc
    let moved := if flow then shiftColumn mIn tIn segs acc seg 0 else (acc, seg, 0)
    let full := flow && fle fone moved.1
    let seg := moved.2.1
    let shifted := o.shifted + moved.2.2
    let o := { o with
      m := seg.map (·.1) ++ o.m.drop segs, g := seg.map (·.2) ++ o.g.drop segs, acc := if full then 0 else moved.1
      shifted := shifted, filled := o.filled || decide (segs ≤ shifted), shiftLimit := full
      ring := ((s.workTick, (seg.getLastD (0, 0)).1) :: o.ring).take 64 }
    let out := s.obsDischarge n o zsteps d mIn seg
    let rateBad := flow && !out.2.2.2
    let o := { o with lowFlow := !flow, rateInvalid := rateBad }
    let finite := seg.all (fun e => fFinite e.1 && fFinite e.2) && fFinite o.factor && fFinite out.1 && fFinite out.2.1 &&
      (rateBad || fFinite out.2.2.1)
    if !finite then s.detect slot 0x02
    else
      let conds := a.conds ||| substIf a.held ||| (if o.filled then 0 else condBit 3)
      let s := s.modWork (·.setObs n o)
      let t := s.workTick
      let last := seg.getLastD (0, 0)
      let base := s.cfg P.OBS_SEG_BASE n
      let s := s.writeF slot (s.cfg P.OBS_OUT_CELL n) last.1 t conds
      let s := s.writeF slot (s.cfg P.OBS_OUT_T_CELL n) last.2 t conds
      let s := if base = 0 then s else
        seg.zipIdx.foldl (fun s e => s.writeF slot (base + e.2) e.1.1 t conds) s
      let s := s.writeF slot (s.cfg P.OBS_PRED_CELL n) out.1 t conds
      let s := s.writeF slot (s.cfg P.OBS_RES_CELL n) out.2.1 t (conds ||| badIf (!flow))
      let rate := if rateBad then Config.unstated 4 [out.2.2.1.toNat, d.toNat, mIn.toNat] else out.2.2.1
      s.writeF slot (s.cfg P.OBS_RATE_CELL n) rate t (conds ||| badIf (!out.2.2.2))

/-- Initial conditions of a start from STOPPED (R301, R303). -/
def State.startObs (s : State) (n : Nat) : State :=
  let o := s.work.observer n
  let o := { o with lastIn := [], lossRun := 0, initDue := true, inputHeld := false, corrected := false
                    factorLimit := false, corrSkipped := false, shiftLimit := false, lowFlow := false
                    rateInvalid := false, filled := s.cfg P.OBS_INIT n == 1 }
  s.modWork (·.setObs n (if s.cfg P.OBS_INIT n = 1 then o else { o with factor := fone, ring := [], acc := 0, shifted := 0 }))

/-- Whether every input of an observer is usable in the latest read (Table 09-3). -/
def State.obsInputsOk (s : State) (n : Nat) : Bool :=
  let crop := s.cfgBlock P.CROP_TABLE (s.cfg P.OBS_CROP n)
  let zs := zonesOf (s.cfgBlock P.OBS_ZONES n)
  !(((s.modWork (fun p => p.setObs n { p.observer n with lastIn := [] })).obsInputs n crop zs).lost)

/-- OBS_STATUS (Table 09-4). -/
def ObsState.word (o : ObsState) : Nat :=
  flagBit o.rateInvalid 0 + flagBit o.lowFlow 1 + flagBit o.shiftLimit 2 + flagBit o.corrSkipped 3 +
    flagBit o.factorLimit 4 + flagBit o.corrected 5 + flagBit o.inputHeld 6 + flagBit o.filled 7

/-- OBS_STATE (Table 09-15). -/
def ObsState.block (o : ObsState) : List Byte :=
  le 4 o.acc.toNat ++ (o.m.map (fun x => le 4 x.toNat)).flatten ++ (o.g.map (fun x => le 4 x.toNat)).flatten

/-! ## Program units (R305 to R310) -/

/-- A step entry (Table 09-6). -/
structure PrgStep where
  phase    : Nat
  batchEnd : Bool
  next     : Nat
  timeoutNext : Nat
  condCell : Nat
  condOp   : Nat
  act1     : Nat × Nat
  act2     : Nat × Nat
  limit    : F32
  minTime  : Nat
  timeout  : Nat
  spA      : Nat × F32
  spB      : Nat × F32
  deriving DecidableEq, Repr

/-- Step `i` of a program table: actions as (code, handle), set-points as (index, value). -/
def prgStep (b : List Byte) (i : Nat) : PrgStep :=
  let f (off len : Nat) : Nat := field b (32 * i + off) len
  ⟨f 0 1, bit (f 1 1) 0, f 2 1, f 3 1, f 4 2, f 6 1, (f 7 1 % 16, f 16 2), (f 7 1 / 16, f 18 2), BitVec.ofNat 32 (f 8 4),
    f 12 2, f 14 2, (f 20 1, BitVec.ofNat 32 (f 24 4)), (f 21 1, BitVec.ofNat 32 (f 28 4))⟩

/-- The table of program unit `n`. -/
def State.prgStepAt (s : State) (n i : Nat) : PrgStep := prgStep (s.cfgBlock P.PRG_TABLE n) i

/-- A step entered: its entry actions run at the next evaluation (R306). -/
def ProgState.enter (p : ProgState) (i : Nat) : ProgState :=
  { p with step := i % 64, entryDue := true, rerun := false, unusableSince := none }

/-- A set-point cell of a step written. -/
def setPointAt (l : List F32) (e : Nat × F32) : List F32 := if e.1 < 8 then l.set e.1 e.2 else l

/-- The entry actions of a step at tick `t` (R306, R307). -/
def ProgState.entryActions (p : ProgState) (st : PrgStep) (t : Nat) : ProgState :=
  let act (a : Nat × Nat) : List (Nat × Nat) := if 1 ≤ a.1 ∧ a.1 ≤ 4 ∧ a.2 ≠ 0xFFFF then [a] else []
  { p with
    entry := if p.rerun then p.entry else t, entryDue := false, rerun := false
    setPoints := setPointAt (setPointAt p.setPoints st.spA) st.spB
    actions := p.actions ++ act st.act1 ++ act st.act2 }

/-- The condition of a step: met, and unusable (R306). -/
def condition (st : PrgStep) (v : Seen) : Bool × Bool :=
  match st.condOp with
  | 0 => (true, false)
  | 4 => (v.usable, false)
  | op =>
    if !v.usable then (false, true)
    else if op = 3 then (if v.type = 0 then !fZero v.f else v.value != 0, false)
    else (if op = 1 then fle st.limit v.f else fle v.f st.limit, false)

/-- Completion, timeout or END of the present step (R306). -/
def State.advanceProg (s : State) (n : Nat) (stopping : Bool) (st : PrgStep) (p : ProgState) : State :=
  let slot := progSlot n
  let t := s.workTick
  let elapsed := t - p.entry
  let put (s : State) (p : ProgState) : State := s.modWork (·.setProg n p)
  if st.phase = 0 then
    if !stopping && s.cfg P.PRG_MODE n == 0 && s.cfg P.PRG_REPEAT n == 1 then
      put s { p.enter (s.cfg P.PRG_START_STEP n) with timedOut := false }
    else (put s p).modUnit slot (fun u => { u with windDone := true })
  else if p.condMet && decide (st.minTime * 1024 ≤ elapsed) then
    let p := if st.batchEnd then { p with batches := (p.batches + 1) % 2 ^ 32, batchEnded := true, batchAt := some t } else p
    put s { p.enter st.next with timedOut := false }
  else if st.timeout ≠ 0 ∧ st.timeout * 61440 ≤ elapsed then
    if st.timeoutNext = 0xFF then (put s p).detect slot 0x03
    else put s { p.enter st.timeoutNext with timedOut := true }
  else put s p

/-- The cells of a program unit. -/
def State.writeProg (s : State) (n : Nat) : State :=
  let slot := progSlot n
  let p := s.work.prog n
  let base := s.cfg P.PRG_SP_BASE n
  let s := p.setPoints.zipIdx.foldl (fun s e => s.writeF slot (base + e.2) e.1 s.workTick 0) s
  s.writeCell slot (s.cfg P.PRG_STEP_CELL n) 2
    (BitVec.ofNat 64 (p.step + 256 * (s.prgStepAt n p.step).phase + 65536 * (p.batches % 65536))) s.workTick 0

/-- The run of ticks with an unusable COND_CELL (R306): INPUT_LOSS after PRG_LOSS_TIME. -/
def State.progLoss (s : State) (n : Nat) (p : ProgState) : ProgState × State :=
  if !p.condUnusable then ({ p with unusableSince := none }, s)
  else
    let since := p.unusableSince.getD s.workTick
    let limit := s.cfg P.PRG_LOSS_TIME n
    ({ p with unusableSince := some since },
      if limit ≠ 0 ∧ limit * 1024 ≤ s.workTick - since then s.detect (progSlot n) 0x01 else s)

/-- A due program unit. -/
def State.evalProg (s : State) (n : Nat) : State :=
  let slot := progSlot n
  let st := (s.unit slot).st
  if st = .auto ∨ st = .manual ∨ st = .stopping then
    let p := { s.work.prog n with batchEnded := false }
    let step := s.prgStepAt n p.step
    let p := if p.entryDue then p.entryActions step s.workTick else p
    let v := s.seeFrom slot step.condCell
    let c := condition step v
    let p := { p with condMet := c.1, condUnusable := c.2 }
    let s := s.noteInputs slot (step.condOp != 0 && v.isSubst) (step.condOp != 0 && !v.usable)
    let s :=
      if st = .manual then s.modWork (·.setProg n { p with unusableSince := none })
      else
        let r := s.progLoss n p
        r.2.advanceProg n (st == .stopping) step r.1
    s.writeProg n
  else s

/-- Initial conditions of a start from STOPPED (R305, R308). The batch count stays. -/
def State.startProg (s : State) (n : Nat) : State :=
  let b := s.cfgBlock P.PRG_SP_INIT n
  let old := s.work.prog n
  let p : ProgState := { batches := old.batches, actions := old.actions, faultStop := old.faultStop
                         setPoints := (List.range 8).map (fun i => fieldF b (4 * i)) }
  s.modWork (·.setProg n (p.enter (s.cfg P.PRG_START_STEP n)))

/-- A stop that winds down through PRG_STOP_STEP (R308). -/
def ProgState.stopInto (p : ProgState) (i : Nat) : ProgState :=
  { p.enter i with heldStep := p.step, heldEntry := p.entry, heldDue := p.entryDue && !p.rerun }

/-- A stop absorbed: the step held, its entry tick kept, its entry actions run again (R308). -/
def ProgState.absorb (p : ProgState) : ProgState :=
  { p with step := p.heldStep, entry := p.heldEntry, entryDue := true, rerun := !p.heldDue, unusableSince := none }

/-- PRG_STATUS (Table 09-8). -/
def ProgState.word (p : ProgState) : Nat :=
  256 * p.step + flagBit p.calmSafe 7 + flagBit p.condMet 6 + flagBit p.condUnusable 5 + flagBit p.actionDropped 4 +
    flagBit p.timedOut 3 + flagBit p.batchEnded 2

/-! ## Chain units (R311 to R315) -/

/-- A member's entry (Table 09-9). -/
structure ChainMember where
  proof    : Nat
  plug     : Nat
  minProof : F32
  stagger  : Nat
  prove    : Nat
  motion   : Nat
  purge    : Nat
  deriving DecidableEq, Repr

/-- The members of chain `n`. -/
def State.chainMembers (s : State) (n : Nat) : List ChainMember :=
  let b := s.cfgBlock P.CHAIN_MEMBERS n
  (List.range (s.cfg P.CHAIN_COUNT n)).map (fun i =>
    ⟨nullRef (field b (16 * i) 2), nullRef (field b (16 * i + 2) 2), fieldF b (16 * i + 4), field b (16 * i + 8) 2, field b (16 * i + 10) 2,
      field b (16 * i + 12) 2, field b (16 * i + 14) 2⟩)

/-- State of member `i`. -/
def ChainState.member (c : ChainState) (i : Nat) : MemberState := Tab.get {} c.members i
/-- A member's state replaced. -/
def ChainState.setMember (c : ChainState) (i : Nat) (m : MemberState) : ChainState :=
  { c with members := Tab.put {} c.members i m }

/-- A member started. -/
def ChainState.startMember (c : ChainState) (i : Nat) : ChainState :=
  c.setMember i { running := true, everRan := true }

/-- A member stopped, if it runs. -/
def ChainState.stopMember (c : ChainState) (i : Nat) : ChainState :=
  let m := c.member i
  if m.running then c.setMember i { m with running := false, proven := false, sinceStop := 0, lowRun := 0 } else c

/-- Members of a chain of `k` that run. -/
def ChainState.runners (c : ChainState) (k : Nat) : List Nat := (List.range k).filter (fun i => (c.member i).running)

/-- A trip on member `i` with code `code`: it and every member upstream stop, the rest stop with the flow (R313). -/
def ChainState.trip (c : ChainState) (i code : Nat) : ChainState :=
  let c := (List.range (i + 1)).foldl (fun c j => c.stopMember j) c
  let c := { c with stoppingFlow := true, stopNow := false, starting := false, running := false }
  if c.tripped then c else { c with tripped := true, tripMember := i, tripCode := code }

/-- The trip code a member shows, if any (R313). -/
def tripCodeOf (m : ChainMember) (plugged : Bool) (x : MemberState) : Option Nat :=
  if plugged then some 0x12
  else if !x.running then none
  else if !x.proven && decide (m.prove ≤ x.sinceStart) then some 0x10
  else if x.proven && decide (m.motion ≤ x.lowRun) then some 0x11
  else none

/-- Whether a switch cell is on: non-zero or unusable. -/
def Seen.on (v : Seen) : Bool := !v.usable || (if v.type = 0 then !fZero v.f else v.value != 0)

/-- A member's counters, proof and plug in a step (R311, R313). -/
def State.proveMember (s : State) (n : Nat) (m : ChainMember) (i : Nat) (c : ChainState) : ChainState :=
  let x := { c.member i with plugged := m.plug != 0 && (s.seeFrom (chainSlot n) m.plug).on }
  if x.running then
    let v := s.seeFrom (chainSlot n) m.proof
    let ok := m.proof == 0 || (match v.num with | some y => fle m.minProof y | none => false)
    c.setMember i { x with sinceStart := x.sinceStart + 1, proven := x.proven || ok
                           lowRun := if x.proven && !ok then x.lowRun + 1 else 0 }
  else if x.everRan then c.setMember i { x with sinceStop := x.sinceStop + 1 }
  else c.setMember i x

/-- One member checked for a trip. -/
def State.tripMember (s : State) (n i : Nat) (c : ChainState) : ChainState :=
  match (s.chainMembers n)[i]? with
  | none => c
  | some m =>
    match tripCodeOf m (c.member i).plugged (c.member i) with
    | some code => c.trip i code
    | none => c

/-- Starting against the flow (R312). -/
def startFlow (ms : List ChainMember) (c : ChainState) : ChainState :=
  match c.runners ms.length with
  | [] => c.startMember (ms.length - 1)
  | low :: _ =>
    let x := c.member low
    if 0 < low ∧ x.proven ∧ ((ms[low]?).map (·.stagger)).getD 0 ≤ x.sinceStart then c.startMember (low - 1) else c

/-- One member stopped with the flow, if its purge has passed (R312). -/
def stopFlowMember (ms : List ChainMember) (c : ChainState) (i : Nat) : ChainState :=
  let up := c.member (i - 1)
  if 0 < i ∧ (c.member i).running ∧ !up.running ∧ (!up.everRan ∨ ((ms[i]?).map (·.purge)).getD 0 ≤ up.sinceStop) then
    c.stopMember i
  else c

/-- Stopping with the flow. -/
def stopFlow (ms : List ChainMember) (c : ChainState) : ChainState :=
  let c := match c.runners ms.length with
    | low :: _ => if c.stopNow then c.stopMember low else c
    | [] => c
  (List.range ms.length).foldl (stopFlowMember ms) { c with stopNow := false }

/-- The cells that a step of a chain unit rests on: proof and plug cells and the permit. -/
def State.chainReads (s : State) (n : Nat) : List Seen :=
  ((((s.chainMembers n).map (fun m => [m.proof, m.plug])).flatten ++ [s.cfg P.CHAIN_PERMIT_CELL n]).filter
    (fun r => r % 8192 != 0)).map (s.seeFrom (chainSlot n))

/-- The cells of a chain unit. The proof, plug and permit cells contribute to each of them, but for unusable ones, for which
R311 and R312 define what counts in their place (R36). -/
def State.writeChain (s : State) (n : Nat) : State :=
  let slot := chainSlot n
  let c := s.work.chain n
  let k := s.cfg P.CHAIN_COUNT n
  let base := s.cfg P.CHAIN_RUN_BASE n
  let conds := ((s.chainReads n).filter Seen.usable).foldl (fun a v => a ||| v.conds) 0
  let s := (List.range k).foldl (fun s i =>
    s.writeCell slot (base + i) 2 (if (c.member i).running then 1 else 0) s.workTick conds) s
  let bits (f : MemberState → Bool) : Nat := ((List.range k).map (fun i => flagBit (f (c.member i)) i)).sum
  s.writeCell slot (s.cfg P.CHAIN_STATUS_CELL n) 2
    (BitVec.ofNat 64 (bits (·.running) + 65536 * bits (fun m => m.running && m.proven))) s.workTick conds

/-- After a step: STOPPED or FAULT is due once no member of a stopping chain runs (R312, R313). -/
def State.chainDone (s : State) (n : Nat) : State :=
  let c := s.work.chain n
  if c.stoppingFlow && (c.runners (s.cfg P.CHAIN_COUNT n)).isEmpty then
    if c.tripped then s.detect (chainSlot n) c.tripCode
    else s.modUnit (chainSlot n) (fun u => { u with windDone := true })
  else s

/-- A due chain unit. -/
def State.evalChain (s : State) (n : Nat) : State :=
  let slot := chainSlot n
  let st := (s.unit slot).st
  if st = .active ∨ st = .stopping then
    let ms := s.chainMembers n
    let k := ms.length
    let c := ms.zipIdx.foldl (fun c e => s.proveMember n e.1 e.2 c) (s.work.chain n)
    let c := (List.range k).foldl (fun c i => s.tripMember n i c) c
    let permit := s.cfgCell P.CHAIN_PERMIT_CELL n
    let pv := s.seeFrom slot permit
    let waiting := permit != 0 && (!pv.usable || !pv.on)
    let reads := s.chainReads n
    let s := s.noteInputs slot (reads.any Seen.isSubst) (reads.any (fun v => !v.usable))
    let c := { c with waitingPermit := waiting }
    let all := (c.runners k).length == k
    let lost := waiting && all && !c.stoppingFlow
    let c := if lost then { c with permitLost := true, stopDue := true } else c
    let c := if c.stoppingFlow then stopFlow ms c else if waiting then c else startFlow ms c
    let proven := (List.range k).all (fun i => (c.member i).running && (c.member i).proven)
    let c := { c with running := !c.stoppingFlow && (c.running || proven)
                      starting := !c.stoppingFlow && !(c.running || proven) }
    ((s.modWork (·.setChain n c)).writeChain n).chainDone n
  else s

/-- Initial conditions of a start from STOPPED. -/
def State.startChain (s : State) (n : Nat) : State := s.modWork (·.setChain n { starting := true })

/-- A stop: the flow stops, its lowest running member at once (R312). -/
def ChainState.stopRequest (c : ChainState) : ChainState :=
  if c.stoppingFlow then c else { c with stoppingFlow := true, stopNow := true, starting := false, running := false }

/-- A stop absorbed by a start (R312). -/
def ChainState.absorb (c : ChainState) : ChainState :=
  if c.tripped then c else { c with stoppingFlow := false, stopNow := false, stopDue := false, starting := true }

/-- Every member off at once, with the cells written (R314, R419). -/
def State.haltChain (s : State) (n : Nat) : State :=
  (s.modWork (fun p => p.setChain n { members := [], tripped := (p.chain n).tripped, tripMember := (p.chain n).tripMember
                                      tripCode := (p.chain n).tripCode })).writeChain n

/-- Whether the plug cell of the tripped member reads zero and usable (Table 09-10). -/
def State.plugClear (s : State) (n : Nat) : Bool :=
  match (s.chainMembers n)[(s.work.chain n).tripMember]? with
  | some m => m.plug == 0 || !(s.seeFrom (chainSlot n) m.plug).on
  | none => true

/-- CHAIN_STATUS (Table 09-11). -/
def ChainState.word (c : ChainState) : Nat :=
  4096 * c.tripMember + flagBit c.starting 7 + flagBit c.running 6 +
    flagBit (c.stoppingFlow && c.members.any (·.2.running)) 5 + flagBit c.tripped 4 + flagBit c.waitingPermit 3 +
    flagBit c.permitLost 2

/-! ## Bin units (R316 to R320) -/

/-- A node of a bin: line index, position, type, height and its temperature and CO2 cells. -/
structure BinNode where
  line   : Nat
  pos    : Nat
  hasCo2 : Bool
  height : Nat
  temp   : Nat
  co2    : Nat
  deriving DecidableEq, Repr

/-- The comb line units a bin names: (index, line). -/
def binLines (c : Content) (n : Nat) : List (Nat × Nat) :=
  let b := blockOf c P.BIN_LINES n
  ((List.range 8).filter (fun i => field b (2 * i) 2 != 0xFFFF)).map (fun i => (i, slotInst (field b (2 * i) 2 % 1024)))

/-- The nodes of a bin, by line and position. -/
def State.binNodes (s : State) (n : Nat) : List BinNode :=
  ((binLines s.content n).map (fun e => (s.nodeMap e.2).map (fun x =>
    let c := s.nodeCells e.2 x.position
    ⟨e.1, x.position, bit (nodeType x.id) 2, x.height, c.1, c.2.2⟩))).flatten

/-- Whether a node counts as in grain (R316). -/
def inGrain (level : Option F32) (x : BinNode) : Bool :=
  match level with
  | none => true
  | some l => x.height == 0xFFFF || fle (fOfNat x.height) l

/-- A ring with one more sample; one sample a tick. -/
def ringPut (r : List (Nat × Option F32)) (t : Nat) (v : Option F32) : List (Nat × Option F32) :=
  ((t, v) :: r.filter (fun e => e.1 != t)).take 24

/-- The rate against the oldest sample of enough age (R318). -/
def ringRate (r : List (Nat × Option F32)) (span t : Nat) (v : F32) : Option F32 :=
  match (r.filterMap (fun e => match e.2 with | some x => if e.1 + span ≤ t then some (e.1, x) else none | none => none)).getLast? with
  | none => none
  | some (t0, vo) => some (fmul (fsub v vo) (fdiv (fRat 88473600 1) (fOfNat (t - t0))))

/-- The highest of some values; none of none. -/
def fmaxList : List F32 → Option F32
  | [] => none
  | x :: t => some (t.foldl fmax x)

/-- Usable CO2 readings of nodes in grain. -/
def State.binCo2 (s : State) (n : Nat) (nodes : List BinNode) : List (F32 × BitVec 8) :=
  (nodes.filter (fun x => x.hasCo2 && x.co2 != 0)).filterMap (fun x =>
    let v := s.seeFrom (binSlot n) x.co2
    v.num.map (fun y => (y, v.conds)))

/-- Conditions of a list of readings. -/
def condsOf {α : Type} (l : List (α × BitVec 8)) : BitVec 8 := l.foldl (fun a e => a ||| e.2) 0

/-- The level of the grain surface, if usable. -/
def State.binLevel (s : State) (n : Nat) : Option F32 :=
  let ref := s.cfgCell P.BIN_LEVEL_CELL n
  if ref = 0 then none else (s.seeFrom (binSlot n) ref).num

/-- Every input of a bin: level, ambient air, grain moisture, and the temperature and CO2 cells of its nodes in grain. -/
def State.binReads (s : State) (n : Nat) : List Seen :=
  let nodes := (s.binNodes n).filter (inGrain (s.binLevel n))
  let refs := [P.BIN_LEVEL_CELL, P.BIN_AMB_T_CELL, P.BIN_AMB_RH_CELL, P.BIN_GRAIN_M_CELL].map (s.cfgCell · n) ++
    nodes.map (·.temp) ++ (nodes.filter (·.hasCo2)).map (·.co2)
  (refs.filter (· != 0)).map (s.seeFrom (binSlot n))

/-- A sample of a bin (R318). -/
def State.binSample (s : State) (n : Nat) : State :=
  let t := s.workTick
  let b := s.work.bin n
  let nodes := s.binNodes n
  let level := s.binLevel n
  let span := s.cfg P.BIN_RATE_SPAN n
  let read (x : BinNode) : Seen := if x.temp = 0 then nullSeen else s.seeFrom (binSlot n) x.temp
  let rings := nodes.foldl (fun r x => Tab.put [] r (64 * x.line + x.pos) (ringPut (Tab.get [] r (64 * x.line + x.pos)) t (read x).num))
    b.rings
  let grain := (nodes.filter (inGrain level)).filter (fun x => (read x).num.isSome)
  let rates := grain.filterMap (fun x =>
    (ringRate (Tab.get [] rings (64 * x.line + x.pos)) span t (read x).f).map (fun y => (y, (read x).conds)))
  let co2 := s.binCo2 n (nodes.filter (inGrain level))
  let mean := if co2.isEmpty then none else some (fmean (co2.map (·.1)))
  let ring := ringPut b.co2Ring t mean
  let co2Rate := match mean with | some m => ringRate ring span t m | none => none
  let settle := condBit 3
  s.modWork (·.setBin n { b with
    rings := rings, co2Ring := ring
    rise := (fmaxList (rates.map (·.1))).getD 0
    riseConds := if grain.isEmpty then condBit 7 else if rates.isEmpty then settle else condsOf rates
    co2Rate := co2Rate.getD 0
    co2Conds := if co2.isEmpty then condBit 7 else if co2Rate.isNone then settle else condsOf co2 })

/-- Whether a bin samples at tick `t`. -/
def State.binSampleAt (s : State) (n t : Nat) : Bool :=
  let ph := s.cfg P.BIN_PHASE n
  (t + s.cfg P.BIN_SAMPLE n - ph) % s.cfg P.BIN_SAMPLE n == 0

/-- The permission that stands after a wish `want` at tick `t` (R319). -/
def BinState.decide_ (b : BinState) (want bad : Bool) (on off t : Nat) : BinState :=
  let b := { b with minOnHold := false, minOffHold := false, airUnusable := bad }
  if bad then (if b.permit then { b with permit := false, changedAt := t } else b)
  else if want && !b.permit then
    if off * 1024 ≤ t - b.changedAt then { b with permit := true, changedAt := t } else { b with minOffHold := true }
  else if !want && b.permit then
    if on * 1024 ≤ t - b.changedAt then { b with permit := false, changedAt := t } else { b with minOnHold := true }
  else b

/-- The hottest node: the first of those with the highest temperature. -/
def hottest : List (BinNode × F32) → Option (BinNode × F32)
  | [] => none
  | e :: t => some (t.foldl (fun a b => if flt a.2 b.2 then b else a) e)

/-- A due bin unit in ACTIVE (R316 to R319). -/
def State.evalBin (s : State) (n : Nat) : State :=
  let slot := binSlot n
  let s := if s.binSampleAt n s.workTick then s.binSample n else s
  let t := s.workTick
  let b := s.work.bin n
  let grain := (s.binNodes n).filter (inGrain (s.binLevel n))
  let temps := grain.filterMap (fun x =>
    let v := if x.temp = 0 then nullSeen else s.seeFrom slot x.temp
    v.num.map (fun y => ((x, y), v.conds)))
  let co2 := s.binCo2 n grain
  let none7 := condBit 7
  let tConds := if temps.isEmpty then none7 else condsOf temps
  let cConds := if co2.isEmpty then none7 else condsOf co2
  let top := hottest (temps.map (·.1))
  let tMax := (top.map (fun e => e.2)).getD 0
  let tMean := if temps.isEmpty then 0 else fmean (temps.map (·.1.2))
  let cMean := if co2.isEmpty then 0 else fmean (co2.map (·.1))
  let ambT := s.seeFrom slot (s.cfg P.BIN_AMB_T_CELL n)
  let ambRh := s.seeFrom slot (s.cfg P.BIN_AMB_RH_CELL n)
  let gRef := s.cfgCell P.BIN_GRAIN_M_CELL n
  let gCell := s.seeFrom slot gRef
  let grainM := if gRef = 0 then some (s.runF P.BIN_GRAIN_M n) else gCell.num
  let crop := s.cfgBlock P.CROP_TABLE (s.cfg P.BIN_CROP n)
  let airOk := ambT.num.isSome && ambRh.num.isSome
  let me := if airOk then emc crop ambT.f ambRh.f else none
  let eConds := ambT.conds ||| ambRh.conds ||| badIf (airOk && me.isNone)
  let hot := !temps.isEmpty && fle (s.runF P.BIN_HOT_LIMIT n) tMax
  let rise := condQuality b.riseConds < 3 && fle (s.runF P.BIN_RISE_LIMIT n) b.rise
  let high := !co2.isEmpty && fle (s.runF P.BIN_CO2_LIMIT n) cMean
  let low := decide (2 * temps.length < grain.length)
  let forced := s.cfg P.BIN_HOT_FORCE n == 1 && (hot || rise)
  let bad := !airOk || grainM.isNone || temps.isEmpty || me.isNone
  let e := me.getD 0
  let m := grainM.getD 0
  let want := fle ambT.f (fsub tMean (s.runF P.BIN_AER_DT n)) &&
    (forced || (fle e (fadd m (s.runF P.BIN_AER_WET n)) && fle (fsub m (s.runF P.BIN_AER_DRY n)) e))
  let b := b.decide_ want bad (s.cfg P.BIN_AER_MIN_ON n) (s.cfg P.BIN_AER_MIN_OFF n) t
  let b := { b with
    hot := hot, riseAlarm := rise, hotForced := forced, hotLine := (top.map (fun e => e.1.line)).getD 0
    hotPosition := (top.map (fun e => e.1.pos)).getD 0, ratesSettling := b.riseConds.getLsbD 2 || b.co2Conds.getLsbD 2 }
  let reads := s.binReads n
  let s := s.noteInputs slot (reads.any Seen.isSubst) (bad || reads.any (fun v => v.num.isNone))
  if ([tMax, tMean, b.rise, cMean, b.co2Rate, e] : List F32).any (fun x => !fFinite x) then s.detect slot 0x02
  else
    let s := s.modWork (·.setBin n b)
    let base := s.cfg P.BIN_OUT_BASE n
    let s := s.writeF slot base tMax t tConds
    let s := s.writeF slot (base + 1) tMean t tConds
    let s := s.writeF slot (base + 2) b.rise t b.riseConds
    let s := s.writeF slot (base + 3) cMean t cConds
    let s := s.writeF slot (base + 4) b.co2Rate t b.co2Conds
    let s := s.writeF slot (base + 5) (me.getD (Config.unstated 5 [ambT.f.toNat, ambRh.f.toNat])) t eConds
    let s := s.writeCell slot (base + 6) 2 (if b.permit then 1 else 0) t
      (eConds ||| tConds ||| (if gRef = 0 then 0 else gCell.conds))
    let alarms := flagBit hot 0 + flagBit rise 1 + flagBit high 2 + flagBit low 3
    s.writeCell slot (base + 7) 2 (BitVec.ofNat 64 alarms) t
      (if temps.isEmpty then none7 else condsOf temps ||| condsOf co2)

/-- Initial conditions of a start from STOPPED (R318). -/
def State.startBin (s : State) (n : Nat) : State := s.modWork (·.setBin n { changedAt := s.tick })

/-- BIN_STATUS (Table 09-14). -/
def BinState.word (b : BinState) : Nat :=
  2 ^ 24 * b.hotLine + 2 ^ 16 * b.hotPosition + flagBit b.permit 7 + flagBit b.hotForced 6 + flagBit b.minOnHold 5 +
    flagBit b.minOffHold 4 + flagBit b.airUnusable 3 + flagBit b.ratesSettling 2

end Sys2Proof.Machine
end

