-- ==== Sys2Proof/Machine/Fan.lean ====
section
/-! DEFINITION. Fan ports: the fan domain's records and drives, and the fan port unit (kind 0x0C). -/

namespace Sys2Proof.Machine

/-! ## The domain (R322 to R325, R330, R334) -/

/-- What a port is told to do: demand in %, and FANn_PWR on (R330). -/
structure FanDrive where
  demand : F32
  supply : Bool
  deriving DecidableEq, Repr

/-- A demand applied directly, with the supply it switches. -/
def State.directDrive (s : State) (n : Nat) (c : F32) : FanDrive :=
  ⟨c, s.cfg P.FAN_SUPPLY n != 0 && fPos c⟩

/-- Drive off. -/
def fanOffDrive : FanDrive := ⟨0, false⟩

/-- Rows 2 and 4 to 7 of Table 10-6, from a copy of the plant: what a refresh frame carries. -/
def State.fanCommand (s : State) (p : Plant) (n : Nat) : FanDrive :=
  let u := p.unit (fanSlot n)
  let f := p.fan n
  let own : FanDrive :=
    ⟨f.cApplied, match s.cfg P.FAN_SUPPLY n with
      | 0 => false
      | 1 => f.seq != .off && f.seq != .pause
      | _ => fPos f.cApplied⟩
  if !s.has (fanSlot n) then fanOffDrive
  else
    match u.st with
    | .fault =>
      if u.faultCode = 0x02 ∧ s.cfg P.FAN_FAULT_ACTION n = 1 then s.directDrive n (runningOf p s.content P.FAN_FAILSAFE n |> BitVec.ofNat 32)
      else fanOffDrive
    | .hold => own
    | .stopped => fanOffDrive
    | _ => own

/-- The fan stages are off (row 1 of Table 10-6). -/
def State.fanStagesOff (s : State) : Bool := !s.fanDom.powered || s.fanDom.uvlo

/-- The drive of a port (Table 10-6). -/
def State.fanDrive (s : State) (n : Nat) : FanDrive :=
  let last : FanDrive := ⟨s.fanDom.driven.getD n 0, s.fanDom.supplyOn.getD n false⟩
  let u := s.view.unit (fanSlot n)
  if s.fanStagesOff then fanOffDrive
  else if s.fanDom.supplyShort.getD n false || (u.st == .fault && u.faultCode != 0x02) then fanOffDrive
  else if s.fanDom.guardTripped then
    match s.cfg P.FAN_SAFE n with
    | 0 => fanOffDrive
    | 1 => s.directDrive n (BitVec.ofNat 32 (runningOf s.view s.content P.FAN_FAILSAFE n))
    | _ => last
  else last

/-- Electrical drive of a port (R330, R331): PWM period and high time in fine counts, FANn_CV and FANn_PWR in V; while the
domain is throttled it lowers FANn_PWR until the output power is at most the first of `throttled`, in W, but never below the
second, in V. -/
structure FanPins where
  pwm : Option (Nat × Nat)
  cv  : F32
  pwr : F32
  throttled : Option (F32 × F32)
  deriving DecidableEq, Repr

/-- Period and high time of a PWM (R206, R330). -/
def fanPwm (freq : F32) (duty : F32) : Nat × Nat :=
  let period := ddiv (dOfInt 32768000) (toF64 freq)
  let high := ddiv (dmul period (toF64 duty)) (dOfInt 100)
  let p := (drne period).toNat
  let h := (drne high).toNat
  if h < 66 then (p, 0) else if p < h + 66 then (p, p) else (p, h)

/-- The pins of a port. -/
def State.fanPins (s : State) (n : Nat) : FanPins :=
  let d := s.fanDrive n
  let hundred := fRat 100 1
  let duty := if s.cfg P.FAN_PWM_INVERT n = 1 then fsub hundred d.demand else d.demand
  let lo := s.cfgF P.FAN_V_MIN n
  let hi := s.cfgF P.FAN_V_MAX n
  let want := if s.cfg P.FAN_SUPPLY n = 1 then s.cfgF P.FAN_V_FIXED n else fadd lo (fmul (fsub hi lo) (fdiv d.demand hundred))
  let most := fsub (fdiv (fOfNat s.fanDom.millivolts) (fRat 1000 1)) (fRat 1 2)
  { pwm := match s.cfg P.FAN_DRIVE n with
      | 1 => some (fanPwm (fRat 25000 1) duty)
      | 2 => some (fanPwm (s.cfgF P.FAN_PWM_FREQ n) duty)
      | _ => none
    cv := if s.cfg P.FAN_DRIVE n = 3 then fmul d.demand (fRat 1 10) else 0
    pwr := if d.supply then fmin want most else 0
    throttled :=
      if d.supply && flt s.fanDom.throttle fone then some (fmul (fmul s.fanDom.throttle hi) (s.cfgF P.FAN_I_LIMIT n), lo) else none }

/-- The fan record of a port (Tables 10-1, 10-2); without a supply in use it shows no current and no current limit. -/
def State.fanRecord (s : State) (m : FanMeas) : FanRec :=
  let d := s.fanDrive m.port
  let throttled := m.throttled && (s.fanPins m.port).throttled.isSome
  let supply := s.cfg P.FAN_SUPPLY m.port != 0
  let st := flagBit s.fanStagesOff 7 + flagBit s.fanDom.guardTripped 6 + flagBit throttled 5 + flagBit (m.iLimit && supply) 4 +
    flagBit (s.fanDom.supplyShort.getD m.port false) 3 + flagBit d.supply 2 + flagBit (fPos d.demand) 1
  ⟨m.edges, BitVec.ofNat 8 st, m.fine, m.vOut, if supply then m.iOut else 0⟩

/-- A fan record in the 8 bytes of a SAMPLE entry. -/
def FanRec.bytes (r : FanRec) : List Byte :=
  [BitVec.ofNat 8 r.edges, r.status] ++ le 2 r.fine ++ le 2 r.vOut ++ le 2 r.iOut

/-- The record of a port that a tick's evaluation gathers (R325, R326), with the fault a short raises (Table 10-5). -/
def State.gatherFan (s : State) (n : Nat) : State :=
  let slot := fanSlot n
  match (s.inputs (s.workTick - 1)).fans.find? (fun e => e.1 == n) with
  | none => s
  | some (_, r) =>
    let f := s.work.fan n
    let s := s.note 0x10 slot r.bytes
    let s := if r.status.getLsbD 3 && !f.lastRec.status.getLsbD 3 then s.detect slot 0x04 else s
    let keep := (s.unit slot).st == .auto || (s.unit slot).st == .manual || (s.unit slot).st == .stopping
    s.modWork (·.setFan n { f with lastRec := r, recs := if keep then f.recs ++ [(s.workTick - 1, r)] else [] })

/-! ## Speed (R326) -/

/-- One record taken into the tach count. -/
def fanCount (ppr gate timeout : Nat) (f : FanState) (e : Nat × FanRec) : FanState :=
  let c : ChanState := { count := f.count, refValid := f.refValid, ref := f.ref, acc := f.acc, idle := f.idle
                         settled := f.settled, value := f.speed }
  let c := countStep 3 ppr gate timeout e.1 e.2.edges (if e.2.fine = 0xFFFF then -1 else (e.2.fine : Int)) c
  { f with count := c.count, refValid := c.refValid, ref := c.ref, acc := c.acc, idle := c.idle, settled := c.settled
           speed := c.value }

/-! ## Demand (R327 to R329) -/

/-- The curve of a port at x (R329). -/
def fanCurve (b : List Byte) (x : F32) : F32 :=
  let k := field b 0 1
  let px (i : Nat) : F32 := fieldF b (4 + 8 * i)
  let py (i : Nat) : F32 := fieldF b (8 + 8 * i)
  if fle x (px 0) then py 0
  else if fle (px (k - 1)) x then py (k - 1)
  else
    let i := ((List.range k).filter (fun i => fle (px i) x)).getLastD 0
    fadd (py i) (fmul (fsub x (px i)) (fdiv (fsub (py (i + 1)) (py i)) (fsub (px (i + 1)) (px i))))

/-- The source cells of a port. -/
def fanSources (c : Content) (n : Nat) : List Nat :=
  let b := blockOf c P.FAN_SRC_CELLS n
  ((List.range 8).map (fun i => nullRef (field b (2 * i) 2))).filter (· != 0)

/-- The usable source of the highest value, the first of equals. -/
def bestSource : List Seen → Option Seen
  | [] => none
  | v :: t => some (t.foldl (fun a b => if flt a.f b.f then b else a) v)

/-- A demand before the sequence, with its conditions and flags. -/
structure FanWish where
  c         : F32
  conds     : BitVec 8
  failsafe  : Bool
  enableOff : Bool
  ramping   : Bool
  subst     : Bool
  unusable  : Bool
  deriving DecidableEq, Repr

/-- The demand from sources and enable cell in AUTO (R327, R328). -/
def State.fanAuto (s : State) (n : Nat) : FanWish :=
  let slot := fanSlot n
  let src := (fanSources s.content n).map (s.seeFrom slot)
  let good := src.filter (fun v => v.num.isSome)
  let best := bestSource good
  let c := match best with
    | some v => fanCurve (s.cfgBlock P.FAN_CURVE n) v.f
    | none => s.runF P.FAN_FAILSAFE n
  let ref := s.cfgCell P.FAN_ENABLE_CELL n
  let en := s.seeFrom slot ref
  let off := ref != 0 && (if en.usable then !en.on else s.cfg P.FAN_ENABLE_LOSS n == 0)
  let conds := (match best with | some v => v.conds | none => condBit 2) ||| (if ref != 0 && en.usable then en.conds else 0)
  ⟨if off then 0 else c, conds, best.isNone, off, false, src.any Seen.isSubst || (ref != 0 && en.isSubst),
    src.any (fun v => v.num.isNone) || (ref != 0 && !en.usable)⟩

/-- The demand c of a step (R327). -/
def State.fanWish (s : State) (n : Nat) (f : FanState) : FanWish :=
  let st := (s.unit (fanSlot n)).st
  let plain (c : F32) : FanWish := ⟨c, 0, false, false, false, false, false⟩
  let w :=
    if st = .stopping then plain 0
    else if f.calmSafe then plain (s.runF P.FAN_FAILSAFE n)
    else if st = .manual then plain f.manual
    else s.fanAuto n
  let c := if flt w.c (s.runF P.FAN_OFF_BELOW n) then 0
    else if flt w.c (s.runF P.FAN_DEMAND_MIN n) then s.runF P.FAN_DEMAND_MIN n else w.c
  let ramp := s.runF P.FAN_RAMP n
  let dr := fmul ramp (fRat 1 16)
  if f.seq = .running ∧ fPos ramp ∧ (fPos c ∨ st = .stopping) then
    let c' := fmin (fmax c (fsub f.cLast dr)) (fadd f.cLast dr)
    { w with c := c', ramping := !feq c' c }
  else { w with c := c }

/-! ## Start sequence and supervision (R332, R333) -/

/-- The speed cell is usable and at least FAN_TACH_MIN. -/
def State.fanFast (s : State) (n : Nat) (f : FanState) : Bool :=
  f.settled && !f.tachLost && fle (s.cfgF P.FAN_TACH_MIN n) f.speed

/-- A failed attempt: a pause, or BLOCKED (the second component) (R332). -/
def failAttempt (pause : Nat) (f : FanState) : FanState × Bool :=
  if f.retries < 3 then
    let n := f.retries + 1
    ({ f with retries := n, seq := .pause, pauseLeft := pause * 2 ^ (n - 1) * 16 }, false)
  else (f, true)

/-- A kick begins. -/
def FanState.kick (f : FanState) : FanState := { f with seq := .kick, kickSteps := 0 }

/-- One step of the start sequence with demand `c` (Table 10-4); whether the unit is BLOCKED. -/
def State.fanSequence (s : State) (n : Nat) (c : F32) (f : FanState) : FanState × Bool :=
  match f.seq with
  | .off =>
    if !fPos c then (f, false)
    else if s.fanFast n f then ({ f with seq := .running, retries := 0, lowRun := 0 }, false)
    else (f.kick, false)
  | .kick =>
    let f := { f with kickSteps := f.kickSteps + 1 }
    if !fPos c then ({ f with seq := .off }, false)
    else if s.cfg P.FAN_KICK_TIME n ≤ f.kickSteps then ({ f with seq := .proving }, false)
    else (f, false)
  | .proving =>
    let f := { f with kickSteps := f.kickSteps + 1 }
    if !fPos c then ({ f with seq := .off }, false)
    else if s.fanFast n f then ({ f with seq := .running, retries := 0, lowRun := 0 }, false)
    else if s.cfg P.FAN_START_TIME n ≤ f.kickSteps then failAttempt (s.cfg P.FAN_RETRY_PAUSE n) f
    else (f, false)
  | .pause =>
    let f := { f with pauseLeft := f.pauseLeft - 1 }
    if 0 < f.pauseLeft then (f, false)
    else if fPos c then (f.kick, false) else ({ f with seq := .off }, false)
  | .running => if fPos c then (f, false) else ({ f with seq := .off }, false)

/-- The demand the sequence sends (Table 10-4). -/
def State.fanApplied (s : State) (n : Nat) (c : F32) (f : FanState) : F32 :=
  match f.seq with
  | .off => 0
  | .pause => 0
  | .kick => s.cfgF P.FAN_KICK_DEMAND n
  | .proving => c
  | .running => c

/-- Whether a record shows the supply at its limit, and whether it shows current in the running band without an edge
(Table 10-5). -/
def State.fanLoad (s : State) (n : Nat) (r : FanRec) : Bool × Bool :=
  let i := fdiv (fOfNat r.iOut) (fRat 10000 1)
  let high := fmul (fRat 9 10) (s.cfgF P.FAN_I_LIMIT n)
  (r.status.getLsbD 4 || fle high i, r.edges == 0 && fle (s.cfgF P.FAN_I_RUN_MIN n) i && flt i high)

/-- Supervision of a running port (R333): the state and the fault it raises. -/
def State.fanSupervise (s : State) (n : Nat) (recs : List FanRec) (f : FanState) : FanState × Option Nat :=
  let f := if recs.any (fun r => r.edges != 0) then { f with tachLost := false } else f
  if f.seq ≠ .running then ({ f with lowRun := 0, lowLimited := true, lowNoTach := true }, none)
  else if s.fanFast n f then ({ f with lowRun := 0, lowLimited := true, lowNoTach := true }, none)
  else
    let f := { f with
      lowRun := f.lowRun + 1
      lowLimited := f.lowLimited && recs.all (fun r => (s.fanLoad n r).1)
      lowNoTach := f.lowNoTach && recs.all (fun r => (s.fanLoad n r).2) }
    let supply := s.cfg P.FAN_SUPPLY n != 0
    if f.lowRun < s.cfg P.FAN_FAULT_TIME n * 16 then (f, none)
    else if supply && f.lowLimited then (f, some 0x03)
    else if supply && f.lowNoTach then ({ f with tachLost := true, lowRun := 0, lowLimited := true, lowNoTach := true }, none)
    else (f, some 0x02)

/-- A due fan port unit. -/
def State.evalFan (s : State) (n : Nat) : State :=
  let slot := fanSlot n
  let st := (s.unit slot).st
  if st = .auto ∨ st = .manual ∨ st = .stopping then
    let f := s.work.fan n
    let recs := f.recs.map (·.2)
    let f := f.recs.foldl (fanCount (s.cfg P.FAN_PPR n) (s.cfg P.FAN_TACH_GATE n) (s.cfg P.FAN_TACH_ZERO n)) f
    let f := { f with recs := [] }
    let off := f.lastRec.status.getLsbD 7
    let held := off || f.lastRec.status.getLsbD 6
    let w := s.fanWish n f
    let sup : FanState × Option Nat := if held then (f, none) else s.fanSupervise n recs f
    let f := sup.1
    let seq : FanState × Bool :=
      if held then (if fPos w.c || f.seq == .pause then f else { f with seq := .off }, false)
      else s.fanSequence n w.c (if f.suspended then { f with seq := .off } else f)
    let f := seq.1
    let applied := s.fanApplied n w.c f
    let f := { f with
      cLast := w.c, cApplied := applied, failsafe := w.failsafe, enableOff := w.enableOff, ramping := w.ramping
      suspended := held }
    let s := s.noteInputs slot w.subst w.unusable
    let s := match sup.2 with | some code => s.detect slot code | none => s
    let s := if seq.2 then s.detect slot 0x01 else s
    let s := s.modWork (·.setFan n f)
    let t := s.workTick
    let s := s.writeF slot (s.cfg P.FAN_DEMAND_CELL n) applied t w.conds
    let s := s.writeF slot (s.cfg P.FAN_SPEED_CELL n) f.speed t
      ((if f.settled then 0 else condBit 3) ||| badIf (off || f.tachLost))
    let s := s.writeF slot (s.cfg P.FAN_CURRENT_CELL n) (fdiv (fOfNat f.lastRec.iOut) (fRat 10000 1)) t (badIf off)
    if st = .stopping ∧ fZero w.c then s.modUnit slot (fun u => { u with windDone := true }) else s
  else s

/-- Initial conditions of a start from STOPPED (R332, R335). -/
def State.startFan (s : State) (n : Nat) : State :=
  let f := s.work.fan n
  s.modWork (·.setFan n { lastRec := f.lastRec })

/-- The state after a rest: the sequence from OFF, retry count 0 (R420). -/
def State.resumeFan (s : State) (n : Nat) : State :=
  s.modWork (fun p => p.setFan n { p.fan n with seq := .off, retries := 0, cApplied := 0, recs := [] })

/-- SEQ codes (Table 10-7). -/
def FanSeq.code : FanSeq → Nat
  | .off => 0 | .kick => 1 | .proving => 2 | .running => 3 | .pause => 4

/-- FAN_STATUS (Table 10-7). -/
def FanState.word (f : FanState) : Nat :=
  let b (i : Nat) : Bool := f.lastRec.status.getLsbD i
  8192 * f.seq.code + 2048 * f.retries + flagBit f.calmSafe 10 + flagBit f.failsafe 9 + flagBit f.enableOff 8 +
    flagBit (b 5) 7 + flagBit f.tachLost 6 + flagBit (f.seq == .running && decide (0 < f.lowRun)) 5 + flagBit (b 6) 4 +
    flagBit (b 7) 3 + flagBit (b 4) 2 + flagBit f.ramping 1

end Sys2Proof.Machine
end

