-- ==== Sys2Proof/Machine/Graph.lean ====
section
/-! DEFINITION. The dependency graph of a generation: which cells each unit reads and writes, and the evaluation order
(R40, R41). -/

namespace Sys2Proof.Machine

/-- The references among `l` that name a cell: cell 0 of every node is the null cell, which means no input (R31). -/
def realRefs (l : List Nat) : List Nat := l.filter (fun r => r % 8192 != 0)

/-- A block of `k` cells from `base`; none when the base is 0. -/
def cellBlock (base k : Nat) : List Nat := if base = 0 then [] else (List.range k).map (base + ·)

/-- Cells of a comb line unit: three blocks of COMB_SLOTS positions. -/
def combCells (c : Content) (l : Nat) : List Nat :=
  let k := scalarOf c P.COMB_SLOTS l
  [P.CELL_TEMP_BASE, P.CELL_RH_BASE, P.CELL_CO2_BASE].flatMap (fun id => cellBlock (scalarOf c id l) k)

/-- Cells a unit writes (R32, R40). -/
def unitWrites (c : Content) (slot : Nat) : List Nat :=
  let n := slotInst slot
  let one (id : Nat) : Nat := scalarOf c id n
  match slotKind slot with
  | 0x02 => if one P.HIVE_FACE_KIND = 4 ∧ one P.LHIVE_TYPE = 4 then realRefs [one P.LHIVE_OUT_CELL] else []
  | 0x03 => slot :: realRefs [one P.AUX_CELL]
  | 0x04 => realRefs [one P.OUT_CELL, one P.ERR_CELL, one P.SPE_CELL]
  | 0x05 => realRefs [one P.PROF_OUT_CELL, one P.PROF_VEL_CELL]
  | 0x06 => realRefs [one P.CHURN_OUT_CELL]
  | 0x07 => realRefs [one P.MOIST_CELL, one P.EPS_CELL, one P.LOSS_CELL]
  | 0x08 => combCells c n
  | 0x09 => cellBlock (one P.PRG_SP_BASE) 8 ++ realRefs [one P.PRG_STEP_CELL]
  | 0x0A => cellBlock (one P.CHAIN_RUN_BASE) (one P.CHAIN_COUNT) ++ realRefs [one P.CHAIN_STATUS_CELL]
  | 0x0B => realRefs [one P.OBS_OUT_CELL, one P.OBS_OUT_T_CELL, one P.OBS_PRED_CELL, one P.OBS_RATE_CELL,
      one P.OBS_RES_CELL] ++ cellBlock (one P.OBS_SEG_BASE) (one P.OBS_SEGMENTS)
  | 0x0C => realRefs [one P.FAN_DEMAND_CELL, one P.FAN_SPEED_CELL, one P.FAN_CURRENT_CELL]
  | 0x0D => cellBlock (one P.BIN_OUT_BASE) 8
  | 0x10 => (List.range 25).map (129 + ·)
  | _ => []

/-- The cells a recorder histogram entry names (Table 12-1). -/
def histCells (c : Content) : List Nat :=
  let b := blockOf c P.REC_HISTS 0
  realRefs ((List.range 24).map (fun h => field b (12 * h) 2))

/-- The temperature and CO2 cells of a comb line unit, for its bin unit. -/
def lineCells (c : Content) (l : Nat) : List Nat :=
  let m := mapOf (blockOf c P.COMB_NODEMAP l)
  let at_ (id : Nat) : List Nat :=
    let b := scalarOf c id l
    if b = 0 then [] else m.map (fun e => b + e.position)
  at_ P.CELL_TEMP_BASE ++ at_ P.CELL_CO2_BASE

/-- Cells a unit reads without the previous-tick marker (R40). -/
def unitReads (c : Content) (slot : Nat) : List Nat :=
  let n := slotInst slot
  let one (id : Nat) : Nat := scalarOf c id n
  match slotKind slot with
  | 0x02 =>
    if one P.HIVE_FACE_KIND = 4 ∧ one P.LHIVE_TYPE = 4 then
      realRefs ((memberLoops c slot).map (fun u => scalarOf c P.OUT_CELL (slotInst u)))
    else []
  | 0x03 => if modeOutput (one P.CH_MODE) && one P.CH_MODE != 0x0B then realRefs [one P.OUT_SRC] else []
  | 0x04 =>
    realRefs ([one P.PV_CELL] ++ (if one P.SP_MODE = 0 then [] else [one P.SP_CELL]) ++
      [one P.FF1_CELL, one P.FF2_CELL, one P.TRACK_CELL])
  | 0x05 => realRefs [one P.PROF_TARGET_CELL]
  | 0x06 => if one P.CHURN_PHASE_MODE = 1 then realRefs [one P.CHURN_PHASE_CELL] else []
  | 0x07 => [chanSlot (one P.PROBE_CHANNEL), chanSlot (one P.PROBE_CHANNEL) + 1] ++
      realRefs [one P.TEMP_CELL, one P.DENS_CELL]
  | 0x09 =>
    let b := blockOf c P.PRG_TABLE n
    realRefs (((List.range 64).map (prgStep b)).map (fun s => if s.condOp = 0 then 0 else s.condCell))
  | 0x0A =>
    let b := blockOf c P.CHAIN_MEMBERS n
    realRefs ((List.range (one P.CHAIN_COUNT)).flatMap (fun i => [field b (16 * i) 2, field b (16 * i + 2) 2]) ++
      [one P.CHAIN_PERMIT_CELL])
  | 0x0B =>
    realRefs ([one P.OBS_INLET_M_CELL, one P.OBS_INLET_T_CELL, one P.OBS_DISCH_CELL, one P.OBS_MEAS_CELL] ++
      (zonesOf (blockOf c P.OBS_ZONES n)).flatMap (fun z => [z.tCell, z.rhCell, z.qCell]))
  | 0x0C => fanSources c n ++ realRefs [one P.FAN_ENABLE_CELL]
  | 0x0D =>
    realRefs ([one P.BIN_LEVEL_CELL, one P.BIN_AMB_T_CELL, one P.BIN_AMB_RH_CELL, one P.BIN_GRAIN_M_CELL] ++
      (binLines c n).flatMap (fun e => lineCells c e.2))
  | 0x0E => histCells c
  | _ => []

/-- Cells a unit reads with the previous-tick marker (R41). R292 gives it to CHURN_BAND_CELL. That PROF_INIT_CELL is read
so, and that no configured reference carries the marker, is a DESIGN CHOICE (log entry 33). -/
def markedReads (c : Content) (slot : Nat) : List Nat :=
  let n := slotInst slot
  match slotKind slot with
  | 0x05 => realRefs [scalarOf c P.PROF_INIT_CELL n]
  | 0x06 => realRefs [scalarOf c P.CHURN_BAND_CELL n]
  | _ => []

/-- Host-written cells of a content (R32). -/
def hostCells (c : Content) : List Nat :=
  c.filterMap (fun e => if e.1 = P.CELL_HOST ∧ scalarOf c P.CELL_HOST e.2.1 = 1 then some e.2.1 else none)

/-- Every written cell with its writer; the root hive stands for the host. -/
def cellWriters (c : Content) : List (Nat × Nat) :=
  (hostCells c).map (fun r => (r, 0)) ++
    (configuredSlots c).flatMap (fun u => (unitWrites c u).map (fun r => (r, u)))

/-- The units a unit must follow (R40, R366). -/
def predecessors (c : Content) (writers : List (Nat × Nat)) (slot : Nat) : List Nat :=
  let reads := unitReads c slot
  let byCell := (writers.filter (fun w => w.2 != 0 && w.2 != slot && reads.contains w.1)).map (·.2)
  (if slotKind slot = 0x0E then slotsOfKind c 0x09 else []) ++ byCell

/-- Units placed one by one, the lowest free slot first; what is left over lies on a cycle. -/
def placeUnits : Nat → List (Nat × List Nat) → List Nat → List Nat × List Nat
  | 0, rest, placed => (placed.reverse, rest.map (·.1))
  | k + 1, rest, placed =>
    match rest.find? (fun e => e.2.all placed.contains) with
    | none => (placed.reverse, rest.map (·.1))
    | some e => placeUnits k (rest.filter (fun f => f.1 != e.1)) (e.1 :: placed)

/-- The evaluation order of a content and the slots that lie on or behind a cycle (R40, R41). -/
def orderOf (c : Content) : List Nat × List Nat :=
  let slots := configuredSlots c
  let w := cellWriters c
  placeUnits (slots.length + 1) (slots.map (fun u => (u, predecessors c w u))) []

/-- References to cells of other nodes in a content, ascending (R353). -/
def remoteRefs (c : Content) : List Nat :=
  sortNats ((configuredSlots c).flatMap (fun u => (unitReads c u ++ markedReads c u).filter (fun r => decide (8192 ≤ r))))

end Sys2Proof.Machine
end

