-- ==== Sys2Proof/Machine/Link.lean ====
section
/-! DEFINITION. The Xista link: frames, admission, tick alignment, cells across the line, joining and leaving. -/

namespace Sys2Proof.Machine

/-! ## Roles, ports and peers (R342 to R344) -/

/-- The module is a queen. -/
def State.queen (s : State) : Bool := s.cfg P.LINK_ROLE 0 == 1

/-- Cell and command traffic runs on the common tick: own tick plus O (R350). -/
def State.commonTick (s : State) : Nat := ((s.tick : Int) + s.link.offset).toNat

def State.modLink (s : State) (f : Link → Link) : State := { s with link := f s.link }
def State.peer (s : State) (n : Nat) : Peer := Tab.get {} s.link.peers n
def State.setPeer (s : State) (n : Nat) (p : Peer) : State := s.modLink (fun l => { l with peers := Tab.put {} l.peers n p })
def State.port (s : State) (i : Nat) : Port := s.link.ports.getD i {}
def State.modPort (s : State) (i : Nat) (f : Port → Port) : State :=
  s.modLink (fun l => { l with ports := l.ports.set i (f (l.ports.getD i {})) })

/-- A port's PHY runs (R340); in HOLD the port keeps running (R363). -/
def State.portActive (s : State) (i : Nat) : Bool :=
  let st := (s.view.unit (portSlot i)).st
  s.has (portSlot i) && (st == .active || st == .hold) && s.power != .dormant

/-- A LINK event: port handle or 0xFFFF, node and reason (R364). -/
def State.raiseLink (s : State) (handle node reason : Nat) : State := s.raise causeLink handle node reason

/-- A command packet as it goes into a COMMAND message: without AUTH and tag, with its CRC (R356). -/
def commandPacket (flags : Nat) (session seq opcode : BitVec 16) (etick : Nat) (d : List Byte) : List Byte :=
  withCrc ([0xB7, 0x4D, 0x01, BitVec.ofNat 8 flags] ++ le 2 seq.toNat ++ le 2 opcode.toNat ++ le 2 d.length ++
    le 2 session.toNat ++ le 4 etick ++ d)

/-- The nodes of a queen that are joined. -/
def State.joinedNodes (s : State) : List Nat := (s.link.peers.filter (fun e => e.2.state == 3)).map (·.1)

/-! ## Frames (R345, R348) -/

/-- Fragments of a body with their INDEX; a body of no bytes is one fragment. -/
def fragments (body : List Byte) : List (List Byte × Nat) :=
  if body.isEmpty then [([], 0)] else (chunks 1468 4 body).zipIdx

/-- A message sent: on port `port`, for or from `node`, protected with the keys of `peer` if any. -/
def State.sendMsg (s : State) (port type node : Nat) (up : Bool) (peer : Option Nat) (body : List Byte) : State :=
  let parts := fragments body
  let s := parts.foldl (fun s e =>
    let ctr := match peer with | some p => (s.peer p).txCounter | none => 0
    let f : Frame := ⟨port, !(s.port port).neighbour, type, node, up, decide (e.2 + 1 < parts.length), peer, s.link.msg,
      e.2, ctr, e.1⟩
    let s := s.modLink (fun l => { l with sent := l.sent ++ [f] })
    match peer with
    | some p => s.setPeer p { s.peer p with txCounter := ctr + 1 }
    | none => s) s
  s.modLink (fun l => { l with msg := (l.msg + 1) % 256 })

/-- The Xista header of a frame (Table 11-2). -/
def Frame.header (f : Frame) : List Byte :=
  [0x01, BitVec.ofNat 8 f.type, BitVec.ofNat 8 f.node,
    BitVec.ofNat 8 (flagBit f.up 7 + flagBit f.more 6 + flagBit f.peer.isSome 5)] ++ le 2 f.body.length ++
    [BitVec.ofNat 8 f.msg, BitVec.ofNat 8 f.index] ++ le 8 f.counter

/-- The payload of a frame as it leaves the port: encrypted and tagged when protected (R348). -/
def State.frameBytes (s : State) (f : Frame) : List Byte :=
  match f.peer with
  | none => f.header ++ f.body
  | some p =>
    let key := if f.up then (s.peer p).keyUp else (s.peer p).keyDown
    let node := if f.up then s.link.nodeId else p
    let nonce := [if f.up then (0x01 : Byte) else 0x00, BitVec.ofNat 8 node, 0, 0] ++ be 8 f.counter
    let c := gcm key nonce f.header f.body
    f.header ++ c.1 ++ c.2

/-- A message of a queen to node `n`, or of a forager to its queen. -/
def State.sendPeer (s : State) (n type : Nat) (body : List Byte) : State :=
  let up := n == 0
  s.sendMsg (s.peer n).port type (if up then s.link.nodeId else n) up (some n) body

/-- A valid frame from a peer (R341, R361): the neighbour on the port is known, the time of the last frame noted. -/
def State.heard (s : State) (n : Nat) : State := s.setPeer n { s.peer n with lastRx := s.tick }

/-- The neighbour's address on a port is learned (R341). -/
def State.learn (s : State) (port : Nat) : State := s.modPort port (fun p => { p with neighbour := true })

/-! ## Admission (R346 to R348) -/

/-- The queen passes an action on its root hive on to node `n`'s root hive, a member of it (R29, R30), as a COMMAND message
for handle 0 of the node. That it goes this way, with which session and sequence number, the spec does not say (DESIGN CHOICE,
log entry 42). `etick`: the boundary, or none for the node's next one. -/
def State.actOnNode (s : State) (session seq : BitVec 16) (opcode : Nat) (auth : Bool) (etick : Option Nat) (n : Nat) : State :=
  let packet := commandPacket (if etick.isSome then 0x40 else 0) session seq (BitVec.ofNat 16 opcode)
    (etick.getD 0 % 2 ^ 32) (le 2 0)
  s.sendPeer n 0x30 (le 2 session.toNat ++ le 2 seq.toNat ++ [if auth then 1 else 0, 0, 0, 0] ++ packet)

/-- The nodes whose root hives take part in an action on the queen's root hive: a clear fault reaches those in FAULT alone. -/
def State.nodesActed (s : State) (opcode : Nat) : List Nat :=
  if !s.queen then []
  else s.joinedNodes.filter (fun n => n != 0 && (opcode != 0x0206 || (s.peer n).rootWord.toNat % 16 == 6))

/-- SHA-256 of the installed OEM public key, zeros for none. -/
def State.oemHash (s : State) : List Byte :=
  match s.id.oemKey with
  | some k => sha256 k
  | none => List.replicate 32 0

/-- The certificates of the module: the device certificate and any installation certificate. -/
def State.ownCerts (s : State) : List Byte := s.id.deviceCert ++ s.id.instCert.getD []

/-- The first DER certificate of a chain and the rest. -/
def splitCert (b : List Byte) : List Byte × List Byte :=
  let n := 4 + 256 * field b 2 1 + field b 3 1
  (b.take n, b.drop n)

/-- The device key that a chain of certificates shows; none when it does not chain to the root or may not sign (R347, R388,
R389). -/
def State.chainKey (s : State) (certs : List Byte) : Option (List Byte) :=
  let c := (splitCert certs).1
  if Config.certSigned c s.id.rootPub && Config.certSigns c then Config.certKey c else none

/-- The site check: the installation certificate of the chain is signed by the installed OEM key (R347). -/
def State.siteOk (s : State) (certs : List Byte) : Bool :=
  s.cfg P.LINK_SITE_CHECK 0 == 0 ||
    (match s.id.oemKey with
     | some k => Config.certSigned (splitCert certs).2 k && Config.certKey (splitCert certs).2 == Config.certKey (splitCert certs).1
     | none => false)

/-- The body of HELLO. -/
def helloBytes (serial nonce key : List Byte) (role : Nat) (oemHash certs : List Byte) : List Byte :=
  serial ++ nonce ++ key ++ [BitVec.ofNat 8 role, 0, 0, 0] ++ oemHash ++ le 2 certs.length ++ certs

/-- The body of CHALLENGE before its signature. -/
def challengeBytes (serial : List Byte) (node : Nat) (nonce key oemHash certs : List Byte) : List Byte :=
  serial ++ [BitVec.ofNat 8 node, 0, 0, 0] ++ nonce ++ key ++ oemHash ++ le 2 certs.length ++ certs

/-- A free private key or signature number. -/
def freeScalar (v : Nat) : Nat := 1 + v % (p256N - 1)

/-- The keys of a pair (R348): downstream and upstream. -/
def pairKeys (z nq nf : List Byte) (node : Nat) : List Byte × List Byte :=
  let k := sha256 (z ++ nq ++ nf ++ [BitVec.ofNat 8 node] ++ ascii "SG-XISTA")
  (k.take 16, k.drop 16)

/-- A REFUSE of the queen (R347): sent, raised as `event`, REFUSED on the port. -/
def State.refuseHello (s : State) (port : Nat) (serial : List Byte) (reason event node : Nat) : State :=
  let s := s.sendMsg port 0x05 0 false none (serial ++ [BitVec.ofNat 8 reason, 0, 0, 0])
  (s.modPort port (fun p => { p with refused := true })).raiseLink (portSlot port) node event

/-- The node a serial number is admitted as. -/
def State.nodeOfSerial (s : State) (serial : List Byte) : Option Nat :=
  let b := s.cfgBlock P.LINK_NODES 0
  ((List.range 7).find? (fun i => bytesAt b (16 * i) 16 == serial && serial.any (· != 0))).map (· + 1)

/-- HELLO sent on every port that is up (R346), by a module that is not joined and, unless it is a queen, whose crystal runs
(R351). -/
def State.sendHello (s : State) : State :=
  if s.link.joined || (s.peer 0).state != 0 || (s.hk.crystalFail && !s.queen) then s
  else
    let r1 := s.drawFree
    let d := freeScalar r1.1
    let r2 := r1.2.drawBytes 16
    let s := r2.2
    let body := helloBytes s.id.serial r2.1 (ecPublic d) (s.cfg P.LINK_ROLE 0) s.oemHash s.ownCerts
    let s := s.modLink (fun l => { l with ephKey := d, nonceF := r2.1, helloBody := body })
    [0, 1].foldl (fun s i => if s.portActive i && (s.port i).up then s.sendMsg i 0x01 0 true none body else s) s

/-- A frame relayed from one port to the other (R344), through both. -/
def State.relay (s : State) (port : Nat) : State :=
  if s.portActive port && s.portActive (1 - port) && (s.port port).up && (s.port (1 - port)).up then
    [0, 1].foldl (fun s i => s.modPort i (fun p => { p with relayAt := some s.tick })) s
  else s

/-- HELLO arrives: a queen challenges or refuses the sender, any other module relays it. -/
def State.onHello (s : State) (port : Nat) (m : HelloMsg) : State :=
  let s := s.learn port
  if !s.queen then s.relay port
  else if m.role = 1 then
    (s.modPort port (fun p => { p with conflict := true })).refuseHello port m.serial 4 5 0
  else
    match s.nodeOfSerial m.serial with
    | none => s.refuseHello port m.serial 1 3 0
    | some n =>
      if (s.peer n).state = 3 then s
      else
      match s.chainKey m.certs with
      | none => (s.setPeer n { state := 4, port := port, hops := m.hops, serial := m.serial, wasLost := (s.peer n).wasLost }).refuseHello port m.serial 2 4 n
      | some pub =>
        if !s.siteOk m.certs then
          (s.setPeer n { state := 4, port := port, hops := m.hops, serial := m.serial, wasLost := (s.peer n).wasLost }).refuseHello port m.serial 2 4 n
        else
          let r1 := s.drawFree
          let d := freeScalar r1.1
          let r2 := r1.2.drawBytes 16
          let r3 := r2.2.drawFree
          let s := r3.2
          let hello := helloBytes m.serial m.nonce m.key m.role m.oemHash m.certs
          let body := challengeBytes m.serial n r2.1 (ecPublic d) s.oemHash s.ownCerts
          let sig := ecdsaSign Config.deviceKey (freeScalar r3.1) (sha256 (hello ++ body))
          let keys := pairKeys ((ecdh d m.key).getD []) r2.1 m.nonce n
          let s := s.setPeer n
            { state := 1, port := port, hops := m.hops, serial := m.serial, pub := pub
              proofHash := sha256 (hello ++ body ++ sig), challengeAt := s.tick, keyDown := keys.1, keyUp := keys.2
              oemHash := m.oemHash, lastRx := s.tick, wasLost := (s.peer n).wasLost }
          s.sendMsg port 0x02 0 false none (body ++ sig)

/-- CHALLENGE arrives (R346, R347): a forager that has sent HELLO checks it and answers PROOF. -/
def State.onChallenge (s : State) (port : Nat) (m : ChallengeMsg) : State :=
  let s := s.learn port
  if m.target ≠ s.id.serial then s.relay port
  else if s.queen || s.link.joined || (s.peer 0).state != 0 then s
  else
    let queenSerial := s.cfgBlock P.LINK_QUEEN 0
    let body := challengeBytes m.target m.node m.nonce m.key m.oemHash m.certs
    let ok := (match s.chainKey m.certs with
        | some pub => ecdsaVerify pub (sha256 (s.link.helloBody ++ body)) m.signature
        | none => false) && s.siteOk m.certs && (queenSerial.all (· == 0) || queenSerial == m.serial)
    if !ok then s
    else
      let r := s.drawFree
      let s := r.2
      let sig := ecdsaSign Config.deviceKey (freeScalar r.1) (sha256 (s.link.helloBody ++ body ++ m.signature))
      let keys := pairKeys ((ecdh s.link.ephKey m.key).getD []) m.nonce s.link.nonceF m.node
      let s := s.setPeer 0
        { state := 1, port := port, serial := m.serial, keyDown := keys.1, keyUp := keys.2, oemHash := m.oemHash
          challengeAt := s.tick, lastRx := s.tick }
      let s := s.modLink (fun l => { l with nodeId := m.node })
      let s := s.modPort port (fun p => { p with upstream := true, refused := false })
      s.sendMsg port 0x03 0 true none (s.id.serial ++ sig)

/-- SUBSCRIBE to the cells of node `n` that the active generation refers to (R353). -/
def State.sendSubscribe (s : State) (n : Nat) : State :=
  let refs := (remoteRefs s.content).filter (fun r => r / 8192 == n)
  s.sendPeer n 0x21 (le 6 (s.tick + s.cfg P.XISTA_LATENCY 0) ++ le 2 refs.length ++ (refs.map (fun r => le 2 (r % 8192))).flatten)

/-- PROOF arrives at the queen: ADMIT, or REFUSE (R347, R348). -/
def State.onProof (s : State) (port : Nat) (m : ProofMsg) : State :=
  let s := s.learn port
  if !s.queen then s.relay port
  else
    match s.link.peers.find? (fun e => e.2.state == 1 && e.2.serial == m.serial) with
    | none => s
    | some (n, p) =>
      if ecdsaVerify p.pub p.proofHash m.signature then
        let s := s.setPeer n { p with state := 2, lastRx := s.tick }
        let s := s.modPort port (fun q => { q with refused := false })
        let r := s.drawFree
        let s := r.2.sendPeer n 0x04 (le 6 s.tick ++ le 2 (r.1 % 32000) ++ List.replicate 8 0)
        s.sendSubscribe n
      else (s.setPeer n { p with state := 4 }).refuseHello port m.serial 3 4 n

/-- The forager's attempt is over: it sends HELLO again (R347). -/
def State.dropAttempt (s : State) : State :=
  let p := s.peer 0
  ((s.setPeer 0 {}).modLink (fun l => { l with nodeId := 0, offset := 0 })).modPort p.port
    (fun q => { q with upstream := false })

/-- No PROOF within 512 ticks of the CHALLENGE ends the attempt (R347), on either side. -/
def State.proofExpired (s : State) (n : Nat) : State :=
  let p := s.peer n
  if p.state = 1 ∧ p.challengeAt + 512 < s.tick then
    (if n = 0 then s.dropAttempt else (s.setPeer n { p with state := 4 }).refuseHello p.port p.serial 5 4 n)
  else s

/-- ADMIT arrives (R348, R351): alignment begins with COARSE. -/
def State.onAdmit (s : State) (queenTick : Nat) : State :=
  let p := s.peer 0
  if p.state = 1 then
    (s.setPeer 0 { p with state := 2, align := 1, lastRx := s.tick }).modLink (fun l => { l with
      offset := (queenTick : Int) - s.tick, goodSync := 0, badSync := 0, failSync := 0, syncSent := none })
  else s

/-- REFUSE arrives: the attempt is discarded (R347). -/
def State.onRefuse (s : State) (port : Nat) (target : List Byte) : State :=
  let s := s.learn port
  if target ≠ s.id.serial then s.relay port
  else if s.link.joined then s
  else
    s.dropAttempt.modPort port (fun p => { p with refused := true })

/-! ## Leaving (R361, R362) -/

/-- CAPACITY_CHANGED on the root hive, whose members a node's join or loss changes, and on every unit that reads a cell of
the node (R43). -/
def State.nodeChanged (s : State) (n : Nat) : State :=
  let reads (u : Nat) : Bool := (unitReads s.content u ++ markedReads s.content u).any (fun r => r / 8192 == n)
  (0 :: (configuredSlots s.content).filter reads).foldl (fun s u => s.modUnit u (fun r => { r with capChanged := true })) s

/-- All cells of a node OFFLINE. -/
def State.offlineNode (s : State) (n : Nat) : State :=
  s.modWork (fun p => { p with cells := p.cells.map (fun e => if e.1 / 8192 = n then (e.1, e.2.offline) else e) })

/-- A forager loses its queen: nothing of its own work changes (R362). -/
def State.loseQueen (s : State) : State :=
  let p := s.peer 0
  let s := (s.setPeer 0 {}).modLink (fun l => { l with
    nodeId := 0, joined := false, offset := 0, lengthen := none, syncSent := none, subscribed := [], subNext := []
    sendQueue := [], losses := if l.joined then sat32 (l.losses + 1) else l.losses })
  s.modPort p.port (fun q => { q with upstream := false })

/-- A node is lost (R361, Table 01-9). Replies that are awaited are the caller's. -/
def State.loseNode (s : State) (n : Nat) : State :=
  let p := s.peer n
  let s := (s.setPeer n { serial := p.serial, wasLost := p.wasLost || p.state == 3 }).modLink (fun l => { l with
    remote := l.remote.filter (fun e => e.ref / 8192 != n), wanted := l.wanted.filter (fun r => r / 8192 != n) })
  if p.state = 3 then
    let s := (s.offlineNode n).modLink (fun l => { l with losses := sat32 (l.losses + 1) })
    let s := (s.note 0x34 (8192 * n) (code4 7)).raiseLink 0xFFFF n 2
    (s.modUnit 0 (fun u => { u with memberFault := true })).nodeChanged n
  else s

/-! ## Alignment (R350 to R352) -/

/-- A forager loses alignment (R351): it leaves the line at the next boundary. -/
def State.loseAlign (s : State) : State := s.setPeer 0 { s.peer 0 with lostDue := true, align := 0 }

/-- SYNC_REQ of a forager, in its tick of every 64 (R350). An exchange still open has failed. -/
def State.sendSync (s : State) : State :=
  let p := s.peer 0
  if p.state < 2 ∨ s.commonTick % 64 ≠ 8 * s.link.nodeId ∨ s.link.thisLong ≠ 0 then s
  else
    let s1 : Int := (s.commonTick : Int) * 32000 + 16000
    let missed := s.link.syncSent.isSome
    let s := s.modLink (fun l => { l with
      syncSent := some s1, failSync := if missed then l.failSync + 1 else l.failSync
      goodSync := if missed then 0 else l.goodSync, badSync := if missed then 0 else l.badSync })
    let s := s.sendPeer 0 0x10 (le 2 16000 ++ le 6 s.commonTick)
    if 16 ≤ s.link.failSync ∧ p.align = 4 then s.loseAlign else s

/-- SYNC_REQ arrives at the queen: SYNC_RESP with both stamps (R350); a reply at a lower fine count leaves in the next
tick. -/
def State.onSyncReq (s : State) (n arrival reply : Nat) : State :=
  if !s.queen || (s.peer n).state < 2 || n = 0 then s
  else (s.heard n).sendPeer n 0x11 (le 2 arrival ++ le 6 s.tick ++ le 2 reply ++
    le 6 (if reply < arrival then s.tick + 1 else s.tick))

/-- The status word of the root hive, as STATUS carries it; the caller supplies it. -/
def State.sendStatus (s : State) (root : Nat) (ports : Nat × Nat) : State :=
  s.sendPeer 0 0x40 (le 4 root ++ le 2 ports.1 ++ le 2 ports.2 ++ le 4 s.host.cause.toNat ++ List.replicate 4 0)

/-- θ of an exchange, in fine counts. -/
def syncTheta (q1 q2 s1 s2 : Int) : Int := ((q1 - s1) - (s2 - q2)) / 2

/-- The step of the first exchange (R351): corrections of O, and crystal cycles to add. -/
def stepAlign (theta : Int) : Int × Nat :=
  let k := rneInt theta 32000
  let rest := theta - 32000 * k
  if rest < 0 then (k - 1, ((rest + 32000) / 1000).toNat) else (k, (rest / 1000).toNat)

/-- SYNC_RESP arrives (R351). -/
def State.onSyncResp (s : State) (q1 q2 s2 : Int) : State :=
  match s.link.syncSent with
  | none => s
  | some s1 =>
    let p := s.peer 0
    let th := syncTheta q1 q2 s1 s2
    let s := (s.setPeer 0 { p with theta := th, lastRx := s.tick }).modLink (fun l => { l with syncSent := none, failSync := 0 })
    match p.align with
    | 1 =>
      let k := stepAlign th
      (s.setPeer 0 { s.peer 0 with align := 2 }).modLink (fun l => { l with offset := l.offset + k.1, lengthen := some k.2 })
    | 3 =>
      let good := if th.natAbs ≤ 33 then s.link.goodSync + 1 else 0
      let s := s.modLink (fun l => { l with goodSync := good, badSync := 0 })
      if 16 ≤ good then
        s.setPeer 0 { s.peer 0 with align := 4, joinAt := some (s.tick + s.cfg P.XISTA_LATENCY 0) }
      else s
    | 4 =>
      let bad := if 65 < th.natAbs then s.link.badSync + 1 else 0
      let s := s.modLink (fun l => { l with badSync := bad })
      if 4 ≤ bad then s.loseAlign else s
    | _ => s

/-- The tick of step 2 is lengthened: the first one with no exchange under way (R352). -/
def State.lengthenTick (s : State) : State :=
  match s.link.lengthen with
  | some c =>
    if s.link.syncSent.isSome then s
    else (s.setPeer 0 { s.peer 0 with align := 3 }).modLink (fun l => { l with lengthen := none, thisLong := c })
  | none => s

/-! ## Cells across the line (R353 to R355) -/

/-- SUBSCRIBE arrives at a forager. -/
def State.onSubscribe (s : State) (fromTick : Nat) (cells : List Nat) : State :=
  if (s.peer 0).state < 2 then s
  else (s.heard 0).modLink (fun l => { l with subFrom := fromTick, subNext := sortNats cells })

/-- The subscription in force from its common tick on; cells without a writer are sent once (R353). -/
def State.applySubscribe (s : State) : State :=
  if s.link.subNext = [] ∨ s.commonTick < s.link.subFrom then s
  else
    let w := (cellWriters s.content).map (·.1)
    let fresh := s.link.subNext.filter (fun r => !w.contains r)
    s.modLink (fun l => { l with subscribed := l.subNext, subNext := [], sendQueue := sortNats (l.sendQueue ++ fresh) })

/-- An entry of CELLS (R353). -/
def State.cellEntry (s : State) (i : Nat) : List Byte :=
  let c := s.work.cell i
  let v := match c.forced with | some f => f | none => c.own
  if (cellWriters s.content).any (fun w => w.1 == i) then
    le 2 i ++ le 8 v.value.toNat ++ le 6 (((v.stamp : Int) + s.link.offset).toNat) ++
      [BitVec.ofNat 8 v.quality, v.conditions, BitVec.ofNat 8 v.type, 0]
  else le 2 i ++ le 8 0 ++ le 6 s.commonTick ++ [0x07, 0x40, 0, 0]

/-- CELLS after a commit: subscribed cells whose STAMP changed, at most 32 (R353). -/
def State.sendCells (s : State) : State :=
  if (s.peer 0).state < 2 then s
  else
    let stamp (p : Plant) (i : Nat) : Nat := match (p.cell i).forced with | some f => f.stamp | none => (p.cell i).own.stamp
    let changed := s.link.subscribed.filter (fun i => stamp s.work i != stamp s.prev i)
    let all := sortNats (s.link.sendQueue ++ changed)
    let now := all.take 32
    let s := s.modLink (fun l => { l with sendQueue := all.drop 32 })
    if now.isEmpty then s else s.sendPeer 0 0x20 (le 2 now.length ++ (now.map s.cellEntry).flatten)

/-- CELLS arrives at the queen: entries wait for their boundary; late ones are counted (R354). -/
def State.onCells (s : State) (n : Nat) (entries : List CellEntry) : State :=
  if !s.queen || (s.peer n).state < 2 || n = 0 then s
  else
    entries.foldl (fun s e =>
      let due := e.stamp + s.cfg P.XISTA_LATENCY 0
      if due ≤ s.tick then s.modLink (fun l => { l with lateUpdates := sat32 (l.lateUpdates + 1) })
      else s.modLink (fun l => { l with remote := l.remote ++ [⟨8192 * n + e.index, due, e⟩] })) (s.heard n)

/-- Insertion by STAMP, after entries of the same STAMP. -/
def insertByStamp : List RemoteEntry → RemoteEntry → List RemoteEntry
  | [], x => [x]
  | y :: t, x => if x.entry.stamp < y.entry.stamp then x :: y :: t else y :: insertByStamp t x

/-- Entries that are due are applied, in order of STAMP (R354). CONDITIONS stand as received. SOURCE, which a CELLS entry does
not carry, is the handle of the node's root hive (DESIGN CHOICE, log entry 41). -/
def State.applyRemote (s : State) : State :=
  let due := (s.link.remote.filter (fun e => decide (e.due ≤ s.tick))).foldl insertByStamp []
  let s := s.modLink (fun l => { l with remote := l.remote.filter (fun e => decide (s.tick < e.due)) })
  due.foldl (fun s r =>
    let e := r.entry
    s.modWork (fun p => p.setCell r.ref ((p.cell r.ref).write
      ⟨e.value, e.stamp, 8192 * (r.ref / 8192), e.quality, e.conditions, e.type⟩))) s

/-- Cells that newly enter the subscription read SETTLING until their first entry (R355). -/
def State.subscribeCells (s : State) : State :=
  let now := (remoteRefs s.content).filter (fun r => (s.peer (r / 8192)).state == 3)
  let fresh := now.filter (fun r => !s.link.wanted.contains r)
  let s := fresh.foldl (fun s r => s.modWork (fun p => p.setCell r
    { p.cell r with own := ⟨0, s.tick, 0, 3, condBit 3, 0⟩, written := true })) s
  s.modLink (fun l => { l with wanted := now })

/-! ## Joining (R360) -/

/-- A node joins at its announced boundary. -/
def State.joinNode (s : State) (n : Nat) : State :=
  let p := s.peer n
  match p.joinAt with
  | none => s
  | some t =>
    if s.tick < t ∨ n = 0 ∨ p.state ≠ 2 then s
    else
      let s := s.setPeer n { p with state := 3, joinAt := none, align := 4, wasLost := false }
      let s := (s.note 0x34 (8192 * n) (code4 6)).raiseLink 0xFFFF n 1
      (s.nodeChanged n).subscribeCells

/-- A forager's own join, at the same boundary. -/
def State.joinSelf (s : State) : State :=
  let p := s.peer 0
  match p.joinAt with
  | some t => if t ≤ s.tick ∧ p.state = 2 then
      (s.setPeer 0 { p with state := 3, joinAt := none }).modLink (fun l => { l with joined := true }) else s
  | none => s

/-- STATUS arrives at the queen. -/
def State.onStatus (s : State) (n : Nat) (m : StatusMsg) : State :=
  let p := s.peer n
  if !s.queen || n = 0 || p.state < 2 then s
  else
    let align := (max m.xaStatus.toNat m.xbStatus.toNat) / 8192
    let s := s.setPeer n { p with
      lastRx := s.tick, rootWord := m.rootWord, align := align
      joinAt := if p.state = 2 then (match m.joinAt with | some t => some t | none => p.joinAt) else p.joinAt
      lostDue := p.lostDue || (p.state == 3 && align != 4) }
    if p.state = 3 ∧ align ≠ 4 then s.raiseLink 0xFFFF n 8 else s

/-- LEAVE arrives: the node, or the queen, is lost at the next boundary. -/
def State.onLeave (s : State) (n : Nat) : State :=
  let p := s.peer n
  if p.state < 2 then s else s.setPeer n { p with lostDue := true, lastRx := s.tick }

/-- LEAVE sent to a peer. -/
def State.sendLeave (s : State) (n reason : Nat) : State := s.sendPeer n 0x7F [BitVec.ofNat 8 reason, 0, 0, 0]

/-- Whether the path of a peer is silent (R361). -/
def State.peerSilent (s : State) (n : Nat) : Bool :=
  let p := s.peer n
  decide (2 ≤ p.state) && decide (p.lastRx + s.cfg P.LINK_LOSS_TICKS 0 < s.tick)

/-! ## Ports (R340, R361, Table 11-5) -/

/-- The PHY of a port reports link up. What its signal quality index reads is free (log entry 4). -/
def State.portUp (s : State) (i : Nat) (a : Amplitude) : State :=
  if !s.portActive i then s
  else
    let amp := match a with | .v1_0 => 1 | .v2_4 => 2
    let (v, s) := s.drawFree
    (s.modPort i (fun p => { p with up := true, amplitude := amp, sqiLow := v % 2 == 1 })).raiseLink (portSlot i)
      s.link.nodeId 6

/-- The PHY of a port is down: peers reached through it are lost at the next boundary. -/
def State.portDown (s : State) (i : Nat) : State :=
  if !(s.port i).up then s
  else
    let s := s.modPort i (fun p => { p with up := false, amplitude := 0, neighbour := false })
    let s := (s.link.peers.filter (fun e => e.2.port == i)).foldl (fun s e =>
      if 2 ≤ e.2.state then s.setPeer e.1 { e.2 with lostDue := true } else s.setPeer e.1 { serial := e.2.serial, wasLost := e.2.wasLost }) s
    s.raiseLink (portSlot i) s.link.nodeId 7

/-- LINK_PORT_STATUS (Table 11-5). -/
def State.portWord (s : State) (i : Nat) : Nat :=
  let p := s.port i
  let beyond := (s.link.peers.filter (fun e => e.1 != 0 && e.2.state == 3 && e.2.port == i)).length
  let q := s.peer 0
  let recent := match p.relayAt with | some t => decide (s.tick < t + 1024) | none => false
  8192 * (if q.port = i then q.align else 0) + 1024 * beyond + 256 * p.amplitude + flagBit p.up 7 +
    flagBit p.upstream 6 + flagBit recent 5 + flagBit p.refused 4 + flagBit p.conflict 3 + flagBit p.sqiLow 2

/-- LINK_STATUS reply data (R364). A module that is no queen describes its queen first, absent while it has none. -/
def State.linkStatus (s : State) : List Byte :=
  let rec_ (n : Nat) : List Byte :=
    let p := s.peer n
    [BitVec.ofNat 8 p.state, BitVec.ofNat 8 p.port, BitVec.ofNat 8 p.hops, BitVec.ofNat 8 p.align] ++
      leInt 2 p.theta ++ [0, 0] ++ p.serial
  let recs := if s.queen then (List.range 7).flatMap (fun i => rec_ (i + 1)) else rec_ 0 ++ List.replicate 144 0
  [BitVec.ofNat 8 (s.cfg P.LINK_ROLE 0), BitVec.ofNat 8 s.nodeNumber, 0, 0] ++ recs

end Sys2Proof.Machine
end

