-- ==== Sys2Proof/Machine/Recorder.lean ====
section
/-! DEFINITION. The recorder unit (R366 to R374): samples, summaries, the founding and rolling areas, the freeze. -/

namespace Sys2Proof.Machine

/-! ## Sampling (R367) -/

/-- Histogram `h` of a content: cell, LO and HI (Table 12-1). -/
def histOf (c : Content) (h : Nat) : Nat × F32 × F32 :=
  let b := blockOf c P.REC_HISTS 0
  (nullRef (field b (12 * h) 2), fieldF b (12 * h + 4), fieldF b (12 * h + 8))

/-- The bin of a usable number: binary32, step by step. -/
def histBin (lo hi x : F32) : Nat :=
  if flt x lo then 0
  else if fle hi x then 31
  else
    let s := fdiv (fOfNat 30) (fsub hi lo)
    min 30 (max 1 ((ffloor (fmul (fsub x lo) s) + 1).toNat))

/-- One sample taken into an accumulator at `dt` ticks after T_START. -/
def HistAcc.take (a : HistAcc) (bin dt : Nat) (v : Seen) : HistAcc :=
  let a := { a with worst := Nat.max a.worst v.quality }
  if v.usable then
    let a := { a with bins := Tab.put 0 a.bins bin (sat16 (Tab.get 0 a.bins bin + 1)) }
    if a.any then
      let a := if flt v.f a.min then { a with min := v.f, minAt := dt } else a
      if flt a.max v.f then { a with max := v.f, maxAt := dt } else a
    else { a with any := true, min := v.f, max := v.f, minAt := dt, maxAt := dt }
  else a

/-- One histogram sampled. A value that is no number has a bin the rule does not give: a free one (log entry 4). -/
def State.sampleHist (s : State) (h : Nat) : State :=
  let (ref, lo, hi) := histOf s.content h
  if ref = 0 then s
  else
    let v := s.see ref
    let bin := if v.usable && fNaN v.f then 1 + (Config.unstated 2 [h, v.f.toNat]).toNat % 30 else histBin lo hi v.f
    s.modWork (fun p =>
      let acc := p.recAcc
      let a := Tab.get {} acc.hists h
      { p with recAcc := { acc with hists := Tab.put {} acc.hists h (a.take bin (s.workTick - acc.tStart) v) } })

/-- The recorder's evaluation: a sample when one is due, and the causes that fall in this tick (R367, R368). -/
def State.evalRec (s : State) : State :=
  let t := s.workTick
  if (s.unit recSlot).st != .active || !s.work.recAcc.opened then s
  else
    let s :=
      if t % s.cfg P.REC_SAMPLE 0 = 0 then
        let reads := (((List.range 24).map (fun h => (histOf s.content h).1)).filter (· != 0)).map s.see
        let s := s.noteInputs recSlot (reads.any Seen.isSubst) (reads.any (fun v => !v.usable))
        ((List.range 24).foldl State.sampleHist s).modWork (fun p =>
          { p with recAcc := { p.recAcc with samples := p.recAcc.samples + 1 } })
      else s
    let interval := (t + 1) % (s.cfg P.REC_INTERVAL 0 * 61440) == 0
    let batch (n : Nat) : Nat := flagBit ((s.work.prog n).batchAt == some t) n
    let causes := flagBit interval 4 + batch 0 + batch 1 + batch 2 + batch 3
    s.modWork (fun p => { p with recAcc := { p.recAcc with causes := BitVec.ofNat 8 causes } })

/-- A new interval that begins at tick `t` with empty accumulators. -/
def State.openInterval (s : State) (t : Nat) : State :=
  s.modWork (fun p => { p with recAcc := { opened := true, tStart := t } })

/-- The recorder does not run: its accumulators are empty. -/
def State.closeInterval (s : State) : State := s.modWork (fun p => { p with recAcc := {} })

/-! ## Summaries (R368, R369) -/

/-- A histogram block (Table 12-3). -/
def histBytes (ref : Nat) (a : HistAcc) : List Byte :=
  le 2 ref ++ le 2 (a.worst + flagBit (!a.any) 3) ++ le 4 a.min.toNat ++ le 4 a.max.toNat ++ le 4 a.minAt ++ le 4 a.maxAt ++
    ((List.range 32).map (fun i => le 2 (Tab.get 0 a.bins i))).flatten

/-- HIST_COUNT of a content. -/
def histCount (c : Content) : Nat :=
  ((List.range 24).filter (fun h => (histOf c h).1 != 0)).foldl (fun a h => max a (h + 1)) 0

/-- A summary record (Table 12-2) of the interval that ends with `tEnd`. -/
def summaryBytes (c : Content) (a : RecAcc) (causes : BitVec 8) (stale : Bool) (tEnd : Nat) (wall : Int) : List Byte :=
  let k := histCount c
  let block (h : Nat) : List Byte :=
    if h < k then histBytes (histOf c h).1 (Tab.get {} a.hists h) else List.replicate 84 0
  withCrc ([1, BitVec.ofNat 8 k, causes,
      BitVec.ofNat 8 (flagBit a.timeStep 0 + flagBit a.timeBack 1 + flagBit stale 2)] ++
    le 4 a.samples ++ le 6 a.tStart ++ le 6 tEnd ++ leInt 8 wall ++ ((List.range 24).map block).flatten)

/-- A freeze ends; by expiry it raises RECORDER (R371). -/
def State.endFreeze (s : State) (expiry : Bool) : State :=
  let s' := { s with recorder := { s.recorder with frozen := false } }
  if expiry ∧ s.recorder.frozen then s'.raise causeRecorder 0x03D4 1 0 else s'

/-- A freeze that has expired. -/
def State.freezeExpiry (s : State) : State :=
  if s.recorder.frozen ∧ (s.recorder.frozenAt + 614400 ≤ s.tick ∨ 64 ≤ s.recorder.queue.length) then s.endFreeze true else s

/-- The cut (R368): the summary of the open interval, which ends with `tEnd`; a new one begins at `tEnd` + 1. `c` is the
content under which the interval ran. -/
def State.cutSummary (s : State) (c : Content) (tEnd : Nat) (more : BitVec 8) : State :=
  let acc := s.work.recAcc
  let causes := acc.causes ||| more
  if causes = 0#8 ∨ !acc.opened ∨ tEnd < acc.tStart then s
  else
    let r := s.recorder
    let b := summaryBytes c acc causes s.wallStale tEnd ((tEnd : Int) + s.wallDiff)
    let refs := if scalarOf c P.REC_RESET_EXTREMES 0 = 1
      then ((List.range 24).map (fun h => (histOf c h).1)).filter (· != 0) else []
    let x : Summary := { seq := r.nextSeq, restart := r.restart, bytes := b }
    let r' : RecStore := { r with
      nextSeq := r.nextSeq + 1
      restart := false
      queue := r.queue ++ [x]
      extremesDue := refs }
    let s : State := { s with recorder := r' }
    (s.openInterval (tEnd + 1)).freezeExpiry

/-- The extremes that the last cut resets, at boundary `t` (R368). -/
def State.recExtremes (s : State) (t : Nat) : State :=
  let due := s.recorder.extremesDue
  if due.isEmpty then s
  else
    { (s.modWork (fun p => due.foldl (fun p ref => p.setCell ref ((p.cell ref).resetExtremes t)) p)) with
      recorder := { s.recorder with extremesDue := [] } }

/-! ## Areas (R370, R373, R374) -/

/-- Capacity of the rolling and of the founding area. -/
def RecStore.rollCap (r : RecStore) : Nat := 8192 - 32 * r.rollLost
def RecStore.foundCap (r : RecStore) : Nat := 256 - 32 * r.foundLost

/-- A REC_READ of the rolling area that has not yet returned an overwritten entry fails (R372). -/
def State.overwritten (s : State) (seq : Nat) : State :=
  let hit (j : Job) : Bool :=
    j.opcode == 0x0602#16 && !j.state.ended && field j.args 0 1 == 0 && j.out.any (fun p => field p 0 4 == seq)
  (s.jobs.filter hit).foldl (fun s j => s.endJob j.handle .failed stBusy 6 []) s

/-- A health record of 32 bytes. -/
def healthRecord (t area reason sector seq : Nat) : List Byte :=
  withCrc (le 6 t ++ [BitVec.ofNat 8 area, BitVec.ofNat 8 reason] ++ le 2 sector ++ le 4 seq ++ List.replicate 14 0)

/-- A sector is retired (R374): a spare takes its place or the area shrinks, and a health record is written if that
works. `reason`: 1 program, 2 erase, 3 read. -/
def State.retireSector (s : State) (area reason sector seq : Nat) (healthOk : Bool) : State :=
  let r := s.recorder
  let r := { r with
    retired := sat16 (r.retired + 1)
    unrecorded := r.unrecorded || !healthOk
    healthRecs := if healthOk then r.healthRecs ++ [healthRecord s.tick area reason sector seq] else r.healthRecs }
  let r :=
    if area = 1 then
      if r.foundSpares = 0 then { r with foundLost := min 8 (r.foundLost + 1) }
      else { r with foundSpares := r.foundSpares - 1 }
    else if r.rollSpares = 0 then { r with rollLost := min 256 (r.rollLost + 1) }
    else { r with rollSpares := r.rollSpares - 1 }
  let s : State := { s with recorder := r }
  if healthOk then s else s.raise causeRecorder 0x03D4 3 sector

/-- A sector has failed (R374, Table 12-4). Which one it is, is open (log entry 4). -/
def State.sectorFails (s : State) : Nat × State :=
  let (v, s) := s.drawFree
  let sector := v % 276
  let r := s.recorder
  let s : State := { s with recorder := { r with
    failures := min 255 (r.failures + 1)
    lastSector := sector
    anyFailure := true } }
  (sector, s.raise causeRecorder 0x03D4 2 sector)

/-- A sector fails while a summary is written, and is retired. -/
def State.sectorFailure (s : State) (area seq : Nat) (healthOk : Bool) : State :=
  let r := s.sectorFails
  r.2.retireSector area 1 r.1 seq healthOk

/-- A read finds a summary in flash unreadable. -/
def State.summaryBad (s : State) (founding : Bool) (seq : Nat) : State :=
  let l := if founding then s.recorder.founding else s.recorder.rolling
  if l.any (fun x => x.seq == seq && x.unreadable.isNone) then
    let r := s.sectorFails
    let mark (x : Summary) : Summary := if x.seq = seq then { x with unreadable := some r.1 } else x
    let rec_ := r.2.recorder
    { r.2 with recorder :=
        if founding then { rec_ with founding := rec_.founding.map mark } else { rec_ with rolling := rec_.rolling.map mark } }
  else s

/-- A summary held in the REC region is lost: a gap in SEQ. -/
def State.heldLost (s : State) (seq : Nat) : State :=
  if s.recorder.queue.any (fun x => x.seq == seq) then
    { s with recorder := { s.recorder with queue := s.recorder.queue.filter (fun x => x.seq != seq) } }.raise
      causeRecorder 0x03D4 4 0
  else s

/-- The rolling area reaches a summary that is overwritten: a sector found bad by a read is retired now. -/
def State.reachSector (healthOk : Bool) (s : State) (x : Summary) : State :=
  let s := s.overwritten x.seq
  match x.unreadable with
  | none => s
  | some sector =>
    let clean (y : Summary) : Summary := if y.unreadable = some sector then { y with unreadable := none } else y
    s.retireSector 0 3 sector x.seq healthOk |> fun s =>
      { s with recorder := { s.recorder with rolling := s.recorder.rolling.map clean } }

/-- The first cut summary is written to flash (R370), or its sector fails and it waits for the next one. -/
def State.writeSummary (s : State) (programOk healthOk : Bool) : State :=
  let r := s.recorder
  match r.queue with
  | [] => s
  | x :: rest =>
    if r.frozen then s
    else if !programOk then s.sectorFailure (if x.seq < 256 then 1 else 0) x.seq healthOk
    else
      let r := { r with queue := rest }
      let r := if x.seq < 256 ∧ r.founding.length < r.foundCap then { r with founding := r.founding ++ [x] } else r
      if x.foundOnly then { s with recorder := r }
      else
        let all := r.rolling ++ [x]
        let drop := all.length - r.rollCap
        let gone := all.take drop
        let r := { r with rolling := all.drop drop, rollFloor := gone.foldl (fun f x => max f (x.seq + 1)) r.rollFloor }
        gone.foldl (State.reachSector healthOk) { s with recorder := r }

/-- A clear takes effect at boundary `e` (R373). -/
def State.clearRecorder (s : State) (e : Nat) : State :=
  let r := s.recorder
  let keep := (r.queue.filter (fun x => decide (x.seq < 256))).map (fun x => { x with foundOnly := true })
  let r' : RecStore := { r with
    rolling := []
    queue := keep
    frozen := false
    clearing := true
    rollFloor := r.nextSeq }
  let drop (j : Job) : Job :=
    if j.opcode == 0x0602#16 && field j.args 0 1 == 0 && !j.state.ended then { j with out := [] } else j
  let s : State := { s with recorder := r', jobs := s.jobs.map drop }
  if s.work.recAcc.opened then s.openInterval e else s

/-! ## Reading (R372, Table 12-5) -/

/-- One entry of a read: wrapper and summary. -/
def entryBytes (area floor : Nat) (prev : Option Nat) (x : Summary) : List Byte :=
  let gap := decide (floor < x.seq) && prev != some (x.seq - 1)
  le 4 x.seq ++ [BitVec.ofNat 8 area, BitVec.ofNat 8 (flagBit gap 0 + flagBit x.unreadable.isSome 1 + flagBit x.restart 2), 0, 0] ++
    (if x.unreadable.isSome then List.replicate x.bytes.length 0 else x.bytes)

/-- Entries with the SEQ that stands before each. -/
def entriesOf (area floor : Nat) : Option Nat → List Summary → List (Nat × List Byte)
  | _, [] => []
  | prev, x :: t => (x.seq, entryBytes area floor prev x) :: entriesOf area floor (some x.seq) t

/-- The parts of a REC_READ: area, first and count. -/
def RecStore.readParts (r : RecStore) (area first count : Nat) : List (List Byte) :=
  if area = 2 then
    (chunks 4000 70 (((r.healthRecs.drop first).take count).flatten))
  else
    let all := if area = 1 then entriesOf 1 0 none r.founding else entriesOf 0 r.rollFloor none r.rolling
    (all.filter (fun e => decide (first ≤ e.1 ∧ e.1 < first + count))).map (·.2)

/-- REC_HEALTH (Table 12-4). -/
def RecStore.health (r : RecStore) : Nat :=
  r.lastSector + 65536 * r.failures + flagBit r.unrecorded 30 + flagBit r.anyFailure 31

/-- REC_STATUS data (Table 12-5). -/
def State.recStatus (s : State) : List Byte :=
  let r := s.recorder
  let flags := flagBit r.frozen 0 + flagBit r.unrecorded 1 + flagBit (decide (0 < r.rollLost)) 2 +
    flagBit (decide (0 < r.foundLost)) 3 + flagBit r.clearing 4
  let oldest := match r.rolling with | [] => 0xFFFFFFFF | x :: _ => x.seq
  [BitVec.ofNat 8 (s.view.unit recSlot).st.code, BitVec.ofNat 8 (if r.frozen then min 64 r.queue.length else 0)] ++
    le 2 flags ++ le 4 (if r.frozen then r.frozenAt + 614400 - s.tick else 0) ++ le 4 r.nextSeq ++ le 4 oldest ++
    le 2 r.rolling.length ++ le 2 r.founding.length ++ le 2 r.retired ++ le 2 (r.foundSpares + r.rollSpares) ++
    le 4 r.health ++ le 4 0

end Sys2Proof.Machine
end

