-- ==== Sys2Proof/Machine/Validate.lean ====
section
/-! DEFINITION. The checks of a commit (Table 12-8): reason, and the first fault found. The spec gives no order of the
checks: part, compatibility level, tree, writers, faces, cycles, regions, tick budget, then units in ascending slot
and the module's own parameters (log entry 20). -/

namespace Sys2Proof.Machine

/-- The first fault found (R379): reason, handle, parameter ID and instance, 0xFFFF where a field does not apply. -/
structure CfgFault where
  reason : Nat
  handle : Nat := 0xFFFF
  param  : Nat := 0xFFFF
  inst   : Nat := 0xFFFF
  deriving DecidableEq, Repr

/-- A fault when `bad`. -/
def faultIf (bad : Bool) (reason handle param inst : Nat) : Option CfgFault :=
  if bad then some ⟨reason, handle, param, inst⟩ else none

/-- The first fault of a list. -/
def firstFault (l : List (Option CfgFault)) : Option CfgFault := l.findSome? id

/-! ## Types of cells -/

/-- TYPE of a cell of this node under a content; none for a cell of another node, whose type is not known. -/
def cellType (c : Content) (writers : List (Nat × Nat)) (ref : Nat) : Option Nat :=
  if 8192 ≤ ref then none
  else
    match writers.find? (fun w => w.1 == ref) with
    | none => some 0
    | some (_, slot) =>
      let n := slotInst slot
      let mode := scalarOf c P.CH_MODE n
      match slotKind slot with
      | 0x01 => some (scalarOf c P.CELL_HOST_TYPE ref)
      | 0x03 =>
        if ref = slot then some (if mode = 1 ∨ mode = 3 ∨ (mode = 2 ∧ scalarOf c P.COUNT_FUNC n = 0) then 2 else 0)
        else some (if mode = 1 ∨ mode = 2 then 2 else 0)
      | 0x09 => some (if ref = scalarOf c P.PRG_STEP_CELL n then 2 else 0)
      | 0x0A => some 2
      | 0x0D => some (if ref = scalarOf c P.BIN_OUT_BASE n + 6 ∨ ref = scalarOf c P.BIN_OUT_BASE n + 7 then 2 else 0)
      | 0x10 => some (if ref = 153 then 3 else 0)
      | _ => some 0

/-! ## Part and tree (R5, R19, R26, R192) -/

/-- R5, R19: nothing on banks B8 to B15 of an SG1064. -/
def checkPart (c : Content) (slot : Nat) : Option CfgFault :=
  let n := slotInst slot
  match slotKind slot with
  | 0x03 => faultIf (decide (64 ≤ n)) 0x0E slot 0xFFFF 0xFFFF
  | 0x07 =>
    firstFault
      [faultIf (decide (32 ≤ n)) 0x0E slot 0xFFFF 0xFFFF,
       faultIf (decide (64 ≤ scalarOf c P.PROBE_CHANNEL n)) 0x0E slot P.PROBE_CHANNEL n]
  | 0x08 =>
    let ch := scalarOf c P.COMB_CHANNEL n
    faultIf (decide (64 ≤ ch ∧ ch < 128)) 0x0E slot P.COMB_CHANNEL n
  | _ => none

/-- Whether following parents from a slot reaches the root hive within `k` steps. -/
def reachesRoot (c : Content) : Nat → Nat → Bool
  | 0, _ => false
  | k + 1, slot =>
    let p := (headerOf c slot).parent
    slot == 0 || (isHive p && configured c p && reachesRoot c k p)

/-- R26: one parent hive, no cycle, at most 64 direct members but for the root hive. -/
def checkTree (c : Content) (slot : Nat) : Option CfgFault :=
  firstFault
    [faultIf (slot != 0 && !reachesRoot c 258 slot) 0x01 slot P.UNIT_HEADER slot,
     faultIf (slotKind slot == 0x02 && decide (64 < (membersOf c slot).length)) 0x01 slot P.UNIT_HEADER slot]

/-- The hive that is the parent of a unit, if it is of face kind `face`. -/
def faceHiveOf (c : Content) (face slot : Nat) : Option Nat :=
  let p := (headerOf c slot).parent
  if slotKind p = 0x02 ∧ scalarOf c P.HIVE_FACE_KIND (hiveNumber p) = face then some p else none

/-- R192: a 3- or 4-wire element is a hive of face kind 0x03 of its members, all REQUIRED, all RES in one bank, its face
bound to the force channel and to no other. A channel that another force names and that names no sense member is no force,
whatever its own RES_WIRING. -/
def checkElement (c : Content) (slot : Nat) : Option CfgFault :=
  let n := slotInst slot
  if slotKind slot ≠ 0x03 ∨ scalarOf c P.CH_MODE n ≠ 9 then none
  else
    let namedBy := ((bankChannels (n / 8)).filter (fun f =>
      f != n && scalarOf c P.CH_MODE f == 9 && configured c (chanSlot f) && (resMembers c f).contains n))
    let members := resMembers c n
    firstFault
      [faultIf (decide (1 < namedBy.length)) 0x01 slot 0xFFFF 0xFFFF,
       if scalarOf c P.RES_WIRING n = 2 ∨ (!namedBy.isEmpty ∧ members.length ≤ 1) then none
       else
         match faceHiveOf c 0x03 slot with
         | none => some ⟨0x01, slot, P.RES_WIRING, n⟩
         | some h =>
           let slots := members.map chanSlot
           let wanted := if scalarOf c P.RES_WIRING n = 3 then 2 else 3
           let bound := bindingsOf c (hiveNumber h)
           let ok := slots.length == wanted && decide (slots.Nodup) &&
             slots.all (fun u => configured c u && (headerOf c u).parent == h && (headerOf c u).required &&
               scalarOf c P.CH_MODE (slotInst u) == 9) &&
             (membersOf c h).all slots.contains && !bound.isEmpty && bound.all (fun b => b.2.1 == slot)
           faultIf (!ok) 0x01 slot P.RES_WIRING n]

/-! ## Faces (R27, Table 15-5) -/

/-- Kind a parameter row belongs to; 0 for module, hive and cell rows. -/
def paramKind (id : Nat) : Nat :=
  match paramInfo id with
  | none => 0
  | some r =>
    match r.inst with
    | .channel => 0x03
    | .evenChannel => 0x03
    | .loop => 0x04
    | .coef => 0x04
    | .profile => 0x05
    | .churn => 0x06
    | .probe => 0x07
    | .line => 0x08
    | .program => 0x09
    | .chain => 0x0A
    | .observer => 0x0B
    | .fan => 0x0C
    | .fan4 => 0x0C
    | .bin => 0x0D
    | .single => if 0x0C00 ≤ id ∧ id ≤ 0x0C06 then 0x0E else 0
    | _ => 0

/-- Kinds with an operator mode (R21, R273). -/
def hasMode (kind : Nat) : Bool := kind == 0x04 || kind == 0x05 || kind == 0x09 || kind == 0x0C

/-- The kind whose items a unit shows: the face kind of a hive. -/
def faceOf (c : Content) (slot : Nat) : Nat :=
  if slotKind slot = 0x02 then scalarOf c P.HIVE_FACE_KIND (hiveNumber slot)
  else if slot = 0 then 0x02 else slotKind slot

/-- The type of an item of a kind; none if the kind has no such item. -/
def itemType (kind item : Nat) : Option (Option ParamTy) :=
  if item = modeItem then (if hasMode kind then some none else none)
  else if paramKind item ≠ kind ∨ kind = 0 then none
  else (paramInfo item).map (fun r => some r.ty)

/-- Face bindings: no item twice, members direct, items of one type. -/
def checkFace (c : Content) (slot : Nat) : Option CfgFault :=
  if slotKind slot ≠ 0x02 then none
  else
    let h := hiveNumber slot
    let b := blockOf c P.HIVE_FACE_BINDINGS h
    let l := bindingsOf c h
    let face := faceOf c slot
    let bad := decide (32 < field b 0 1) || !decide ((l.map (·.1)).Nodup) ||
      l.any (fun e => !((membersOf c slot).contains e.2.1) || (itemType face e.1).isNone ||
        decide (itemType face e.1 ≠ itemType (faceOf c e.2.1) e.2.2))
    faultIf bad 0x04 slot P.HIVE_FACE_BINDINGS h

/-- A binding that Table 08-5 requires. -/
def bindsTo (c : Content) (h item member mitem : Nat) : Bool := boundTo c h item == some (member, mitem)

/-- Ascending subranges cover lo to hi without a gap, from the reach so far. -/
def covers (hi : F32) : F32 → List (F32 × F32) → Bool
  | reach, [] => fle hi reach
  | reach, (a, b) :: t => fle a reach && covers hi (fmax reach b) t

/-- Subranges in ascending order of their lower end. -/
def insertRange (r : F32 × F32) : List (F32 × F32) → List (F32 × F32)
  | [] => [r]
  | x :: t => if flt r.1 x.1 then r :: x :: t else x :: insertRange r t

/-- Loop hives (R279, R282, Table 08-5). -/
def checkLoopHive (c : Content) (slot : Nat) : Option CfgFault :=
  let h := hiveNumber slot
  if slotKind slot ≠ 0x02 ∨ faceOf c slot ≠ 0x04 then none
  else
    let members := membersOf c slot
    let loops := memberLoops c slot
    let chans := members.filter (fun u => slotKind u == 0x03)
    let type := scalarOf c P.LHIVE_TYPE h
    let main := loops.headD 0
    let m := slotInst main
    let bad (b : Bool) (reason param inst : Nat) : Option CfgFault := faultIf b reason slot param inst
    let face (setItem setMember outMember modeMember : Nat) : Option CfgFault :=
      bad (!(bindsTo c h P.SP setMember setItem && bindsTo c h P.OUT_CELL outMember P.OUT_CELL &&
        bindsTo c h modeItem modeMember modeItem)) 0x04 P.HIVE_FACE_BINDINGS h
    let single := bad (loops.length != 1) 0x01 P.LHIVE_TYPE h
    firstFault (
      [bad (members.any (fun u => slotKind u != 0x03 && slotKind u != 0x04)) 0x01 0xFFFF 0xFFFF,
       bad (loops.any (fun u => !(headerOf c u).required)) 0x01 0xFFFF 0xFFFF,
       bad (type != 3 && !chans.isEmpty) 0x01 P.LHIVE_TYPE h,
       bad ((type == 4) != (scalarOf c P.LHIVE_OUT_CELL h != 0)) 0x0A P.LHIVE_OUT_CELL h] ++
      (match type with
       | 0 => [single, face P.SP main main main]
       | 1 =>
         match cascadePair c slot with
         | none => [some ⟨0x0A, slot, P.LHIVE_TYPE, h⟩]
         | some (outerSlot, innerSlot) =>
           let outer := slotInst outerSlot
           let inner := slotInst innerSlot
           [bad (loops.length != 2) 0x01 P.LHIVE_TYPE h,
            bad (scalarOf c P.SP_MODE inner != 1) 0x0A P.SP_MODE inner,
            bad (decide (scalarOf c P.LOOP_K outer < scalarOf c P.LOOP_K inner)) 0x0A P.LOOP_K outer,
            face P.SP outerSlot innerSlot outerSlot]
       | 2 => [single, bad (scalarOf c P.SP_MODE m != 2) 0x0A P.SP_MODE m, face P.RATIO main main main]
       | 3 =>
         let lo := BitVec.ofNat 32 (scalarOf c P.OUT_LO m)
         let hi := BitVec.ofNat 32 (scalarOf c P.OUT_HI m)
         let range (u : Nat) : F32 × F32 :=
           let a := BitVec.ofNat 32 (scalarOf c P.RETX_SRC_LO (slotInst u))
           let b := BitVec.ofNat 32 (scalarOf c P.RETX_SRC_HI (slotInst u))
           (fmin a b, fmax a b)
         let ranges := (chans.map range).foldl (fun l r => insertRange r l) []
         [single, bad (decide (chans.length < 2 ∨ 4 < chans.length)) 0x01 P.LHIVE_TYPE h,
          bad (chans.any (fun u =>
            let mode := scalarOf c P.CH_MODE (slotInst u)
            !(mode == 4 || mode == 7 || mode == 8) ||
              scalarOf c P.OUT_SRC (slotInst u) != scalarOf c P.OUT_CELL m)) 0x0A P.LHIVE_TYPE h,
          bad (!(match ranges with | [] => false | r :: _ => fle r.1 lo && covers hi lo ranges)) 0x0A P.LHIVE_TYPE h,
          face P.SP main main main]
       | _ =>
         [bad (decide (loops.length < 2 ∨ 4 < loops.length)) 0x01 P.LHIVE_TYPE h,
          bad (loops.any (fun u =>
            scalarOf c P.LOOP_K (slotInst u) != scalarOf c P.LOOP_K m ||
              scalarOf c P.LOOP_PHASE (slotInst u) != scalarOf c P.LOOP_PHASE m)) 0x0A P.LOOP_PHASE m,
          bad (!(match boundTo c h modeItem with | some (u, i) => loops.contains u && i == modeItem | none => false) ||
            (boundTo c h P.SP).isSome || (boundTo c h P.OUT_CELL).isSome) 0x04 P.HIVE_FACE_BINDINGS h]))

/-! ## Writers (R32, R251, R353, R474) -/

/-- The reason for a cell of a unit that lies outside 256–8191 or has a second writer: a block named by its base
carries its chapter's reason (R474, R251). -/
def writerReason (c : Content) (slot ref : Nat) : Nat :=
  let n := slotInst slot
  let inBlock (base k : Nat) : Bool := decide (base ≤ ref ∧ ref < base + k)
  match slotKind slot with
  | 0x08 => 0x09
  | 0x09 => if inBlock (scalarOf c P.PRG_SP_BASE n) 8 then 0x0B else 0x02
  | 0x0A => if inBlock (scalarOf c P.CHAIN_RUN_BASE n) (scalarOf c P.CHAIN_COUNT n) then 0x0B else 0x02
  | 0x0B => if inBlock (scalarOf c P.OBS_SEG_BASE n) (scalarOf c P.OBS_SEGMENTS n) then 0x0B else 0x02
  | 0x0D => 0x0B
  | _ => 0x02

/-- One writer a cell, and every output cell of a unit within 256–8191. Two outputs of one unit on one cell count as two
writers (DESIGN CHOICE, log entry 34). -/
def checkWriters (c : Content) (writers : List (Nat × Nat)) (slot : Nat) : Option CfgFault :=
  let outs := unitWrites c slot
  let clash (r : Nat) : Bool :=
    writers.any (fun w => w.1 == r && w.2 != slot) || decide (1 < (outs.filter (· == r)).length)
  let outside (r : Nat) : Bool := decide (8191 < r) || (decide (r < 256) && r != slot && slotKind slot != 0x10)
  match outs.find? (fun r => clash r || outside r) with
  | none => none
  | some r => some ⟨writerReason c slot r, slot, 0xFFFF, 0xFFFF⟩

/-- Every enabled input has a writer; another node's cell only in a queen's generation (R32). -/
def checkReads (c : Content) (writers : List (Nat × Nat)) (slot : Nat) : Option CfgFault :=
  let refs := unitReads c slot ++ markedReads c slot
  let remoteOk := scalarOf c P.LINK_ROLE 0 == 1 && slotKind slot != 0x0E
  faultIf (refs.any (fun r =>
    if 8192 ≤ r then !remoteOk else !(writers.any (fun w => w.1 == r)))) 0x02 slot 0xFFFF 0xFFFF

/-! ## Regions and the tick budget (R108, R452, R476) -/

/-- Nodes of the lines of a bin. -/
def binNodeCount (c : Content) (n : Nat) : Nat :=
  ((binLines c n).map (fun e => (mapOf (blockOf c P.COMB_NODEMAP e.2)).length)).sum

/-- Histograms in use. -/
def histsUsed (c : Content) : Nat := (histCells c).length

/-- SNAPSHOT block of a unit (Table 15-6). -/
def snapshotSize (c : Content) (slot : Nat) : Nat :=
  let n := slotInst slot
  match slotKind slot with
  | 0x03 => 96
  | 0x04 => 496
  | 0x05 => 96
  | 0x06 => 32 + 4 * scalarOf c P.CHURN_BINS n
  | 0x07 => 48
  | 0x08 => 112
  | 0x09 => 112
  | 0x0A => 144
  | 0x0B => 1104
  | 0x0C => 128
  | 0x0D => 164 + 100 * binNodeCount c n
  | 0x0E => 64 + 84 * histsUsed c
  | 0x10 => 32
  | _ => 16

/-- Bytes a unit counts for in the UNIT region (R476). -/
def unitBytes (c : Content) (slot : Nat) : Nat :=
  match slotKind slot with
  | 0x06 => 32
  | 0x0B => 64
  | _ => snapshotSize c slot

/-- Pages a region needs for a content (Table 03-11). -/
def regionNeed (c : Content) (r : Nat) : Nat :=
  let slots := configuredSlots c
  let count (k : Nat) : Nat := (slots.filter (fun u => slotKind u == k)).length
  match r with
  | 1 => (2 * (slots.map (unitBytes c)).sum + 4095) / 4096
  | 2 => 8 * count 0x06
  | 3 => 2 * count 0x0B
  | 4 => 32 + 2 * ((List.range 16).filter (fun b => (bankChannels b).any (fun ch => configured c (chanSlot ch)))).length
  | 7 =>
    let b := blockOf c P.LINK_NODES 0
    32 + 4 * ((List.range 7).filter (fun i => (bytesAt b (16 * i) 16).any (· != 0))).length
  | _ => (regionBounds r).2.1

/-- Regions by name (Table 03-3) as R108 checks them; `retired` pages are out of the pool, `held` are the pages that jobs
hold in a region. -/
def checkRegions (c : Content) (retired : Nat) (held : Nat → Nat) : Option CfgFault :=
  let pages (r : Nat) : Nat := scalarOf c P.REGION_PAGES r
  let total := ((List.range 12).map pages).sum
  firstFault (faultIf (decide (2048 < total + retired + 32)) 0x06 0xFFFF P.REGION_PAGES 0 ::
    (List.range 12).map (fun r =>
      faultIf (decide (pages r < (regionBounds r).1) || (decide (r ∈ [1, 2, 3, 4, 7]) && decide (pages r < regionNeed c r)) ||
        decide (pages r < held r)) 0x06 0xFFFF P.REGION_PAGES r))

/-- The work of a unit in the budget: period 2^k and phase; k = 0 stands for every tick. -/
structure Work where
  slot  : Nat
  k     : Nat
  phase : Nat
  cost  : Nat
  deriving DecidableEq, Repr

/-- Cost and period of a unit (Table 15-6); comb lines and observers without a power-of-two step are due in every
tick. -/
def workOf (c : Content) (slot : Nat) : Option Work :=
  let n := slotInst slot
  let one (id : Nat) : Nat := scalarOf c id n
  match slotKind slot with
  | 0x02 =>
    if faceOf c slot = 0x04 ∧ scalarOf c P.LHIVE_TYPE (hiveNumber slot) = 4 then
      match memberLoops c slot with
      | u :: _ => some ⟨slot, scalarOf c P.LOOP_K (slotInst u), scalarOf c P.LOOP_PHASE (slotInst u), 24⟩
      | [] => none
    else none
  | 0x03 =>
    let force := one P.CH_MODE == 9 && (resForce c n == n)
    some ⟨slot, Nat.log2 (chanPeriod c n), 0, 24 + 8 * (chanConvs c n - 1) + (if force then 40 else 0)⟩
  | 0x04 => some ⟨slot, one P.LOOP_K, one P.LOOP_PHASE, 32⟩
  | 0x05 => some ⟨slot, one P.PROF_K, one P.PROF_PHASE, 48⟩
  | 0x06 => some ⟨slot, scalarOf c P.LOOP_K (churnHost c n), scalarOf c P.LOOP_PHASE (churnHost c n), 40⟩
  | 0x07 => some ⟨slot, one P.PROBE_PERIOD, 64 * one P.PROBE_SLOT + 41, 320⟩
  | 0x08 => some ⟨slot, 0, 0, 96 + 12 * (mapOf (blockOf c P.COMB_NODEMAP n)).length⟩
  | 0x09 => some ⟨slot, 6, one P.PRG_PHASE, 64⟩
  | 0x0A => some ⟨slot, 6, one P.CHAIN_PHASE, 32 + 12 * one P.CHAIN_COUNT⟩
  | 0x0B =>
    let step := one P.OBS_STEP
    let k := Nat.log2 step
    let cost := 480 + 36 * one P.OBS_SEGMENTS + 160 * (zonesOf (blockOf c P.OBS_ZONES n)).length
    some (if 2 ^ k = step then ⟨slot, k, one P.OBS_PHASE, cost⟩ else ⟨slot, 0, 0, cost⟩)
  | 0x0C => some ⟨slot, 6, one P.FAN_PHASE, 300⟩
  | 0x0D => some ⟨slot, 10, one P.BIN_PHASE, 64 + 12 * binNodeCount c n⟩
  | 0x0E => some ⟨slot, Nat.log2 (scalarOf c P.REC_SAMPLE 0), 0, 16 + 16 * histsUsed c⟩
  | 0x10 => some ⟨slot, 9, 0, 200⟩
  | _ => none

/-- The greatest sum of costs in any tick: the units of `ws` match the residue reached at level `j`; those of greater
period go to the half that their phase names. -/
def maxLoad : Nat → Nat → Nat → List Work → Nat
  | 0, _, acc, ws => acc + (ws.map (·.cost)).sum
  | f + 1, j, acc, ws =>
    let acc' := acc + ((ws.filter (fun w => decide (w.k ≤ j))).map (·.cost)).sum
    let later := ws.filter (fun w => decide (j < w.k))
    if later.isEmpty then acc'
    else
      let half (i : Nat) : List Work := later.filter (fun w => w.phase / 2 ^ j % 2 == i)
      Nat.max (maxLoad f (j + 1) acc' (half 0)) (maxLoad f (j + 1) acc' (half 1))

/-- The works of an order up to and including the last loop unit with k = 0. -/
def headWorks (c : Content) (order : List Nat) : List Work :=
  let tail := (order.reverse.dropWhile (fun u => !(slotKind u == 0x04 && scalarOf c P.LOOP_K (slotInst u) == 0)))
  tail.reverse.filterMap (workOf c)

/-- The tick budget (R96, R452). -/
def checkBudget (c : Content) (order : List Nat) : Option CfgFault :=
  faultIf (decide (20800 < maxLoad 17 0 1600 (order.filterMap (workOf c))) ||
    (let h := headWorks c order
     !h.isEmpty && decide (9907 < maxLoad 17 0 1600 h))) 0x05 0xFFFF 0xFFFF 0xFFFF

end Sys2Proof.Machine
end

