-- ==== Sys2Proof/Machine/ValidateKinds.lean ====
section
/-! DEFINITION. The checks of a commit that concern one unit, kind by kind (Table 12-8, R474), and the whole check. -/

namespace Sys2Proof.Machine

/-- A content with its table of writers. -/
structure Checked where
  c : Content
  writers : List (Nat × Nat)

/-- A scalar of a content as binary32. -/
def Checked.f (k : Checked) (id inst : Nat) : F32 := BitVec.ofNat 32 (scalarOf k.c id inst)
/-- A scalar of a content. -/
def Checked.n (k : Checked) (id inst : Nat) : Nat := scalarOf k.c id inst
/-- The cell is known to be of a TYPE. -/
def Checked.isType (k : Checked) (type ref : Nat) : Bool := ref != 0 && cellType k.c k.writers ref == some type
/-- The cell is known not to be of a TYPE. -/
def Checked.notType (k : Checked) (type ref : Nat) : Bool :=
  ref != 0 && (match cellType k.c k.writers ref with | some t => t != type | none => false)

/-- Limits of a retransmitted value (R202). -/
def retxLimits (k : Checked) (ch : Nat) : F32 × F32 :=
  match k.n P.CH_MODE ch with
  | 7 => if k.n P.AO_NE43 ch = 1 then (fRat 38 10, fRat 205 10) else (0, fRat 24 1)
  | 8 => (0, fRat 105 10)
  | _ => if k.n P.DP_FUNC ch = 0 then (0, fRat 100 1) else (0, fRat 100000 1)

/-- Highest SAFE_STATE of a mode (R136, Table 05-14, R239); modes without one take any value. -/
def safeStates (mode : Nat) : Nat :=
  match mode with
  | 3 => 2 | 4 => 2 | 7 => 4 | 8 => 2 | 11 => 1 | _ => 255

/-- Channel units: reason CHANNEL (R129, R166, R181, R186, R202, R206, R209, R474). -/
def checkChannel (k : Checked) (ch : Nat) : Option CfgFault :=
  let mode := k.n P.CH_MODE ch
  let slot := chanSlot ch
  let bad (b : Bool) (param : Nat) : Option CfgFault := faultIf b 0x07 slot param ch
  let retx := mode == 4 || mode == 7 || mode == 8
  let lim := retxLimits k ch
  let inside (x : F32) : Bool := fle lim.1 x && fle x lim.2
  let safe := k.n P.SAFE_STATE ch
  let top := if k.n P.DP_FUNC ch = 0 then k.f P.DP_FREQ ch else fmax (k.f P.RETX_OUT_LO ch) (k.f P.RETX_OUT_HI ch)
  firstFault
    [faultIf (modeOutput mode && k.n P.VFLD_MONITOR (ch / 8) == 0) 0x07 0xFFFF P.VFLD_MONITOR (ch / 8),
     bad (ch % 2 == 0 && k.n P.DO_PAIR ch == 1 && (!modeDo mode || configured k.c (chanSlot (ch + 1)))) P.DO_PAIR,
     bad (mode == 9 && decide (3 < k.n P.AI_RATE ch) && resForce k.c ch == ch) P.AI_RATE,
     bad (feq (k.f P.AI_IN_LO ch) (k.f P.AI_IN_HI ch)) P.AI_IN_HI,
     bad (feq (k.f P.RETX_SRC_LO ch) (k.f P.RETX_SRC_HI ch)) P.RETX_SRC_HI,
     bad (retx && !inside (k.f P.RETX_OUT_LO ch)) P.RETX_OUT_LO,
     bad (retx && !inside (k.f P.RETX_OUT_HI ch)) P.RETX_OUT_HI,
     bad (retx && k.isType 4 (k.n P.OUT_SRC ch)) P.OUT_SRC,
     bad (decide (safeStates mode < safe)) P.SAFE_STATE,
     bad (((mode == 7 && safe == 4) || (mode == 8 && safe == 2)) && !inside (k.f P.AO_SAFE_VALUE ch)) P.AO_SAFE_VALUE,
     bad (mode == 9 && resForce k.c ch != ch && k.n P.AUX_CELL ch != 0) P.AUX_CELL,
     bad (mode == 4 && k.n P.DP_PULLDOWN ch == 0 && flt (fOfNat 1000) top) P.DP_PULLDOWN,
     bad (mode == 9 && k.n P.RES_WIRING ch != 2 && resForce k.c ch == ch && k.n P.RES_SENSE_1 ch == 0xFF) P.RES_SENSE_1,
     bad (mode == 9 && k.n P.RES_WIRING ch == 4 && resForce k.c ch == ch && k.n P.RES_SENSE_2 ch == 0xFF) P.RES_SENSE_2,
     faultIf (mode == 10 && !((slotsOfKind k.c 0x07).any (fun u =>
       let d := k.n P.PROBE_CHANNEL (slotInst u)
       ch == d || ch == d + 1))) 0x08 slot P.CH_MODE ch,
     faultIf (mode == 11 && !((slotsOfKind k.c 0x08).any (fun u => k.n P.COMB_CHANNEL (slotInst u) == ch)))
       0x09 slot P.CH_MODE ch]

/-- An ascending list of plan frequencies. -/
def ascending : List Nat → Bool
  | a :: b :: t => decide (a < b) && ascending (b :: t)
  | _ => true

/-- Probe units: reason PROBE (R214, R217, R228, R232, R474). -/
def checkProbe (k : Checked) (n : Nat) : Option CfgFault :=
  let slot := probeSlot n
  let d := k.n P.PROBE_CHANNEL n
  let bad (b : Bool) (param : Nat) : Option CfgFault := faultIf b 0x08 slot param n
  let others := ((slotsOfKind k.c 0x07).filter (· != slot)).map slotInst
  let member (ch : Nat) : Bool := configured k.c (chanSlot ch) && k.n P.CH_MODE ch == 10
  let planB := blockOf k.c P.PROBE_PLAN n
  let plan := planOf planB
  let crop := k.n P.PROBE_CROP n
  let table := blockOf k.c P.CROP_TABLE crop
  firstFault
    [bad (d % 2 == 1) P.PROBE_CHANNEL,
     bad (!member d || !member (d + 1)) P.PROBE_CHANNEL,
     bad (others.any (fun m => k.n P.PROBE_CHANNEL m == d)) P.PROBE_CHANNEL,
     bad (others.any (fun m =>
       k.n P.PROBE_CHANNEL m / 8 == d / 8 && k.n P.PROBE_SLOT m == k.n P.PROBE_SLOT n)) P.PROBE_SLOT,
     bad (field planB 0 1 == 0 || decide (24 < field planB 0 1) || !ascending (0 :: plan)) P.PROBE_PLAN,
     bad ((bytesAt planB 1 3 ++ planB.drop (4 + 4 * plan.length)).any (· != 0)) P.PROBE_PLAN,
     bad (decide (plan.length ≤ k.n P.PROBE_REF_POINT n)) P.PROBE_REF_POINT,
     bad (crop != 0xFF && field table 0 1 != 1) P.PROBE_CROP,
     bad (crop != 0xFF && !(plan.contains (field table 20 4) && plan.contains (field table 24 4))) P.PROBE_CROP,
     bad (k.notType 0 (k.n P.TEMP_CELL n) || decide (8192 ≤ k.n P.TEMP_CELL n)) P.TEMP_CELL,
     bad (k.notType 0 (k.n P.DENS_CELL n) || decide (8192 ≤ k.n P.DENS_CELL n)) P.DENS_CELL]

/-- Node IDs of every configured line. -/
def allNodeIds (c : Content) : List Nat :=
  (slotsOfKind c 0x08).flatMap (fun u => (mapOf (blockOf c P.COMB_NODEMAP (slotInst u))).map (·.id))

/-- Comb line units: reason COMB (R237, R244, R251, R474). -/
def checkComb (k : Checked) (n : Nat) : Option CfgFault :=
  let slot := combSlot n
  let ch := k.n P.COMB_CHANNEL n
  let bad (b : Bool) (param : Nat) : Option CfgFault := faultIf b 0x09 slot param n
  let others := ((slotsOfKind k.c 0x08).filter (· != slot)).map slotInst
  let slots := k.n P.COMB_SLOTS n
  let outside (id : Nat) : Bool :=
    let b := k.n id n
    b != 0 && (decide (b < 256) || decide (8192 < b + slots))
  let mapB := blockOf k.c P.COMB_NODEMAP n
  let map := mapOf mapB
  let ids := allNodeIds k.c
  let twice (id : Nat) : Bool := decide (1 < (ids.filter (· == id)).length)
  firstFault
    [bad (decide (128 ≤ ch) || !configured k.c (chanSlot ch) || k.n P.CH_MODE ch != 11) P.COMB_CHANNEL,
     bad (others.any (fun m => k.n P.COMB_CHANNEL m == ch)) P.COMB_CHANNEL,
     bad (decide (k.n P.COMB_PERIOD n * 1024 ≤ k.n P.COMB_PHASE n)) P.COMB_PHASE,
     bad (k.n P.CELL_TEMP_BASE n == 0 || outside P.CELL_TEMP_BASE) P.CELL_TEMP_BASE,
     bad (outside P.CELL_RH_BASE) P.CELL_RH_BASE,
     bad (outside P.CELL_CO2_BASE) P.CELL_CO2_BASE,
     bad (decide (48 < field mapB 0 1)) P.COMB_NODEMAP,
     bad (map.any (fun e => decide (slots ≤ e.position) || e.flags != 0)) P.COMB_NODEMAP,
     bad (!decide ((map.map (·.position)).Nodup)) P.COMB_NODEMAP,
     bad (map.any (fun e => twice e.id || nodeType e.id % 2 == 0 || decide (8 ≤ nodeType e.id))) P.COMB_NODEMAP]

/-- Loop units: reason LOOP (R262, R263, R295, R474). Every input cell is of this node, as R262 says; the worked example of
Table 11-7, which has a queen's loop unit read a forager's cell, is set aside (DEDUCED, log entry 21). -/
def checkLoop (k : Checked) (n : Nat) : Option CfgFault :=
  let slot := loopSlot n
  let bad (b : Bool) (param : Nat) : Option CfgFault := faultIf b 0x0A slot param n
  let lo := k.f P.OUT_LO n
  let hi := k.f P.OUT_HI n
  let outside (id : Nat) : Option CfgFault := bad (!(fle lo (k.f id n) && fle (k.f id n) hi)) id
  let away (id : Nat) : Bool := decide (8192 ≤ k.n id n)
  let foreign (id : Nat) : Option CfgFault := bad (k.isType 4 (k.n id n) || away id) id
  firstFault
    [bad (decide (2 ^ k.n P.LOOP_K n ≤ k.n P.LOOP_PHASE n)) P.LOOP_PHASE,
     bad (k.n P.PV_CELL n == 0) P.PV_CELL,
     bad (k.n P.OUT_CELL n == 0) P.OUT_CELL,
     bad (k.n P.SP_TRACK n == 1 && k.n P.SP_MODE n != 0) P.SP_TRACK,
     bad (!flt (k.f P.SP_LO n) (k.f P.SP_HI n)) P.SP_HI,
     bad (!flt lo hi) P.OUT_HI,
     outside P.TRACK_OUT, outside P.LOSS_OUTPUT, outside P.SAFE_OUTPUT, outside P.STOP_OUTPUT,
     foreign P.PV_CELL, foreign P.SP_CELL, foreign P.FF1_CELL, foreign P.FF2_CELL,
     bad (away P.TRACK_CELL) P.TRACK_CELL]

/-- Profile generators: reason LOOP (R284, R295, R474). -/
def checkProf (k : Checked) (n : Nat) : Option CfgFault :=
  let bad (b : Bool) (param : Nat) : Option CfgFault := faultIf b 0x0A (profSlot n) param n
  firstFault
    [bad (decide (2 ^ k.n P.PROF_K n ≤ k.n P.PROF_PHASE n)) P.PROF_PHASE,
     bad (k.n P.PROF_OUT_CELL n == 0) P.PROF_OUT_CELL]

/-- Churns: reason LOOP (R289, R295, R474). -/
def checkChurn (k : Checked) (n : Nat) : Option CfgFault :=
  let slot := churnSlot n
  let bad (b : Bool) (param : Nat) : Option CfgFault := faultIf b 0x0A slot param n
  let host := k.n P.CHURN_LOOP n
  let l := slotInst host
  let out := k.n P.CHURN_OUT_CELL n
  firstFault
    [bad (slotKind host != 0x04 || decide (1024 ≤ host) || !configured k.c host) P.CHURN_LOOP,
     bad (out == 0) P.CHURN_OUT_CELL,
     bad (k.n P.ERR_CELL l == 0) P.CHURN_LOOP,
     bad ((slotsOfKind k.c 0x06).any (fun u => u != slot && k.n P.CHURN_LOOP (slotInst u) == host)) P.CHURN_LOOP,
     bad (k.n P.FF1_CELL l != out && k.n P.FF2_CELL l != out) P.CHURN_OUT_CELL,
     bad (k.n P.CHURN_PHASE_MODE n == 1 && (k.n P.CHURN_PHASE_CELL n == 0 || k.notType 2 (k.n P.CHURN_PHASE_CELL n)))
       P.CHURN_PHASE_CELL,
     bad (k.n P.CHURN_PHASE_MODE n == 0 && k.n P.CHURN_PHASE_CELL n != 0) P.CHURN_PHASE_CELL,
     bad (decide (k.n P.CHURN_CYCLE n < k.n P.CHURN_BINS n)) P.CHURN_BINS,
     bad (decide (k.n P.CHURN_BINS n ≤ k.n P.CHURN_LEAD n)) P.CHURN_LEAD,
     bad (k.notType 0 (k.n P.CHURN_BAND_CELL n)) P.CHURN_BAND_CELL,
     bad (!flt (k.f P.CHURN_BAND_HYST n) (fdiv (k.f P.CHURN_BAND_WIDTH n) (fOfNat 2))) P.CHURN_BAND_HYST]

/-- FIRST of the zones in use must rise from 0 (R298). -/
def zonesOk (b : List Byte) (segments : Nat) : Bool :=
  let used := ((List.range 4).map (fun z => field b (16 * z) 1)).filter (· != 0xFF)
  field b 0 1 == 0 && ascending used && used.all (fun f => decide (f < segments)) &&
    (List.range 4).all (fun z => field b (16 * z) 1 == 0xFF || decide (field b (16 * z + 1) 1 ≤ 1))

/-- Observer column units: reason DRYING (R298, R303, R321, R474). -/
def checkObs (k : Checked) (n : Nat) : Option CfgFault :=
  let slot := obsSlot n
  let bad (b : Bool) (param : Nat) : Option CfgFault := faultIf b 0x0B slot param n
  let required (id : Nat) : Option CfgFault := bad (k.n id n == 0 || decide (8192 ≤ k.n id n)) id
  let crop := blockOf k.c P.CROP_TABLE (k.n P.OBS_CROP n)
  let zb := blockOf k.c P.OBS_ZONES n
  let zs := zonesOf zb
  let seg := k.n P.OBS_SEG_BASE n
  firstFault
    [bad (decide (k.n P.OBS_STEP n ≤ k.n P.OBS_PHASE n)) P.OBS_PHASE,
     bad (field crop 0 1 != 1) P.OBS_CROP,
     bad (!(fPos (fieldF crop 116) && fPos (fieldF crop 128) && fPos (fieldF crop 132))) P.OBS_CROP,
     required P.OBS_INLET_M_CELL, required P.OBS_INLET_T_CELL, required P.OBS_DISCH_CELL, required P.OBS_OUT_CELL,
     bad (!zonesOk zb (k.n P.OBS_SEGMENTS n)) P.OBS_ZONES,
     bad (zs.any (fun z => z.tCell == 0 || decide (8192 ≤ z.tCell) || decide (8192 ≤ z.rhCell) || decide (8192 ≤ z.qCell)))
       P.OBS_ZONES,
     bad (decide (8192 ≤ k.n P.OBS_MEAS_CELL n)) P.OBS_MEAS_CELL,
     bad (decide (63 * k.n P.OBS_STEP n ≤ k.n P.OBS_MEAS_DELAY n)) P.OBS_MEAS_DELAY,
     bad (seg != 0 && decide (8192 < seg + k.n P.OBS_SEGMENTS n)) P.OBS_SEG_BASE]

/-- Every field of step `i` stands within the values of Table 09-6, its reserved ones 0. -/
def prgFieldsOk (b : List Byte) (i : Nat) : Bool :=
  let st := prgStep b i
  let index (v : Nat) : Bool := decide (v < 8) || v == 0xFF
  decide (st.phase ≤ 7) && decide (field b (32 * i + 1) 1 ≤ 1) && decide (st.next ≤ 63) &&
    (decide (st.timeoutNext ≤ 63) || st.timeoutNext == 0xFF) && decide (st.condOp ≤ 4) &&
    (st.condOp != 0 || st.condCell == 0) && decide (st.act1.1 ≤ 4) && decide (st.act2.1 ≤ 4) &&
    index st.spA.1 && index st.spB.1 && field b (32 * i + 22) 2 == 0

/-- Program units: reason DRYING (R305, R321, R474). -/
def checkProg (k : Checked) (n : Nat) : Option CfgFault :=
  let slot := progSlot n
  let bad (b : Bool) (param : Nat) : Option CfgFault := faultIf b 0x0B slot param n
  let base := k.n P.PRG_SP_BASE n
  let steps := (List.range 64).map (prgStep (blockOf k.c P.PRG_TABLE n))
  let badAct (a : Nat × Nat) : Bool :=
    a.2 != 0xFFFF && (decide (1024 ≤ a.2) || !configured k.c a.2 || a.2 == slot)
  let stops := (List.range 4).map (fun i => field (blockOf k.c P.PRG_FAULT_STOP n) (2 * i) 2)
  firstFault
    [bad (base == 0 || decide (8192 < base + 8)) P.PRG_SP_BASE,
     bad (!(List.range 64).all (prgFieldsOk (blockOf k.c P.PRG_TABLE n))) P.PRG_TABLE,
     bad (steps.any (fun st => badAct st.act1 || badAct st.act2)) P.PRG_TABLE,
     bad (steps.any (fun st => decide (8192 ≤ st.condCell) ||
       ((st.condOp == 1 || st.condOp == 2) && k.isType 4 st.condCell))) P.PRG_TABLE,
     bad (k.n P.PRG_MODE n == 1 && k.n P.PRG_REPEAT n == 1) P.PRG_MODE,
     bad (k.n P.PRG_MODE n == 1 && steps.any (·.batchEnd)) P.PRG_TABLE,
     bad (stops.any (fun h => h != 0xFFFF && (decide (1024 ≤ h) || !configured k.c h))) P.PRG_FAULT_STOP]

/-- Chain units: reason DRYING (R311, R321, R474). -/
def checkChain (k : Checked) (n : Nat) : Option CfgFault :=
  let slot := chainSlot n
  let bad (b : Bool) (param : Nat) : Option CfgFault := faultIf b 0x0B slot param n
  let base := k.n P.CHAIN_RUN_BASE n
  let count := k.n P.CHAIN_COUNT n
  let b := blockOf k.c P.CHAIN_MEMBERS n
  let members := (List.range count).map (fun i =>
    (field b (16 * i) 2, field b (16 * i + 2) 2, field b (16 * i + 10) 2, field b (16 * i + 12) 2))
  firstFault
    [bad (base == 0 || decide (8192 < base + count)) P.CHAIN_RUN_BASE,
     bad (members.any (fun m => decide (8192 ≤ m.1) || decide (8192 ≤ m.2.1) || k.isType 4 m.1)) P.CHAIN_MEMBERS,
     bad (members.any (fun m => m.2.2.1 == 0 || m.2.2.2 == 0)) P.CHAIN_MEMBERS,
     bad (decide (8192 ≤ k.n P.CHAIN_PERMIT_CELL n)) P.CHAIN_PERMIT_CELL]

/-- Bin units: reason DRYING (R316, R318, R321, R474). The EMC of a bin needs no valid table at commit. -/
def checkBin (k : Checked) (n : Nat) : Option CfgFault :=
  let slot := binSlot n
  let bad (b : Bool) (param : Nat) : Option CfgFault := faultIf b 0x0B slot param n
  let handles (m : Nat) : List Nat :=
    ((List.range 8).map (fun i => field (blockOf k.c P.BIN_LINES m) (2 * i) 2)).filter (· != 0xFFFF)
  let own := handles n
  let others := (((slotsOfKind k.c 0x0D).filter (· != slot)).map slotInst).flatMap handles
  let base := k.n P.BIN_OUT_BASE n
  let local_ (id : Nat) : Option CfgFault := bad (decide (8192 ≤ k.n id n)) id
  firstFault
    [bad (own.any (fun h => decide (1024 ≤ h) || slotKind h != 0x08 || !configured k.c h)) P.BIN_LINES,
     bad (!decide (own.Nodup) || own.any others.contains) P.BIN_LINES,
     bad (k.n P.BIN_AMB_T_CELL n == 0) P.BIN_AMB_T_CELL,
     bad (k.n P.BIN_AMB_RH_CELL n == 0) P.BIN_AMB_RH_CELL,
     bad (base == 0 || decide (8192 < base + 8)) P.BIN_OUT_BASE,
     bad (k.n P.BIN_SAMPLE n % 1024 != 0) P.BIN_SAMPLE,
     bad (decide (23 * k.n P.BIN_SAMPLE n < k.n P.BIN_RATE_SPAN n)) P.BIN_RATE_SPAN,
     local_ P.BIN_LEVEL_CELL, local_ P.BIN_AMB_T_CELL, local_ P.BIN_AMB_RH_CELL, local_ P.BIN_GRAIN_M_CELL]

/-- The points of a fan curve rise in x and stay within 0 to 100 % (R329). -/
def curveOk (b : List Byte) : Bool :=
  let count := field b 0 1
  let pts := (List.range count).map (fun i => (fieldF b (4 + 8 * i), fieldF b (8 + 8 * i)))
  decide (2 ≤ count ∧ count ≤ 8) && field b 1 3 == 0 && pts.all (fun q => fFinite q.1 && fle 0 q.2 && fle q.2 (fOfNat 100)) &&
    (List.range (count - 1)).all (fun i => flt (fieldF b (4 + 8 * i)) (fieldF b (12 + 8 * i)))

/-- Fan port units: reason FAN (R328 to R330, R332, R474). -/
def checkFan (k : Checked) (n : Nat) : Option CfgFault :=
  let slot := fanSlot n
  let bad (b : Bool) (param : Nat) : Option CfgFault := faultIf b 0x0C slot param n
  let sources := fanSources k.c n
  let mode := k.n P.FAN_START_MODE n
  let supply := k.n P.FAN_SUPPLY n
  let drive := k.n P.FAN_DRIVE n
  firstFault
    [bad (sources.isEmpty && (mode == 1 || mode == 3)) P.FAN_SRC_CELLS,
     bad (sources.any (fun r => k.isType 4 r || decide (8192 ≤ r))) P.FAN_SRC_CELLS,
     bad (!curveOk (blockOf k.c P.FAN_CURVE n)) P.FAN_CURVE,
     bad (supply != 0 && decide (4 ≤ n)) P.FAN_SUPPLY,
     bad ((supply == 2) != (drive == 0)) P.FAN_DRIVE,
     bad (decide (k.n P.FAN_START_TIME n ≤ k.n P.FAN_KICK_TIME n)) P.FAN_START_TIME,
     bad (!flt (k.f P.FAN_V_MIN n) (k.f P.FAN_V_MAX n)) P.FAN_V_MAX,
     bad (!flt (k.f P.FAN_I_RUN_MIN n) (fmul (fRat 9 10) (k.f P.FAN_I_LIMIT n))) P.FAN_I_RUN_MIN,
     bad (k.n P.FAN_DEMAND_CELL n == 0) P.FAN_DEMAND_CELL,
     bad (decide (8192 ≤ k.n P.FAN_ENABLE_CELL n)) P.FAN_ENABLE_CELL]

/-- The check of one unit's kind. -/
def checkUnit (k : Checked) (slot : Nat) : Option CfgFault :=
  let n := slotInst slot
  match slotKind slot with
  | 0x02 => checkLoopHive k.c slot
  | 0x03 => checkChannel k n
  | 0x04 => checkLoop k n
  | 0x05 => checkProf k n
  | 0x06 => checkChurn k n
  | 0x07 => checkProbe k n
  | 0x08 => checkComb k n
  | 0x09 => checkProg k n
  | 0x0A => checkChain k n
  | 0x0B => checkObs k n
  | 0x0C => checkFan k n
  | 0x0D => checkBin k n
  | _ => none

/-- Crop tables with STATE 1 hold their CRC (R228). -/
def checkCrops (c : Content) : Option CfgFault :=
  firstFault ((List.range 64).map (fun i =>
    let b := blockOf c P.CROP_TABLE i
    faultIf (field b 0 1 == 1 && !crcOkAt b 156) 0x08 0xFFFF P.CROP_TABLE i))

/-- The recorder's histograms (R367). -/
def checkRecorder (k : Checked) : Option CfgFault :=
  let hists := (List.range 24).map (histOf k.c)
  let bad (b : Bool) (param : Nat) : Option CfgFault := faultIf b 0x10 recSlot param 0
  firstFault
    [bad (hists.any (fun h => k.isType 4 h.1 || decide (8192 ≤ h.1))) P.REC_HISTS,
     bad (hists.any (fun h => h.1 != 0 && !flt h.2.1 h.2.2)) P.REC_HISTS,
     bad ((List.range 24).any (fun i => field (blockOf k.c P.REC_HISTS 0) (12 * i + 2) 2 != 0)) P.REC_HISTS,
     bad (decide (65535 * k.n P.REC_SAMPLE 0 < k.n P.REC_INTERVAL 0 * 61440)) P.REC_INTERVAL]

/-- Link parameters (R342, R353): only a queen admits nodes, and at most 1,024 cells of other nodes are read. -/
def checkLink (k : Checked) : Option CfgFault :=
  firstFault
    [faultIf (decide (1024 < (remoteRefs k.c).length)) 0x0D 0xFFFF 0xFFFF 0xFFFF,
     faultIf (k.n P.LINK_ROLE 0 != 1 && (blockOf k.c P.LINK_NODES 0).any (· != 0)) 0x0D 0xFFFF P.LINK_NODES 0]

/-- A read of a cell outside this node by a kind whose inputs must be of this node carries the kind's own reason; the
check of units stands before that of writers for it. The whole check of a content (Table 12-8). -/
def checkContent (c : Content) (part1064 : Bool) (clHighest retired : Nat) (held : Nat → Nat) : Option CfgFault :=
  let slots := configuredSlots c
  let writers := cellWriters c
  let k : Checked := ⟨c, writers⟩
  let order := orderOf c
  let each (f : Nat → Option CfgFault) : Option CfgFault := slots.findSome? f
  firstFault
    [if part1064 then each (checkPart c) else none,
     faultIf (decide (clHighest < scalarOf c P.COMPAT_LEVEL 0)) 0x0F 0xFFFF P.COMPAT_LEVEL 0,
     each (checkTree c),
     each (checkElement c),
     each (checkWriters c writers),
     each (checkReads c writers),
     each (checkFace c),
     order.2.head?.map (fun u => ⟨0x03, u, 0xFFFF, 0xFFFF⟩),
     checkRegions c retired held,
     checkBudget c order.1,
     each (checkUnit k),
     checkCrops c,
     checkRecorder k,
     checkLink k,
     faultIf (decide (196608 < (contentBytes c).length)) 0x12 0xFFFF 0xFFFF 0xFFFF]

end Sys2Proof.Machine
end

