-- ==== Sys2Proof/Machine/Generations.lean ====
section
/-! DEFINITION. Configuration generations: store, commit and revert up to the fixed effective tick (R376 to R382), and
the succession bundle (R384). What a generation does to units as it becomes active stands with the units. -/

namespace Sys2Proof.Machine

/-! ## The store (R376, R382) -/

/-- STATE codes of CFG_LIST. -/
def GenState.code : GenState → Nat
  | .active => 1 | .stored => 2 | .awaiting => 3 | .abandoned => 4 | .failed => 5 | .reverted => 6

/-- A stored generation changed. -/
def State.modGen (s : State) (n : Nat) (f : Generation → Generation) : State :=
  { s with gens := s.gens.map (fun g => if g.number = n then f g else g) }

/-- Generations that a new one must not displace. -/
def State.genKept (s : State) (n : Nat) : Bool :=
  n == s.activeGen || (match s.generation s.activeGen with | some g => g.parent == n | none => false) ||
    (match s.awaiting with | some a => a.number == n | none => false)

/-- Room for one more generation: of 16, the lowest-numbered one that may go is deleted. -/
def State.makeRoom (s : State) : State :=
  if s.gens.length < 16 then s
  else
    match s.gens.find? (fun g => !s.genKept g.number) with
    | some g => { s with gens := s.gens.filter (fun h => h.number != g.number) }
    | none => s

/-- A generation stored with the next number; it awaits activation at `e`. -/
def State.storeGeneration (s : State) (origin : Nat) (c : Content) (e : Nat) : State :=
  let s := s.makeRoom
  let n := s.topNumber + 1
  let g : Generation :=
    { number := n, parent := s.activeGen, state := .awaiting, origin := origin, format := s.id.formatLevel
      cl := scalarOf c P.COMPAT_LEVEL 0, created := s.tick, wall := (s.tick : Int) + s.wallDiff, content := c }
  { s with gens := s.gens ++ [g], topNumber := n, awaiting := some ⟨n, e, false⟩ }

/-- CFG_LIST data. -/
def State.cfgListBytes (s : State) : List Byte :=
  le 2 s.gens.length ++ [0, 0] ++
    (s.gens.flatMap (fun g =>
      le 4 g.number ++ le 4 g.parent ++ [BitVec.ofNat 8 g.state.code, BitVec.ofNat 8 g.origin] ++ le 2 g.format ++
        le 6 g.created ++ le 2 g.cl ++ (contentHash g.content).take 4))

/-- The header of a stored generation (Table 12-7). -/
def Generation.header (g : Generation) : List Byte :=
  withCrc (ascii "SGCG" ++ le 2 g.format ++ le 2 g.cl ++ le 4 g.number ++ le 4 g.parent ++ le 6 g.created ++
    [BitVec.ofNat 8 g.origin, 0] ++ leInt 8 g.wall ++ le 4 (contentBytes g.content).length ++ contentHash g.content ++
    List.replicate 8 0)

/-! ## Validation (R379 to R381) -/

/-- Pages that a replay of a scope needs (R125): the state blocks of its units. -/
def replayNeed (c : Content) (slots : List Nat) : Nat := ((slots.map (snapshotSize c)).sum + 4095) / 4096

/-- Slots of a scope: the units below a hive, the hive included (R117). -/
def inScope (c : Content) (hive : Nat) : Nat → Nat → Bool
  | 0, slot => slot == hive
  | k + 1, slot => slot == hive || (slot != 0 && inScope c hive k (headerOf c slot).parent)

/-- The units in scope of a hive, ascending slots. -/
def scopeSlots (c : Content) (hive : Nat) : List Nat := (configuredSlots c).filter (inScope c hive 258)

/-- Pages that existing jobs hold in a region. -/
def State.pagesHeld (s : State) (r : Nat) : Nat :=
  if r = 10 ∧ s.jobs.any (fun j => j.opcode == 0x0702#16 && !j.state.ended) then
    replayNeed s.content (scopeSlots s.content (field s.inrec.replay 14 2))
  else 0

/-- The first fault of a content on this module. -/
def State.validate (s : State) (c : Content) : Option CfgFault :=
  checkContent c s.id.sg1064 s.id.clHighest s.sram.retired.length s.pagesHeld

/-- What R381 refuses before any check of the content: another change or an activation awaits (R406), or
trial firmware runs. -/
def State.changeBarred (s : State) : Option Nat :=
  if s.awaiting.isSome || s.upd.activateAt.isSome then some 0x15 else if s.upd.trial then some 0x16 else none

/-- The job data of a refused change. -/
def CfgFault.bytes (f : CfgFault) : List Byte := le 2 f.handle ++ le 2 f.param ++ le 2 f.inst
/-- The job data of a change that is refused without a place. -/
def noPlace : List Byte := le 2 0xFFFF ++ le 2 0xFFFF ++ le 2 0xFFFF
/-- The job data of a change that stands: NUMBER and E. -/
def changeData (n e : Nat) : List Byte := le 4 n ++ le 6 e

/-- The pending generation is given up (R76). -/
def State.dropPending (s : State) (session : Option (BitVec 16)) : State :=
  match s.pendGen with
  | some p => if some p.holder = session then { s with pendGen := none } else s
  | none => s

/-- A commit or revert job ends; the end of a commit gives up its session's pending generation. A session keeps it through
a revert (R76). -/
def State.endChange (s : State) (j : Job) (st : JobState) (status detail : Nat) (data : List Byte) : State :=
  let s := if j.opcode = 0x0402#16 then s.dropPending j.session else s
  s.endJob j.handle st status detail data

/-- Validation of a commit or revert completes (R82): its effective tick is fixed, or the job fails. -/
def State.validationDone (s : State) (j : Job) : State :=
  let refused (reason : Nat) (data : List Byte) : State := s.endChange j .failed stConfigRefused reason data
  let e := max j.wanted (s.tick + 2)
  let late : Bool := j.wantedSet && decide (j.wanted < s.tick + 2)
  let fix (s : State) (n : Nat) : State := s.modJob j.handle (fun j => { j with etick := some e, data := changeData n e })
  match s.changeBarred with
  | some r => refused r noPlace
  | none =>
    if j.opcode = 0x0402#16 then
      match s.pendGen with
      | none => refused 0x14 noPlace
      | some p =>
        if some p.holder ≠ j.session then refused 0x14 noPlace
        else if p.base ≠ s.activeGen then refused 0x14 noPlace
        else
          let c := dropVacant p.content
          match s.validate c with
          | some f => refused f.reason f.bytes
          | none =>
            if late then s.endChange j .failed stTooLate 0 noPlace
            else fix (s.storeGeneration 1 c e) (s.topNumber + 1)
    else
      let parent := match s.generation s.activeGen with | some g => g.parent | none => 0
      match s.generation parent with
      | none => refused 0x11 noPlace
      | some g =>
        match (if s.id.formatLevel < g.format then some ⟨0x13, 0xFFFF, 0xFFFF, 0xFFFF⟩ else s.validate g.content) with
        | some f => refused f.reason f.bytes
        | none =>
          if late then s.endChange j .failed stTooLate 0 noPlace
          else
            fix { (s.modGen g.number (fun g => { g with state := .awaiting })) with awaiting := some ⟨g.number, e, true⟩ }
              g.number

/-- The flash write of a generation that has not become active fails: it is removed, and the change does not come
about (R379, Table 12-8). -/
def State.storeFailed (s : State) : State :=
  match s.awaiting with
  | none => s
  | some a =>
    if a.revert then { (s.modGen a.number (fun g => { g with state := .stored })) with awaiting := none }
    else { s with gens := s.gens.filter (fun g => g.number != a.number), awaiting := none }

/-! ## The succession bundle (R384, Table 12-9) -/

/-- The bundle before its signature. -/
def State.bundleBody (s : State) (target : List Byte) : List Byte :=
  let c := s.content
  let bytes := contentBytes c
  let format := ((s.generation s.activeGen).map (·.format)).getD s.id.formatLevel
  ascii "SGSB" ++ le 2 1 ++ le 2 format ++ le 2 (scalarOf c P.COMPAT_LEVEL 0) ++ [if s.id.sg1064 then 1 else 0, 0] ++
    s.id.serial ++ target ++ le 4 s.activeGen ++ le 6 s.tick ++ [0, 0] ++ s.oemHash ++ sha256 bytes ++
    le 4 bytes.length ++ le 2 s.id.deviceCert.length ++ [0, 0] ++ bytes ++ s.id.deviceCert

/-- A signature of the device key over some bytes; the secret number of ECDSA is free (log entry 4). -/
def State.signBytes (s : State) (b : List Byte) : List Byte × State :=
  let (v, s) := s.drawFree
  (ecdsaSign Config.deviceKey (freeScalar v) (sha256 b), s)

/-- The signed bundle. -/
def State.bundle (s : State) (target : List Byte) : List Byte × State :=
  let b := s.bundleBody target
  let (sig, s) := s.signBytes b
  (b ++ sig, s)

/-- One record of a content: TAG, INSTANCE and value, with the bytes after it. -/
def takeRecord (b : List Byte) : Option (Nat × Nat × List Byte × List Byte) :=
  let len := field b 4 2
  let padded := len + (4 - len % 4) % 4
  if b.length < 8 ∨ b.length < 8 + padded ∨ (bytesAt b 6 2).any (· != 0) ∨ (bytesAt b (8 + len) (padded - len)).any (· != 0) then none
  else some (field b 0 2, field b 2 2, bytesAt b 8 len, b.drop (8 + padded))

/-- The reason code of a parameter's block (R474). -/
def blockReason (id : Nat) : Nat :=
  match id / 256 with
  | 0x01 => 0x01 | 0x03 => 0x06 | 0x04 => 0x07 | 0x05 => 0x07 | 0x06 => 0x08 | 0x07 => 0x09 | 0x08 => 0x0A
  | 0x09 => 0x0B | 0x0A => 0x0C | 0x0B => 0x0D | 0x0C => 0x10 | _ => 0x17

/-- A record's value as a parameter value; none where it is no serialised parameter (R377). -/
def recordValue (tag : Nat) (v : List Byte) : Option PVal :=
  match paramInfo tag with
  | none => none
  | some r =>
    if r.acc ≠ .rw then none
    else
      match r.ty with
      | .block n => if v.length = n then some (.block v) else none
      | _ => if v.length = scalarSize tag then some (.scalar (BitVec.ofNat 64 (ofLe v))) else none

/-- A content read record by record, at most `k` of them; the reason of a refusal otherwise. Copies of a shared record
must agree. -/
def readContent : Nat → List Byte → Content → Except Nat Content
  | 0, _, _ => .error 0x17
  | k + 1, b, c =>
    if b.isEmpty then .ok c
    else
      match takeRecord b with
      | none => .error 0x17
      | some (tag, inst, v, rest) =>
        if tag = 0xFFFE then
          if inst = 0 ∨ inst = hkSlot ∨ 1024 ≤ inst ∨ v.length ≠ 4 ∨ field v 0 1 ≠ slotKind inst ∨ field v 0 1 = 0 ∨
              (contentGet c P.UNIT_HEADER inst).isSome then .error 0x01
          else readContent k rest (contentInsert c P.UNIT_HEADER inst (.block v))
        else
          match recordValue tag v with
          | none => .error 0x17
          | some x =>
            match contentGet c tag inst with
            | some y => if x = y then readContent k rest c else .error 0x17
            | none => readContent k rest (contentInsert c tag inst x)

/-- A content in canonical form: values at their default are left out (R377). -/
def canonContent (c : Content) : Content :=
  c.filter (fun e =>
    match e.2.2 with
    | .scalar v => v.toNat != scalarDefault c e.1 e.2.1
    | .block b => decide (b ≠ blockDefault e.1))

/-- The checks of R384 on a bundle: its content and fields, or the reason. -/
def State.openBundle (s : State) (b : List Byte) : Except Nat (Content × Nat) :=
  let clen := field b 120 4
  let certLen := field b 124 2
  let total := 128 + clen + certLen + 64
  if b.length ≠ total ∨ b.take 4 ≠ ascii "SGSB" ∨ field b 4 2 ≠ 1 then .error 0x17
  else
    let cert := bytesAt b (128 + clen) certLen
    let content := bytesAt b 128 clen
    let target := bytesAt b 28 16
    match s.chainKey cert with
    | none => .error 0x17
    | some key =>
      if !ecdsaVerify key (sha256 (b.take (total - 64))) (b.drop (total - 64)) then .error 0x17
      else if target.any (· != 0) ∧ target ≠ s.id.serial then .error 0x17
      else if bytesAt b 56 32 ≠ s.oemHash then .error 0x17
      else if bytesAt b 88 32 ≠ sha256 content then .error 0x17
      else if s.id.formatLevel < field b 6 2 then .error 0x13
      else if 196608 < clen then .error 0x12
      else
        match readContent (clen / 8 + 1) content [] with
        | .error r => .error r
        | .ok c => .ok (dropVacant (canonContent c), field b 6 2)

end Sys2Proof.Machine
end

