-- ==== Sys2Proof/Machine/InRec.lean ====
section
/-! DEFINITION. The input record (R117 to R122): entries, segments, windows and their digests. -/

namespace Sys2Proof.Machine

/-! ## Entries (Tables 03-5, 03-6) -/

/-- One entry: header and payload. -/
def recEntry (type ref tick : Nat) (payload : List Byte) : List Byte :=
  [BitVec.ofNat 8 type, BitVec.ofNat 8 payload.length] ++ le 2 ref ++ le 4 tick ++ payload

/-- TYPE of an entry. -/
def entryType (e : List Byte) : Nat := field e 0 1

/-- `b` padded with zeros to a multiple of 4. -/
def pad4 (b : List Byte) : List Byte := b ++ List.replicate ((4 - b.length % 4) % 4) 0

/-- COMMAND and COMMAND_MORE entries of a command (R120). -/
def commandEntries (opcode tick : Nat) (payload : List Byte) : List (List Byte) :=
  recEntry 0x20 opcode tick (le 2 payload.length ++ [0, 0] ++ pad4 (payload.take 244)) ::
    (chunks 248 16 (payload.drop 244)).map (fun b => recEntry 0x21 opcode tick (pad4 b))

/-- The committed state block of a unit: what the spec gives is its size (R453), not its bytes. -/
opaque snapPack : Plant → Nat → List Byte
/-- The plant with a unit's state loaded from its block. -/
opaque snapUnpack : List Byte → Nat → Plant → Plant

/-- SNAPSHOT entries of a unit. -/
def snapEntries (c : Content) (p : Plant) (tick slot : Nat) : List (List Byte) :=
  let b := padTo (snapshotSize c slot) (snapPack p slot)
  (chunks 248 (b.length / 248 + 1) b).map (recEntry 0x03 slot tick)

/-- What a state block is for: loaded, it gives the unit the state that the block was formed from. The block's layout is
nowhere stated, so that this is a premise of what can be said of a replay, no property of the two functions (log entry 4). -/
def SnapLaw (same : Nat → Plant → Plant → Prop) : Prop :=
  ∀ c p q slot, same slot (snapUnpack (padTo (snapshotSize c slot) (snapPack p slot)) slot q) p

/-! ## Scope -/

/-- The record runs: a mode, a configured scope, and HUSH or RUN (R118). -/
def State.recWanted (s : State) : Bool :=
  s.run P.INREC_MODE 0 != 0 && decide (s.run P.INREC_SCOPE 0 < 1024) && isHive (s.run P.INREC_SCOPE 0) &&
    s.has (s.run P.INREC_SCOPE 0) && (s.power == .run || s.power == .hush)

/-- The units in scope of the open segment. -/
def State.recScope (s : State) : List Nat := scopeSlots s.content s.inrec.scope

/-- SCOPE_HASH of a hive (R120, R377). -/
def scopeHash (c : Content) (hive : Nat) : List Byte :=
  sha256 (((scopeSlots c hive).filter (fun u => u != 0 && u != hkSlot)).flatMap (unitSection c))

/-- Cells that units in scope read and no unit in scope writes (R117); the cells of the housekeeping unit among them, though
it lie in the scope (R427). When it does, all of its cells count, read or not: its digests need them (DEDUCED, log entry
25). -/
def outerCells (c : Content) (scope : List Nat) : List Nat :=
  let writes := (scope.filter (fun u => u != hkSlot)).flatMap (unitWrites c)
  let house := if scope.contains hkSlot then unitWrites c hkSlot else []
  (sortNats (scope.flatMap (fun u => unitReads c u ++ markedReads c u) ++ house)).filter (fun r => !writes.contains r)

/-- Whether an entry noted for a REF belongs to the scope (R117): a unit's by its slot, EDGES by a digital input of the bank,
CELL_ERROR by a reader or writer of the cell, a node's join or loss by a reader of its cells. A removed unit is noted by its
old parentage. -/
def noteInScope (c : Content) (scope : List Nat) (type ref : Nat) : Bool :=
  let reads (f : Nat → Bool) : Bool := scope.any (fun u => (unitReads c u ++ markedReads c u).any f)
  match type with
  | 0x11 => scope.any (fun u => slotKind u == 0x03 && slotInst u / 8 == ref && decide (scalarOf c P.CH_MODE (slotInst u) ∈ [1, 2]))
  | 0x32 => reads (· == ref) || scope.any (fun u => (unitWrites c u).contains ref)
  | 0x34 =>
    if 8192 ≤ ref then scope.contains 0 || reads (fun r => r / 8192 == ref / 8192)
    else scope.contains ref || !configured c ref
  | 0x33 => true
  | 0x35 => true
  | _ => scope.contains ref

/-- Whether a command's effect falls within the scope: its handle, its cell's writer or its parameter's owner lies in it.
Commands without such an operand concern the scope of the root hive. -/
def commandInScope (c : Content) (scope : List Nat) (opcode : Nat) (payload : List Byte) : Bool :=
  let h := field payload 0 2
  let cellHit (r : Nat) : Bool := scope.any (fun u => (unitWrites c u).contains r || (unitReads c u).contains r)
  let ownerHit (id inst : Nat) : Bool :=
    match (if 32768 ≤ inst then Owner.unit (hiveSlot (inst % 32768)) else paramOwner id inst) with
    | .unit slot => scope.contains slot
    | .bank b => scope.any (fun u => slotKind u == 0x03 && slotInst u / 8 == b)
    | _ => scope.contains 0
  if 0x0201 ≤ opcode ∧ opcode ≤ 0x0208 then
    scope.contains h || (isHive h && scope.any (fun u => inScope c h 258 u))
  else if opcode = 0x0302 then (List.range (field payload 0 1)).any (fun i => cellHit (field payload (1 + 12 * i) 2))
  else if opcode = 0x0303 ∨ opcode = 0x0304 then cellHit h
  else if opcode = 0x0305 then (List.range (field payload 0 1)).any (fun i => cellHit (field payload (1 + 2 * i) 2))
  else if opcode = 0x0102 then
    (List.range (field payload 0 1)).any (fun i => ownerHit (field payload (1 + 14 * i) 2) (field payload (3 + 14 * i) 2))
  else if opcode = 0x000B then true
  else if opcode = 0x0010 ∨ opcode = 0x0604 then scope.contains 0 || scope.contains recSlot
  else scope.contains 0

/-- A command applied in the running tick, noted for the record. -/
def State.noteCommand (s : State) (opcode : Nat) (payload : List Byte) : State :=
  { s with inrec := { s.inrec with cmds := s.inrec.cmds ++ [(opcode, payload)] } }

/-! ## The ring -/

/-- Bytes of the INREC region. -/
def State.recCapacity (s : State) : Nat := 4096 * s.sram.regions.getD 5 0

/-- Entries dropped from the front until the ring fits. Answers what was dropped. -/
def trimRing (cap : Nat) : Nat → List (List Byte) → List (List Byte) × List (List Byte)
  | _, [] => ([], [])
  | used, e :: t =>
    if used ≤ cap then ([], e :: t)
    else
      let r := trimRing cap (used - e.length) t
      (e :: r.1, r.2)

/-- Bytes the ring holds. -/
def InRec.used (r : InRec) : Nat := (r.entries.map List.length).sum

/-- A read that has not yet wholly returned an overwritten entry fails (R122). A running read's DATA is the part that it has
returned last. -/
def State.recOverwritten (s : State) (gone : List (List Byte)) : State :=
  let hit (j : Job) : Bool :=
    j.opcode == 0x0704#16 && !j.state.ended && gone.any (fun e =>
      decide (e <:+: j.data ++ j.out.flatten) && !decide (e <:+: j.data))
  (s.jobs.filter hit).foldl (fun s j => s.endJob j.handle .failed stBusy 6 []) s

/-- Entries appended to the ring. -/
def State.append (s : State) (es : List (List Byte)) : State :=
  let r := s.inrec
  let all := r.entries ++ es
  let cut := trimRing s.recCapacity ((all.map List.length).sum) all
  { s with inrec := { r with entries := cut.2, count := r.count + es.length } }.recOverwritten cut.1

/-! ## Windows (R121) -/

/-- What a cell written by a unit adds to the string of a tick. -/
def cellString (ref : Nat) (v : CellVal) : List Byte :=
  le 2 ref ++ le 8 v.value.toNat ++ le 6 v.stamp ++ [BitVec.ofNat 8 v.quality, v.conditions]

/-- What a unit adds: the cells it wrote in the tick, ascending, and its field output. -/
def State.unitString (s : State) (t slot : Nat) : List Byte :=
  let wrote (r : Nat) : Bool :=
    let o := (s.work.cell r).own
    o.source == slot && (s.work.cell r).written && (o.stamp == t || decide (o ≠ (s.prev.cell r).own))
  let cells := (sortNats (unitWrites s.content slot)).filter wrote
  let n := slotInst slot
  let mode := s.mode n
  (cells.flatMap (fun r => cellString r (s.work.cell r).own)) ++
    (if slotKind slot = 0x03 ∧ modeOutput mode ∧ mode ≠ 11 then le 2 slot ++ le 8 (s.work.chan n).out.toNat else [])

/-- The string of tick `t`, whose work stands in the working copy. `cut`: a summary cut in it. -/
def State.tickString (s : State) (t : Nat) (due : Nat → Bool) (cut : List Byte) : List Byte :=
  let scope := s.recScope
  ((s.order.filter (fun u => scope.contains u && due u)).flatMap (s.unitString t)) ++
    (if scope.contains recSlot then cut else [])

/-- H(w) of window `w` from H(w − 1) and W(w); H(0) is what SEGMENT_START gave. The first window is window 0, as in the worked
example after R126 (log entry 45). -/
def windowHash (w : Nat) (h window : List Byte) : List Byte := if w = 0 then h else sha256 (h ++ window)

/-- The running window closes with tick `t`: its H(w) is formed and a DIGEST written. -/
def State.closeWindow (s : State) (t : Nat) : State :=
  let r := s.inrec
  let w := (t - r.t0) / 1024
  let h := windowHash w r.hash r.window
  { s with inrec := { r with hash := h, window := [] } }.append [recEntry 0x40 (w % 65536) t (h.take 8)]

/-! ## Segments (R118) -/

/-- CELL_IN entries of the outer cells for which `want` holds. -/
def State.cellEntries (s : State) (t : Nat) (want : Nat → Bool) : List (List Byte) :=
  ((outerCells s.content s.recScope).filter want).map (fun ref =>
    let v := s.see ref
    recEntry 0x12 ref t (le 8 v.value.toNat ++ [BitVec.ofNat 8 v.type, BitVec.ofNat 8 v.quality, v.conditions, 0]))

/-- A segment begins at boundary `t`, with the state committed at the end of the tick before. -/
def State.beginSegment (s : State) (t : Nat) : State :=
  let scope := s.run P.INREC_SCOPE 0
  let payload := le 6 t ++ le 2 scope ++ le 2 (s.cfg P.COMPAT_LEVEL 0) ++ [0, 0] ++ le 4 s.activeGen ++
    scopeHash s.content scope
  let r : InRec := { s.inrec with
    open_ := true, t0 := t, scope := scope, count := 0, tickHi := t / 2 ^ 32
    hash := sha256 payload, window := [] }
  let s := { s with inrec := r }
  s.append (recEntry 0x01 0 t payload :: (s.recScope.flatMap (snapEntries s.content s.prev t)))

/-- The open segment ends, with SEGMENT_END in tick `t`; `last` is the last tick it holds. A window that is open closes
with it. -/
def State.endSegment (s : State) (t last reason : Nat) : State :=
  if !s.inrec.open_ then s
  else
    let s := if s.inrec.t0 ≤ last ∧ (last + 1 - s.inrec.t0) % 1024 ≠ 0 then s.closeWindow last else s
    let s := s.append [recEntry 0x7F 0 t (le 4 (s.inrec.count + 1) ++ le 2 reason ++ [0, 0])]
    { s with inrec := { s.inrec with open_ := false } }

/-- Insertion by TYPE and REF, after equal ones (R120). -/
def insertNote (n : Nat × Nat × List Byte) : List (Nat × Nat × List Byte) → List (Nat × Nat × List Byte)
  | [] => [n]
  | m :: t =>
    if n.1 < m.1 ∨ (n.1 = m.1 ∧ n.2.1 < m.2.1) then n :: m :: t else m :: insertNote n t

/-- The entries of tick `t` are appended at its commit: TICK_HI, inputs, commands and events in their order, and the
window's digest in its last tick. -/
def State.appendTick (s : State) (t : Nat) (due : Nat → Bool) (cut : List Byte) : State :=
  if !s.inrec.open_ then { s with inrec := { s.inrec with cmds := [], notes := [] } }
  else
    let scope := s.recScope
    let first := t == s.inrec.t0
    let notes := ((s.inrec.notes.filter (fun n => noteInScope s.content scope n.1 n.2.1)).foldl (fun l n => insertNote n l) [])
    let entry (n : Nat × Nat × List Byte) : List Byte := recEntry n.1 n.2.1 t n.2.2
    let cells := s.cellEntries t (fun r => first || decide ((s.work.cell r).own.stamp ≠ (s.prev.cell r).own.stamp))
    let hi := if t / 2 ^ 32 ≠ s.inrec.tickHi then [recEntry 0x02 (t / 2 ^ 32) t []] else []
    let early := (notes.filter (fun n => decide (n.1 < 0x12))).map entry
    let mid := (notes.filter (fun n => decide (0x12 < n.1 ∧ n.1 < 0x20))).map entry
    let late := (notes.filter (fun n => decide (0x21 < n.1))).map entry
    let str := s.tickString t due cut
    let cmds := s.inrec.cmds.filter (fun e => commandInScope s.content scope e.1 e.2)
    let s := s.append (hi ++ early ++ cells ++ mid ++ cmds.flatMap (fun e => commandEntries e.1 t e.2) ++ late)
    let s := { s with inrec := { s.inrec with
      window := s.inrec.window ++ str, tickHi := t / 2 ^ 32, cmds := [], notes := [] } }
    if (t + 1 - s.inrec.t0) % 1024 = 0 then s.closeWindow t else s

/-- The record at boundary `t`, after everything else has been applied: a running segment ends, and a new one begins, as
R118 requires. `changed`: a generation became active; `power`: the power state changed (R417). -/
def State.recBoundary (s : State) (t : Nat) (changed power : Bool) : State :=
  let r := s.inrec
  let full := r.open_ && decide (r.t0 + s.run P.INREC_SEGMENT_TICKS 0 ≤ t)
  let off (s : State) : State := s.modWork (fun p => p.setRunning s.content P.INREC_MODE 0 0)
  if r.open_ ∧ r.t0 = t then s
  else
    let s :=
      if !r.open_ then s
      else if s.power != .run && s.power != .hush then s.endSegment t (t - 1) 2
      else if !s.recWanted then s.endSegment t (t - 1) 3
      else if changed then s.endSegment (t - 1) (t - 1) 1
      else if power then s.endSegment (t - 1) (t - 1) 2
      else if s.run P.INREC_SCOPE 0 ≠ r.scope then s.endSegment (t - 1) (t - 1) 3
      else if full then
        let s := s.endSegment (t - 1) (t - 1) 0
        if s.run P.INREC_MODE 0 = 2 then off s else s
      else s
    let done := r.open_ && !s.inrec.open_ && s.run P.INREC_MODE 0 == 2
    let s := if done then off s else s
    if !s.inrec.open_ ∧ s.recWanted then s.beginSegment t else s

/-! ## Reading and shrinking (R110, R122) -/

/-- Whole segments among entries: from a SEGMENT_START to its SEGMENT_END. `cur` is the one being read. -/
def segmentsOf : List (List Byte) → Option (List (List Byte)) → List (List (List Byte))
  | [], _ => []
  | e :: t, cur =>
    if entryType e = 0x01 then segmentsOf t (some [e])
    else
      match cur with
      | none => segmentsOf t none
      | some l => if entryType e = 0x7F then (l ++ [e]) :: segmentsOf t none else segmentsOf t (some (l ++ [e]))

/-- Segments taken while they fit within the limit. -/
def takeSegments : Nat → List (List Byte) → List Byte
  | _, [] => []
  | limit, b :: t => if b.length ≤ limit then b ++ takeSegments (limit - b.length) t else []

/-- The parts of an INPUT_RECORD_READ. -/
def InRec.readParts (r : InRec) (start limit : Nat) : List (List Byte) :=
  let segs := (segmentsOf r.entries none).filter (fun l =>
    match l with | e :: _ => decide (start ≤ field e 8 6) | [] => false)
  let b := takeSegments limit (segs.map List.flatten)
  chunks 4000 (b.length / 4000 + 1) b

/-- A gap in tick `t`: the open segment, whose last recorded tick is `last`, ends with it (R110, R112, R118). -/
def State.recordGap (s : State) (t last : Nat) : State :=
  if !s.inrec.open_ then s
  else
    let s := (s.append [recEntry 0x37 0 t []]).endSegment t last 4
    if s.run P.INREC_MODE 0 = 2 then s.modPlants (fun p => p.setRunning s.content P.INREC_MODE 0 0) else s

/-- The ring after its region has been resized: the oldest entries go first, and a segment that loses entries and is
still open is closed with GAP (R110). -/
def State.resizeRing (s : State) (t : Nat) : State :=
  let cut := trimRing s.recCapacity s.inrec.used s.inrec.entries
  let lost := s.inrec.open_ && !(cut.2.any (fun e => entryType e == 0x01 && field e 8 6 == s.inrec.t0))
  let s := { s with inrec := { s.inrec with entries := cut.2 } }.recOverwritten cut.1
  if lost ∧ !cut.1.isEmpty then s.recordGap t (t - 1) else s

end Sys2Proof.Machine
end

