-- ==== Sys2Proof/Machine/Units.lean ====
section
/-! DEFINITION. The uniform unit model: the transitions of Table 01-4 for every kind, the clearing rules of the fault
codes, and hives (R21 to R29, R475). -/

namespace Sys2Proof.Machine

/-- HOLD or FAULT. -/
def UState.held : UState → Bool
  | .hold | .fault => true
  | _ => false

/-- Unit control actions (Table 01-4, R272). -/
inductive Act where
  | start | stop | manual | auto | clear
  | value (v : F32)
  deriving DecidableEq, Repr

/-- A unit in another state: FAULT_CODE is 0 outside HOLD and FAULT (Table 01-2). -/
def State.setSt (s : State) (slot : Nat) (st : UState) : State :=
  s.modUnit slot (fun u => { u with st := st, faultCode := 0, windDone := false })

/-- Entry into HOLD or FAULT with its UNIT_STATE event (Table 01-4, R83, R478). -/
def State.enterHeld (s : State) (slot : Nat) (st : UState) (code : Nat) : State :=
  if (s.unit slot).st = st then s
  else
    (s.modUnit slot (fun u => { u with st := st, faultCode := code % 256, windDone := false })).raise
      causeUnitState slot (code % 256) st.code

/-! ## Start modes -/

/-- A face or kind with an operator mode in a slot (R21). -/
def modeSlot (c : Content) (slot : Nat) : Bool := hasMode (if isHive slot then faceOf c slot else slotKind slot)

/-- The start-mode parameter of a unit (R173, R228, R256, R273, R293, R300, R305, R312, R318, R335, R363, R366). -/
def startMode (c : Content) (slot : Nat) : Nat :=
  let n := slotInst slot
  match slotKind slot with
  | 0x03 => scalarOf c P.CH_START_MODE n
  | 0x04 => scalarOf c P.LOOP_START_MODE n
  | 0x05 => scalarOf c P.PROF_START_MODE n
  | 0x06 => scalarOf c P.CHURN_START_MODE n
  | 0x07 => scalarOf c P.PROBE_START_MODE n
  | 0x08 => scalarOf c P.COMB_START_MODE n
  | 0x09 => scalarOf c P.PRG_START_MODE n
  | 0x0A => scalarOf c P.CHAIN_START_MODE n
  | 0x0B => scalarOf c P.OBS_START_MODE n
  | 0x0C => scalarOf c P.FAN_START_MODE n
  | 0x0D => scalarOf c P.BIN_START_MODE n
  | 0x0E => scalarOf c P.REC_START_MODE 0
  | 0x0F => scalarOf c P.LINK_PORT_START_MODE n
  | _ => 1

/-- The state of a unit added by a commit (R273 and the kinds' start modes). -/
def addedState (c : Content) (slot : Nat) : UState :=
  let v := startMode c slot
  if hasMode (slotKind slot) then (if v = 2 then .manual else if v = 3 then .auto else .stopped)
  else if v = 0 then .stopped else .active

/-- The state after a start from STOPPED (R273). -/
def startedState (c : Content) (slot : Nat) : UState :=
  if hasMode (slotKind slot) then (if startMode c slot % 2 = 1 then .auto else .manual) else .active

/-! ## Initial conditions and internal state -/

/-- A channel's evaluation state begins anew; the last record and the debounce interval are of the field, and OPEN_LOAD ends
with a record only (R168). -/
def State.resetChan (s : State) (ch : Nat) : State :=
  let c := s.work.chan ch
  s.modWork (·.setChan ch { lastRec := c.lastRec, settleUntil := c.settleUntil, openRun := c.openRun, openLoad := c.openLoad })

/-- The settling interval of UNIT_START (Table 05-16); one that is longer still runs on. -/
def State.beginStartSettle (s : State) (ch : Nat) : State :=
  let f := s.fch ch
  let n := s.settleStart ch
  s.setFch ch { f with settle := Nat.max f.settle n.1, settleDue := n.2, loopOhm := none }

/-- Whether a probe unit has a set that its sweeps can use (R223, R224). -/
def State.probeReady (s : State) (p : Nat) : Bool := (s.chooseSet p s.workTick).isSome

/-- The recorder runs: HUSH or RUN (R366). -/
def State.recorderPower (s : State) : Bool := s.power == .hush || s.power == .run

/-- Initial conditions at a start from STOPPED, or of an added unit that begins running. -/
def State.initUnit (s : State) (slot : Nat) : State :=
  let n := slotInst slot
  match slotKind slot with
  | 0x03 => (s.resetChan n).beginStartSettle n
  | 0x04 => s.startLoop n
  | 0x05 => s.startProf n
  | 0x06 => s.startChurn n
  | 0x07 =>
    let s := s.modWork (·.setProbe n { s.work.probe n with mf := none })
    let s := s.setFprobe n { s.fprobe n with run := none, ready := none }
    if s.probeReady n then s else s.detect slot 0x01
  | 0x08 =>
    let s := s.modWork (·.setComb n { s.work.comb n with missRun := [] })
    let s := s.dropRound n
    s.setFcomb n { s.fcomb n with startDue := true }
  | 0x09 => s.startProg n
  | 0x0A => s.startChain n
  | 0x0B => s.startObs n
  | 0x0C => s.startFan n
  | 0x0D => s.startBin n
  | 0x0E => if s.recorderPower then s.openInterval s.workTick else s
  | _ => s

/-- Internal state reinitialised by a stop from HOLD or FAULT (Table 01-4). Records and counts that belong to the field
or that last from power-on stay (R305: PRG_BATCH_COUNT). -/
def State.reinitUnit (s : State) (slot : Nat) : State :=
  let n := slotInst slot
  match slotKind slot with
  | 0x03 => (s.resetChan n).setFch n { s.fch n with trip := none, partner := 0xFF }
  | 0x04 => s.modWork (·.setLoop n {})
  | 0x05 => s.modWork (·.setProf n {})
  | 0x06 => s.modWork (·.setChurn n {})
  | 0x07 => (s.modWork (·.setProbe n { last := (s.work.probe n).last })).setFprobe n
      { s.fprobe n with run := none, ready := none }
  | 0x08 =>
    let c := s.work.comb n
    (s.modWork (·.setComb n { last := c.last, roundsMissed := c.roundsMissed })).setFcomb n
      { s.fcomb n with startDue := true, run := none, ready := none, ended := none }
  | 0x09 => s.modWork (fun p => p.setProg n {
      batches := (p.prog n).batches
      actions := (p.prog n).actions
      faultStop := (p.prog n).faultStop })
  | 0x0A => s.modWork (·.setChain n {})
  | 0x0B => s.modWork (·.setObs n {})
  | 0x0C =>
    let s := { s with fanDom := { s.fanDom with supplyShort := s.fanDom.supplyShort.set n false } }
    s.modWork (fun p => p.setFan n { lastRec := (p.fan n).lastRec })
  | 0x0D => s.modWork (·.setBin n {})
  | _ => s

/-- A stop absorbed by a start in STOPPING (R24 and the kinds' own rules). -/
def State.absorbUnit (s : State) (slot : Nat) : State :=
  let n := slotInst slot
  match slotKind slot with
  | 0x04 =>
    s.modWork (fun p =>
      let l := p.loop n
      p.setLoop n (if (p.unit slot).resume = .manual then { l with manual := l.uLast } else { l with presetDue := true }))
  | 0x09 => s.modWork (fun p => p.setProg n (p.prog n).absorb)
  | 0x0A => s.modWork (fun p => p.setChain n (p.chain n).absorb)
  | _ => s

/-! ## Stops (R24 and the kinds' own rules) -/

/-- The recorder's open interval is cut at its last tick, unless the cut has been made, and no interval is open (R368). -/
def State.stopRecorder (s : State) (causes : BitVec 8) : State :=
  let s :=
    if s.work.recAcc.opened ∧ s.work.recAcc.tStart < s.workTick then s.cutSummary s.content (s.workTick - 1) causes else s
  s.closeInterval

/-- A running unit's stop: the wind-down begins, or the unit is STOPPED at once. -/
def State.beginStop (s : State) (slot : Nat) : State :=
  let n := slotInst slot
  let was := (s.unit slot).st
  let wind (s : State) : State := (s.setSt slot .stopping).modUnit slot (fun u => { u with resume := was })
  let halt (s : State) : State := s.setSt slot .stopped
  match slotKind slot with
  | 0x04 => if s.cfg P.STOP_MODE n = 2 then halt s else wind s
  | 0x05 =>
    let k := s.profConst n
    wind (s.modWork (fun p => p.setProf n { p.prof n with stopAt := k.stopPoint (p.prof n) }))
  | 0x06 => wind s
  | 0x08 => halt (s.dropRound n)
  | 0x09 =>
    let i := s.cfg P.PRG_STOP_STEP n
    if i = 0xFF then halt s else wind (s.modWork (fun p => p.setProg n ((p.prog n).stopInto i)))
  | 0x0A => wind (s.modWork (fun p => p.setChain n (p.chain n).stopRequest))
  | 0x0C => wind s
  | 0x0E => halt (s.stopRecorder 0x40#8)
  | 0x0F =>
    let peers := s.link.peers.filter (fun e => e.2.port == n && e.2.state == 3)
    halt ((peers.foldl (fun s e => s.sendLeave e.1 3) s).portDown n)
  | _ => halt s

/-! ## Cells of a unit whose capacity changes (Table 01-9) -/

/-- The cells a unit writes, changed in the working copy. -/
def State.modUnitCells (s : State) (slot : Nat) (f : Cell → Cell) : State :=
  (unitWrites s.content slot).foldl (fun s r => s.modWork (fun p => p.setCell r (f (p.cell r)))) s

/-- CAPACITY_CHANGED on a unit and on every unit that reads one of its cells (R43). -/
def State.capacityChanged (s : State) (slot : Nat) : State :=
  let ws := unitWrites s.content slot
  let hit (u : Nat) : Bool := u == slot || (unitReads s.content u ++ markedReads s.content u).any ws.contains
  ((configuredSlots s.content).filter hit).foldl (fun s u => s.modUnit u (fun r => { r with capChanged := true })) s

/-- A channel returned to service: STOPPED is the caller's; cells SETTLING until the settling interval of its mode ends,
debouncing anew, the return in the record and on its readers (Table 01-9, R43, R174). -/
def State.returnChannel (s : State) (ch : Nat) : State :=
  let s := (s.modUnitCells (chanSlot ch) Cell.settling).modWork (fun p => p.setChan ch { p.chan ch with back := true })
  let s := s.beginSettle ch (s.settleEntry ch) s.workTick
  let s := s.setFch ch { s.fch ch with loopOhm := none }
  (s.note 0x34 (chanSlot ch) (code4 1)).capacityChanged (chanSlot ch)

/-- The settling interval of a channel that has come back has ended at boundary `t`: its cells are GOOD (Table 01-9). -/
def State.returnEnds (s : State) (t ch : Nat) : State :=
  let c := s.work.chan ch
  if c.back && (s.fch ch).settle == 0 && decide (c.settleUntil ≤ t) then
    (s.modUnitCells (chanSlot ch) Cell.settled).modWork (fun p => p.setChan ch { p.chan ch with back := false })
  else s

/-! ## Clearing a fault (Tables 04-4, 05-17, 06-1, 06-6, 07-10, 08-3, 08-4, 09-3, 09-5, 09-10, 10-5, 11-4) -/

/-- A line below its idle level: 24 V from a supply of 25.5 V, else 1.5 V under it, each within a band in which the
outcome is free (log entry 4). -/
def State.lineBelowIdle (s : State) (ch : Nat) : Bool × State :=
  let mv := 10 * (s.work.chan ch).lastRec.fine
  let v : Int := (s.bank (ch / 8)).vfld
  let lo : Int := if 25500 ≤ v then 23500 else v - 2000
  let hi : Int := if 25500 ≤ v then 24500 else v - 1000
  if mv < lo then (true, s)
  else if hi < mv then (false, s)
  else
    let r := s.drawFree
    (r.1 % 2 == 1, r.2)

/-- The outcome of a self-test that the field runs at UNIT_CLEAR_FAULT: free (log entry 4). -/
def State.selfTest (s : State) : Bool × State :=
  let r := s.drawFree
  (r.1 % 2 == 1, r.2)

/-- The self-test of a bank's impedance engine at UNIT_CLEAR_FAULT: a failure puts every probe unit of the bank into FAULT
(R234, ENGINE_STATE). -/
def State.engineTest (s : State) (b : Nat) : Bool × State :=
  let r := s.selfTest
  (r.1, r.2.engineFound b r.1)

/-- Whether the cause of a channel unit's fault is gone; the terminal as the last record shows it (R142). -/
def State.chanCauseGone (s : State) (ch code : Nat) : Bool × State :=
  let c := s.work.chan ch
  match code with
  | 0x01 => (!(s.fch ch).serviceOff && (s.bank (ch / 8)).state == .inService, s)
  | 0x02 => (!s.smoker.calmed, s)
  | 0x03 => (!s.stagesOff (ch / 8), s)
  | 0x11 => (decide (c.lastRec.fine < 500), s)
  | 0x12 => (decide (c.lastRec.fine < 500), s)
  | 0x20 => s.selfTest
  | 0x22 => ((match calGroup (s.mode ch) with | some g => !(s.fch ch).calInvalid.contains g | none => true), s)
  | 0x30 => (flt (fabs (fmul (fOfInt c.lastRec.coarse) (pathConst 0x05).lsbC)) (fRat 1 2), s)
  | 0x40 => s.selfTest
  | 0x41 => s.lineBelowIdle ch
  | _ => (true, s)

/-- Whether the cause of a unit's fault is gone. -/
def State.causeGone (s : State) (slot : Nat) : Bool × State :=
  let n := slotInst slot
  let code := (s.unit slot).faultCode
  match slotKind slot with
  | 0x03 => s.chanCauseGone n code
  | 0x04 => (code != 0x01 || (s.seeFrom slot (s.cfg P.PV_CELL n)).num.isSome, s)
  | 0x05 => (code != 0x01 || (s.seeFrom slot (s.cfg P.PROF_TARGET_CELL n)).num.isSome, s)
  | 0x07 => if code = 0x01 then (s.probeReady n, s) else if code = 0x02 then s.engineTest (s.probeDrive n / 8) else (true, s)
  | 0x09 =>
    let st := s.prgStepAt n (s.work.prog n).step
    (code != 0x01 || !(condition st (s.seeFrom slot st.condCell)).2, s)
  | 0x0A =>
    ((s.work.chain n).members.all (fun m => !m.2.running) && (code != 0x12 || s.plugClear n), s)
  | 0x0B => (code != 0x01 || s.obsInputsOk n, s)
  | 0x0F => s.selfTest
  | _ => (true, s)

/-- What a cleared fault leaves: a channel's trip is released, and one returned to service settles anew (Table 01-9);
a churn's table is zeroed (R293); a fan's retries begin anew (R332). -/
def State.clearedUnit (s : State) (slot code : Nat) : State :=
  let n := slotInst slot
  match slotKind slot with
  | 0x03 =>
    let s := s.setFch n { s.fch n with trip := none, partner := 0xFF }
    if code = 0x01 then s.returnChannel n else s
  | 0x06 => s.modWork (fun p => p.setChurn n { p.churn n with table := [] })
  | 0x0C =>
    let s := { s with fanDom := { s.fanDom with supplyShort := s.fanDom.supplyShort.set n false } }
    s.modWork (fun p => p.setFan n { p.fan n with retries := 0 })
  | _ => s

/-! ## Actions on one unit (Table 01-4) -/

/-- A start. A comb line does not start while it is enumerated (R254). -/
def State.startUnit (s : State) (slot : Nat) : Bool × State :=
  match (s.unit slot).st with
  | .stopped =>
    if slotKind slot = 0x08 ∧ (s.fcomb (slotInst slot)).enumerating then (false, s)
    else (true, (s.setSt slot (startedState s.content slot)).initUnit slot)
  | .stopping => (true, (s.absorbUnit slot).setSt slot (s.unit slot).resume)
  | .hold => (false, s)
  | .fault => (false, s)
  | _ => (true, s)

/-- A stop. -/
def State.stopUnit (s : State) (slot : Nat) : Bool × State :=
  match (s.unit slot).st with
  | .hold => (true, (s.reinitUnit slot).setSt slot .stopped)
  | .fault => (true, (s.reinitUnit slot).setSt slot .stopped)
  | .active => (true, s.beginStop slot)
  | .auto => (true, s.beginStop slot)
  | .manual => (true, s.beginStop slot)
  | _ => (true, s)

/-- A clear fault. -/
def State.clearUnit (s : State) (slot : Nat) : Bool × State :=
  match (s.unit slot).st with
  | .hold => (false, s)
  | .fault =>
    let code := (s.unit slot).faultCode
    let r := s.causeGone slot
    if r.1 then (true, (r.2.clearedUnit slot code).setSt slot .stopped) else r
  | _ => (true, s)

/-- Entry into MANUAL with the bumpless transfer of the kind (R272, R287, R335). -/
def State.toManual (s : State) (slot : Nat) : State :=
  let n := slotInst slot
  let s := s.setSt slot .manual
  match slotKind slot with
  | 0x04 => s.modWork (fun p => p.setLoop n { p.loop n with manual := (p.loop n).uLast })
  | 0x05 =>
    let k := s.profConst n
    s.modWork (fun p => p.setProf n { p.prof n with manual := k.stopPoint (p.prof n) })
  | 0x0C => s.modWork (fun p => p.setFan n { p.fan n with manual := (p.fan n).cApplied })
  | _ => s

/-- CALM_SAFE ends (R276, R287, R309, R336). -/
def State.endCalmSafe (s : State) (slot : Nat) : State :=
  let n := slotInst slot
  match slotKind slot with
  | 0x04 => s.modWork (fun p => p.setLoop n { p.loop n with calmSafe := false })
  | 0x05 => s.modWork (fun p => p.setProf n { p.prof n with calmSafe := false })
  | 0x09 => s.modWork (fun p => p.setProg n { p.prog n with calmSafe := false })
  | 0x0C => s.modWork (fun p => p.setFan n { p.fan n with calmSafe := false })
  | _ => s

/-- Entry into AUTO: a loop's first step is a preset step (R270). -/
def State.toAuto (s : State) (slot : Nat) : State :=
  let n := slotInst slot
  let s := (s.setSt slot .auto).endCalmSafe slot
  if slotKind slot = 0x04 then s.modWork (fun p => p.setLoop n { p.loop n with presetDue := true }) else s

/-- A transfer between AUTO and MANUAL. -/
def State.modeUnit (s : State) (slot : Nat) (dest : UState) : Bool × State :=
  let st := (s.unit slot).st
  if !hasMode (slotKind slot) || !st.running then (false, s)
  else if st = dest then (true, if dest = .auto then s.endCalmSafe slot else s)
  else (true, if dest = .auto then s.toAuto slot else s.toManual slot)

/-- MANUAL_VALUE set in MANUAL (R272, R335). -/
def State.valueUnit (s : State) (slot : Nat) (v : F32) : Bool × State :=
  let n := slotInst slot
  if (s.unit slot).st ≠ .manual then (false, s)
  else
    let s' := s.endCalmSafe slot
    match slotKind slot with
    | 0x04 => (true, s'.modWork (fun p => p.setLoop n { p.loop n with manual := v }))
    | 0x05 => (true, s'.modWork (fun p => p.setProf n { p.prof n with manual := v }))
    | 0x0C => (true, s'.modWork (fun p => p.setFan n { p.fan n with manual := v }))
    | _ => (false, s)

/-- An action on a unit that is no hive. The housekeeping unit takes none (R427). -/
def State.actUnit (s : State) (slot : Nat) (a : Act) : Bool × State :=
  if slot = hkSlot then (false, s)
  else
    match a with
    | .start => s.startUnit slot
    | .stop => s.stopUnit slot
    | .clear => s.clearUnit slot
    | .manual => s.modeUnit slot .manual
    | .auto => s.modeUnit slot .auto
    | .value v => s.valueUnit slot v

/-! ## Hives (R28, R29, R475) -/

/-- Members in evaluation order. -/
def State.orderedMembers (s : State) (hive : Nat) : List Nat :=
  let ms := membersOf s.content hive
  s.order.filter ms.contains ++ ms.filter (fun u => !s.order.contains u)

/-- The first REQUIRED member in HOLD or FAULT, in evaluation order. -/
def State.requiredHeld (s : State) (hive : Nat) : Option Nat :=
  (s.orderedMembers hive).find? (fun u => (headerOf s.content u).required && (s.unit u).st.held)

/-- What a running hive reports: the mode of the member bound to its face's operator mode, or ACTIVE (R475). -/
def State.hiveMode (s : State) (hive : Nat) : UState :=
  if !modeSlot s.content hive then .active
  else
    match boundTo s.content (hiveNumber hive) modeItem with
    | some b =>
      let st := (s.unit (b.1 % 1024)).st
      if st = .auto ∨ st = .manual then st else .manual
    | none => .manual

/-- The status word of the grafted root hive of a node that was joined and is lost: FAULT with NODE_LOST (R28). -/
def lostRootWord : Nat := 16777216 * 0x01 + 256 * 0xFF + 6

/-- The state codes of the root hives grafted into a queen's tree: as each node reports it, FAULT for a node that was joined
and is lost (R28, R30). -/
def State.graftStates (s : State) : List Nat :=
  (s.link.peers.filter (fun e => s.queen && (e.2.wasLost || e.2.state == 3))).map (fun e =>
    (if e.2.wasLost then lostRootWord else e.2.rootWord.toNat) % 16)

/-- A grafted root hive is in HOLD or FAULT. The spec gives no parameter that marks one REQUIRED: every grafted hive counts
as OPTIONAL, so that it sets MEMBER_FAULT alone (R28, R30; DESIGN CHOICE, log entry 38). -/
def State.graftedFault (s : State) : Bool := s.graftStates.any (fun st => st == 5 || st == 6)

/-- Every grafted root hive is STOPPED or in FAULT: what the root hive's stop waits for (R29, R30). -/
def State.graftsStopped (s : State) : Bool := s.graftStates.all (fun st => st == 0 || st == 6)

/-- What follows for a hive from the states of its members: MEMBER_FAULT, FAULT of a REQUIRED member, the end of a stop and
the mode it reports. -/
def State.syncHive (s : State) (hive : Nat) : State :=
  let ms := membersOf s.content hive
  let mf := ms.any (fun u => (s.unit u).st.held) || (hive == 0 && s.graftedFault)
  let s := s.modUnit hive (fun u => { u with memberFault := mf })
  let st := (s.unit hive).st
  match s.requiredHeld hive with
  | some u =>
    if st.held then s else s.enterHeld hive .fault (s.unit u).faultCode
  | none =>
    if st = .stopping ∧ ms.all (fun u => (s.unit u).st = .stopped ∨ (s.unit u).st = .fault) ∧
        (hive != 0 || s.graftsStopped) then s.setSt hive .stopped
    else if st.running && modeSlot s.content hive && st != s.hiveMode hive then s.setSt hive (s.hiveMode hive)
    else s

/-- The hives below a hive and itself, members before their parents; `k` bounds the depth. -/
def hivesUp (c : Content) : Nat → Nat → List Nat
  | 0, _ => []
  | k + 1, h => ((membersOf c h).filter isHive).flatMap (hivesUp c k) ++ [h]

/-- Every hive of the tree, members before their parents. -/
def State.syncHives (s : State) : State := (hivesUp s.content 257 0).foldl State.syncHive s

/-- An action on a unit or hive; members of a hive below `k` levels. False when the state refuses it. A stop on a hive in
FAULT or HOLD sets it STOPPED at once (Table 01-4), though members may still be STOPPING: R29 has a running hive wait for
them and says nothing of one in FAULT or HOLD (DESIGN CHOICE, log entry 39). -/
def State.act : Nat → State → Nat → Act → Bool × State
  | 0, s, _, _ => (false, s)
  | k + 1, s, slot, a =>
    if !isHive slot then s.actUnit slot a
    else
      let st := (s.unit slot).st
      match a with
      | .start =>
        if st.held then (false, s)
        else
          let r := (s.orderedMembers slot).foldl (fun s u => (State.act k s u .start).2) s
          let r := if st = .stopped then r.setSt slot (r.hiveMode slot)
            else if st = .stopping then r.setSt slot (r.unit slot).resume else r
          (true, r)
      | .stop =>
        let r := (s.orderedMembers slot).reverse.foldl (fun s u => (State.act k s u .stop).2) s
        if st.held then (true, r.setSt slot .stopped)
        else if st.running then (true, (r.setSt slot .stopping).modUnit slot (fun u => { u with resume := st }))
        else (true, r)
      | .clear =>
        if st = .hold then (false, s)
        else
          let r := (s.orderedMembers slot).foldl
            (fun s u => if (s.unit u).st = .fault then (State.act k s u .clear).2 else s) s
          if st = .fault then
            if (r.requiredHeld slot).isSome then (false, r) else (true, r.setSt slot .stopped)
          else (true, r)
      | a =>
        match boundTo s.content (hiveNumber slot) modeItem with
        | some b => if st.running then State.act k s (b.1 % 1024) a else (false, s)
        | none => (false, s)

/-- A command's action at a boundary: one that the state refuses is discarded and sets CMD_DROPPED (R23). -/
def State.command (s : State) (slot : Nat) (a : Act) : State :=
  let r := s.act 257 slot a
  if r.1 then r.2.syncHives else (r.2.modUnit slot (fun u => { u with cmdDropped := true })).syncHives

end Sys2Proof.Machine
end

