-- ==== Sys2Proof/Machine/Capacity.lean ====
section
/-! DEFINITION. What changes many units at once at a boundary: channels out of and back in service, a smoker calm, and a
generation that becomes active (R43 to R45, Table 01-9, R85, R140, R380, R378). -/

namespace Sys2Proof.Machine

/-! ## Channels and banks out of service (Table 01-9, R132, R174) -/

/-- A channel is out of service from this boundary: FAULT with OUT_OF_SERVICE whatever its state was, cells OFFLINE. -/
def State.channelOut (s : State) (ch : Nat) : State :=
  let slot := chanSlot ch
  if !s.has slot then s
  else
    let s := (s.modUnitCells slot Cell.offline).modWork (fun p =>
      p.setChan ch { p.chan ch with back := false, outAt := some s.workTick })
    let s :=
      if (s.unit slot).st = .fault then s.modUnit slot (fun u => { u with faultCode := 0x01 })
      else s.enterHeld slot .fault 0x01
    ((s.modUnit slot (fun u => { u with faultDue := none, holdDue := none })).note 0x34 slot (code4 0)).capacityChanged slot

/-- CHANNEL_SERVICE takes effect (R174). A channel that is back in service is STOPPED with its cells SETTLING, when its
bank is IN_SERVICE too; one that the same boundary took out of service stays in FAULT, its cells OFFLINE (R45). -/
def State.channelService (s : State) (ch : Nat) (on : Bool) : State :=
  let slot := chanSlot ch
  let u := s.unit slot
  let out : Bool := (s.fch ch).serviceOff || (u.st == .fault && u.faultCode == 0x01)
  let s := s.setFch ch { s.fch ch with serviceOff := !on }
  if !on then s.channelOut ch
  else if out ∧ (s.bank (ch / 8)).state = .inService ∧ (s.work.chan ch).outAt ≠ some s.workTick then
    ((s.setSt slot .stopped).modUnit slot (fun u => { u with faultDue := none })).returnChannel ch
  else s

/-! ## A smoker calm (R85, R140, R208, R276, R287, R309, R314, R336) -/

/-- What a calm does to one unit. -/
def State.calmUnit (s : State) (slot : Nat) : State :=
  let n := slotInst slot
  let st := (s.unit slot).st
  let mode := s.mode n
  let manual (s : State) : State := s.setSt slot .manual
  let driven : Bool := st == .auto || st == .manual
  match slotKind slot with
  | 0x03 =>
    if (modeDo mode || mode == 7 || mode == 8) && st != .stopped && st != .fault then s.enterHeld slot .fault 0x02 else s
  | 0x04 =>
    if !driven then s
    else
      (manual s).modWork (fun p =>
        let l := p.loop n
        p.setLoop n { l with calmSafe := true
                             manual := if s.cfg P.SAFE_MODE n = 0 then l.uLast else s.cfgF P.SAFE_OUTPUT n })
  | 0x05 =>
    if !driven then s
    else
      let k := s.profConst n
      (manual s).modWork (fun p =>
        p.setProf n { p.prof n with calmSafe := true, braking := true, manual := k.stopPoint (p.prof n) })
  | 0x09 =>
    if st ≠ .auto then s
    else (manual s).modWork (fun p => p.setProg n { p.prog n with calmSafe := true })
  | 0x0A => if st = .active ∨ st = .stopping then (s.haltChain n).setSt slot .stopped else s
  | 0x0C =>
    if !driven then s
    else
      (manual s).modWork (fun p => p.setFan n { p.fan n with calmSafe := true, manual := s.runF P.FAN_FAILSAFE n })
  | _ => s

/-- The module calms at a boundary: every unit by its kind, the SMOKER cause, and the calm in the input record. -/
def State.calm (s : State) : State :=
  let s := { s with smoker := { s.smoker with calmed := true } }
  let s := (configuredSlots s.content).foldl State.calmUnit s
  (s.syncHives.raise causeSmoker 0xFFFF 0 0).note 0x33 0 []

/-! ## A generation becomes active (R43, R44, R378, R380) -/

/-- The parameters of one unit in a content, without its header. -/
def unitRecords (c : Content) (slot : Nat) : Content :=
  c.filter (fun e => e.1 != P.UNIT_HEADER && paramOwner e.1 e.2.1 == .unit slot)

/-- The records of REC_HISTS, REC_INTERVAL or REC_SAMPLE differ (R368). -/
def recordingDiffers (a b : Content) : Bool :=
  blockOf a P.REC_HISTS 0 != blockOf b P.REC_HISTS 0 || scalarOf a P.REC_INTERVAL 0 != scalarOf b P.REC_INTERVAL 0 ||
    scalarOf a P.REC_SAMPLE 0 != scalarOf b P.REC_SAMPLE 0

/-- What a channel's measurement rests on, as Table 05-16 lists it. -/
def chanSettings (c : Content) (ch : Nat) : List Nat :=
  let force := resForce c ch
  [scalarOf c P.AI_RATE force, scalarOf c P.AI_RANGE ch, scalarOf c P.RANGE_PATH ch, scalarOf c P.MAINS_FILTER force,
   scalarOf c P.RES_ELEMENT force, scalarOf c P.RES_WIRING force]

/-- The state of a unit that is no longer configured (R43, R44). -/
def Plant.dropUnit (p : Plant) (slot : Nat) : Plant :=
  let n := slotInst slot
  let p := { p with units := Tab.put {} p.units slot {} }
  match slotKind slot with
  | 0x03 => p.setChan n {}
  | 0x04 => p.setLoop n {}
  | 0x05 => p.setProf n {}
  | 0x06 => p.setChurn n {}
  | 0x07 => p.setProbe n {}
  | 0x08 => p.setComb n { roundsMissed := (p.comb n).roundsMissed }
  | 0x09 => p.setProg n { batches := (p.prog n).batches }
  | 0x0A => p.setChain n {}
  | 0x0B => p.setObs n {}
  | 0x0C => p.setFan n {}
  | 0x0D => p.setBin n {}
  | 0x0E => { p with recAcc := {} }
  | _ => p

/-- A unit removed: its state is gone, and its field side is that of a vacant slot. -/
def State.removeUnit (s : State) (slot : Nat) : State :=
  let n := slotInst slot
  let s := s.modWork (·.dropUnit slot)
  match slotKind slot with
  | 0x03 =>
    let f := s.fch n
    s.setFch n { fieldRecs := f.fieldRecs, newRecs := f.newRecs, calInvalid := f.calInvalid, level := f.level
                 substCount := f.substCount, flags := f.flags }
  | 0x07 => s.setFprobe n { s.fprobe n with run := none, ready := none }
  | 0x08 => s.setFcomb n {}
  | 0x0F => s.portDown n
  | _ => s

/-- Entry of a channel into a mode (R146, R149, R173, Table 05-16): outputs off until the first refresh, settling and
debouncing anew; a channel in mode OFF writes its primary cell once. -/
def State.enterMode (s : State) (ch t : Nat) : State :=
  let f := s.fch ch
  let s := s.modWork (fun p => p.setChan ch { lastRec := { (p.chan ch).lastRec with status := 0 } })
  let s := s.setFch ch { f with
    present := f.present &&& 0xFFBC#16
    cmd := .off
    driven := .off
    refreshed := false
    formed := none
    loopOhm := none
    settleDue := 0
    raw := []
    latched := none
    edges := 0
    lastFine := none
    counted := 0
    countFine := none
    excNow := 0
    excRec := 0
    openLoop := false
    pulseNow := 0
    pulseNext := none }
  let s := s.beginSettle ch (s.settleEntry ch) t
  if s.mode ch = 0 then s.writeCell (chanSlot ch) (chanSlot ch) 0 0 t 0x40#8 else s

/-- What a commit does to a channel unit that it keeps. -/
def State.keepChannel (s : State) (old : Content) (ch t : Nat) : State :=
  if scalarOf old P.CH_MODE ch ≠ scalarOf s.content P.CH_MODE ch then s.enterMode ch t
  else if chanSettings old ch ≠ chanSettings s.content ch then
    let s := s.setFch ch { s.fch ch with raw := [] }
    s.beginSettle ch (Nat.max (s.fch ch).settle (s.settleEntry ch)) t
  else s

/-- A churn within a changed CHURN_BINS and CHURN_FADE (R289, R292, Table 08-11). -/
def ChurnState.fit (c : ChurnState) (bins fade : Nat) : ChurnState :=
  { c with
    table := c.table.filter (fun e => decide (e.1 < bins))
    bPrev := c.bPrev.filter (fun b => decide (b < bins))
    fadeCount := Nat.min c.fadeCount fade }

/-- What a commit does to a probe unit that it keeps (R221, R224). -/
def State.keepProbe (s : State) (old : Content) (p : Nat) : State :=
  let c := s.content
  let f := s.fprobe p
  let s :=
    if scalarOf old P.PROBE_CHANNEL p ≠ scalarOf c P.PROBE_CHANNEL p ∨
        blockOf old P.PROBE_PLAN p ≠ blockOf c P.PROBE_PLAN p ∨
        scalarOf old P.DIEL_AMPLITUDE p ≠ scalarOf c P.DIEL_AMPLITUDE p then
      s.setFprobe p { f with run := f.run.map (fun r => { r with missed := true }) }
    else s
  if (s.unit (probeSlot p)).st = .active ∧ !s.probeReady p then s.detect (probeSlot p) 0x01 else s

/-- What a commit does to a comb line unit that it keeps (R246, R252). -/
def State.keepComb (s : State) (old : Content) (l : Nat) : State :=
  let c := s.content
  let map : Bool := blockOf old P.COMB_NODEMAP l != blockOf c P.COMB_NODEMAP l
  let line : Bool := map || scalarOf old P.COMB_CHANNEL l != scalarOf c P.COMB_CHANNEL l
  let cells : Bool := [P.CELL_TEMP_BASE, P.CELL_RH_BASE, P.CELL_CO2_BASE].any (fun id => scalarOf old id l != scalarOf c id l)
  let s := if line || cells then s.abandonRound l else s
  let s := if line then s.setFcomb l { s.fcomb l with startDue := true, needAssign := [] } else s
  if map then s.modWork (fun p => p.setComb l { p.comb l with missRun := [] }) else s

/-- What a commit does to a unit that it keeps: its state stays, with the changes its kind defines (R43, R270, R380). -/
def State.keepUnit (s : State) (old : Content) (t slot : Nat) : State :=
  let n := slotInst slot
  match slotKind slot with
  | 0x03 => s.keepChannel old n t
  | 0x04 =>
    if unitRecords old slot = unitRecords s.content slot then s
    else s.modWork (fun p => p.setLoop n { p.loop n with presetDue := true })
  | 0x06 => s.modWork (fun p => p.setChurn n ((p.churn n).fit (s.cfg P.CHURN_BINS n) (s.cfg P.CHURN_FADE n)))
  | 0x07 => s.keepProbe old n
  | 0x08 => s.keepComb old n
  | 0x0E =>
    if recordingDiffers old s.content ∧ s.work.recAcc.opened then s.openInterval t else s
  | _ => s

/-- A unit added (Table 01-9): its start mode, with the initial conditions of a start; a channel of a failed bank is out of
service at once (R45). Hives follow their members. -/
def State.addUnit (s : State) (t slot : Nat) : State :=
  let n := slotInst slot
  if isHive slot then s
  else
    let st := addedState s.content slot
    let s := s.modWork (fun p => { p with units := Tab.put {} p.units slot { st := st } })
    let s := if slotKind slot = 0x03 then s.enterMode n t else s
    let s := if slotKind slot = 0x08 then s.setFcomb n {} else s
    if slotKind slot = 0x03 ∧ s.outOfService n then s.channelOut n
    else if st.running then s.initUnit slot else s

/-- A hive added takes its state after its members (R475). -/
def State.addHive (s : State) (hive : Nat) : State :=
  let all := (membersOf s.content hive).all (fun u => (s.unit u).st = .stopped)
  let st := if hive = 0 then .active else if all then .stopped else s.hiveMode hive
  s.modWork (fun p => { p with units := Tab.put {} p.units hive { st := st } })

/-- Whether inputs, outputs or membership of a unit differ between two contents (R43). -/
def unitChanged (a b : Content) (wa wb : List (Nat × Nat)) (slot : Nat) : Bool :=
  let reads (c : Content) (w : List (Nat × Nat)) : List (Nat × Option Nat) :=
    (unitReads c slot ++ markedReads c slot).map (fun r => (r, (w.find? (fun e => e.1 == r)).map (·.2)))
  reads a wa != reads b wb || unitWrites a slot != unitWrites b slot || (headerOf a slot).parent != (headerOf b slot).parent ||
    (isHive slot && (membersOf a slot != membersOf b slot ||
      bindingsOf a (hiveNumber slot) != bindingsOf b (hiveNumber slot)))

/-- Cells of the comb whose writer changes begin anew (Table 01-9): null without a writer, OFFLINE until the first write. A
force on such a cell ends with its writer, which R38 does not say (DESIGN CHOICE, log entry 40). -/
def Plant.switchWriters (p : Plant) (wa wb : List (Nat × Nat)) : Plant :=
  let owner (w : List (Nat × Nat)) (r : Nat) : Option Nat := (w.find? (fun e => e.1 == r)).map (·.2)
  { p with cells := p.cells.filter (fun e => decide (8192 ≤ e.1) || owner wa e.1 == owner wb e.1) }

/-- Running values of "tick" parameters when stored values change (R378). -/
def Plant.switchRunning (p : Plant) (a b : Content) : Plant :=
  let keep (e : Nat × Nat × Val) : Bool :=
    scalarOf a e.1 e.2.1 == scalarOf b e.1 e.2.1 &&
      (match paramOwner e.1 e.2.1 with | .unit slot => configured b slot | _ => true)
  { p with running := p.running.filter keep }

/-- The link under a new content: a module that stops being queen, or becomes one, leaves its line (R342); otherwise
subscriptions follow the cells that are read (R353). -/
def State.switchLink (s : State) (old : Content) : State :=
  if (scalarOf old P.LINK_ROLE 0 == 1) != (scalarOf s.content P.LINK_ROLE 0 == 1) then
    s.link.peers.foldl (fun s e =>
      let s := if e.2.state = 3 then s.sendLeave e.1 1 else s
      s.setPeer e.1 { s.peer e.1 with lostDue := true }) s
  else
    let changed (n : Nat) : Bool :=
      let list (c : Content) : List Nat := (remoteRefs c).filter (fun r => r / 8192 == n)
      n != 0 && decide (2 ≤ (s.peer n).state) && list old != list s.content
    (((s.link.peers.map (·.1)).filter (fun n => s.queen && changed n)).foldl State.sendSubscribe s).subscribeCells

/-- The working region of a unit's kind (Table 03-3). -/
def unitRegion (slot : Nat) : Nat := match slotKind slot with | 0x06 => 2 | 0x0B => 3 | _ => 1

/-- CAPACITY entries of a commit (Table 01-9): units added and removed, hives regrouped, units whose region is resized. One
removed is noted when it lay in the scope of the record. -/
def State.noteCapacity (s : State) (a : Content) (gone fresh kept : List Nat) : State :=
  let b := s.content
  let all (code : Nat) (s : State) (l : List Nat) : State := l.foldl (fun s u => s.note 0x34 u (code4 code)) s
  let regrouped (u : Nat) : Bool := isHive u && membersOf a u != membersOf b u
  let resized (u : Nat) : Bool :=
    scalarOf a P.REGION_PAGES (unitRegion u) != scalarOf b P.REGION_PAGES (unitRegion u)
  let s := all 2 s fresh
  let s := all 3 s (gone.filter (fun u => s.inrec.open_ && inScope a s.inrec.scope 258 u))
  let s := all 4 s (kept.filter regrouped)
  all 5 s (kept.filter resized)

/-- The units and cells of the module go over from content `a` to the active content at boundary `t`. A unit that the change
adds counts as one whose inputs and outputs it alters (DEDUCED). -/
def State.switchUnits (s : State) (a : Content) (t : Nat) : State :=
  let b := s.content
  let wa := cellWriters a
  let wb := cellWriters b
  let slots := configuredSlots b
  let gone := (configuredSlots a).filter (fun u => !configured b u)
  let fresh := slots.filter (fun u => !configured a u)
  let kept := slots.filter (configured a)
  let s := s.modWork (fun p => (p.switchRunning a b).switchWriters wa wb)
  let s := gone.foldl State.removeUnit s
  let s := { s with order := (orderOf b).1 }
  let s := kept.foldl (fun s u => s.keepUnit a t u) s
  let s := (fresh.foldl (fun s u => s.addUnit t u) s).noteCapacity a gone fresh kept
  let s := ((hivesUp b 257 0).filter fresh.contains).foldl State.addHive s
  (kept.filter (unitChanged a b wa wb) ++ fresh).foldl (fun s u => s.modUnit u (fun r => { r with capChanged := true })) s

/-- The generation that awaits boundary `t` becomes active (R379, R380): its commit or revert job is done, units and cells
go over, regions take their sizes. -/
def State.activate (s : State) (t : Nat) : State :=
  match s.awaiting with
  | none => s
  | some a =>
    match s.generation a.number with
    | none => s
    | some g =>
      if a.at_ ≠ t then s
      else
        let old := s.content
        let s :=
          if s.work.recAcc.tStart < t ∧ s.work.recAcc.opened then
            if !configured g.content recSlot then s.stopRecorder 0x40#8
            else if recordingDiffers old g.content then s.cutSummary old (t - 1) 0x20#8 else s
          else s
        let was := s.activeGen
        let s := s.modGen was (fun g => { g with state := if a.revert then .reverted else .stored })
        let s := s.modGen a.number (fun g => { g with state := .active })
        let s := { s with activeGen := a.number, awaiting := none }
        let s := (s.jobs.filter (fun j => j.etick == some t && (j.opcode == 0x0402#16 || j.opcode == 0x0403#16) &&
            !j.state.ended)).foldl (fun s j => s.endChange j .done stOk 0 j.data) s
        let s := s.switchUnits old t
        let s := { s with sram := s.sram.resize (regionSizes g.content) }
        let s := (List.range s.bankCount).foldl State.vfldFlags s
        (s.resizeRing t).switchLink old |>.syncHives

end Sys2Proof.Machine
end

