-- ==== Sys2Proof/Machine/Update.lean ====
section
/-! DEFINITION. Firmware update (R395 to R414): the manifest, the update session, the boot record and fallback. The
starts that run a slot stand with the boot journal. -/

namespace Sys2Proof.Machine

/-! ## The manifest (R396, R397) -/

/-- STATE codes of Table 13-5. -/
def UpdState.code : UpdState → Nat
  | .idle => 0 | .receiving => 1 | .received => 2 | .verifying => 3 | .verified => 4 | .trial => 5 | .failed => 6

/-- Size of a manifest by its own fields. -/
def manifestSize (m : List Byte) : Nat := 132 + field m 64 2 + (if field m 22 1 % 2 = 1 then 64 else 0)

/-- The first of the offsets whose check fails. -/
def firstBad (l : List (Bool × Nat)) : Option Nat := (l.find? (·.1)).map (·.2)

/-- Check 1 of Table 13-3: the byte offset of the first fault. -/
def manifestFault (m : List Byte) : Option Nat :=
  let size := manifestSize m
  let len := field m 16 4
  let magic := ascii "SGFM"
  firstBad
    [(decide (m.length < 68), m.length),
     (m.take 1 != magic.take 1, 0), (bytesAt m 1 1 != bytesAt magic 1 1, 1), (bytesAt m 2 1 != bytesAt magic 2 1, 2),
     (bytesAt m 3 1 != bytesAt magic 3 1, 3),
     (field m 4 2 != 1, 4), (decide (4 ≤ field m 6 1), 6),
     (len == 0 || decide (6291456 < len), 16), (field m 20 2 != (len + 4087) / 4088, 20),
     (decide (2 ≤ field m 22 1), 22), (field m 23 1 != 0, 23), (field m 56 8 != 0, 56),
     (decide (1024 < field m 64 2), 64), (field m 66 2 != 0, 66),
     (m.length != size, min m.length size)]

/-- Table 13-3: the refusal of the first check that fails. -/
def State.checkManifest (s : State) (m : List Byte) : Option Answer :=
  let l := field m 64 2
  let cert := bytesAt m 68 l
  let cosigned := field m 22 1 % 2 == 1
  let part := if s.id.sg1064 then 1 else 0
  let format := match s.generation s.activeGen with | some g => g.format | none => 1
  match manifestFault m with
  | some off => some (refuse stBadPayload (min off 255))
  | none =>
    if !bit (field m 6 1) part then some (refuse stRange 1)
    else if field m 12 2 < s.cfg P.COMPAT_LEVEL 0 then some (refuse stRange 2)
    else if field m 14 2 < format then some (refuse stRange 3)
    else if !(Config.certSigned cert s.id.rootPub && Config.certCodeSigning cert) then some (refuse stSignature 1)
    else if !(match Config.certKey cert with
        | some k => ecdsaVerify k (sha256 (m.take (68 + l))) (bytesAt m (68 + l) 64)
        | none => false) then some (refuse stSignature 1)
    else
      let oemBad :=
        match s.id.oemKey with
        | some k =>
          (cosigned && !ecdsaVerify k (sha256 (m.take (132 + l))) (bytesAt m (132 + l) 64)) || (s.id.locked && !cosigned)
        | none => false
      if oemBad then some (refuse stSignature 2)
      else if field m 7 1 < s.upd.secVersion then some (refuse stSecVersion)
      else none

/-! ## The update session (R399 to R405) -/

def State.modUpd (s : State) (f : Update → Update) : State := { s with upd := f s.upd }

/-- UPDATE raised after a stage (R478). -/
def State.raiseUpdate (s : State) : State :=
  s.raise causeUpdate 0xFFFF s.upd.state.code
    (s.upd.lastStatus.toNat + 256 * s.upd.lastDetail.toNat + 65536 * s.upd.fallbackReason)

/-- BLOCK_COUNT of the session's manifest. -/
def Update.blockCount (u : Update) : Nat := field u.manifest 20 2

/-- Staging places free: one a page of the UPD region (R401). -/
def State.updFree (s : State) : Nat := s.regionPages 11 - s.upd.staged.length

/-- The session ends; what was written stays invalid for starting (R405). -/
def Update.close (u : Update) : Update :=
  { u with state := .idle, owner := .none, manifest := [], staged := [], nextBlock := 0, verified := 0, image := []
           sectorFails := 0, abortDue := false, activateAt := none, fallbackDue := false }

/-- The owner of the update session is another, open one (R399). -/
def State.updForeign (s : State) (who : UpdOwner) : Bool :=
  s.upd.state != .idle && s.upd.owner != .none && s.upd.owner != who

/-- The refusals shared by the update opcodes: another session owns the update. -/
def updBusy : Answer := refuse stBusy 5

/-- A refusal by the update state. -/
def State.updState (s : State) : Answer := refuse stState s.upd.state.code

/-- UPD_BEGIN (R399, R411). -/
def State.updBegin (s : State) (who : UpdOwner) (m : List Byte) : Answer × State :=
  let u := s.upd
  if u.state = .trial then (updBusy, s)
  else if u.state = .idle then
    match s.checkManifest m with
    | some a => (a, s)
    | none =>
      let other := if u.slotB then 0 else 1
      let u' : Update := { u.close with state := .receiving, owner := who, manifest := m, lastStatus := 0, lastDetail := 0
                                        manifests := u.manifests.set other m, slotBad := u.slotBad.set other true }
      (okAns, { s with upd := u' })
  else if sha256 m ≠ sha256 u.manifest ∨ s.updForeign who then (updBusy, s)
  else
    match s.checkManifest m with
    | some a => (a, s)
    | none => ({ okAns with detail := u.state.code }, s.modUpd (fun u => { u with owner := who }))

/-- NEXT_BLOCK, VERIFIED_BLOCKS and FREE as UPD_BLOCK answers them. -/
def State.blockData (s : State) : List Byte :=
  le 2 s.upd.nextBlock ++ le 2 s.upd.verified ++ [BitVec.ofNat 8 s.updFree, 0, 0, 0]

/-- UPD_BLOCK (R400, R401). -/
def State.updBlock (s : State) (who : UpdOwner) (b : List Byte) : Answer × State :=
  let u := s.upd
  let n := field b 0 2
  if b.length ≠ 4096 then (refuse stBadLength, s)
  else if s.updForeign who then (updBusy, s)
  else if u.state ≠ .receiving then (s.updState, s)
  else if field b 2 2 ≠ 0 then (refuse stBadPayload 2, s)
  else if !crcOkAt b 4092 then (refuse stVerifyFailed (n % 256), s)
  else if u.nextBlock < n ∨ u.blockCount ≤ n then (refuse stRange, s)
  else if n < u.nextBlock then (okData s.blockData, s)
  else if s.updFree = 0 then (updBusy, s)
  else
    let s := s.modUpd (fun u => { u with staged := u.staged ++ [(n, bytesAt b 4 4088)], nextBlock := n + 1 })
    (okData s.blockData, s)

/-- The 64 KB sector of the slot that a block begins in. -/
def blockSector (n : Nat) : Nat := 4088 * n / 65536

/-- The oldest staged block has been programmed and read back (R402). -/
def State.blockProgrammed (s : State) (matched : Bool) : State :=
  let u := s.upd
  match u.staged with
  | [] => s
  | b :: t =>
    if u.state ≠ .receiving then s
    else if matched then
      let v := u.verified + 1
      let u' : Update := { u with staged := t, verified := v, image := u.image ++ [b.2]
                                  sectorFails := if blockSector v = blockSector u.verified then u.sectorFails else 0 }
      if v = u.blockCount then ({ s with upd := { u' with state := .received } }).raiseUpdate else { s with upd := u' }
    else if 2 ≤ u.sectorFails then
      ({ s with upd := { u with state := .failed, staged := [], lastStatus := BitVec.ofNat 8 stInternal
                                lastDetail := 0 } }).raiseUpdate
    else { s with upd := { u with staged := [], nextBlock := u.verified, sectorFails := u.sectorFails + 1 } }

/-- An uncorrectable memory error in a staged block rejects it with VERIFY_FAILED (Table 03-4): it and the blocks staged after
it are to be sent again. -/
def State.stagedBad (s : State) (n : Nat) : State :=
  let u := s.upd
  if u.state = .receiving ∧ u.staged.any (fun b => b.1 == n) then
    { s with upd := { u with staged := u.staged.filter (fun b => decide (b.1 < n)), nextBlock := n
                             lastStatus := BitVec.ofNat 8 stVerifyFailed, lastDetail := BitVec.ofNat 8 (n % 256) } }
  else s

/-- The hash of the slot's image against the manifest (R403). -/
def Update.imageOk (u : Update) : Bool :=
  sha256 (u.image.flatten.take (field u.manifest 16 4)) == bytesAt u.manifest 24 32

/-- UPD_VERIFY completes (R403). -/
def State.verifyDone (s : State) (j : Job) : State :=
  if s.upd.state ≠ .verifying then s
  else if s.upd.imageOk then
    (s.endJob j.handle .done stOk 0 []).modUpd (fun u => { u with state := .verified }) |>.raiseUpdate
  else
    (s.endJob j.handle .failed stVerifyFailed 0xFF []).modUpd (fun u => { u with
      state := .failed, lastStatus := BitVec.ofNat 8 stVerifyFailed, lastDetail := 0xFF#8 }) |>.raiseUpdate

/-- UPD_VERIFY is paused or cancelled: the state returns to RECEIVED, or the session ends when UPD_ABORT waited
(R403, R405). -/
def State.verifyStopped (s : State) : State :=
  (if s.upd.abortDue then s.modUpd Update.close else s.modUpd (fun u => { u with state := .received })).raiseUpdate

/-- UPD_ACTIVATE (R406). -/
def State.updActivate (s : State) (who : UpdOwner) : Answer × State :=
  if s.updForeign who then (updBusy, s)
  else if s.upd.state ≠ .verified then (s.updState, s)
  else if s.awaiting.isSome then (refuse stConfigRefused 0x15, s)
  else (okAns, s.modUpd (fun u => { u with activateAt := some (u.activateAt.getD (s.tick + 2)), fallbackDue := false }))

/-- Every change of the boot record writes the copy not in force and appends a select word (R407). -/
def Update.writeBoot (u : Update) : Update := { u with selectCount := u.selectCount + 1, selectCopy := !u.selectCopy }

/-- The select word in force (R407). -/
def Update.selectWord (u : Update) : Nat :=
  let hi := (if u.selectCopy then 2 ^ 23 else 0) + u.selectCount % 2 ^ 23
  256 * hi + crc8 (be 3 hi)

/-- UPD_CONFIRM (R412). -/
def State.updConfirm (s : State) (who : UpdOwner) : Answer × State :=
  if s.updForeign who then (updBusy, s)
  else if s.upd.state ≠ .trial then (s.updState, s)
  else
    let slot := if s.upd.slotB then 1 else 0
    let sec := field (s.upd.manifests.getD slot []) 7 1
    let s := s.modUpd (fun u => { u.writeBoot.close with
      trial := false, trialsLeft := 0, secVersion := max u.secVersion sec, lastStatus := 0, lastDetail := 0 })
    let s : State := { s with gens := s.gens.map (fun g : Generation => { g with oldFormat := none }) }
    (okAns, s.raiseUpdate)

/-- UPD_ABORT (R405). -/
def State.updAbort (s : State) (who : UpdOwner) : Answer × State :=
  if s.updForeign who then (updBusy, s)
  else
    match s.upd.state with
    | .idle => (okAns, s)
    | .verifying =>
      let s : State := { s with jobs := s.jobs.map (fun j : Job =>
        if j.opcode = 0x0803#16 ∧ !j.state.ended then { j with cancelDue := true } else j) }
      (okAns, s.modUpd (fun u => { u with abortDue := true }))
    | .trial => (okAns, s.modUpd (fun u => { u with activateAt := some (s.tick + 2), fallbackDue := true }))
    | _ => (okAns, (s.modUpd Update.close).raiseUpdate)

/-- OWNER of UPD_STATUS as `who` is told (Table 13-5). -/
def updOwnerCode (u : Update) (who : UpdOwner) : Nat :=
  match u.owner with
  | .none => 0
  | .link => 3
  | .session id => if who = .session id then 1 else 2

/-- UPD_STATUS data (Table 13-5). -/
def State.updStatus (s : State) (who : UpdOwner) : List Byte :=
  let u := s.upd
  [BitVec.ofNat 8 u.state.code, BitVec.ofNat 8 (updOwnerCode u who)] ++ le 2 u.nextBlock ++ le 2 u.verified ++
    le 2 u.blockCount ++ [BitVec.ofNat 8 s.updFree, BitVec.ofNat 8 u.trialsLeft, BitVec.ofNat 8 (if u.slotB then 1 else 0),
      BitVec.ofNat 8 u.secVersion] ++ le 4 u.fwVersion ++ le 4 (field u.manifest 8 4) ++
    [BitVec.ofNat 8 (field u.manifest 7 1), u.lastStatus, u.lastDetail, BitVec.ofNat 8 u.fallbackReason] ++
    (if u.manifest.isEmpty then List.replicate 8 0 else (sha256 u.manifest).take 8)

/-! ## Running a slot (R383, R398, R407, R413) -/

/-- Version, levels and formats that the running slot's manifest names; a slot without one runs as it was made. -/
def State.runSlot (s : State) : State :=
  let m := s.upd.manifests.getD (if s.upd.slotB then 1 else 0) []
  if m.isEmpty then { s with upd := { s.upd with fwVersion := 0x01000000 }, id := { s.id with clHighest := 1, formatLevel := 1 } }
  else
    { s with upd := { s.upd with fwVersion := field m 8 4 }
             id := { s.id with clHighest := field m 12 2, formatLevel := field m 14 2 } }

/-- A fallback (R413): the fallback slot is active and confirmed, the session is over, old formats are back (R383). -/
def State.fallBack (s : State) (reason : Nat) : State :=
  let failed := if s.upd.slotB then 1 else 0
  let s := s.modUpd (fun u => { u.writeBoot.close with
    slotB := u.fallbackB, trial := false, trialsLeft := 0, slotBad := u.slotBad.set failed true
    lastStatus := BitVec.ofNat 8 stInternal, lastDetail := 0, fallbackReason := reason })
  let s : State := { s with gens := s.gens.map (fun g : Generation =>
    match g.oldFormat with
    | some f => { g with format := f.1, oldFormat := none, origin := f.2 }
    | none => g) }
  s.runSlot

/-- The first trial boot converts the active generation and its parent (R383). -/
def State.convertFormats (s : State) : State :=
  let parent := match s.generation s.activeGen with | some g => g.parent | none => 0
  let conv (g : Generation) : Generation :=
    if (g.number = s.activeGen ∨ g.number = parent) ∧ g.format < s.id.formatLevel then
      { g with oldFormat := some (g.format, g.origin), format := s.id.formatLevel, origin := 3 }
    else g
  { s with gens := s.gens.map conv }

end Sys2Proof.Machine
end

