-- ==== Sys2Proof/Machine/Housekeeping.lean ====
section
/-! DEFINITION. The housekeeping unit, thermal conditions and shutdown, VIN and crystal supervision (R424 to R436). -/

namespace Sys2Proof.Machine

def State.modHk (s : State) (f : Hk → Hk) : State := { s with hk := f s.hk }

/-- A temperature in units of 0.1 °C as int16, for THERMAL events (R436). -/
def tenths (x : F32) : Nat := (BitVec.ofInt 16 (frne (fmul x (fOfNat 10)))).toNat

/-- A THERMAL event (R436): `site` 0xFF stands for Θ. -/
def State.raiseThermal (s : State) (code : Nat) (x : F32) (site : Nat) : State :=
  s.raise causeThermal hkSlot code (65536 * tenths x + site)

/-! ## Sites (R428 to R430) -/

/-- Neighbours of a site (Table 14-6). -/
def siteNeighbours : List (List Nat) := [[1, 2, 3, 4], [0, 2, 4], [0, 1, 3, 5], [0, 2, 4, 5], [0, 1, 3], [0, 2, 3]]

/-- A reading that holds: present and within −55 to 175 °C. -/
def validSite (r : Option F32) : Option F32 :=
  r.bind (fun x => if fle (fOfInt (-55)) x && fle x (fOfInt 175) then some x else none)

/-- Insertion into an ascending list of numbers. -/
def insertF : List F32 → F32 → List F32
  | [], x => [x]
  | y :: t, x => if fle x y then x :: y :: t else y :: insertF t x

/-- The median; of an even number the mean of the two middle values. -/
def medianF (l : List F32) : Option F32 :=
  let a := l.foldl insertF []
  let n := a.length
  if n = 0 then none
  else if n % 2 = 1 then a[n / 2]?
  else
    match a[n / 2 - 1]?, a[n / 2]? with
    | some x, some y => some (fdiv (fadd x y) (fOfNat 2))
    | _, _ => none

/-- Sites that count as included (R429). -/
def Hk.included (h : Hk) (i : Nat) : Bool :=
  match validSite (h.sites.getD i none) with
  | none => false
  | some _ => h.sensorFault || !h.excluded.getD i false

/-- One site judged in a round against its neighbours as they stood when the round began. -/
def State.judgeSite (before : Hk) (s : State) (i : Nat) : State :=
  match validSite (before.sites.getD i none) with
  | none => s
  | some x =>
    let near := ((siteNeighbours.getD i []).filter before.included).filterMap (fun n => validSite (before.sites.getD n none))
    let out := before.excluded.getD i false
    let hit := match medianF near with
      | none => false
      | some m => if out then fle (fabs (fsub x m)) (fOfNat 10) else flt (fOfNat 15) (fabs (fsub x m))
    let runs := if out then before.backRun else before.devRun
    let run := if hit then runs.getD i 0 + 1 else 0
    let flip := decide (3 ≤ run)
    let s := s.modHk (fun h =>
      { h with devRun := h.devRun.set i (if out || flip then 0 else run)
               backRun := h.backRun.set i (if !out || flip then 0 else run)
               excluded := if flip then h.excluded.set i (!out) else h.excluded })
    if flip then s.raiseThermal (if out then 8 else 7) x i else s

/-- The highest of some values. -/
def highestF : List F32 → Option F32
  | [] => none
  | x :: t => some (t.foldl fmax x)

/-- Θ, the rates and ρ of a round (R430). -/
def Hk.derive (h : Hk) : Hk :=
  let reading (i : Nat) : Option F32 := if h.included i then validSite (h.sites.getD i none) else none
  let theta := (highestF ((List.range 6).filterMap reading)).getD h.theta
  let old := h.history.getD 119 []
  let rate (i : Nat) : Option F32 := do
    let x ← reading i
    let y ← validSite (old.getD i none)
    pure (fsub x y)
  let rates := (List.range 6).map (fun i => (rate i).getD 0)
  let cool (i : Nat) : Nat :=
    match validSite (h.sites.getD i none) with
    | some x => if flt x (fOfNat 105) then h.coolRun.getD i 0 + 1 else 0
    | none => 0
  { h with theta := theta, rates := rates, rho := (highestF ((List.range 6).filterMap rate)).getD 0
           maxLife := some ((h.maxLife.map (fmax theta)).getD theta), coolRun := (List.range 6).map cool
           history := (h.sites :: h.history).take 120 }

/-- Exclusion, readmission and SENSOR_FAULT of a round (R429); the event of SENSOR_FAULT carries Θ of the round. -/
def State.judgeSites (s : State) : State :=
  let s := (List.range 6).foldl (fun s i =>
    match validSite (s.hk.sites.getD i none) with
    | some _ => s
    | none =>
      let was := s.hk.excluded.getD i false
      let s := s.modHk (fun h =>
        { h with excluded := h.excluded.set i true, devRun := h.devRun.set i 0, backRun := h.backRun.set i 0 })
      if was then s else s.raiseThermal 7 ((s.hk.sites.getD i none).getD 0) i) s
  let before := s.hk
  let s := (List.range 6).foldl (State.judgeSite before) s
  let fault := decide (3 ≤ (s.hk.excluded.filter (· == true)).length)
  if fault = s.hk.sensorFault then s
  else
    let s := s.modHk (fun h => { h with sensorFault := fault })
    s.raiseThermal (if fault then 9 else 10) s.hk.derive.theta 0xFF

/-! ## Conditions (R431, R432) -/

/-- Set and clear tests of the conditions of Table 14-7: RATE_WARNING, THROTTLING, SHUTDOWN. -/
def Hk.tests (h : Hk) : List (Bool × Bool) :=
  [(flt (fOfNat 2) h.rho, fle h.rho fone),
   (fle (fOfNat 100) h.theta || flt (fOfNat 4) h.rho, fle h.theta (fOfNat 95) && fle h.rho (fOfNat 3)),
   (fle (fOfNat 125) h.theta, false)]

/-- The runs of rounds in which each test has held. -/
def Hk.runTests (h : Hk) : Hk :=
  let t := h.tests
  let next (runs : List Nat) (b : List Bool) : List Nat := (runs.zip b).map (fun e => if e.2 then e.1 + 1 else 0)
  { h with setRun := next h.setRun (t.map (·.1)), clearRun := next h.clearRun (t.map (·.2)) }

/-- The throttle factor (R432). -/
def Hk.factor (h : Hk) : F32 :=
  if h.throttling then
    let x := fmax (fmax (fsub h.theta (fOfNat 100)) (fmul (fOfNat 5) (fsub h.rho (fOfNat 4)))) 0
    fmax (fRat 1 4) (fsub fone (fmul (fRat 375 10000) x))
  else fone

/-- The conditions of a round: each is set or cleared by two rounds in a row, with its event. SHUTDOWN waits for the
boundary, where its event is raised (R433). -/
def State.judgeConditions (s : State) : State :=
  let s := s.modHk Hk.runTests
  let set (i : Nat) : Bool := decide (2 ≤ s.hk.setRun.getD i 0)
  let clear (i : Nat) : Bool := decide (2 ≤ s.hk.clearRun.getD i 0)
  let s :=
    if set 0 && !s.hk.rateWarn then (s.modHk (fun h => { h with rateWarn := true })).raiseThermal 1 s.hk.theta 0xFF
    else if clear 0 && s.hk.rateWarn then (s.modHk (fun h => { h with rateWarn := false })).raiseThermal 2 s.hk.theta 0xFF
    else s
  let s :=
    if set 1 && !s.hk.throttling then (s.modHk (fun h => { h with throttling := true })).raiseThermal 3 s.hk.theta 0xFF
    else if clear 1 && s.hk.throttling then
      (s.modHk (fun h => { h with throttling := false })).raiseThermal 4 s.hk.theta 0xFF
    else s
  let s := if set 2 && !s.hk.shutdown then s.modHk (fun h => { h with shutdownDue := true }) else s
  s.modHk (fun h => { h with throttle := h.factor })

/-- A housekeeping round (R427), in every power state. -/
def State.housekeepingRound (s : State) (m : HkMeas) : State :=
  let s := s.modHk (fun h =>
    { h with rounds := (h.rounds + 1) % 2 ^ 32, sites := (List.range 6).map (fun i => m.sites.getD i none)
             vin := m.vin, vfld := (List.range 16).map (fun b => m.vfld.getD b 0), vfan := m.vfan, fresh := true })
  (s.judgeSites.modHk Hk.derive).judgeConditions

/-- The housekeeping unit's evaluation in tick 512(r + 1): cells 129 to 153 (R427, R429, Table 01-5). -/
def State.evalHk (s : State) : State :=
  if !s.hk.fresh ∨ s.workTick < 512 then s
  else
    let t := s.workTick - 1
    let h := s.hk
    let site (s : State) (i : Nat) : State :=
      match validSite (h.sites.getD i none) with
      | none => s.writeF hkSlot (129 + i) 0 t (badIf true)
      | some x => s.writeF hkSlot (129 + i) x t (badIf (!h.included i))
    let s := (List.range 6).foldl site s
    let s := s.writeF hkSlot 135 h.vin t 0
    let s := (List.range 16).foldl (fun s b => s.writeF hkSlot (136 + b) (h.vfld.getD b 0) t 0) s
    let s := s.writeF hkSlot 152 h.vfan t 0
    s.writeCell hkSlot 153 3 (BitVec.ofNat 64 s.workTick) t 0

/-! ## Shutdown (R433 to R435) -/

/-- The fan domain without power: nothing of it stays but what VFAN last measured. -/
def FanDomain.dark (d : FanDomain) : FanDomain := { millivolts := d.millivolts }

/-- Banks, fan domain and PHYs without power. -/
def State.unpowerField (s : State) : State :=
  let s := (List.range s.bankCount).foldl (fun s b =>
    let x := s.bank b
    s.setBank b { x with
      state := .unpowered
      engine := 0
      guardArmed := false
      guardTripped := false
      uvlo := true
      vfldLow := true
      failDue := none
      goodUp := 0
      missUp := 0 }) s
  { s with fanDom := s.fanDom.dark }

/-- The recorder loses its open interval and every summary that is not yet written (R370, R410, R433). -/
def State.dropRecorder (s : State) : State :=
  { s.closeInterval with recorder := { s.recorder with queue := [], frozen := false, restart := true, extremesDue := [] } }

/-- Thermal shutdown at the boundary of tick `t` (R433). -/
def State.thermalShutdown (s : State) (t : Nat) : State :=
  let s := s.modHk (fun h => { h with shutdown := true, shutdownDue := false })
  let s := (s.append (if s.inrec.open_ then [recEntry 0x35 0x10 t []] else [])).endSegment t (t - 1) 2
  let s := ((s.unpowerField.dropRecorder).portDown 0).portDown 1
  s.raiseThermal 5 s.hk.theta 0xFF

/-- Whether RESTART is accepted in thermal shutdown (R435). -/
def Hk.cool (h : Hk) : Bool := (List.range 6).all (fun i => !h.included i || decide (2 ≤ h.coolRun.getD i 0))

/-- Θ in °C for a refusal's DETAIL, saturated at 255 (R435). -/
def Hk.thetaDetail (h : Hk) : Nat := (min 255 (max 0 (frne h.theta))).toNat

/-! ## VIN and the crystal (R424, R425) -/

/-- A VIN threshold is crossed. -/
def State.vinCrossing (s : State) (c : VinCrossing) (mv : Nat) : State :=
  let s := s.modHk (fun h =>
    match c with
    | .lowSet => { h with vinLow := true }
    | .lowClear => { h with vinLow := false }
    | .highSet => { h with vinHigh := true }
    | .highClear => { h with vinHigh := false })
  s.raise causeSupply 0xFFFF 17 mv

/-- CRYSTAL_FAIL is set or cleared: fine counts are not valid while it is present, and a forager's alignment is lost
(R92, R351, R424). -/
def State.crystal (s : State) (fail : Bool) : State :=
  if s.hk.crystalFail = fail then s
  else
    let s := { (s.modHk (fun h => { h with crystalFail := fail })) with fineValid := if fail then false else s.fineValid }
    let s := if fail && (s.peer 0).state != 0 then s.loseAlign else s
    s.raise causeSupply 0xFFFF 18 (if fail then 1 else 0)

end Sys2Proof.Machine
end

