-- ==== Sys2Proof/Machine/Boot.lean ====
section
/-! DEFINITION. Stops and starts of the logic domain: resets, the boot journal, power failure and power-on, boot hold and
the activation pause (R46 to R48, R89, R131, R408 to R414, R423, R426, R437 to R440, R461). -/

namespace Sys2Proof.Machine

/-- CAUSE codes of the boot journal (Table 14-11). -/
def startCode : StartCause → Nat
  | .powerOn => 0
  | .hostReset => 1
  | .restart => 2
  | .lag => 3
  | .redo => 4
  | .activation => 5
  | .fallback => 6
  | .dormantExit => 7
  | .shutdownExit => 8

def State.modBoot (s : State) (f : Boot → Boot) : State := { s with boot := f s.boot }

def State.modHost (s : State) (f : HostIf → HostIf) : State := { s with host := f s.host }

/-- The logic domain runs units: it has started, is not in boot hold and not in thermal shutdown (R433, R439). -/
def State.logicRuns (s : State) : Bool := s.host.alive && !s.hk.shutdown && !s.boot.hold

/-! ## The logic domain stops -/

/-- An update session when the logic domain stops (Table 13-7): it is orphaned. -/
def Update.interrupt (u : Update) : Update :=
  let u := { u with owner := .none, activateAt := none, fallbackDue := false, abortDue := false, sectorFails := 0 }
  match u.state with
  | .receiving => { u with staged := [], nextBlock := u.verified }
  | .verifying => { u with state := .received }
  | _ => u

/-- A link that has lost its logic: nothing of it stays but counters. -/
def Link.stopped (l : Link) : Link :=
  { authFailures := l.authFailures, lateUpdates := l.lateUpdates, discards := l.discards, losses := l.losses, sent := l.sent }

/-- The host interface of a logic domain that has stopped. The bar of R66 lasts its 60 s whatever happens. -/
def HostIf.stopped (h : HostIf) : HostIf :=
  { h with
    alive := false
    replies := []
    baud := 115200
    baudAt := none
    baudNext := none
    rx := []
    sessions := []
    line := [] }

/-- A generation that awaited activation is left stored as ABANDONED; one that a revert would have brought back stays as
it was (R379). -/
def State.abandonChange (s : State) : State :=
  match s.awaiting with
  | none => s
  | some a =>
    { s.modGen a.number (fun g => { g with state := if a.revert then .stored else .abandoned }) with awaiting := none }

/-- The logic domain stops (R47, R63, R69, R76, R79, R370, R379, R410, R414): sessions, jobs and whatever is not yet in
flash are gone. `closed` is CLOSE of the boot journal. -/
def State.stopLogic (s : State) (closed : Nat) : State :=
  let ids := s.host.sessions.map (·.id)
  let s := s.abandonChange.dropRecorder
  { s with
    host := s.host.stopped
    sched := []
    jobs := []
    pendGen := none
    importBuf := []
    upd := s.upd.interrupt
    link := s.link.stopped
    smoker := { s.smoker with calmed := false, due := none, spent := false }
    inrec := { s.inrec with
      entries := []
      open_ := false
      hash := []
      window := []
      cmds := []
      notes := [] }
    boot := { s.boot with
      sessionsOpen := if s.host.alive then ids else s.boot.sessionsOpen
      closed := closed
      hold := false } }

/-- The logic domain stops and will start again with `cause`. A fallback that waits for its pause completes with the start
(Table 13-7). -/
def State.stopFor (s : State) (closed cause : Nat) : State :=
  let back := s.upd.fallbackDue
  let s := s.stopLogic closed
  if back then (s.fallBack 3).modBoot (fun b => { b with startDue := some 6 })
  else s.modBoot (fun b => { b with startDue := some cause })

/-- HOST_RESET_N is held low (R46, R47). In DORMANT and without VIN there is no logic domain to reset; a start after
power-on waits for the release (R461). -/
def State.hostReset (s : State) : State :=
  if !s.vinOn || s.power = .dormant then s
  else if s.boot.startDue = some 0 then s.modHost (fun h => { h with resetHeld := true })
  else (s.stopFor 0 1).modHost (fun h => { h with resetHeld := true })

/-- An accepted RESTART (R435). -/
def State.restartLogic (s : State) : State := s.stopFor 0 (if s.hk.shutdown then 8 else 2)

/-- HOST_WAKE rises (R48). -/
def State.hostWake (s : State) : State :=
  if s.power = .dormant ∧ s.vinOn ∧ s.boot.startDue = none then s.modBoot (fun b => { b with startDue := some 7 }) else s

/-! ## VIN fails and returns (R89, R375, R426, R461) -/

/-- The power-fail threshold (R426). -/
def State.vinFail (s : State) : State :=
  if !s.vinOn then s
  else
    let s : State := { s with checkpoint := (s.tick, s.wallDiff) }
    let s := s.stopLogic 2
    { s with vinOn := false, fineValid := false, boot := { s.boot with startDue := none } }

/-- A plant without units, with the counts that only power-on clears (R305, Table 07-13). -/
def Plant.bare (p : Plant) (keep : Bool) : Plant :=
  let combs := if keep then p.combs.filterMap (fun e =>
    if e.2.roundsMissed = 0 then none else some (e.1, { ({} : CombState) with roundsMissed := e.2.roundsMissed })) else []
  let progs := if keep then p.progs.filterMap (fun e =>
    if e.2.batches = 0 then none else some (e.1, { ({} : ProgState) with batches := e.2.batches })) else []
  { units := []
    cells := []
    running := []
    chans := []
    loops := []
    profs := []
    churns := []
    probes := []
    combs := combs
    progs := progs
    chains := []
    obs := []
    fans := []
    bins := []
    recAcc := {} }

/-- A bank that has lost its power: its counters stay until power-on (R144). -/
def Bank.bare (b : Bank) : Bank :=
  { guardTrips := b.guardTrips
    crcErrors := b.crcErrors
    retries := b.retries
    lateSamples := b.lateSamples
    lostField := b.lostField
    lostFifo := b.lostFifo
    fifoHigh := b.fifoHigh
    uvloEvents := b.uvloEvents
    lowEvents := b.lowEvents
    vfld := b.vfld
    vfldMin := b.vfldMin }

/-- A channel of a bank that has lost its power: what is in its flash, and its counter, stay; latched flags that no read has
reported stay too (R144). -/
def FieldChan.bare (f : FieldChan) : FieldChan :=
  { fieldRecs := f.fieldRecs
    newRecs := f.newRecs
    calInvalid := f.calInvalid
    flags := f.flags
    substCount := f.substCount }

/-- What power-on clears (R447, Table 03-8): every counter, and all that is not in flash. -/
def State.powerClear (s : State) : State :=
  { s with
    host := { s.host with
      overrun := 0
      framing := 0
      crcErr := 0
      authFails := 0
      barUntil := none }
    sram := { s.sram with
      corrected := []
      corrCount := 0
      redoCount := 0
      redoTick := 0
      redoRun := 0
      lagMax := 0
      scrubbed := [] }
    hk := { maxLife := s.hk.maxLife }
    link := { sent := s.link.sent }
    base := s.base.bare false
    prev := s.prev.bare false
    work := s.work.bare false
    banks := []
    fieldChans := s.fieldChans.map (fun e => (e.1, { e.2.bare with substCount := 0, flags := 0 }))
    fanDom := {}
    boot := { s.boot with sessionsOpen := [] } }

/-- VIN rises and the power-on reset is released (R89, R461). -/
def State.vinReturn (s : State) (uart : Bool) : State :=
  if s.vinOn then s
  else
    let s := (s.stopLogic s.boot.closed).powerClear
    { s with
      vinOn := true
      tick := s.checkpoint.1 + 131072
      wallDiff := s.checkpoint.2
      wallStale := true
      power := .watch
      host := { s.host with
        uart := uart
        resetHeld := false }
      boot := { s.boot with startDue := some 0 } }

/-! ## Items of the boot journal (R437, R438) -/

/-- The journal record of a start as it opens (step B0). -/
def State.openJournal (s : State) (cause : Nat) (ok : Bool) : State :=
  let before := s.boot.journals.headD {}
  let rec0 : Journal := {
    startCount := before.startCount + 1
    tick := s.tick
    cause := cause
    close := s.boot.closed
    outcome := (if ok then 0 else 1) :: List.replicate 12 4
    fwSlot := if s.upd.slotB then 1 else 0 }
  s.modBoot (fun b => { b with journals := [rec0, before], closed := 1 })

def State.modJournal (s : State) (f : Journal → Journal) : State :=
  s.modBoot (fun b => { b with journals := f (b.journals.headD {}) :: b.journals.drop 1 })

/-- The outcome of a step: 0 done, 1 alternate, 2 not applicable, 3 halted. -/
def State.outcome (s : State) (step code : Nat) : State :=
  s.modJournal (fun j => { j with outcome := j.outcome.set step code })

/-- BOOT_RETRY takes effect at a start: the marks of the kinds it names are cleared (R438). -/
def State.clearRetried (s : State) : State :=
  let r := s.boot.retry.toNat
  s.modBoot (fun b => { b with
    marksBanks := if bit r 0 then [] else b.marksBanks
    marksFans := if bit r 1 then [] else b.marksFans
    marksLinks := if bit r 2 then [] else b.marksLinks
    marksCombs := if bit r 3 then [] else b.marksCombs
    retry := 0 })

/-- Slot index of a slot. -/
def slotIndex (b : Bool) : Nat := if b then 1 else 0

/-- The outcome of step B2: the slot runs, a fallback follows, or the start halts. -/
inductive SlotResult where
  | runs | falls (reason : Nat) | halts
  deriving DecidableEq, Repr

/-- Whether a slot may start: not marked, valid, and not below the OTP's SEC_VERSION (R398, R407). -/
def State.slotStarts (s : State) (b ok : Bool) : Bool :=
  let m := s.upd.manifests.getD (slotIndex b) []
  ok && !s.boot.marksSlot.contains (slotIndex b) && !s.upd.slotBad.getD (slotIndex b) true &&
    (m.isEmpty || decide (s.upd.secVersion ≤ field m 7 1))

/-- Step B2: the trial count, then the slot (R411, Table 14-9). -/
def State.bootSlot (s : State) (r : BootReport) : SlotResult × State :=
  if s.upd.trial ∧ s.upd.trialsLeft = 0 then (.falls 1, s)
  else
    let s := if s.upd.trial then s.modUpd (fun u => { u.writeBoot with trialsLeft := u.trialsLeft - 1 }) else s
    let cur := s.upd.slotB
    if s.slotStarts cur r.slotOk then (.runs, s.outcome 2 (if s.boot.marksSlot.isEmpty then 0 else 1))
    else if s.upd.trial then (.falls 2, s)
    else
      let s := s.modBoot (fun b => { b with marksSlot := insertSorted b.marksSlot (slotIndex cur) })
      if s.slotStarts (!cur) r.otherSlotOk then (.runs, ((s.modUpd (fun u => { u with slotB := !cur })).runSlot).outcome 2 1)
      else (.halts, s)

/-- Step B3: failing pages are retired, and those that waited for this start (R111). -/
def State.bootPages (s : State) (failed : List Nat) : State :=
  let bad := sortNats (failed.filter (· < 2048))
  let new := sortNats ((bad ++ s.boot.marksPages ++ s.sram.retireDue).filter (fun p => !s.sram.retired.contains p))
  let s : State := { s with sram := { s.sram with retired := sortNats (s.sram.retired ++ new), retireDue := [] } }
  let s := s.outcome 3 (if bad.isEmpty && s.boot.marksPages.isEmpty then 0 else 1)
  (s.modBoot (fun b => { b with marksPages := bad })).modJournal (fun j => { j with pagesRetired := new.length })

/-- Step B4: without an intact copy of the OEM key the module has neither key nor lock (R390). -/
def State.bootStores (s : State) (r : BootReport) : State :=
  let s := s.outcome 4 (if r.oemKeyOk then 0 else 1)
  if r.oemKeyOk then s else { s with id := { s.id with oemKey := none, locked := false } }

/-- Step B5: the crystal. -/
def State.bootClock (s : State) (ok : Bool) : State :=
  let s := if ok then s else s.crystal true
  { s with fineValid := !s.hk.crystalFail }.outcome 5 (if ok then 0 else 1)

/-- Whether a generation can be loaded (R379). -/
def State.loadable (s : State) (r : BootReport) (n : Nat) : Bool :=
  match s.generation n with
  | none => false
  | some g => !r.gensBad.contains n && !s.boot.marksGens.contains n && decide (g.format ≤ s.id.formatLevel) &&
      (s.validate g.content).isNone

/-- A generation that cannot be loaded is FAILED and marked. -/
def State.failGeneration (s : State) (n : Nat) : State :=
  match s.generation n with
  | none => s
  | some _ =>
    (s.modGen n (fun g => { g with state := .failed })).modBoot (fun b => { b with marksGens := insertSorted b.marksGens n })

/-- Step B6: the active generation, its PARENT, or the empty configuration (R376, R379). -/
def State.bootConfig (s : State) (r : BootReport) : State :=
  let n := s.activeGen
  let parent := match s.generation n with | some g => g.parent | none => 0
  let s :=
    if s.loadable r n then s.outcome 6 (if s.boot.marksGens.isEmpty then 0 else 1)
    else
      let s := s.failGeneration n
      if s.loadable r parent then
        ({ s.modGen parent (fun g => { g with state := .active }) with activeGen := parent }).outcome 6 1
      else ({ s.failGeneration parent with activeGen := 0 }).outcome 6 1
  let s := s.modJournal (fun j => { j with cfgLoaded := s.activeGen })
  { s with sram := s.sram.lay (regionSizes s.content) }

/-- A supply condition that is still present when its domain reaches service: SUPPLY, with what the supply measures (R169,
R323). -/
def State.supplyPresent (s : State) (code mv : Nat) (on : Bool) : State :=
  if on then s.raise causeSupply 0xFFFF code mv else s

/-- What a supply measures as a start finds it; 16 is VFAN. -/
def supplyFound (r : BootReport) (source : Nat) : Nat := ((r.supplies.find? (fun e => e.1 == source)).map (·.2)).getD 0

/-- VFLD as a bank measures it (Table 04-5). -/
def Bank.measured (b : Bank) (mv : Nat) : Bank := { b with vfld := mv, vfldMin := Nat.min b.vfldMin mv }

/-- A bank reaches IN_SERVICE after its power came (R131, R169): guard not armed, terminals off until the first refresh. -/
def State.bankFresh (s : State) (b mv : Nat) (uvlo low : Bool) : State :=
  let s := (bankChannels b).foldl (fun s ch => s.setFch ch (s.fch ch).bare) s
  let s := s.setBank b { (s.bank b).bare.measured mv with
    state := .inService
    uvlo := uvlo
    vfldLow := low
    engine := 1
    guardTime := s.cfg P.GUARD_TIME b }
  if s.monitored b then ((s.supplyPresent b mv uvlo).supplyPresent b mv low).vfldFlags b else s

/-- A bank that has kept its power through the stop: its link is set up again (R133, R137). -/
def State.bankRelink (s : State) (b : Nat) : State :=
  let s := (bankChannels b).foldl (fun s ch => s.setFch ch { s.fch ch with serviceOff := false }) s
  let s := s.setBank b { s.bank b with
    state := .inService
    goodUp := 0
    missUp := 0
    failDue := none
    restarts := 0
    seqDown := 0
    seqNext := 0
    seqUp := 0 }
  s.vfldFlags b

/-- Step B8 for one bank. -/
def State.bootBank (r : BootReport) (s : State) (b : Nat) : State :=
  let off (s : State) (st : BankSt) : State :=
    let s := (bankChannels b).foldl (fun s ch => s.setFch ch (s.fch ch).bare) s
    s.setBank b { (s.bank b).bare with state := st }
  if s.boot.marksBanks.contains b then off s .unpowered
  else if r.banksFailed.contains b then
    (off s .retired).modBoot (fun x => { x with marksBanks := insertSorted x.marksBanks b })
  else if (s.bank b).state ≠ .inService then
    s.bankFresh b (supplyFound r b) (r.banksUvlo.contains b) (r.banksLow.contains b)
  else s.bankRelink b

/-- Step B8 of an activation or fallback start: links of banks in service are set up again, the rest stays (R438). `keep`: the units go on, so
those of a bank that fails are put out of service here. -/
def State.relinkBank (keep : Bool) (r : BootReport) (s : State) (b : Nat) : State :=
  if (s.bank b).state ≠ .inService then s
  else if r.banksFailed.contains b then
    let s := (bankChannels b).foldl (fun s ch => s.setFch ch (s.fch ch).bare) s
    let s := (s.setBank b { (s.bank b).bare with state := .retired }).modBoot (fun x =>
      { x with marksBanks := insertSorted x.marksBanks b })
    if keep then (bankChannels b).foldl State.channelOut s else s
  else (s.setBank b { s.bank b with goodUp := 0, missUp := 0, failDue := none }).vfldFlags b

/-- Banks that are out of service. -/
def State.banksOut (s : State) : List Nat :=
  (List.range s.bankCount).filter (fun b => (s.bank b).state != .inService)

/-- A set of numbers as a bit set. -/
def bitSet (l : List Nat) : Nat := (sortNats l).foldl (fun a n => a + 2 ^ n) 0

/-- Step B8. -/
def State.bootBanks (s : State) (short keep : Bool) (r : BootReport) : State :=
  let marked := !s.boot.marksBanks.isEmpty
  let s := (List.range s.bankCount).foldl (if short then State.relinkBank keep r else State.bootBank r) s
  let out := s.banksOut
  (s.modJournal (fun j => { j with banksOut := BitVec.ofNat 16 (bitSet out) })).outcome 8
    (if marked || !s.boot.marksBanks.isEmpty then 1 else 0)

/-- Steps B9 to B11 over items with marks: those marked or failing are out; the rest has passed. Answers what is out. -/
def itemsOut (marks failed : List Nat) (count : Nat) : List Nat :=
  (List.range count).filter (fun i => marks.contains i || failed.contains i)

/-- Step B9: the fan domain is powered for the test and stays powered in HUSH and RUN (R322). -/
def State.bootFans (s : State) (short : Bool) (r : BootReport) : State :=
  let out := itemsOut s.boot.marksFans r.fansFailed 8
  let on := s.power = .hush ∨ s.power = .run
  let d : FanDomain :=
    if short ∨ s.fanDom.powered then s.fanDom else { uvlo := r.banksUvlo.contains 16, low := r.banksLow.contains 16 }
  let fresh := !(short || s.fanDom.powered)
  let s : State := { s with fanDom := { d with
    powered := on
    quietUvlo := false
    quietLow := false
    goodUp := 0
    seqDown := 0
    seqNext := 0 } }
  let s := if fresh then (s.supplyPresent 16 (supplyFound r 16) d.uvlo).supplyPresent 16 (supplyFound r 16) d.low else s
  let s := s.modBoot (fun b => { b with marksFans := out })
  (s.modJournal (fun j => { j with fanOut := BitVec.ofNat 8 (bitSet out) })).outcome 9 (if out.isEmpty then 0 else 1)

/-- Step B10. -/
def State.bootLinks (s : State) (r : BootReport) : State :=
  let out := itemsOut s.boot.marksLinks r.linksFailed 2
  let s := s.modBoot (fun b => { b with marksLinks := out })
  (s.modJournal (fun j => { j with linkOut := BitVec.ofNat 8 (bitSet out) })).outcome 10 (if out.isEmpty then 0 else 1)

/-- Comb lines whose unit starts ACTIVE. -/
def State.startingLines (s : State) : List Nat :=
  ((slotsOfKind s.content 0x08).filter (fun u => addedState s.content u = .active)).map slotInst

/-- Step B11: marked lines skip the step, failing ones run on their stored map. -/
def State.bootCombs (s : State) (r : BootReport) : State :=
  let lines := s.startingLines
  let out := lines.filter (fun l => s.boot.marksCombs.contains l || r.combsFailed.contains l)
  let marks := sortNats (s.boot.marksCombs ++ lines.filter r.combsFailed.contains)
  let s := s.modBoot (fun b => { b with marksCombs := marks })
  (s.modJournal (fun j => { j with combStored := BitVec.ofNat 64 (bitSet out) })).outcome 11 (if out.isEmpty then 0 else 1)

/-! ## Step B12 -/

/-- Every unit set up as one that a commit adds, in an empty comb (R423). -/
def State.setUpUnits (s : State) : State :=
  let c := s.content
  let bare := s.work.bare true
  let s : State := { s with
    work := bare
    order := (orderOf c).1
    workTick := s.tick }
  let slots := configuredSlots c
  let s := slots.foldl (fun s u => s.addUnit s.tick u) s
  (hivesUp c 257 0).foldl State.addHive s

/-- Units of items that are out of service: FAULT (Tables 11-4, 14-9, 14-10). A line that passed step B11 begins with a
poll round (R438). -/
def State.faultItems (s : State) : State :=
  let s := s.banksOut.foldl (fun s b => (bankChannels b).foldl State.channelOut s) s
  let held (s : State) (slot code : Nat) : State := if s.has slot then s.enterHeld slot .fault code else s
  let s := s.boot.marksFans.foldl (fun s n => held s (fanSlot n) 0x05) s
  let s := s.boot.marksLinks.foldl (fun s n => held s (portSlot n) 0x01) s
  let stored := (s.boot.journals.headD {}).combStored
  s.startingLines.foldl (fun s l =>
    if stored.getLsbD l then s else s.setFcomb l { s.fcomb l with startDue := false }) s

/-- The copies of the plant as committed. -/
def State.settle (s : State) : State :=
  { s with
    base := s.work
    prev := s.work
    evaluated := true
    committed := true
    inbufs := []
    skip := []
    sram := { s.sram with redoRun := 0 }
    deadlineAt := s.workTick }

/-- What a completed start raises, in the tick of its end: BOOT and INTERFACE_READY, a SESSION for every session that was
open, UPDATE after an activation or a fallback (R63, R410, R413, R437, R478). `halted`: the step of a boot hold. -/
def State.raiseStart (s : State) (cause : Nat) (halted : Option Nat) : State :=
  let j := s.boot.journals.headD {}
  let alternates := bitSet ((List.range 13).filter (fun i => j.outcome.getD i 4 == 1))
  let s :=
    match halted with
    | some b => s.raise causeBoot 0xFFFF (256 * b + cause) 0
    | none => s.raise causeBoot 0xFFFF (0xFF00 + cause) alternates
  let s := s.raise causeReady 0xFFFF 0 0
  let s := s.boot.sessionsOpen.foldl (fun s id => s.raise causeSession 0xFFFF id.toNat 2) s
  let s := s.modBoot (fun b => { b with sessionsOpen := [] })
  if cause = 5 ∨ cause = 6 then s.raiseUpdate else s

/-- The start is over: the interface accepts packets, the power state stands in the journal, the smoker counts from here, after
an activation pause from R (R410). -/
def State.endStart (s : State) (cause : Nat) : State :=
  let s := s.outcome 12 0
  let s := s.modJournal (fun j => { j with
    power := match s.power with | .dormant => 0 | .watch => 1 | .hush => 2 | .run => 3
    fwSlot := slotIndex s.upd.slotB })
  let s := s.modHost (fun h => { h with alive := true })
  let from_ := if cause = 5 ∨ cause = 6 then s.workTick + 1 else s.tick
  let s : State := { s with smoker := { last := from_ } }
  s.raiseStart cause none

/-- Boot hold after step `b` (R439): banks and fan domain unpowered. -/
def State.bootHold (s : State) (cause b : Nat) : State :=
  let s := (s.unpowerField.outcome b 3).modHost (fun h => { h with alive := true })
  let s := s.modBoot (fun x => { x with hold := true })
  let s := ({ s with work := s.work.bare true, order := [], workTick := s.tick } : State).settle
  s.raiseStart cause (some b)

/-- The power state in which a start ends (R423). -/
def startPower (cause : Nat) (held : Power) : Power :=
  if cause = 0 ∨ cause = 7 ∨ cause = 8 ∨ held = .dormant then .watch else held

/-- What every start begins with: the cause register at its reset value, an empty queue, the journal (R63, R83, step B0). The
interface is the one that HOST_SEL selects at a rising edge of HOST_RESET_N (R46).
A restart from thermal shutdown ends the condition (R435). -/
def State.beginStart (s : State) (cause : Nat) (r : BootReport) : State :=
  let s := s.modHost (fun h => { h with
    cause := 0xC00#32
    events := []
    lost := 0
    overflowed := false
    resetHeld := false
    uart := if cause = 1 ∨ h.resetHeld then r.uartSelected else h.uart })
  let s := s.modBoot (fun b => { b with startDue := none })
  let s : State := { s with power := startPower cause s.power }
  let s := s.modHk (fun h => { h with
    history := []
    shutdownDue := h.shutdownDue || (h.shutdown && cause != 8)
    shutdown := false
    setRun := if cause = 8 then [0, 0, 0] else h.setRun })
  s.clearRetried.openJournal cause r.journalOk

/-- A fallback found at step B2 (R411, R413): the old slot starts next, with cause 6. -/
def State.fallsAtStart (s : State) (reason : Nat) : State :=
  (s.fallBack reason).modBoot (fun b => { b with startDue := some 6 })

/-- Steps B3 to B12 of a full start. -/
def State.bootRest (s : State) (cause : Nat) (r : BootReport) : State :=
  let trial := s.upd.trial
  let halt (s : State) (b : Nat) : State := if trial then s.fallsAtStart 2 else s.bootHold cause b
  let s := s.bootPages r.pagesFailed
  if !r.checkpointOk ∧ cause = 0 then halt s 4
  else
    let s := s.bootStores r
    if !r.selfTestsOk then halt s 5
    else
      let s := s.bootClock r.crystalOk
      let s := if trial then s.convertFormats else s
      let s := ((s.bootConfig r).outcome 7 2).bootBanks false false r
      let s := ((s.bootFans false r).bootLinks r).bootCombs r
      let s := (s.setUpUnits.faultItems).syncHives.settle
      let s := s.endStart cause
      if s.hk.shutdownDue then s.thermalShutdown s.tick else s

/-- A start of the logic domain (R437 to R439): it follows the stop that asked for it. -/
def State.bootStart (s : State) (c : StartCause) (r : BootReport) : State :=
  let cause := startCode c
  if !s.vinOn || s.host.alive || s.boot.startDue ≠ some cause then s
  else
    let s := s.beginStart cause r
    if !r.otpOk then (if s.upd.trial then s.fallsAtStart 2 else s.bootHold cause 1)
    else
      match (s.outcome 1 0).bootSlot r with
      | (.falls reason, s) => s.fallsAtStart reason
      | (.halts, s) => s.bootHold cause 2
      | (.runs, s) => s.bootRest cause r

/-! ## The activation pause (R408 to R410, R413) -/

/-- The committed plant as it is handed over: states and running values of units, and the comb (R378, R409). -/
def State.handedOver (s : State) : State :=
  let units (e : Nat × Nat × Val) : Bool := match paramOwner e.1 e.2.1 with | .unit _ => true | _ => false
  let s := s.modWork (fun p => { p with running := p.running.filter units })
  let s := (slotsOfKind s.content 0x04).foldl (fun s u =>
    s.modWork (fun p => p.setLoop (slotInst u) { p.loop (slotInst u) with presetDue := true })) s
  let s := s.fprobes.foldl (fun s e => s.setFprobe e.1 { e.2 with run := e.2.run.map (fun x => { x with missed := true }) }) s
  s.fcombs.foldl (fun s e => s.setFcomb e.1 { e.2 with run := e.2.run.map (fun x => { x with missed := true }) }) s

/-- Steps B5 to B12 in their short form, with tick `s.tick` + 1 as R. `keep`: the handover passes. -/
def State.shortStart (s : State) (cause : Nat) (keep : Bool) (r : BootReport) : State :=
  let s := { s with workTick := s.tick }.bootClock r.crystalOk
  let s := if cause = 5 then s.convertFormats else s
  let s := (s.bootConfig r).outcome 7 (if cause ≠ 5 then 2 else if keep then 0 else 1)
  let s := (((s.bootBanks true keep r).bootFans true r).outcome 10 2).outcome 11 2
  let s :=
    if keep then
      let s := s.handedOver
      if s.recorderPower && (s.unit recSlot).st == .active && s.has recSlot then s.openInterval (s.tick + 1) else s
    else (s.setUpUnits.faultItems).syncHives
  (s.settle).endStart cause

/-- The pause begins and ends with the start of the new slot, or of the old one after UPD_ABORT in TRIAL. It is due once
tick A + 1 has committed. `resumeAt` is R, at most 256 ticks after tick A + 2. The tick counter runs on, and the housekeeper
writes the checkpoint that falls into the pause (R89). -/
def State.activationPause (s : State) (resumeAt : Nat) (r : BootReport) : State :=
  match s.upd.activateAt with
  | none => s
  | some e =>
    if !s.committed || s.tick + 1 < e then s
    else
      let back := s.upd.fallbackDue
      let first := Nat.max (Nat.max e (s.tick + 1)) (Nat.min resumeAt (e + 256))
      let sched := s.sched
      let calmed := s.smoker.calmed
      let s := s.stopLogic 0
      let mark := (first - 1) / 65536 * 65536
      let s : State := { s with
        tick := first - 1
        checkpoint := if s.tick < mark then (mark, s.wallDiff) else s.checkpoint }
      let s :=
        if back then s.fallBack 3
        else
          let new := !s.upd.slotB
          let s := s.modBoot (fun b => { b with marksSlot := b.marksSlot.filter (fun i => i != slotIndex new) })
          (s.modUpd (fun u => { u.writeBoot with
            state := .trial
            fallbackB := u.slotB
            slotB := new
            slotBad := u.slotBad.set (slotIndex new) false
            trial := true
            trialsLeft := 3 })).runSlot
      let cause := if back then 6 else 5
      let s := (s.beginStart cause r).modJournal (fun j => { j with tick := Nat.min e (first - 1) })
      if !r.otpOk then (if s.upd.trial then s.fallsAtStart 2 else s.bootHold cause 1)
      else
        match (s.outcome 1 0).bootSlot r with
        | (.falls reason, s) => s.fallsAtStart reason
        | (.halts, s) => s.bootHold cause 2
        | (.runs, s) =>
          let s := (s.outcome 3 2).bootStores r
          if !r.selfTestsOk then (if s.upd.trial then s.fallsAtStart 2 else s.bootHold cause 5)
          else
            let keep := !back && r.handoverOk
            let s := s.shortStart cause keep r
            if keep then { s with sched := sched, smoker := { s.smoker with calmed := calmed } } else s

end Sys2Proof.Machine
end

