-- ==== Sys2Proof/Machine/Flags.lean ====
section
/-! DEFINITION. Status words, condition bits, the interrupt line and the bytes of a cell as the host sees them (R20, R33,
R49, R50, R83, R440, R441). -/

namespace Sys2Proof.Machine

/-- The status word of a slot of this module (Table 01-2); a vacant slot reads 0 (R20). -/
def State.statusWord (s : State) (slot : Nat) : Nat :=
  let h := headerOf s.content slot
  if h.kind = 0 then 0
  else
    let u := s.view.unit slot
    let code := if u.st.held then u.faultCode % 256 else 0
    16777216 * h.kind + flagBit u.cmdDropped 19 + flagBit u.capChanged 18 + flagBit u.inputSubst 17 +
      flagBit u.inputUnusable 16 + 256 * code + flagBit u.memberFault 7 + u.st.code

/-- STATUS of a forager that has reached ALIGNED or lost it (R351, R360, R361). -/
def State.reportAlign (s was : State) : State :=
  if ((s.peer 0).align == 4) != ((was.peer 0).align == 4) then
    s.sendStatus (s.statusWord 0) (s.portWord 0, s.portWord 1)
  else s

/-- Flags of a status word that a read clears (Table 01-2). -/
def State.clearReadFlags (s : State) (slot : Nat) : State :=
  s.modPlants (fun p => p.modUnit slot (fun u => { u with cmdDropped := false, capChanged := false }))

/-- Power state codes (Table 14-1). -/
def powerCode : Power → Nat
  | .dormant => 0
  | .watch => 1
  | .hush => 2
  | .run => 3

/-- PWR_CONDITION (Table 14-13). -/
def State.powerCondition (s : State) : Nat :=
  let h := s.hk
  flagBit h.shutdown 0 + flagBit h.shutdownDue 1 + flagBit h.throttling 2 + flagBit h.rateWarn 3 +
    flagBit h.crystalFail 4 + flagBit h.sensorFault 5 + flagBit s.boot.hold 6 + flagBit h.vinLow 7

/-- The mask register: the running HOST_IRQ_MASK (R83). -/
def State.irqMask (s : State) : Nat := (runningOf s.view s.content P.HOST_IRQ_MASK 0) % 4294967296

/-- HOST_IRQ_N is asserted: a cause with both its pending and its mask bit set (R49). Without VIO the pad is high-impedance
(R462). -/
def State.irqActive (s : State) : Bool :=
  s.host.alive && s.host.vioOk && ((s.host.cause &&& BitVec.ofNat 32 s.irqMask) != 0)

/-- Free receive buffers (R51): three, less those held by commands whose reply is awaited. -/
def State.rxCredits (s : State) : Nat := 3 - Nat.min 3 s.host.line.length

/-- The SPI status byte (Table 02-2). -/
def State.spiStatus (s : State) : Nat :=
  if !s.host.alive || !s.host.vioOk || s.host.uart then 0
  else 128 + flagBit (!s.host.replies.isEmpty) 6 + flagBit s.irqActive 5 + s.rxCredits

/-- The bytes of a cell (Table 01-6), with its quality judged at tick `t` (R37, R77). A forced cell shows the force, and the
extremes it has left. -/
def State.cellBytes (s : State) (t ref : Nat) : List Byte :=
  let v := s.view.see s.content s.power t ref
  let c := s.view.cell ref
  let none := ref % 8192 = 0 ∨ (154 ≤ ref ∧ ref ≤ 255)
  let ext := c.extremesValid && v.type != 4
  let lim (x : F32) : List Byte := if ext then le 4 x.toNat else [0, 0, 0, 0]
  le 8 v.value.toNat ++ le 6 v.stamp ++ le 2 v.source ++
    [BitVec.ofNat 8 v.quality, v.conditions, BitVec.ofNat 8 v.type,
      BitVec.ofNat 8 (flagBit (ext && !decide none) 1 + flagBit (decide (8192 ≤ ref)) 0)] ++
    (if none then List.replicate 12 0 else lim c.min ++ lim c.max ++ le 4 c.epoch)

/-- A boot journal record in its 64 bytes (Table 14-11). -/
def journalBytes (j : Journal) : List Byte :=
  withCrc (le 4 j.startCount ++ le 6 j.tick ++ [BitVec.ofNat 8 j.cause, BitVec.ofNat 8 j.close] ++
    (List.range 13).map (fun i => BitVec.ofNat 8 (j.outcome.getD i 0)) ++ [0, 0, 0] ++ le 2 j.pagesRetired ++
    le 2 j.banksOut.toNat ++ [j.fanOut, j.linkOut] ++ le 8 j.combStored.toNat ++ le 4 j.cfgLoaded ++
    [BitVec.ofNat 8 j.fwSlot, BitVec.ofNat 8 j.power] ++ List.replicate 12 0)

/-- BOOT_JOURNAL; the record of a start before the first reads as zero (R440). -/
def State.journalBlock (s : State) (i : Nat) : List Byte :=
  let j := s.boot.journals.getD i {}
  if j.startCount = 0 then List.replicate 64 0 else journalBytes j

end Sys2Proof.Machine
end

