-- ==== Sys2Proof/Machine/Operands.lean ====
section
/-! DEFINITION. What every host command shares: the opcode table, payload forms, handles and cell references, effective
ticks, sessions, and parameter access (R18, R31, R64, R68, R69, R72 to R77, R442 to R446, R474, R477). -/

namespace Sys2Proof.Machine

/-! ## The opcode table (R64, R72, Table 02-10) -/

/-- Access classes (R64). -/
inductive OpClass where
  | n | r | o | w | a
  deriving DecidableEq, Repr

/-- A row of Table 02-10: opcode, class, whether it has an effective tick, whether it is refused while calmed. -/
structure OpInfo where
  code : Nat
  cls  : OpClass
  et   : Bool := false
  calm : Bool := false
  deriving DecidableEq, Repr

/-- Table 02-10. POWER_STATE is refused while calmed for two of its targets only (R417). -/
def opTable : List OpInfo :=
  [⟨0x0001, .n, false, false⟩, ⟨0x0002, .n, false, false⟩, ⟨0x0003, .n, false, false⟩, ⟨0x0004, .r, false, false⟩,
   ⟨0x0005, .r, false, false⟩, ⟨0x0006, .r, false, false⟩, ⟨0x0007, .a, false, false⟩, ⟨0x0008, .a, false, false⟩,
   ⟨0x0009, .r, false, false⟩, ⟨0x000A, .r, false, false⟩, ⟨0x000B, .o, true, false⟩, ⟨0x000C, .n, false, false⟩,
   ⟨0x000D, .n, false, false⟩, ⟨0x000E, .n, false, false⟩, ⟨0x000F, .n, false, false⟩, ⟨0x0010, .w, true, false⟩,
   ⟨0x0011, .w, true, false⟩, ⟨0x0012, .n, false, false⟩, ⟨0x0101, .r, false, false⟩, ⟨0x0102, .w, true, false⟩,
   ⟨0x0103, .r, false, false⟩, ⟨0x0104, .w, true, false⟩, ⟨0x0201, .r, false, false⟩, ⟨0x0202, .o, true, true⟩,
   ⟨0x0203, .o, true, false⟩, ⟨0x0204, .o, true, true⟩, ⟨0x0205, .o, true, true⟩, ⟨0x0206, .o, true, false⟩,
   ⟨0x0207, .o, true, true⟩, ⟨0x0208, .w, true, false⟩, ⟨0x0209, .r, false, false⟩, ⟨0x0301, .r, false, false⟩,
   ⟨0x0302, .o, true, true⟩, ⟨0x0303, .w, true, true⟩, ⟨0x0304, .w, true, true⟩, ⟨0x0305, .o, true, false⟩,
   ⟨0x0401, .w, false, false⟩, ⟨0x0402, .w, true, true⟩, ⟨0x0403, .w, true, true⟩, ⟨0x0404, .r, false, false⟩,
   ⟨0x0405, .w, false, false⟩, ⟨0x0406, .a, false, false⟩, ⟨0x0407, .a, false, false⟩, ⟨0x0501, .r, false, false⟩,
   ⟨0x0502, .r, false, false⟩, ⟨0x0503, .w, false, false⟩, ⟨0x0504, .w, false, false⟩, ⟨0x0505, .w, false, false⟩,
   ⟨0x0506, .r, false, false⟩, ⟨0x0601, .o, false, false⟩, ⟨0x0602, .o, false, false⟩, ⟨0x0603, .o, false, false⟩,
   ⟨0x0604, .o, true, false⟩, ⟨0x0605, .o, false, false⟩, ⟨0x0701, .w, false, false⟩, ⟨0x0702, .w, false, false⟩,
   ⟨0x0703, .r, false, false⟩, ⟨0x0704, .r, false, false⟩, ⟨0x0801, .w, false, false⟩, ⟨0x0802, .w, false, false⟩,
   ⟨0x0803, .w, false, false⟩, ⟨0x0804, .w, false, true⟩, ⟨0x0805, .w, false, false⟩, ⟨0x0806, .w, false, false⟩,
   ⟨0x0807, .r, false, false⟩, ⟨0x0808, .n, false, false⟩, ⟨0x0809, .a, false, false⟩, ⟨0x080A, .a, false, false⟩,
   ⟨0x080B, .r, false, false⟩, ⟨0x0901, .r, false, false⟩, ⟨0x0902, .w, false, false⟩, ⟨0x0A01, .r, false, false⟩,
   ⟨0x0A02, .o, false, false⟩, ⟨0x0A03, .o, false, false⟩, ⟨0x0A04, .o, false, false⟩, ⟨0x0A05, .o, false, false⟩]

/-- The row of an opcode. -/
def opInfo (code : Nat) : Option OpInfo := opTable.find? (fun r => r.code == code)

/-- The class in force at acceptance: CERT_INSTALL and OEM_KEY_INSTALL are in class W while no OEM key is installed
(R390). -/
def State.opClass (s : State) (r : OpInfo) : OpClass :=
  if (r.code = 0x0809 ∨ r.code = 0x080A) ∧ s.id.oemKey.isNone then .w else r.cls

/-- Whether a class needs authorisation now (R64, R67). -/
def State.needsAuth (s : State) (c : OpClass) : Bool :=
  match c with
  | .a => true
  | .w => s.id.locked
  | _ => false

/-- Opcodes answered in thermal shutdown and in boot hold (R74, R439). -/
def answersAlways (code : Nat) : Bool :=
  [0x0001, 0x0002, 0x000C, 0x000D, 0x000E, 0x000F, 0x0012, 0x0808].contains code

/-- What a command's meaning is given: its sender (the session that owns its jobs, or the link), the session and sequence
number under which it would be scheduled, its opcode, its effective tick with the tick asked for if any, and whether the
sender is authorised and had to be. -/
structure Ctx where
  who     : UpdOwner
  sid     : BitVec 16
  schedSid : BitVec 16
  seq     : BitVec 16
  opcode  : BitVec 16
  etick   : Nat
  etv     : Bool
  auth    : Bool
  needed  : Bool
  data    : List Byte
  deriving DecidableEq, Repr

/-- The meaning of a command after its acceptance checks. -/
abbrev Body := State → Ctx → Answer × State

/-! ## Effective ticks and the schedule (R68, R69) -/

/-- ETICK extended to the 48-bit tick in the window around `a` (R68). -/
def extendTick (a : Nat) (low : Nat) : Int :=
  let lo : Int := (a : Int) - 2147483648
  lo + (((low : Int) - lo) % 4294967296)

/-- The effective tick of a command accepted in tick `a`, or the status that refuses it. -/
def effectiveTick (a : Nat) (etv : Bool) (low : Nat) : Except Nat Nat :=
  let e : Int := if etv then extendTick a low else (a : Int) + 2
  if e ≤ (a : Int) + 1 then .error stTooLate
  else if (a : Int) + 1073741824 < e then .error stTooFar
  else .ok e.toNat

/-- A command scheduled for its effective tick, unless 256 wait (R69). -/
def State.schedule (s : State) (c : Ctx) : Answer × State :=
  if 256 ≤ s.sched.length then (refuse stBusy 3, s)
  else
    let x : Sched := {
      at_ := c.etick
      session := c.schedSid
      seq := c.seq
      opcode := c.opcode
      payload := c.data
      auth := c.needed }
    (okAns, { s with sched := s.sched ++ [x] })

/-! ## Payloads -/

/-- A payload of exactly `n` bytes, or BAD_LENGTH (R71). -/
def exactly (n : Nat) (f : Body) : Body := fun s c => if c.data.length = n then f s c else (refuse stBadLength, s)

/-- The first byte of `bs` from `off` that is not 0, saturated (R71). -/
def firstSet (bs : List Byte) (off len : Nat) : Option Nat :=
  ((List.range len).find? (fun i => (bs.getD (off + i) 0) != 0)).map (fun i => Nat.min 255 (off + i))

/-- Reserved bytes must be 0, or BAD_PAYLOAD with the offset of the first that is not. -/
def reserved (off len : Nat) (f : Body) : Body := fun s c =>
  match firstSet c.data off len with
  | some o => (refuse stBadPayload o, s)
  | none => f s c

/-- The list form of R477: a count n of 1 to `max` and n entries of 2 bytes. -/
def listForm (max : Nat) (f : List Nat → Body) : Body := fun s c =>
  match c.data with
  | [] => (refuse stBadLength, s)
  | b :: t =>
    let n := b.toNat
    if n = 0 ∨ max < n then (refuse stBadPayload 0, s)
    else if t.length ≠ 2 * n then (refuse stBadLength, s)
    else f ((List.range n).map (fun i => field t (2 * i) 2)) s c

/-- The index of the first entry that fails a check. -/
def firstFailing {α : Type} (ok : α → Bool) (l : List α) : Option Nat :=
  (l.findIdx? (fun x => !ok x)).map (Nat.min 255)

/-! ## Handles and cells (R18, R31) -/

/-- A valid handle of this module: node and reserved field 0, a slot that is configured. -/
def State.goodHandle (s : State) (h : Nat) : Bool := decide (h < 1024) && s.has h

/-- A handle of a unit of one kind, refused with INVALID_INSTANCE otherwise. -/
def ofKind (kind off : Nat) (f : Nat → Body) : Body := fun s c =>
  let h := field c.data off 2
  if s.goodHandle h && slotKind h == kind then f (slotInst h) s c else (refuse stInvalid 0, s)

/-- Offsets and values of the handles and cell references a command's payload names (R73). -/
def namedRefs (code : Nat) (d : List Byte) : List (Nat × Nat) :=
  let at_ (o : Nat) : List (Nat × Nat) := if o + 2 ≤ d.length then [(o, field d o 2)] else []
  let n := (d.headD 0).toNat
  if code = 0x0201 ∨ code = 0x0301 ∨ code = 0x0305 then ((List.range n).map (fun i => at_ (1 + 2 * i))).flatten
  else if code = 0x0302 then ((List.range n).map (fun i => at_ (1 + 12 * i))).flatten
  else if (0x0202 ≤ code ∧ code ≤ 0x0208) ∨ code = 0x0303 ∨ code = 0x0304 ∨ (0x0503 ≤ code ∧ code ≤ 0x0506) then at_ 0
  else []

/-- The offset of the first reference that names another node than the first one does. -/
def mixedNodes (l : List (Nat × Nat)) : Option Nat :=
  match l with
  | [] => none
  | (_, r) :: t => (t.find? (fun e => e.2 / 8192 != r / 8192)).map (·.1)

/-! ## Sessions -/

def State.session (s : State) (id : BitVec 16) : Option Session := s.host.sessions.find? (fun x => x.id == id)

def State.modSession (s : State) (id : BitVec 16) (f : Session → Session) : State :=
  { s with host := { s.host with sessions := s.host.sessions.map (fun x => if x.id = id then f x else x) } }

/-! ## Jobs (R79) -/

/-- A new job for the sender, unless 8 exist: its handle is free among those in use (log entry 4). -/
def State.newJob (s : State) (c : Ctx) (f : Job → Job) : Answer × State :=
  if 8 ≤ s.jobs.length then (refuse stBusy 2, s)
  else
    let (v, s) := s.drawFree
    let h := freshId v (sortNats (s.jobs.map (·.handle)))
    let j : Job := {
      handle := h
      session := some c.sid
      opcode := c.opcode
      state := .queued
      progress := 0
      status := 0
      detail := 0
      etick := none
      wanted := 0
      wantedSet := false
      args := c.data
      out := []
      data := []
      pauseDue := false
      cancelDue := false
      started := 0 }
    ({ status := stAccepted, job := h }, { s with jobs := s.jobs ++ [f j] })

/-! ## Parameter instances and ranges (R442, R444, R474) -/

/-- Instances of a row on the fitted part. -/
def State.instOk (s : State) (r : ParamInfo) (i : Nat) : Bool :=
  match r.inst with
  | .single => i == 0
  | .port => decide (i < 2)
  | .slot => s.slotExists i
  | .hive => decide (i < 256)
  | .hive1 => decide (1 ≤ i) && decide (i < 256)
  | .hostCell => decide (256 ≤ i) && decide (i < 8192)
  | .region => decide (i < 12)
  | .bank => decide (i < s.bankCount)
  | .channel => decide (i < s.channels)
  | .evenChannel => decide (i < s.channels) && i % 2 == 0
  | .probe => decide (i < s.probeCount)
  | .crop => decide (i < 64)
  | .line => decide (i < 64)
  | .loop => decide (i < 256)
  | .coef => decide (i < 1024)
  | .profile => decide (i < 64)
  | .churn => decide (i < 32)
  | .observer => decide (i < 8)
  | .program => decide (i < 4)
  | .chain => decide (i < 32)
  | .bin => decide (i < 64)
  | .fan => decide (i < 8)
  | .fan4 => decide (i < 4)
  | .site => decide (i < 6)
  | .journal => decide (i < 2)

/-- The TYPE code of a scalar parameter (R443); none for a block. -/
def typeCode : ParamTy → Option Nat
  | .f32 => some 0
  | .i32 => some 1
  | .u64 => some 3
  | .block _ => none
  | _ => some 2

/-- The greatest value of an unsigned type of less than 4 bytes. -/
def typeMax : ParamTy → Nat
  | .u8 => 255
  | .u16 => 65535
  | _ => 18446744073709551615

/-- A value within the own range of a row (R474), on a part with `channels` channels; `i` is the instance. -/
def inRange (channels : Nat) (r : ParamInfo) (i : Nat) (v : Nat) : Bool :=
  let x : F32 := BitVec.ofNat 32 v
  let noneCode := typeMax r.ty
  decide (v ≤ typeMax r.ty) &&
  match r.range with
  | .any => true
  | .nat lo hi => decide (lo ≤ v) && decide (v ≤ hi)
  | .orZero lo hi => v == 0 || (decide (lo ≤ v) && decide (v ≤ hi))
  | .orNone lo hi => v == noneCode || (decide (lo ≤ v) && decide (v ≤ hi))
  | .oneOf l => l.contains v
  | .mult lo hi step => decide (lo ≤ v) && decide (v ≤ hi) && v % step == 0
  | .pow2 lo hi => decide (lo ≤ v) && decide (v ≤ hi) && v == 2 ^ Nat.log2 v
  | .channel even orNo => (orNo && v == 0xFF) || (decide (v < channels) && (!even || v % 2 == 0))
  | .region => let b := regionBounds i; decide (b.1 ≤ v) && decide (v ≤ b.2.2)
  | .finite => fFinite x
  | .finiteNonzero => fFinite x && !fZero x
  | .positive => fFinite x && fPos x
  | .zeroOrPos => fFinite x && (fZero x || fPos x)
  | .real lo hi => fFinite x && fle lo x && fle x hi
  | .realOrZero lo hi => fFinite x && (fZero x || (fle lo x && fle x hi))

/-- A value within the own range of a row on this module: COMPAT_LEVEL up to the highest supported level (R8), INREC_SCOPE a
configured hive of this node or none (R123). -/
def State.inRange (s : State) (r : ParamInfo) (i : Nat) (v : Nat) : Bool :=
  Machine.inRange s.channels r i v &&
    (r.id != P.COMPAT_LEVEL || decide (v ≤ s.id.clHighest)) &&
    (r.id != P.INREC_SCOPE || v == 0xFFFF || (decide (v < 1024) && isHive v && s.has v))

/-- Rows that are read-only in some instance (R123, R451). -/
def readOnly (r : ParamInfo) (i : Nat) : Bool :=
  r.acc == .ro || (r.id == P.REGION_PAGES && i == 0) || (r.id == P.HIVE_FACE_KIND && i == 0) || (r.id == P.UNIT_HEADER && (i == 0 || i == hkSlot))

/-- Where an access leads: the row and its instance; `none` for a face item without a binding; `set` for a coefficient
that the running GAIN_SET chooses (R442). -/
structure Target where
  info : ParamInfo
  inst : Option Nat
  set  : Bool := false
  deriving DecidableEq, Repr

/-- The outcome of the first two checks of R444. -/
inductive Resolved where
  | unknown | absent
  | found (t : Target)
  deriving DecidableEq, Repr

/-- The member and item behind a face item, through hives that are members themselves; `k` bounds their depth. -/
def faceTarget (c : Content) : Nat → Nat → Nat → Option (Nat × Nat)
  | 0, _, _ => none
  | k + 1, h, item =>
    match boundTo c h item with
    | none => none
    | some (slot, it) => if slotKind slot = 0x02 then faceTarget c k (hiveNumber slot) it else some (slot, it)

/-- The instance of a unit's row (R442): a coefficient of a loop unit takes the set in force. -/
def State.memberInst (s : State) (r : ParamInfo) (slot : Nat) : Nat :=
  match r.inst with
  | .coef => 4 * slotInst slot + runningOf s.view s.content P.GAIN_SET (slotInst slot) % 4
  | .single => 0
  | _ => slotInst slot

/-- An access resolved (R442, R444 steps 1 and 2). -/
def State.resolve (s : State) (id inst : Nat) : Resolved :=
  match paramInfo id with
  | none => .unknown
  | some r =>
    if inst < 32768 then (if s.instOk r inst then .found ⟨r, some inst, false⟩ else .absent)
    else
      let h := inst - 32768
      let slot := hiveSlot h
      if 255 < h ∨ !s.has slot ∨ paramKind id ≠ faceOf s.content slot ∨ paramKind id = 0 then .absent
      else
        match faceTarget s.content 257 h id with
        | none => .found ⟨r, none, false⟩
        | some (m, item) =>
          match paramInfo item with
          | none => .found ⟨r, none, false⟩
          | some r' =>
            let i := s.memberInst r' m
            if s.instOk r' i then .found ⟨r', some i, r'.inst == .coef⟩ else .absent

/-! ## Read-only values (R445) -/

/-- The state as readers outside evaluation see it: with the committed copy for the working one (R102). -/
def State.seen (s : State) : State := { s with work := s.view }

/-- A scalar RO parameter, in its 8 bytes, on the state as seen. -/
def roScalar (s : State) (id i : Nat) : Nat :=
  let p := s.work
  match id with
  | 0x0002 => if s.id.sg1064 then 1 else 0
  | 0x0003 => if s.id.gradeX then 1 else 0
  | 0x0004 => s.id.clHighest
  | 0x0012 => s.host.overrun
  | 0x0013 => s.host.framing
  | 0x0014 => s.host.crcErr
  | 0x0015 => s.host.sessions.length
  | 0x0016 => s.sched.length
  | 0x0017 => s.host.events.length
  | 0x0100 => s.statusWord i
  | 0x0102 => if s.has i then s.order.idxOf i else 0xFFFF
  | 0x0311 => s.pagesFree
  | 0x0312 => s.sram.retired.length
  | 0x0313 => s.sram.corrCount
  | 0x0314 => s.sram.redoCount
  | 0x0315 => s.sram.lagMax
  | 0x0322 => (s.fch i).substCount
  | 0x0333 => s.inrec.used
  | 0x0400 => (s.bank i).state.code
  | 0x0404 => s.faultBanks
  | 0x0430 => (s.bank i).fifo.length
  | 0x0530 => (s.bank i).loadClass
  | 0x0531 => (s.bank i).loadMean.toNat
  | 0x0611 => (s.bank i).engine
  | 0x070C => s.lineState i
  | 0x070D => (p.comb i).roundsMissed
  | 0x082B => (p.loop i).word
  | 0x082C => (p.loop i).iPrev.toNat
  | 0x082D => (p.loop i).manual.toNat
  | 0x084F => (p.prof i).word
  | 0x0871 => (p.churn i).word
  | 0x091B => (p.observer i).factor.toNat
  | 0x091C => (p.observer i).word
  | 0x093E => (p.prog i).word
  | 0x093F => (p.prog i).batches
  | 0x0957 => (p.chain i).word
  | 0x0985 => (p.bin i).word
  | 0x0A22 => (p.fan i).word
  | 0x0A24 => (p.fan i).manual.toNat
  | 0x0B0A => s.portWord i
  | 0x0B0B => s.nodeNumber
  | 0x0B0C => if s.link.joined then (BitVec.ofInt 64 s.link.offset).toNat else 0
  | 0x0B0D => s.link.authFailures
  | 0x0B0E => s.link.lateUpdates
  | 0x0B0F => s.link.discards
  | 0x0B10 => s.link.losses
  | 0x0C06 => s.recorder.health
  | 0x0C10 => s.activeGen
  | 0x0C11 => s.id.formatLevel
  | 0x0D02 => s.upd.fwVersion
  | 0x0D03 => slotIndex s.upd.slotB
  | 0x0D04 => s.upd.secVersion
  | 0x0D05 => if s.id.locked then 1 else 0
  | 0x0E00 => powerCode s.power
  | 0x0E01 => s.powerCondition
  | 0x0E02 => s.hk.throttle.toNat
  | 0x0E03 => s.hk.theta.toNat
  | 0x0E04 => s.hk.rho.toNat
  | 0x0E05 => bitSet ((List.range 6).filter s.hk.included)
  | 0x0E06 => (s.hk.rates.getD i 0).toNat
  | 0x0E07 => (s.hk.maxLife.getD 0).toNat
  | 0x0E0A => s.hk.rounds
  | _ => 0

/-- A calibration record in its 32 bytes (Table 05-13). -/
def calBytes (state : Nat) (r : CalRec) : List Byte :=
  withCrc ([BitVec.ofNat 8 state, BitVec.ofNat 8 r.group, BitVec.ofNat 8 r.loadClass, BitVec.ofNat 8 r.band] ++
    le 4 r.coarseGain.toNat ++ leInt 4 r.coarseOffset ++ le 4 r.fineGain.toNat ++ leInt 4 r.fineOffset ++
    le 6 r.tick ++ [0, 0])

/-- CAL_TABLE (Table 05-13): field records by number, and the record in use if the mode has a group. -/
def State.calTable (s : State) (ch : Nat) : List Byte :=
  let f := s.fch ch
  let rec0 (i : Nat) : List Byte :=
    match f.fieldRecs.find? (fun e => e.1 == i) with
    | some e => calBytes 1 e.2
    | none => List.replicate 32 0
  let used : List Byte :=
    match calGroup (s.mode ch) with
    | none => List.replicate 32 0
    | some _ => calBytes (if f.calNow.isSome then 1 else 2) (s.calInUse ch f.calNow f.tagsNow)
  ((List.range 16).map rec0).flatten ++ used

/-- An RO block parameter on the state as seen; `who` asks. -/
def roBlock (s : State) (who : UpdOwner) (id i : Nat) : List Byte :=
  let p := s.work
  match id with
  | 0x0001 => padTo 16 s.id.orderingCode
  | 0x0005 => padTo 6 (s.id.macs.getD i [])
  | 0x0532 => s.calTable i
  | 0x060E => match (p.probe i).last with | some r => padTo 200 r.bytes | none => List.replicate 200 0
  | 0x060F => s.probeCalTable i
  | 0x070B => padTo 388 (s.lastRound i)
  | 0x0850 => le 4 (p.prof i).x.toNat ++ le 4 (p.prof i).v.toNat ++ le 4 (p.prof i).a.toNat
  | 0x0872 => padTo 16388 (p.churn i).tableBytes
  | 0x091D => padTo 516 (p.observer i).block
  | 0x0C05 => padTo 32 s.recStatus
  | 0x0C12 => contentHash s.content
  | 0x0D00 => padTo 16 s.id.serial
  | 0x0D01 => padTo 64 s.id.devicePub
  | 0x0D06 => s.oemHash
  | 0x0D07 => s.updStatus who
  | 0x0E08 => s.journalBlock i
  | _ => []

/-! ## Reading and writing parameters (R443 to R445) -/

/-- The content a sender reads "commit" parameters from: its own pending generation, else the active one (R445). -/
def State.editContent (s : State) (sid : BitVec 16) : Content :=
  match s.pendGen with
  | some p => if p.holder = sid then p.content else s.content
  | none => s.content

/-- The pending generation is held by this sender. -/
def State.holdsPending (s : State) (sid : BitVec 16) : Bool :=
  match s.pendGen with
  | some p => p.holder == sid
  | none => false

/-- A scalar parameter as a read returns it (R444, R445); an unbound face item reads as the kind's default (R27). -/
def State.readScalar (s : State) (c : Ctx) (t : Target) : Nat :=
  let id := t.info.id
  match t.inst with
  | none => t.info.dflt
  | some i =>
    match t.info.acc, t.info.eff with
    | .wo, _ => 0
    | .ro, _ => roScalar s.seen id i
    | _, .tick => runningOf s.view s.content id i
    | _, _ => scalarOf (s.editContent c.sid) id i

/-- A block parameter as a read returns it. -/
def State.readBlock (s : State) (c : Ctx) (t : Target) : List Byte :=
  let id := t.info.id
  match t.inst with
  | none => blockDefault id
  | some i =>
    if t.info.acc = .ro then roBlock s.seen c.who id i
    else if id = P.UNIT_HEADER then
      let h := headerOf (s.editContent c.sid) i
      [BitVec.ofNat 8 h.kind, BitVec.ofNat 8 (if h.required then 1 else 0)] ++ le 2 h.parent
    else blockOf (s.editContent c.sid) id i

/-- A write into the sender's pending generation. -/
def State.modPending (s : State) (f : Content → Content) : State :=
  { s with pendGen := s.pendGen.map (fun p => { p with content := f p.content }) }

/-- One checked entry of PARAM_WRITE. -/
structure WriteEntry where
  target : Target
  inst   : Nat
  value  : Val
  deriving DecidableEq, Repr

/-- The check of entry `i` of a PARAM_WRITE (R76, R443, R444, R308). -/
def State.checkWrite (s : State) (c : Ctx) (i : Nat) : Except Answer WriteEntry :=
  let off := 1 + 14 * i
  let id := field c.data off 2
  let inst := field c.data (off + 2) 2
  let type := field c.data (off + 4) 1
  let value := field c.data (off + 6) 8
  let idx := Nat.min 255 i
  let place (o : Nat) : Nat := Nat.min 255 (off + o)
  match s.resolve id inst with
  | .unknown => .error (refuse stBadPayload (place 0))
  | .absent => .error (refuse stInvalid idx)
  | .found t =>
    match typeCode t.info.ty with
    | none => .error (refuse stBadLength)
    | some code =>
      if type ≠ code then .error (refuse stBadPayload (place 4))
      else if field c.data (off + 5) 1 ≠ 0 then .error (refuse stBadPayload (place 5))
      else if code ≠ 3 ∧ 4294967296 ≤ value then
        .error (refuse stBadPayload ((firstSet c.data (off + 10) 4).getD (place 10)))
      else
        match t.inst with
        | none => .error (refuse stReadOnly idx)
        | some n =>
          if readOnly t.info n then .error (refuse stReadOnly idx)
          else if !s.inRange t.info n value then .error (refuse stRange idx)
          else
            let st := (s.view.unit (progSlot n)).st
            if t.info.id = P.PRG_GOTO ∧ st ≠ .auto ∧ st ≠ .manual then .error (refuse stState st.code)
            else if t.info.eff = .commit ∧ !s.holdsPending c.sid then .error (refuse stBusy 4)
            else .ok ⟨t, inst, BitVec.ofNat 64 value⟩

/-- All entries, or the first refusal. -/
def State.checkWrites (s : State) (c : Ctx) : List Nat → Except Answer (List WriteEntry)
  | [] => .ok []
  | i :: t =>
    match s.checkWrite c i with
    | .error a => .error a
    | .ok e =>
      match s.checkWrites c t with
      | .error a => .error a
      | .ok l => .ok (e :: l)

/-- PARAM_WRITE (R76): all or nothing; "commit" entries enter the pending generation, the others change at E. -/
def paramWrite : Body := fun s c =>
  match c.data with
  | [] => (refuse stBadLength, s)
  | b :: _ =>
    let n := b.toNat
    if n = 0 then (refuse stBadPayload 0, s)
    else if c.data.length ≠ 1 + 14 * n then (refuse stBadLength, s)
    else
      match s.checkWrites c (List.range n) with
      | .error a => (a, s)
      | .ok l =>
        let later := l.any (fun e => e.target.info.eff != .commit)
        let r := if later then s.schedule c else (okAns, s)
        if r.1.status ≠ stOk then r
        else
          let stored := l.filter (fun e => e.target.info.eff == .commit)
          (okAns, stored.foldl (fun s e =>
            s.modPending (fun x => contentSetScalar x e.target.info.id (e.target.inst.getD 0) e.value)) r.2)

/-- Whether a change of this parameter makes the next step of a loop unit a preset step: GAIN_SET, a coefficient of the
set in force, BETA, a feed-forward gain or FF_BIAS (R270). -/
def presets (s : State) (id inst : Nat) : Option Nat :=
  if id = P.GAIN_SET ∨ id = P.BETA ∨ id = P.FF1_GAIN ∨ id = P.FF2_GAIN ∨ id = P.FF_BIAS then some inst
  else if P.KP ≤ id ∧ id ≤ P.TF ∧ inst % 4 = s.run P.GAIN_SET (inst / 4) % 4 then some (inst / 4)
  else none

/-- One entry of a PARAM_WRITE that falls due at a boundary (R76, R295, R308, R438). -/
def State.applyWrite (s : State) (id inst : Nat) (v : Val) : State :=
  match s.resolve id inst with
  | .found t =>
    match t.inst with
    | none => s
    | some i0 =>
      let r := t.info
      let i := if t.set then 4 * (i0 / 4) + s.run P.GAIN_SET (i0 / 4) % 4 else i0
      if r.eff = .commit ∨ readOnly r i then s
      else if r.eff = .start then s.modBoot (fun b => { b with retry := BitVec.ofNat 8 v.toNat })
      else if r.id = P.CHURN_CLEAR then
        s.modWork (fun p => p.setChurn i { p.churn i with table := [] })
      else if r.id = P.PRG_GOTO then
        let st := (s.unit (progSlot i)).st
        if st = .auto ∨ st = .manual then s.modWork (fun p => p.setProg i ((p.prog i).enter v.toNat))
        else s.modUnit (progSlot i) (fun u => { u with cmdDropped := true })
      else
        let was := s.run r.id i
        let s' := s.modWork (fun p => p.setRunning s.content r.id i v)
        if was = v.toNat then s'
        else
          match presets s r.id i with
          | some n => s'.modWork (fun p => p.setLoop n { p.loop n with presetDue := true })
          | none => s'
  | _ => s

/-- The entries of a PARAM_WRITE applied in their order. -/
def State.applyWrites (s : State) (payload : List Byte) : State :=
  (List.range (field payload 0 1)).foldl (fun s i =>
    let off := 1 + 14 * i
    s.applyWrite (field payload off 2) (field payload (off + 2) 2) (BitVec.ofNat 64 (field payload (off + 6) 8))) s

/-- One entry of a PARAM_READ reply (R75): its 16 bytes and its status. -/
def State.readEntry (s : State) (c : Ctx) (id inst : Nat) : List Byte × Nat :=
  let entry (type st value : Nat) : List Byte :=
    le 2 id ++ le 2 inst ++ [BitVec.ofNat 8 type, BitVec.ofNat 8 st, 0, 0] ++ le 8 value
  match s.resolve id inst with
  | .unknown => (entry 0 stBadPayload 0, stBadPayload)
  | .absent => (entry 0 stInvalid 0, stInvalid)
  | .found t =>
    match typeCode t.info.ty with
    | none => (entry 0 stBadLength 0, stBadLength)
    | some code => (entry code stOk (s.readScalar c t), stOk)

/-- PARAM_READ (R75). Reading a status word clears its flags (Table 01-2). -/
def paramRead : Body := fun s c =>
  match c.data with
  | [] => (refuse stBadLength, s)
  | b :: t =>
    let n := b.toNat
    if n = 0 then (refuse stBadPayload 0, s)
    else if t.length ≠ 4 * n then (refuse stBadLength, s)
    else
      let ids := (List.range n).map (fun i => (field t (4 * i) 2, field t (4 * i + 2) 2))
      let es := ids.map (fun e => s.readEntry c e.1 e.2)
      let data := (es.map (·.1)).flatten
      let s' := ids.foldl (fun s e => if e.1 = P.UNIT_STATUS_WORD ∧ e.2 < 1024 then s.clearReadFlags e.2 else s) s
      match es.findIdx? (fun e => e.2 != stOk) with
      | none => (okData data, s')
      | some i => ({ status := (es.getD i ([], 0)).2, detail := Nat.min 255 i, data := data }, s')

/-- Size of a block parameter. -/
def blockSize : ParamTy → Option Nat
  | .block n => some n
  | _ => none

/-- The checks of a block access before its access rights: ID, instance, type and place (R443, R444). -/
def State.blockTarget (s : State) (id inst off len : Nat) : Except Answer Target :=
  match s.resolve id inst with
  | .unknown => .error (refuse stBadPayload 0)
  | .absent => .error (refuse stInvalid 0)
  | .found t =>
    match blockSize t.info.ty with
    | none => .error (refuse stBadLength)
    | some size => if size ≤ off ∨ size < off + len then .error (refuse stRange 0) else .ok t

/-- PARAM_READ_BLOCK (R443). -/
def paramReadBlock : Body := exactly 10 (fun s c =>
  let off := field c.data 4 4
  let len := field c.data 8 2
  match s.blockTarget (field c.data 0 2) (field c.data 2 2) off len with
  | .error a => (a, s)
  | .ok t => if len = 0 then (refuse stRange 0, s) else (okData (bytesAt (s.readBlock c t) off len), s))

/-- PARAM_WRITE_BLOCK (R443, R444, R451): every writable block is a "commit" parameter. -/
def paramWriteBlock : Body := fun s c =>
  if c.data.length < 8 then (refuse stBadLength, s)
  else
    let id := field c.data 0 2
    let off := field c.data 4 4
    let new := c.data.drop 8
    match s.blockTarget id (field c.data 2 2) off new.length with
    | .error a => (a, s)
    | .ok t =>
      match t.inst with
      | none => (refuse stReadOnly 0, s)
      | some i =>
        if readOnly t.info i then (refuse stReadOnly 0, s)
        else
          let now := overlay (s.readBlock c t) off new
          let kind := field now 0 1
          if t.info.id = P.UNIT_HEADER ∧ kind ≠ 0 ∧ kind ≠ slotKind i then (refuse stRange 0, s)
          else if !s.holdsPending c.sid then (refuse stBusy 4, s)
          else (okAns, s.modPending (fun x => contentSetBlock x t.info.id i now))

end Sys2Proof.Machine
end

