-- ==== Sys2Proof/Machine/Jobs.lean ====
section
/-! DEFINITION. Jobs as they wait, run, pause and end, and the close of a session (R63, R76, R79 to R82, R399, R403). -/

namespace Sys2Proof.Machine

/-! ## Classes and the runner (R80) -/

/-- Priority class of a job's opcode. -/
def jobClass (opcode : BitVec 16) : Nat :=
  if opcode = 0x0803#16 then 0
  else if opcode = 0x0402#16 ∨ opcode = 0x0403#16 then 1
  else if opcode = 0x0503#16 ∨ opcode = 0x0504#16 ∨ opcode = 0x0505#16 then 2
  else 3

/-- A commit or revert. -/
def Job.change (j : Job) : Bool := j.opcode == 0x0402#16 || j.opcode == 0x0403#16

/-- Whether a job occupies the runner: a commit or revert whose effective tick is fixed waits for its boundary only. -/
def Job.occupies (j : Job) : Bool := j.state == .running && !(j.change && j.etick.isSome)

/-- The better candidate of two: the lower class, the earlier one of equals. -/
def betterJob (best : Option Job) (j : Job) : Option Job :=
  match best with
  | none => some j
  | some b => if jobClass j.opcode < jobClass b.opcode then some j else some b

/-- The next job to run: the lowest class, in order of creation. -/
def nextJob (jobs : List Job) : Option Job := (jobs.filter (fun j => j.state == .queued)).foldl betterJob none

/-- What a job produces as it first runs: the parts of a read or of an export (R122, R372, R384). -/
def State.jobParts (s : State) (j : Job) : List (List Byte) × State :=
  if j.opcode = 0x0602#16 then
    (s.recorder.readParts (field j.args 0 1) (field j.args 4 4) (field j.args 8 2), s)
  else if j.opcode = 0x0704#16 then (s.inrec.readParts (field j.args 0 6) (field j.args 6 4), s)
  else if j.opcode = 0x0406#16 then
    let (b, s) := s.bundle j.args
    (chunks 4000 (b.length / 4000 + 1) b, s)
  else ([], s)

/-- A comb line is taken by an enumeration, or given back (R254). -/
def State.setEnumerating (s : State) (j : Job) (on : Bool) : State :=
  if j.opcode = 0x0505#16 then
    let l := slotInst (field j.args 0 2)
    let f := s.fcomb l
    s.setFcomb l (if on then { f with enumerating := true, enumAt := s.tick, enumFault := false, found := none }
      else { f with enumerating := false })
  else s

/-- What keeps a job from its first run: an enumeration needs its units' states (R254). -/
def State.jobBar (s : State) (j : Job) : Option Nat :=
  if j.opcode = 0x0505#16 ∧ j.started = 0 then s.enumerateBar (slotInst (field j.args 0 2)) else none

/-- A job begins to run, or goes on from its checkpoint. UPD_VERIFY is in state VERIFYING while it runs, and fails when
its image is no longer there to be verified (R403). -/
def State.runJob (s : State) (j : Job) : State :=
  if j.opcode = 0x0803#16 ∧ s.upd.state ≠ .received ∧ s.upd.state ≠ .verifying then
    s.endJob j.handle .failed stState s.upd.state.code []
  else if let some code := s.jobBar j then s.endJob j.handle .failed stState code []
  else
    let s := if j.opcode = 0x0803#16 then s.modUpd (fun u => { u with state := .verifying }) else s
    if j.started = 0 then
      let (parts, s) := (s.setEnumerating j true).jobParts j
      s.modJob j.handle (fun k => { k with state := .running, started := s.tick + 1, out := parts })
    else s.modJob j.handle (fun k => { k with state := .running })

/-- A job ends; a commit gives up the pending generation, UPD_VERIFY settles the update session. -/
def State.finishJob (s : State) (j : Job) (st : JobState) (status detail : Nat) (data : List Byte) : State :=
  if j.change then s.endChange j st status detail data
  else
    let s := if j.opcode = 0x0803#16 ∧ s.upd.state = .verifying then s.verifyStopped else s
    s.endJob j.handle st status detail data

/-- A cancel takes effect: what the job has not committed is undone. -/
def State.cancelNow (s : State) (j : Job) : State := (s.setEnumerating j false).finishJob j .cancelled stOk 0 []

/-- The next jobs run, at most `k` of them, until one occupies the runner. -/
def State.runNext : Nat → State → State
  | 0, s => s
  | k + 1, s =>
    if s.jobs.any Job.occupies then s
    else
      match nextJob s.jobs with
      | none => s
      | some j => State.runNext k (s.runJob j)

/-- The runner: cancels of jobs that do not run take effect, and the next job runs when none does. -/
def State.dispatchJobs (s : State) : State :=
  let idle := s.jobs.filter (fun j => j.cancelDue && (j.state == .queued || j.state == .paused))
  (idle.foldl State.cancelNow s).runNext 8

/-- A checkpoint of a running job, with its progress (R80): a cancel, a pause or pre-emption takes effect. -/
def State.checkpointJob (s : State) (h progress : Nat) : State :=
  match s.job h with
  | none => s
  | some j =>
    if !j.occupies then s
    else
      let s := s.modJob h (fun j => { j with progress := Nat.min 1000 progress })
      let halted (s : State) (st : JobState) : State :=
        let s := s.modJob h (fun j => { j with state := st, pauseDue := false })
        if j.opcode = 0x0803#16 then s.verifyStopped else s
      let waits (k : Job) : Bool := k.state == .queued && decide (jobClass k.opcode < jobClass j.opcode)
      if j.cancelDue then (s.cancelNow j).dispatchJobs
      else if j.pauseDue then (halted s .paused).dispatchJobs
      else if s.jobs.any waits then (s.modJob h (fun j => { j with state := .queued })).dispatchJobs
      else s

/-- The work of running job `h` of an opcode completes. The completion is a checkpoint too: a pause or a cancel that waits
comes first. -/
def State.completeJob (s : State) (h : Nat) (opcode : Nat) (f : State → Job → State) : State :=
  match s.job h with
  | none => s
  | some j =>
    if j.opcode.toNat ≠ opcode ∨ !j.occupies then s
    else if j.cancelDue ∨ j.pauseDue then s.checkpointJob h j.progress
    else (f s j).dispatchJobs

/-! ## The close of a session (R63, R69, R76, R79, R399) -/

/-- What the close of a sender does to one of its jobs: ended ones are removed, a change whose tick is fixed and a running
or waiting UPD_VERIFY run on, the rest is cancelled. -/
def State.orphanJob (s : State) (j : Job) : State :=
  if j.state.ended then { s with jobs := s.jobs.filter (fun k => k.handle != j.handle) }
  else
    let s := s.modJob j.handle (fun k => { k with session := none, pauseDue := false })
    if (j.change && j.etick.isSome) || (j.opcode == 0x0803#16 && j.state != .paused) then s
    else s.cancelNow { j with session := none }

/-- What the close of a sender leaves undone: its pending generation, its jobs and its update session's owner. -/
def State.releaseSender (s : State) (sid : BitVec 16) (who : UpdOwner) : State :=
  let s := s.dropPending (some sid)
  let s := (s.jobs.filter (fun j => j.session == some sid)).foldl State.orphanJob s
  let s := if s.upd.owner = who then s.modUpd (fun u => { u with owner := .none }) else s
  s.dispatchJobs

/-- A session closes; by its idle limit it raises SESSION. -/
def State.closeSession (s : State) (id : BitVec 16) (raise : Bool) : State :=
  match s.session id with
  | none => s
  | some _ =>
    let s := s.releaseSender id (.session id)
    let s := s.modHost (fun h => { h with sessions := h.sessions.filter (fun x => x.id != id) })
    if raise then s.raise causeSession 0xFFFF id.toNat 1 else s

/-- A session whose idle limit has passed at instant `t` of tick resolution. -/
def Session.idleAt (x : Session) (t : Nat) : Bool := decide (x.lastTick + 1024 * x.idle < t)

/-- Sessions whose idle limit has passed as tick `t` begins. -/
def State.closeIdle (s : State) (t : Nat) : State :=
  (s.host.sessions.filter (fun x => x.idleAt t)).foldl (fun s x => s.closeSession x.id true) s

/-- The UART rate falls back (R54). -/
def State.baudFallback (s : State) : State :=
  (s.modHost (fun h => { h with baud := 115200, baudAt := none })).raise causeSession 0xFFFF 0 3

end Sys2Proof.Machine
end

