-- ==== Sys2Proof/Machine/Reply.lean ====
section
/-! DEFINITION. Replies to the host: their form, their order, and the replies that wait for a forager (R59, R61, R62, R66,
R73, R356, R358). -/

namespace Sys2Proof.Machine

/-- A reply to a command; with a key it carries AUTH and its tag. -/
def makeReply (session seq opcode : BitVec 16) (key : Option (List Byte)) (etick : Option Nat) (a : Answer) : Reply :=
  let r : Reply := {
    seq := seq
    opcode := opcode
    session := session
    etick := etick
    auth := key.isSome
    status := BitVec.ofNat 8 a.status
    detail := BitVec.ofNat 8 a.detail
    job := BitVec.ofNat 16 a.job
    data := a.data
    tag := [] }
  match key with
  | some k => { r with tag := cmac k r.body }
  | none => r

/-- A reply is produced: sent, or kept behind those of earlier commands that still wait (R62). -/
def State.produce (s : State) (r : Reply) : State :=
  if s.host.line.isEmpty then s.send r
  else
    let h : Held := {
      session := r.session
      seq := r.seq
      opcode := r.opcode
      reply := some r }
    { s with host := { s.host with line := s.host.line ++ [h] } }

/-- Replies at the front that are ready are sent. -/
def State.flushLine (s : State) : State :=
  let ready := s.host.line.takeWhile (fun h => h.reply.isSome)
  let s : State := { s with host := { s.host with line := s.host.line.dropWhile (fun h => h.reply.isSome) } }
  (ready.filterMap (·.reply)).foldl State.send s

/-- The first command that waits for an answer as `p` says gets its reply. -/
def giveReply (p : Held → Bool) (f : Held → Reply) : List Held → List Held
  | [] => []
  | h :: t => if h.reply.isNone && p h then { h with reply := some (f h) } :: t else h :: giveReply p f t

/-- The answer that a node cannot be reached. -/
def Held.unreached (h : Held) : Reply :=
  makeReply h.session h.seq h.opcode h.key none (refuse stNodeUnreachable h.node)

/-- Every command that waits for node `n` is answered with NODE_UNREACHABLE. -/
def State.unreach (s : State) (n : Nat) : State :=
  let line := s.host.line.map (fun h => if h.reply.isNone && h.node == n then { h with reply := some h.unreached } else h)
  ({ s with host := { s.host with line := line } } : State).flushLine

/-- Commands whose wait for node `n` is over are answered with NODE_UNREACHABLE (R358). -/
def State.replyTimeout (s : State) (n : Nat) : State :=
  let line := s.host.line.map (fun h =>
    if h.reply.isNone && h.node == n && decide (h.deadline ≤ s.tick) then { h with reply := some h.unreached } else h)
  ({ s with host := { s.host with line := line } } : State).flushLine

end Sys2Proof.Machine
end

