-- ==== Sys2Proof/Machine/Boundary.lean ====
section
/-! DEFINITION. The tick boundary: what is applied at it and in which order (R22, R43, R45, R69, R85, R87, R95, R96, R307,
R310, R379, R417 to R422, R433). -/

namespace Sys2Proof.Machine

/-! ## Unit events (R22) -/

/-- Entry into HOLD of a unit whose committed state was found bad (R105), with the code of its HOLD entry. -/
def State.holdEntry (s : State) (slot : Nat) : State :=
  match (s.unit slot).holdDue with
  | none => s
  | some code =>
    let s := s.modUnit slot (fun u => { u with holdDue := none })
    if (s.unit slot).st = .hold then s
    else
      let s := s.enterHeld slot .hold code
      if slot = recSlot then s.closeInterval else s

/-- Entry into FAULT of a unit whose fault was detected (R22, R23). A program unit stops its PRG_FAULT_STOP units one
boundary later (R310). -/
def State.faultEntry (s : State) (slot : Nat) : State :=
  match (s.unit slot).faultDue with
  | none => s
  | some code =>
    let s := s.modUnit slot (fun u => { u with faultDue := none })
    if (s.unit slot).st.held then s
    else
      let s := s.enterHeld slot .fault code
      if slotKind slot = 0x09 then
        s.modWork (fun p => p.setProg (slotInst slot) { p.prog (slotInst slot) with faultStop := some (s.workTick + 1) })
      else s

/-- A wind-down completes (R22, R24); a chain whose permit was lost begins to stop (R312). -/
def State.windDown (s : State) (slot : Nat) : State :=
  let u := s.unit slot
  let n := slotInst slot
  if u.st = .stopping ∧ u.windDone then s.setSt slot .stopped
  else if slotKind slot = 0x0A ∧ u.st = .active ∧ (s.work.chain n).stopDue then
    (s.modWork (fun p => p.setChain n { p.chain n with stopDue := false })).beginStop slot
  else s

/-- The unit events of a boundary: HOLD, then FAULT, then completed wind-downs. -/
def State.unitEvents (s : State) : State :=
  let slots := configuredSlots s.content
  let s := slots.foldl State.holdEntry s
  let s := (slots.foldl State.faultEntry s).syncHives
  (slots.foldl State.windDown s).syncHives

/-! ## The smoker at a boundary (R84, R85, R87) -/

/-- The smoker timeout in ticks: milliseconds times 1.024, rounded up. -/
def smokerTicks (ms : Nat) : Nat := (ms * 1024 + 999) / 1000

/-- Whether the smoker runs. -/
def State.smokerRuns (s : State) : Bool :=
  (s.power == .hush || s.power == .run) && !s.smoker.held && s.run P.SMOKER_TIMEOUT 0 != 0

/-- Whether the smoker's timeout has run out as tick `t` starts, judged by the packets accepted before it. -/
def State.smokerOut (s : State) (t : Nat) : Bool :=
  s.smokerRuns && !s.smoker.spent && decide (s.smoker.last + smokerTicks (s.run P.SMOKER_TIMEOUT 0) + 1 ≤ t)

/-- Whether the module calms at the start of tick `t`. -/
def State.calmsAt (s : State) (t : Nat) : Bool := s.smokerOut t && !s.smoker.calmed

/-- The calm that falls due at boundary `t`. -/
def State.calmDue (s : State) (t : Nat) : State :=
  match s.smoker.due with
  | none => s
  | some d =>
    if t < d then s
    else
      let s : State := { s with smoker := { s.smoker with due := none } }
      if s.smokerRuns && !s.smoker.calmed then s.calm else s

/-! ## Host commands at their effective tick (R69, R85, R86, R417) -/

/-- Target of a POWER_STATE payload. -/
def powerOf (n : Nat) : Option Power :=
  match n with
  | 0 => some .dormant
  | 1 => some .watch
  | 2 => some .hush
  | 3 => some .run
  | _ => none

/-- Whether a waiting command is discarded because the module is calmed. -/
def State.calmDrops (s : State) (x : Sched) : Bool :=
  s.smoker.calmed &&
    ((match opInfo x.opcode.toNat with | some r => r.calm | none => false) ||
      (x.opcode == 0x0011#16 && decide (2 ≤ field x.payload 0 1)))

/-- The unit that a discarded command of the Calm column marks: its handle's, the writer of its cell, or the housekeeping
unit for POWER_STATE. -/
def State.droppedSlot (s : State) (x : Sched) : Option Nat :=
  let h := field x.payload 0 2
  let c := x.opcode.toNat
  if c = 0x0011 then some hkSlot
  else if 0x0202 ≤ c ∧ c ≤ 0x0208 then some h
  else if c = 0x0303 ∨ c = 0x0304 then
    ((cellWriters s.content).find? (fun w => w.1 == h && w.2 != 0)).map (·.2)
  else none

/-- The wall time set (R375). -/
def State.setWall (s : State) (payload : List Byte) : State :=
  let v := toSigned 8 (field payload 0 8)
  let now := (s.tick : Int) + s.wallDiff
  let step := decide (1024 < (v - now).natAbs)
  let back := step && decide (v < now)
  let s := s.modWork (fun p => { p with recAcc := { p.recAcc with
    timeStep := p.recAcc.timeStep || (p.recAcc.opened && step)
    timeBack := p.recAcc.timeBack || (p.recAcc.opened && back) } })
  { s with wallDiff := v - s.tick, wallStale := false }

/-- A cell that the host still writes takes a value (R77). -/
def State.hostWrite (s : State) (payload : List Byte) : State :=
  let hosts := hostCells s.content
  (List.range (field payload 0 1)).foldl (fun s i =>
    let o := 1 + 12 * i
    let ref := field payload o 2
    if hosts.contains ref then
      s.modWork (fun p => p.setCell ref ((p.cell ref).write
        ⟨BitVec.ofNat 64 (field payload (o + 4) 8), s.workTick, 0, 0, 0, field payload (o + 2) 1⟩))
    else s) s

/-- The effect of a command at its boundary. POWER_STATE acts after everything else (`enterPower`). -/
def State.commandEffect (s : State) (x : Sched) : State :=
  let d := x.payload
  let slot := field d 0 2
  let unit (a : Act) : State := if s.has slot then s.command slot a else s
  match x.opcode.toNat with
  | 0x000B => { s with smoker := { s.smoker with calmed := false } }
  | 0x0010 => s.setWall d
  | 0x0102 => s.applyWrites d
  | 0x0202 => unit .start
  | 0x0203 => unit .stop
  | 0x0204 => unit .manual
  | 0x0205 => unit .auto
  | 0x0206 => unit .clear
  | 0x0207 => unit (.value (BitVec.ofNat 32 (field d 2 4)))
  | 0x0208 => if s.has slot then (s.channelService (slotInst slot) (field d 2 1 == 1)).syncHives else s
  | 0x0302 => s.hostWrite d
  | 0x0303 => s.modWork (fun p =>
      p.setCell slot ((p.cell slot).force (field d 2 1) (BitVec.ofNat 64 (field d 3 8)) s.workTick))
  | 0x0304 => s.modWork (fun p => p.setCell slot (p.cell slot).release)
  | 0x0305 => (List.range (field d 0 1)).foldl (fun s i =>
      let ref := field d (1 + 2 * i) 2
      s.modWork (fun p => p.setCell ref ((p.cell ref).resetExtremes s.workTick))) s
  | 0x0604 => s.clearRecorder s.workTick
  | _ => s

/-- A command that falls due: applied, or discarded with CMD_DROPPED. -/
def State.applyCommand (s : State) (x : Sched) : State :=
  if s.calmDrops x then
    match s.droppedSlot x with
    | some u => if s.has u then s.modUnit u (fun r => { r with cmdDropped := true }) else s
    | none => s
  else (s.noteCommand x.opcode.toNat x.payload).commandEffect x

/-- The commands that fall due at boundary `t`: by effective tick, then by acceptance (R69, R409). -/
def dueCommands (l : List Sched) (t : Nat) : List Sched :=
  let due := l.filter (fun x => decide (x.at_ ≤ t))
  let insert (x : Sched) (l : List Sched) : List Sched :=
    l.takeWhile (fun y => decide (y.at_ ≤ x.at_)) ++ [x] ++ l.dropWhile (fun y => decide (y.at_ ≤ x.at_))
  due.foldl (fun l x => insert x l) []

/-- The commands of boundary `t` applied; the power state that the last POWER_STATE among them asks for. -/
def State.commandsDue (s : State) (t : Nat) : Option Power × State :=
  let due := dueCommands s.sched t
  let s : State := { s with sched := s.sched.filter (fun x => decide (t < x.at_)) }
  due.foldl (fun r x =>
    let target := if x.opcode = 0x0011#16 ∧ !r.2.calmDrops x then powerOf (field x.payload 0 1) else none
    (target.or r.1, r.2.applyCommand x)) (none, s)

/-! ## Program actions (R307, R310) -/

/-- Action and opcode of an action code. -/
def progAct (code : Nat) : Option (Act × Nat) :=
  match code with
  | 1 => some (.start, 0x0202)
  | 2 => some (.stop, 0x0203)
  | 3 => some (.auto, 0x0205)
  | 4 => some (.manual, 0x0204)
  | _ => none

/-- One action of program unit `n` on a target. It is recorded as a command when its target lies in the record's scope and
the program unit does not. -/
def State.programAct (s : State) (n : Nat) (e : Nat × Nat) : State :=
  match progAct e.1 with
  | none => s
  | some (a, opcode) =>
    let scope := if s.inrec.open_ then s.recScope else scopeSlots s.content (s.run P.INREC_SCOPE 0)
    let s := if scope.contains (progSlot n) then s else s.noteCommand opcode (le 2 e.2)
    let dropped : Bool × State :=
      if s.smoker.calmed ∧ e.1 ≠ 2 then (true, s)
      else
        let r := s.act 257 e.2 a
        let seq := BitVec.ofNat 16 (256 * s.tick + s.link.msg)
        let s := if e.2 = 0 ∧ (e.1 = 1 ∨ e.1 = 2) then
            (r.2.nodesActed opcode).foldl (fun s m => s.actOnNode 0 seq opcode ((s.peer m).oemHash == s.oemHash) none m) r.2
          else r.2
        (!r.1, s.syncHives)
    if dropped.1 then
      let s := dropped.2.modUnit e.2 (fun u => { u with cmdDropped := true })
      let s := s.modWork (fun p => p.setProg n { p.prog n with actionDropped := true })
      if s.cfg P.PRG_STRICT n = 1 then s.detect (progSlot n) 0x04 else s
    else dropped.2

/-- The actions of program unit `n` that wait for this boundary, and the stops of its fault. -/
def State.programActions (s : State) (n : Nat) : State :=
  let p := s.work.prog n
  let due := match p.faultStop with | some e => decide (e ≤ s.workTick) | none => false
  let stops : List (Nat × Nat) :=
    if due then
      ((List.range 4).map (fun i => field (s.cfgBlock P.PRG_FAULT_STOP n) (2 * i) 2)).filterMap (fun h =>
        if h = 0xFFFF then none else some (2, h))
    else []
  if p.actions.isEmpty ∧ !due then s
  else
    let s := s.modWork (fun q => q.setProg n { p with actions := [], faultStop := if due then none else p.faultStop })
    (p.actions ++ stops).foldl (fun s e => s.programAct n e) s

/-! ## Capacity changes (R43, R132, R354, R360, R361) -/

/-- Declared failures of banks take effect: FAILED, channels out of service, the first restart 1,024 ticks later. -/
def State.failBank (s : State) (t b : Nat) : State :=
  let k := s.bank b
  match k.failDue with
  | none => s
  | some _ =>
    let s := s.setBank b { k with
      state := .failed
      failDue := none
      restarts := 0
      restartAt := t + 1024
      goodUp := 0 }
    (bankChannels b).foldl State.channelOut s

/-- The logic domain has power. -/
def State.logicPowered (s : State) : Bool := s.vinOn && s.power != .dormant

/-- A page is to be retired at the next boundary. -/
def State.pageFails (s : State) (page : Nat) : State :=
  if s.sram.retired.contains page then s
  else { s with sram := { s.sram with retireDue := insertSorted s.sram.retireDue page } }

/-- A retired page takes effect at a boundary; without a free page it waits for the next start (R111). -/
def State.retirePage (s : State) (p : Nat) : State :=
  let s : State := { s with sram := { s.sram with retireDue := s.sram.retireDue.filter (fun x => x != p) } }
  if s.sram.retired.contains p then s
  else
    match s.sram.retire p with
    | none => (s.modBoot (fun b => { b with marksPages := sortNats (p :: b.marksPages) })).raise causeSupply 0xFFFF 19 p
    | some m => { s with sram := m }

/-- The nodes whose loss is due. -/
def State.lostNodes (s : State) : List Nat := (s.link.peers.filter (fun e => e.2.lostDue)).map (·.1)

/-- A peer from which no valid frame has come for LINK_LOSS_TICKS is to be lost (R361). -/
def State.markSilent (s : State) (n : Nat) : State :=
  if s.peerSilent n then s.setPeer n { s.peer n with lostDue := true } else s

/-- A loss takes effect; commands that wait for the node are answered (R358). -/
def State.loseDue (s : State) (n : Nat) : State :=
  if !(s.peer n).lostDue then s else if n = 0 then (s.loseQueen.releaseSender 0 .link).dispatchJobs
  else (s.loseNode n).unreach n

/-- CELL_IN of remote cells enters the record by the change of their STAMP. -/
def State.remoteDue (s : State) : State := s.applyRemote.applySubscribe

/-! ## Power states (R417 to R422) -/

/-- Entry into DORMANT (R90, R422): peers are told, the field is de-energised, the logic domain powers off and the fine clock
stops. The tick checkpoint is the boundary's (`atTick`). -/
def State.enterDormant (s : State) : State :=
  let s := (s.link.peers.filter (fun e => e.2.state == 3)).foldl (fun s e => s.sendLeave e.1 2) s
  let s := ((s.unpowerField.portDown 0).portDown 1).stopLogic 0
  let s := s.modBoot (fun b => { b with sessionsOpen := [], startDue := none })
  { s with power := .dormant, fineValid := false }

/-- What entry into WATCH stops (R419): chains, excitation and conversions, sweeps and rounds in flight, the fan domain. -/
def State.stopForWatch (s : State) : State :=
  let chain (s : State) (u : Nat) : State :=
    let st := (s.unit u).st
    if st = .active ∨ st = .stopping then (s.haltChain (slotInst u)).setSt u .stopped else s
  let s := (slotsOfKind s.content 0x0A).foldl chain s
  let still (s : State) (u : Nat) : State :=
    let f := s.fch (slotInst u)
    if modeDi (s.mode (slotInst u)) then s
    else s.setFch (slotInst u) { f with
      excNow := 0
      excRec := 0
      raw := [] }
  let s := (slotsOfKind s.content 0x03).foldl still s
  let s := s.fprobes.foldl (fun s e => s.setFprobe e.1 { e.2 with run := none, ready := none }) s
  let s := (slotsOfKind s.content 0x08).foldl (fun s u => s.abandonRound (slotInst u)) s
  { s with fanDom := s.fanDom.dark }

/-- A unit that stops resting resumes (R420). -/
def State.wake (s : State) (t slot : Nat) : State :=
  let n := slotInst slot
  match slotKind slot with
  | 0x03 => if modeDigital (s.mode n) || s.settleEntry n == 0 then s else s.beginSettle n (s.settleEntry n) t
  | 0x04 => s.modWork (fun p => p.setLoop n { p.loop n with presetDue := true })
  | 0x0B => if (s.unit slot).st = .active then s.startObs n else s
  | 0x0C => s.resumeFan n
  | _ => s

/-- The power state changes at boundary `t`. -/
def State.enterPower (s : State) (t : Nat) (target : Power) : State :=
  if target = s.power then s
  else if target = .dormant then s.enterDormant
  else
    let was := s.power
    let asleep := (configuredSlots s.content).filter s.rests
    let s :=
      if target = .watch then s.append (if s.inrec.open_ then [recEntry 0x35 (powerCode target) t []] else [])
      else s.note 0x35 (powerCode target) []
    let s := if s.recorderPower ∧ s.work.recAcc.opened then s.stopRecorder 0x80#8 else s
    let s : State := { s with power := target }
    let s := (asleep.filter (fun u => !s.rests u)).foldl (fun s u => s.wake t u) s
    let s :=
      if target = .watch then s.stopForWatch
      else
        let s := if s.has recSlot && (s.unit recSlot).st == .active then s.openInterval t else s
        { s with
          fanDom := if was = .watch then { s.fanDom with powered := true, quietUvlo := true, quietLow := true } else s.fanDom
          smoker := { s.smoker with last := Nat.max s.smoker.last t, spent := false } }
    s.syncHives

/-! ## The boundary (R95) -/

/-- The events of boundary `t`, with the working copy as committed at the end of the tick before. -/
def State.boundaryEvents (s : State) (t : Nat) : State :=
  let s := s.unitEvents.calmDue t
  let due := s.commandsDue t
  let s := (List.range 4).foldl State.programActions due.2
  let s := (List.range s.bankCount).foldl (fun s b => s.failBank t b) s
  let s := s.remoteDue.syncHives
  let changed := match s.awaiting with | some a => a.at_ == t | none => false
  let s := s.activate t
  let s := ((slotsOfKind s.content 0x03).map slotInst).foldl (fun s ch => s.returnEnds t ch) s
  let s := (s.link.peers.map (·.1)).foldl (fun s n => if n = 0 then s.joinSelf else s.joinNode n) s
  let s := (s.link.peers.map (·.1)).foldl State.markSilent s
  let s := s.lostNodes.foldl State.loseDue s
  let s := s.syncHives.checkRounds.recExtremes t
  let s := s.sram.retireDue.foldl State.retirePage s
  let was := s.power
  let s := match due.1 with | some p => s.enterPower t p | none => s
  if s.power = Power.dormant then s else (s.recExtremes t).recBoundary t changed (s.power != was)

/-- Boundary work at tick `t` under the clock of that tick. The checkpoint of an entry into DORMANT holds the tick counter,
which is beyond `t` in a lag (R89, R422). -/
def State.atTick (s : State) (t : Nat) (f : State → State) : State :=
  let r := f { s with tick := t, workTick := t }
  { r with
    tick := s.tick
    base := r.work
    checkpoint := if r.power = .dormant ∧ s.power ≠ .dormant then (s.tick, r.wallDiff) else r.checkpoint }

/-- One thing applied at the boundary that the model stands at: that of the tick whose work is not yet evaluated, or the
next one once the running tick has committed. -/
def State.atBoundary (s : State) (f : Nat → State → State) : State :=
  if !s.logicRuns || (s.evaluated && !s.committed) then s
  else
    let t := if s.committed then s.workTick + 1 else s.workTick
    { s.atTick t (f t) with workTick := s.workTick }

/-- The boundary of the next tick of work: its events, then the windows that start with it. -/
def State.openTick (s : State) : State :=
  let t := s.workTick + 1
  let s : State := { s with evaluated := false, committed := false, skip := [] }
  let s : State := s.atTick t (fun s => s.boundaryEvents t)
  if s.power = .dormant then s
  else (List.range s.bankCount).foldl (fun s b => s.windowBoundary t b) s

/-! ## What the clock brings at every boundary -/

/-- A tick checkpoint in flash (R89). -/
def State.writeCheckpoint (s : State) : State := { s with checkpoint := (s.tick, s.wallDiff) }

/-- Uplinks of the tick that ends (R132): a bank in service without a valid frame for 16 ticks fails. -/
def State.countUplink (s : State) (b : Nat) : State :=
  let k := s.bank b
  if k.state ≠ .inService then s
  else
    let miss := if k.sawUp then 0 else k.missUp + 1
    s.setBank b { k with
      missUp := miss
      goodUp := if k.sawUp then k.goodUp else 0
      sawUp := false
      retried := false
      failDue := if 16 ≤ miss then some .uplinkLost else k.failDue }

/-- Timeouts of the host interface as tick `t` begins. -/
def State.hostClock (s : State) (t : Nat) : State :=
  if !s.host.alive then s
  else
    let s := s.closeIdle t
    let s := match s.host.baudAt with | some a => if a + 2048 < t then s.baudFallback else s | none => s
    match s.host.barUntil with
    | some b => if b ≤ t then s.modHost (fun h => { h with barUntil := none, authFails := 0 }) else s
    | none => s

/-- The activation pause begins: the interface is closed, no boundary is applied (R408). -/
def State.pauseBegins (s : State) : Bool :=
  match s.upd.activateAt with
  | some e => decide (e ≤ s.tick) && s.committed
  | none => false

/-- The smoker as a tick begins: a timeout that has run out is spent, and calms the module unless it is calmed already. -/
def State.judgeSmoker (s : State) : State :=
  if !s.smokerOut s.tick then s
  else
    let due := if s.smoker.calmed then s.smoker.due else some (s.smoker.due.getD s.tick)
    { s with smoker := { s.smoker with spent := true, due := due } }

/-- Uplinks of the fan domain in the tick that ends (R137, R324). -/
def State.countFanUplink (s : State) : State :=
  let d := s.fanDom
  { s with fanDom := { d with goodUp := if d.sawUp then d.goodUp else 0, sawUp := false } }

/-- What the housekeeper does at a boundary: the throttle factor goes out with the tick's base refresh frames (R432); every
65,536 ticks a checkpoint (R89); every 32nd tick the scrub reads a page, so that it passes all 2,048 in 65,536 ticks, the
slowest pace R106 allows (DESIGN CHOICE, log entry 44). -/
def State.houseClock (s : State) : State :=
  let s : State := { s with hk := { s.hk with sent := s.hk.throttle } }
  let s := if s.tick % 65536 = 0 then s.writeCheckpoint else s
  if s.power != .dormant && s.tick % 32 == 0 then { s with sram := s.sram.scrub (s.tick / 32 % 2048) } else s

/-- TICK_BOUNDARY: the tick counter advances; the field closes its windows; the boundary events of the next tick of work
are applied when the last one has committed, or the lag grows. Work of tick t that has not committed by the end of tick t + 7
ends in a restart (R95, R96). -/
def State.tickBoundary (s : State) : State :=
  if !s.vinOn then s
  else
    let s : State := { s with tick := s.tick + 1, link := { s.link with thisLong := 0 } }
    let s := s.houseClock.hostClock s.tick
    if !s.logicRuns then s
    else if s.pauseBegins then
      (s.modBoot (fun b => { b with sessionsOpen := s.host.sessions.map (·.id) })).modHost (fun h => { h with alive := false })
    else if !s.committed ∧ s.workTick + 7 < s.tick then s.stopFor 0 (startCode .lag)
    else
      let s := ((List.range s.bankCount).foldl State.countUplink s).countFanUplink
      let s := (List.range s.bankCount).foldl (fun s b => s.fieldBoundary s.tick b) s
      let s := s.freezeExpiry
      let s := s.judgeSmoker
      let s := if s.committed then s.openTick
        else { s with sram := { s.sram with lagMax := Nat.max s.sram.lagMax (s.tick - s.workTick) } }
      if s.power = .dormant then s
      else if s.hk.shutdownDue ∧ !s.hk.shutdown then s.thermalShutdown s.tick else s

end Sys2Proof.Machine
end

