-- ==== Sys2Proof/Machine/FieldEvents.lean ====
section
/-! DEFINITION. What the field side of banks and the fan domain bring to the module: frames in both directions, guards,
supplies, failures and restarts, edges, protection trips, and the starts and records of sweeps and comb rounds. -/

namespace Sys2Proof.Machine

/-! ## Refresh frames and guards (R133 to R138, R261, R324, R408) -/

/-- Whether the logic side sends a bank refresh frames (R132, R134). -/
def State.refreshes (s : State) (b : Nat) : Bool :=
  s.vinOn && s.logicRuns && ((s.bank b).state == .inService || (s.bank b).state == .starting)

/-- The mark STRETCH of the base frames of tick A + 1 (R408). -/
def State.stretchMark (s : State) : Bool := s.upd.activateAt == some (s.tick + 1)

/-- Whether a base frame to a bank carries the release mark (R137). -/
def Bank.releases (b : Bank) : Bool := b.guardTripped && b.state == .inService && decide (4 ≤ b.goodUp)

/-- A tripped guard is released. -/
def State.releaseGuard (s : State) (b : Nat) : State :=
  if (s.bank b).releases then
    ((s.setBank b { s.bank b with guardTripped := false }).bankFlag b 7 false).bankFlags b
  else s

/-- A refreshed value of a DO-PULSE channel that drives a static level has no period to wait for. -/
def State.pulseStatic (s : State) (ch : Nat) : State :=
  let f := s.fch ch
  match f.pulseNext, s.pulseTimes ch (f.pulseNow.setWidth 32) with
  | some v, none => s.setFch ch { f with pulseNow := v, pulseNext := none }
  | some v, some (p, h) => if p = h then s.setFch ch { f with pulseNow := v, pulseNext := none } else s
  | none, _ => s

/-- An output value of a valid refresh frame reaches a channel, from a copy of the plant. -/
def State.refreshChan (s : State) (p : Plant) (ch : Nat) : State :=
  let pulse := s.mode ch == 4
  let running := match s.terminal ch with | .wave _ => true | _ => false
  let s := s.setFch ch ((s.fch ch).refresh pulse running (s.driveCmd p ch))
  if pulse then s.pulseStatic ch else s

/-- A downlink frame goes to a bank under the next sequence number. It is valid with a good CRC and the number that the field
side expects; the one expected after it is its successor, whether it was valid or not (R134; DEDUCED, log entry 47). -/
def State.sendDown (s : State) (b : Nat) (intact : Bool) : Bool × State :=
  let k := s.bank b
  (intact && k.seqDown == k.seqNext,
    s.setBank b { k with seqDown := k.seqDown + 1, seqNext := k.seqDown + 1
                         crcErrors := if intact then k.crcErrors else sat32 (k.crcErrors + 1) })

/-- A base refresh frame to a bank: every output value as last committed, and the marks (R133, R134, R137, R408). -/
def State.baseFrame (s : State) (b : Nat) (intact : Bool) : State :=
  if !s.refreshes b then s
  else
    let r := s.sendDown b intact
    let s := r.2
    if !r.1 then s
    else
      let s := s.setBank b { s.bank b with
        guardArmed := true
        guardTime := s.cfg P.GUARD_TIME b
        stretched := s.stretchMark
        throttle := s.hk.sent }
      let chs := (bankChannels b).filter (fun ch => s.has (chanSlot ch))
      (chs.foldl (fun s ch => s.refreshChan s.view ch) s).releaseGuard b

/-- A base refresh frame to the fan domain. -/
def State.fanFrame (s : State) (intact : Bool) : State :=
  if !(s.vinOn && s.logicRuns && s.fanDom.powered) then s
  else
    let k := s.fanDom
    let d := { k with seqDown := k.seqDown + 1, seqNext := k.seqDown + 1 }
    if !(intact && k.seqDown == k.seqNext) then { s with fanDom := d }
    else
      let drives := (List.range 8).map (s.fanCommand s.view)
      let d : FanDomain := { d with
        guardArmed := true
        stretched := s.stretchMark
        throttle := s.hk.sent
        driven := drives.map (·.demand)
        supplyOn := drives.map (·.supply)
        guardTripped := d.guardTripped && !(decide (4 ≤ d.goodUp)) }
      { s with fanDom := d }

/-- An update frame carries one output as it has been computed (R133, R261). -/
def State.updateFrame (s : State) (b ch : Nat) : State :=
  if s.refreshes b && (s.bank b).guardArmed && s.has (chanSlot ch) then
    let r := s.sendDown b true
    if r.1 then r.2.refreshChan s.work ch else r.2
  else s

/-- A bank guard expires (R135, R144, R248): outputs go to their safe states, rounds on the bank's lines are abandoned. -/
def State.guardExpiry (s : State) (b : Nat) : State :=
  let k := s.bank b
  if !k.powered || !k.guardArmed || k.guardTripped then s
  else
    let s := s.setBank b { k with guardTripped := true, guardTrips := sat16 (k.guardTrips + 1) }
    let s := (s.bankFlag b 7 true).bankFlags b
    (((bankChannels b).filter (fun ch => s.mode ch == 0x0B)).flatMap s.linesOn).foldl State.abandonRound s

/-- The fan guard expires (R324). -/
def State.fanGuardExpiry (s : State) : State :=
  let d := s.fanDom
  if d.powered && d.guardArmed && !d.guardTripped then { s with fanDom := { d with guardTripped := true } } else s

/-! ## Uplink frames (R133, R142 to R144, R154, R325) -/

/-- The codes of a window before calibration, as a calibration collects them (R182, R188, R200). -/
def State.rawValues (s : State) (m : ChanMeas) : List (F64 × F64) :=
  let frac (f : Int × Nat) : F64 := dRat f.1 f.2
  let mode := s.mode m.ch
  if mode = 9 then
    let force := resForce s.content m.ch
    let part (codes : List Int) : F64 :=
      if m.iPos = 0 ∨ m.iNeg = 0 then 0
      else frac (chopFrac codes (s.cfg P.CHOP_DISCARD force) (s.excNominal force) m.iPos m.iNeg)
    [(part (m.convs.map (·.coarse)), part (m.convs.map (·.fine)))]
  else if s.mainsActs m.ch then
    let raw := (s.fch m.ch).raw
    [(frac (firSum mainsFilter (raw.map (·.coarse))), frac (firSum mainsFilter (raw.map (·.fine))))]
  else m.convs.map (fun c => (dOfInt c.coarse, dOfInt c.fine))

/-- The magnitude of the load current that a record reports, in units of 1 µA / 2^23 (R197). -/
def loadUnits (mode : Nat) (r : Conv) : Nat :=
  match mode with
  | 3 => r.coarse.natAbs * 1000 * 2 ^ 23
  | 4 => r.coarse.natAbs * 1000 * 2 ^ 23
  | 7 => r.coarse.natAbs * 32000
  | 8 => r.fine.natAbs * 2 ^ 23
  | 0x0B => r.coarse.natAbs * 2 ^ 23
  | _ => 0

/-- What a record that has been formed shows the field side beside its batch: CLAMP, the switch, the load current, and the
loop of an AO-I channel (R144, R195, R197, R203). -/
def State.fieldShows (s : State) (ch : Nat) (t : Nat) (l : List Conv) (m : ChanMeas) : State :=
  let mode := s.mode ch
  let r := l.getLastD ⟨0, 0, 0⟩
  let s := if (batchStatus l).getLsbD 7 then s.chanMark ch 7 else s
  let k := s.bank (ch / 8)
  let units := loadUnits mode r
  let s := if units = 0 then s
    else s.setBank (ch / 8) { k with loadSums := Tab.put 0 k.loadSums (t / 1024) (Tab.get 0 k.loadSums (t / 1024) + units) }
  let f := s.fch ch
  if modeDo mode then
    let on := r.status.getLsbD 1
    s.setFch ch { f with wasOn := on, offTick := if f.wasOn && !on then some t else f.offTick }
  else if mode = 7 then
    let ua := (frne (fmul (fOfInt (m.convs.headD ⟨0, 0, 0⟩).coarse) (fRat 32000 (2 ^ 23)))).toNat
    let mv := ((m.convs.headD ⟨0, 0, 0⟩).fine * 10).toNat
    let open_ := f.openLoop && (batchStatus l).getLsbD 0
    let s := s.setFch ch { f with openLoop := open_, loopOhm := if 1000 ≤ ua then some (mv, ua) else f.loopOhm }
    s.chanFlag ch 6 open_
  else s

/-- The field side forms the records of a channel's windows that ended with the last tick, once, whatever becomes of the
frames that carry them (R178, R182). -/
def State.formMeas (s : State) (b : Nat) (m : ChanMeas) : State :=
  let ch := m.ch
  let t := s.tick - 1
  let f := s.fch ch
  if ch / 8 ≠ b ∨ !s.has (chanSlot ch) ∨ s.tick % chanPeriod s.content ch ≠ 0 ∨ f.formed.any (fun x => x.tick == t) then s
  else
    let r : List Conv × State :=
      if modeDi (s.mode ch) then
        match f.latched with
        | some (t0, c) =>
          let clamp := m.convs.any (·.status.getLsbD 7)
          (if t0 = t then [{ c with status := c.status ||| (if clamp then 0x80#8 else 0) }] else [], s)
        | none => ([], s)
      else s.formRecords m
    if r.1.isEmpty then r.2
    else
      let s := r.2
      let x : Formed := ⟨t, r.1, (m.iPos, m.iNeg), s.rawValues m, f.tagsRec⟩
      (s.setFch ch { s.fch ch with formed := some x }).fieldShows ch t r.1 m

/-- The records of a channel for the last tick are put into the input buffer. -/
def State.takeFormed (s : State) (ch : Nat) : State :=
  match (s.fch ch).formed with
  | none => s
  | some x =>
    if x.tick + 1 ≠ s.tick then s
    else
      let i := s.inputs x.tick
      let analogue : Bool := (calGroup (s.mode ch)).isSome
      s.setInputs x.tick { i with
        batches := Tab.put [] i.batches ch x.recs
        excites := if s.mode ch = 9 then Tab.put (0, 0) i.excites ch x.exc else i.excites
        raws := if analogue then Tab.insert i.raws ch (x.tags, x.raws) else i.raws }

/-- The common fault bit of an uplink frame (R143). -/
def State.takeFaultBit (s : State) (b : Nat) : State :=
  let bit := s.commonFault b
  let was := (s.bank b).faultBit
  let s := s.setBank b { s.bank b with faultBit := bit }
  if bit && !was then s.raise causeFieldFault 0xFFFF b s.faultBanks else s

/-- A bank's uplink frame: counted, requested again once when it is not intact, used when in time (R115, R133). -/
def State.bankFrame (s : State) (b : Nat) (f : Uplink) : State :=
  let k := s.bank b
  if !s.vinOn || !s.logicRuns || k.state != .inService then s
  else
  let s := f.meas.foldl (fun s m => s.formMeas b m) s
  let k := s.bank b
  if !f.intact then
    s.setBank b { k with
      crcErrors := sat32 (k.crcErrors + 1)
      retries := if k.retried then k.retries else sat32 (k.retries + 1)
      retried := true
      goodUp := 0 }
  else
    let s := s.setBank b { k with
      sawUp := true
      missUp := 0
      goodUp := k.goodUp + 1
      seqUp := k.seqUp + 1
      vfld := f.vfld
      vfldMin := Nat.min k.vfldMin f.vfld
      failDue := if f.selfCheck then some .selfCheck else if f.barrier then some .barrierSupply else k.failDue }
    let s := (s.bankFlag b 2 f.selfCheck).bankFlag b 1 f.barrier
    let s :=
      if f.onTime ∧ s.deadlineAt < s.tick then
        ((f.meas.filter (fun m => m.ch / 8 == b)).foldl (fun s m => s.takeFormed m.ch) s).deliverStamps b
      else
        s.setBank b { s.bank b with lateSamples := sat32 ((s.bank b).lateSamples + f.meas.length) }
    s.takeFaultBit b

/-- The fan domain's uplink frame (R325). -/
def State.fanUplink (s : State) (f : Uplink) : State :=
  let d := s.fanDom
  if !s.vinOn || !s.logicRuns || !d.powered then s
  else if !f.intact then { s with fanDom := { d with goodUp := 0 } }
  else
    let s : State := { s with fanDom := { d with goodUp := d.goodUp + 1, sawUp := true } }
    if f.onTime ∧ s.deadlineAt < s.tick then
      let t := s.tick - 1
      let fans := (f.fans.filter (fun m => decide (m.port < 8) && s.has (fanSlot m.port))).foldl
        (fun l m => Tab.insert l m.port (s.fanRecord m)) (s.inputs t).fans
      s.setInputs t { s.inputs t with fans := fans }
    else s

/-! ## Supplies (R169, R323) -/

/-- What a crossing does to the flags of a bank; it is reported once the bank is IN_SERVICE. -/
def State.vfldReport (s : State) (b bit : Nat) (on : Bool) (mv : Nat) : State :=
  let s := s.setBank b { s.bank b with vfld := mv, vfldMin := Nat.min (s.bank b).vfldMin mv }
  if !s.monitored b then s
  else
    let s := (s.bankFlag b bit on).bankFlags b
    if (s.bank b).state = .inService then s.raise causeSupply 0xFFFF b mv else s

/-- VFLD falls below the UVLO threshold, or returns. -/
def State.vfldUvlo (s : State) (b : Nat) (on : Bool) (mv : Nat) : State :=
  let k := s.bank b
  if !k.powered || k.uvlo == on then s
  else
    let n := if on && k.state == .inService && s.monitored b then sat16 (k.uvloEvents + 1) else k.uvloEvents
    (s.setBank b { k with uvlo := on, uvloEvents := n }).vfldReport b 5 on mv

/-- VFLD_LOW sets or clears. -/
def State.vfldLowCross (s : State) (b : Nat) (on : Bool) (mv : Nat) : State :=
  let k := s.bank b
  if !k.powered || k.vfldLow == on then s
  else
    let n := if on && k.state == .inService && s.monitored b then sat16 (k.lowEvents + 1) else k.lowEvents
    (s.setBank b { k with vfldLow := on, lowEvents := n }).vfldReport b 6 on mv

/-- A crossing of VFAN. The first return and the first clearing after power-up are silent. -/
def State.vfanCross (s : State) (c : VfanCrossing) (mv : Nat) : State :=
  let d := s.fanDom
  let report (s : State) : State := s.raise causeSupply 0xFFFF 16 mv
  if !d.powered then s
  else
    match c with
    | .uvloEntry =>
      if d.uvlo then s else report { s with fanDom := { d with uvlo := true, millivolts := mv } }
    | .uvloReturn =>
      if !d.uvlo then s
      else
        let s' : State := { s with fanDom := { d with uvlo := false, millivolts := mv, quietUvlo := false } }
        if d.quietUvlo then s' else report s'
    | .lowSet =>
      if d.low then s else report { s with fanDom := { d with low := true, millivolts := mv } }
    | .lowClear =>
      if !d.low then s
      else
        let s' : State := { s with fanDom := { d with low := false, millivolts := mv, quietLow := false } }
        if d.quietLow then s' else report s'

/-! ## Service, failure and restart of a bank (R131, R132, R201, R223, R234) -/

/-- What a bank reports as it starts: bad calibration records and sets are gone, a bad engine faults its probes. -/
def State.bankReport (s : State) (b : Nat) (r : BankReport) : State :=
  let s := r.fieldRecBad.foldl (fun s e =>
    if e.1 / 8 = b then
      s.setFch e.1 { s.fch e.1 with fieldRecs := (s.fch e.1).fieldRecs.filter (fun x => x.1 != e.2) }
    else s) s
  let bad (ch : Nat) : List Nat := sortNats ((r.factoryBad.filter (fun e => e.1 == ch)).map (·.2))
  let s := (bankChannels b).foldl (fun s ch => s.setFch ch { s.fch ch with calInvalid := bad ch }) s
  let mine (p : Nat) : Bool := s.probeDrive p / 8 == b
  let s := r.probeSetBad.foldl (fun s e =>
    if mine e.1 then s.setFprobe e.1 { s.fprobe e.1 with sets := Tab.put {} (s.fprobe e.1).sets e.2 {} } else s) s
  s.engineFound b r.engineOk

/-- A bank reaches IN_SERVICE after a restart, or reports after its start, before its first refresh frame. -/
def State.bankService (s : State) (b : Nat) (r : BankReport) : State :=
  let k := s.bank b
  match k.state with
  | .starting =>
    let s := s.setBank b { k.measured r.vfld with
      state := .inService
      restarts := 0
      missUp := 0
      goodUp := 0 }
    let s :=
      if s.monitored b then
        ((s.supplyPresent b r.vfld k.uvlo).supplyPresent b r.vfld k.vfldLow).vfldFlags b
      else s
    s.bankReport b r
  | .inService => if k.guardArmed then s else s.bankReport b r
  | _ => s

/-- A failure of a bank in service is declared; it takes effect at the next boundary. -/
def State.declareFailure (s : State) (b : Nat) (cause : BankFailCause) : State :=
  if (s.bank b).state != .inService then s
  else
    let s := s.setBank b { s.bank b with failDue := some cause }
    match cause with
    | .selfCheck => s.bankFlag b 2 true
    | .barrierSupply => s.bankFlag b 1 true
    | .uplinkLost => s

/-- An automatic restart of a failed bank: it starts anew, or after the third failure it is RETIRED and marked. -/
def State.restartBank (s : State) (b : Nat) (passed : Bool) : State :=
  let k := s.bank b
  if k.state != .failed || decide (3 ≤ k.restarts) || decide (s.tick < k.restartAt) then s
  else if passed then
    let s := (bankChannels b).foldl (fun s ch =>
      s.setFch ch { (s.fch ch).bare with serviceOff := (s.fch ch).serviceOff }) s
    s.setBank b { k.bare with
      state := .starting
      flags := k.flags
      restarts := k.restarts + 1
      fifo := k.fifo
      fifoLost := k.fifoLost }
  else if k.restarts = 2 then
    (s.setBank b { k with state := .retired, restarts := 3 }).modBoot (fun x =>
      { x with marksBanks := insertSorted x.marksBanks b })
  else s.setBank b { k with restarts := k.restarts + 1, restartAt := s.tick + 1024 }

/-- Load currents summed over a block with a mean of `deci` × 0.1 A (R197). -/
def loadSumOf (deci : Nat) : Nat := deci * 100000 * 2 ^ 23 * 1024

/-- The load class of a block with load currents `sum` (R197), after class `old`. -/
def loadClassOf (old sum : Nat) : Nat :=
  if loadSumOf 25 ≤ sum then 2
  else if old = 2 ∧ loadSumOf 23 ≤ sum then 2
  else if loadSumOf 10 ≤ sum then 1
  else if old ≠ 0 ∧ loadSumOf 8 ≤ sum then 1
  else 0

/-- The block of 1,024 ticks that ended last is judged, once: a new load class applies from the second block after it. The
field side takes the mean, so windows whose measurements no frame has brought count too: `unseen` gives the summed magnitude
of their load currents in µA (log entry 48). -/
def State.judgeLoad (s : State) (b : Nat) (unseen : List Nat) : State :=
  let k := s.bank b
  let n := s.tick / 1024
  if !k.powered ∨ n ≤ k.loadBlock then s
  else
    let sum := Tab.get 0 k.loadSums (n - 1) + unseen.sum * 2 ^ 23
    let old := match k.loadNext.getLast? with | some e => e.2 | none => k.loadClass
    s.setBank b { k with
      loadMean := toF32 (dRat sum (1000000 * 2 ^ 23 * 1024))
      loadNext := k.loadNext ++ [((n + 1) * 1024, loadClassOf old sum)]
      loadSums := k.loadSums.filter (fun e => decide (n ≤ e.1))
      loadBlock := n }

/-! ## Edges and protections (R148 to R150, R154, R164 to R167, R204 to R206, R257, R333) -/

/-- The field side of a channel works: its bank has power and it is in service. -/
def State.fieldAlive (s : State) (ch : Nat) : Bool := (s.bank (ch / 8)).powered && !(s.fch ch).serviceOff

/-- An accepted edge of a DI or DI-COUNT channel, at a fine count of the running tick. -/
def State.edge (s : State) (ch : Nat) (rise : Bool) (fine : Nat) : State :=
  let f := s.fch ch
  if !s.fieldAlive ch || !modeDi (s.mode ch) || f.level == rise then s
  else
    let fine := if s.fineValid then Nat.min fine (s.tickFine - 1) else 0xFFFF
    let up := rise != (s.cfg P.DI_INVERT ch == 1)
    let pick := s.cfg P.COUNT_EDGE ch
    let counted := pick == 2 || (pick == 0 && up) || (pick == 1 && !up)
    let stamped := bit (s.run P.STAMP_EN ch) (if up then 0 else 1)
    let s := s.setFch ch { f with
      level := rise
      edges := f.edges + 1
      lastFine := some fine
      counted := if counted then f.counted + 1 else f.counted
      countFine := if counted then some fine else f.countFine }
    if stamped then
      let k := s.bank (ch / 8)
      s.setBank (ch / 8) { k with stamps := insertStamp k.stamps { ch := ch, rise := up, tick := s.tick, fine := fine } }
    else s

/-- A protection trips an output off; the partner of a back-feed between two channels, else 0xFF. -/
def State.tripChan (s : State) (ch code partner : Nat) : State :=
  if (s.fch ch).trip.isSome then s
  else (s.setFch ch { s.fch ch with trip := some code, partner := partner }).bankFlags (ch / 8)

/-- An overload of a DO or DO-PULSE output; of either member of a pair, it is the even channel's (R166). -/
def State.overload (s : State) (ch : Nat) : State :=
  let ch := s.pairLead ch
  if s.fieldAlive ch && modeDo (s.mode ch) then s.tripChan ch 0x10 0xFF else s

/-- A back-feed: WIRED_TOGETHER when exactly one other digital output of the bank switched on before its onset, else
SHORT_TO_SUPPLY. -/
def State.backfeed (s : State) (ch : Nat) (switchedOn : List Nat) : State :=
  let ch := s.pairLead ch
  let leads := sortNats (switchedOn.map (fun i => s.pairLead (8 * (ch / 8) + i) % 8)).eraseDups
  let others := leads.filter (fun i => 8 * (ch / 8) + i != ch && modeDo (s.mode (8 * (ch / 8) + i)))
  if s.fieldAlive ch && modeDo (s.mode ch) then
    match others with
    | [i] => s.tripChan ch 0x12 i
    | _ => s.tripChan ch 0x11 0xFF
  else s

/-- A pair out of balance. -/
def State.imbalance (s : State) (ch : Nat) : State :=
  let ch := s.pairLead ch
  if s.fieldAlive ch && modeDo (s.mode ch) && s.cfg P.DO_PAIR ch == 1 then s.tripChan ch 0x13 0xFF else s

/-- An AO-I loop is open. -/
def State.openAoi (s : State) (ch : Nat) : State :=
  if s.fieldAlive ch && s.mode ch == 7 then (s.setFch ch { s.fch ch with openLoop := true }).chanFlag ch 6 true else s

/-- An AO-V output has been in current limit for 100 ms. -/
def State.aovTrip (s : State) (ch : Nat) : State :=
  if s.fieldAlive ch && s.mode ch == 8 then (s.tripChan ch 0x10 0xFF).detectNow (chanSlot ch) 0x10 else s

/-- A COMB line is short or fed back: the channel is off, and the next round after it is a start round (R246, R257). -/
def State.lineTrip (s : State) (ch code : Nat) : State :=
  if s.fieldAlive ch && s.mode ch == 0x0B then
    let s := (s.tripChan ch code 0xFF).detectNow (chanSlot ch) code
    (s.linesOn ch).foldl (fun s l => s.setFcomb l { s.fcomb l with startDue := true }) s
  else s

/-- A period of a DO-PULSE waveform ends: the last value that arrived applies (R206). -/
def State.periodEnd (s : State) (ch : Nat) : State :=
  let f := s.fch ch
  match f.pulseNext with
  | some v => s.setFch ch { f with pulseNow := v, pulseNext := none }
  | none => s

/-- A fan supply is short: the domain switches it off (R333). The unit learns of it by the record (R142, R325). -/
def State.fanShort (s : State) (n : Nat) : State :=
  if s.fanDom.powered && s.cfg P.FAN_SUPPLY n != 0 && decide (n < 4) then
    { s with fanDom := { s.fanDom with supplyShort := s.fanDom.supplyShort.set n true } }
  else s

/-! ## The rows -/

/-- BANK_UPLINK_FRAME. Source 16 is the fan domain. -/
def execBankUplinkFrame (source : Fin 17) (f : Uplink) (s : State) : Result :=
  .next (if source.val = 16 then s.fanUplink f else s.bankFrame source.val f)

/-- BASE_REFRESH_FRAME. Destination 16 is the fan domain. -/
def execBaseRefreshFrame (dest : Fin 17) (intact : Bool) (s : State) : Result :=
  .next (if dest.val = 16 then s.fanFrame intact else s.baseFrame dest.val intact)

/-- UPDATE_REFRESH_FRAME. -/
def execUpdateRefreshFrame (b : Fin 16) (ch : Fin 8) (s : State) : Result :=
  .next (s.updateFrame b.val (8 * b.val + ch.val))

/-- BANK_GUARD_EXPIRY. -/
def execBankGuardExpiry (b : Fin 16) (s : State) : Result := .next (s.guardExpiry b.val)

/-- BANK_GUARD_RELEASE. -/
def execBankGuardRelease (b : Fin 16) (s : State) : Result := .next (s.releaseGuard b.val)

/-- FAN_GUARD_EXPIRY. -/
def execFanGuardExpiry (s : State) : Result := .next s.fanGuardExpiry

/-- BANK_IN_SERVICE. -/
def execBankInService (b : Fin 16) (r : BankReport) (s : State) : Result := .next (s.bankService b.val r)

/-- BANK_FAILURE. -/
def execBankFailure (b : Fin 16) (cause : BankFailCause) (s : State) : Result := .next (s.declareFailure b.val cause)

/-- BANK_RESTART. -/
def execBankRestart (b : Fin 16) (passed : Bool) (s : State) : Result := .next (s.restartBank b.val passed)

/-- VFLD_UVLO_ENTRY. -/
def execVfldUvloEntry (b : Fin 16) (mv : Nat) (s : State) : Result := .next (s.vfldUvlo b.val true mv)

/-- VFLD_UVLO_RETURN. -/
def execVfldUvloReturn (b : Fin 16) (mv : Nat) (s : State) : Result := .next (s.vfldUvlo b.val false mv)

/-- VFLD_LOW_SET. -/
def execVfldLowSet (b : Fin 16) (mv : Nat) (s : State) : Result := .next (s.vfldLowCross b.val true mv)

/-- VFLD_LOW_CLEAR. -/
def execVfldLowClear (b : Fin 16) (mv : Nat) (s : State) : Result := .next (s.vfldLowCross b.val false mv)

/-- VFAN_CROSSING. -/
def execVfanCrossing (c : VfanCrossing) (mv : Nat) (s : State) : Result := .next (s.vfanCross c mv)

/-- LOAD_CLASS_UPDATE. -/
def execLoadClassUpdate (b : Fin 16) (unseen : List Nat) (s : State) : Result := .next (s.judgeLoad b.val unseen)

/-- DI_EDGE_ACCEPTED. -/
def execDiEdgeAccepted (ch : Fin 128) (rise : Bool) (fine : Nat) (s : State) : Result := .next (s.edge ch.val rise fine)

/-- DO_OVERLOAD_TRIP. -/
def execDoOverloadTrip (ch : Fin 128) (s : State) : Result := .next (s.overload ch.val)

/-- DO_BACKFEED_TRIP. -/
def execDoBackfeedTrip (ch : Fin 128) (on : List (Fin 8)) (s : State) : Result :=
  .next (s.backfeed ch.val (on.map (·.val)))

/-- PAIR_IMBALANCE_TRIP. -/
def execPairImbalanceTrip (ch : Fin 128) (s : State) : Result := .next (s.imbalance ch.val)

/-- AOI_OPEN_LOOP. -/
def execAoiOpenLoop (ch : Fin 128) (s : State) : Result := .next (s.openAoi ch.val)

/-- AOV_CURRENT_LIMIT_TRIP. -/
def execAovCurrentLimitTrip (ch : Fin 128) (s : State) : Result := .next (s.aovTrip ch.val)

/-- DO_PULSE_PERIOD_END. -/
def execDoPulsePeriodEnd (ch : Fin 128) (s : State) : Result := .next (s.periodEnd ch.val)

/-- EXC_CURRENT_APPLY (R189): at the boundary that stands, whose windows have not been evaluated. -/
def execExcCurrentApply (ch : Fin 128) (s : State) : Result :=
  .next (if s.logicRuns && !s.evaluated && !s.committed then s.atTick s.workTick (fun s => s.applyExc ch.val s.workTick) else s)

/-- COMB_LINE_SHORT. -/
def execCombLineShort (ch : Fin 128) (s : State) : Result := .next (s.lineTrip ch.val 0x40)

/-- COMB_LINE_BACKFEED. -/
def execCombLineBackfeed (ch : Fin 128) (s : State) : Result := .next (s.lineTrip ch.val 0x41)

/-- FAN_SUPPLY_SHORT. -/
def execFanSupplyShort (fan : Fin 8) (s : State) : Result := .next (s.fanShort fan.val)

/-- PROBE_SWEEP_START (R217, R222). -/
def execProbeSweepStart (probe : Fin 64) (s : State) : Result :=
  .next (if s.logicRuns then s.startSweep probe.val else s)

/-- SWEEP_RECORD (R219, R220, R226). -/
def execSweepRecord (probe : Fin 64) (m : SweepMeas) (s : State) : Result :=
  .next (if s.logicRuns then s.deliverSweep probe.val m else s)

/-- COMB_ROUND_START (R246 to R249). -/
def execCombRoundStart (line : Fin 64) (m : LineMeas) (s : State) : Result :=
  .next (if s.logicRuns then (s.openRound line.val).beginRound line.val m else s)

/-- COMB_ROUND_RECORD (R247, R250). -/
def execCombRoundRecord (line : Fin 64) (m : RoundMeas) (s : State) : Result :=
  .next (if s.logicRuns then s.deliverRound line.val m else s)

end Sys2Proof.Machine
end

