-- ==== Sys2Proof/Machine/Evaluate.lean ====
section
/-! DEFINITION. The phases of a tick after its boundary: the input deadline, the evaluation of the due units in
evaluation order, redo, and the commit (R40, R92 to R96, R102 to R105, R116, R154 to R156, R368). -/

namespace Sys2Proof.Machine

/-! ## Which units are due (R93, R260, R297) -/

/-- Whether a unit of period `p` and phase `ph` is due at tick `t`. -/
def duePeriod (p ph t : Nat) : Bool := (t + p - ph % p) % p == 0

/-- A loop unit is due. -/
def loopDue (c : Content) (n t : Nat) : Bool := duePhase (scalarOf c P.LOOP_K n) (scalarOf c P.LOOP_PHASE n) t

/-- Whether the unit in a slot is due in tick `t`. Comb line units follow their rounds, the recorder every tick. -/
def State.isDue (s : State) (t slot : Nat) : Bool :=
  let c := s.content
  let n := slotInst slot
  match slotKind slot with
  | 0x02 =>
    match memberLoops c slot with
    | u :: _ => loopDue c (slotInst u) t
    | [] => false
  | 0x03 => t % chanPeriod c n == 0
  | 0x04 => loopDue c n t
  | 0x05 => duePhase (scalarOf c P.PROF_K n) (scalarOf c P.PROF_PHASE n) t
  | 0x06 => loopDue c (churnHost c n) t
  | 0x07 => s.probeDue n t
  | 0x09 => duePeriod 64 (scalarOf c P.PRG_PHASE n) t
  | 0x0A => duePeriod 64 (scalarOf c P.CHAIN_PHASE n) t
  | 0x0B => duePeriod (scalarOf c P.OBS_STEP n) (scalarOf c P.OBS_PHASE n) t
  | 0x0C => duePeriod 64 (scalarOf c P.FAN_PHASE n) t
  | 0x0D => duePeriod 1024 (scalarOf c P.BIN_PHASE n) t
  | 0x10 => t % 512 == 0
  | _ => true

/-! ## One unit -/

/-- An ACTIVE channel unit by its mode. -/
def State.evalChannel (s : State) (ch : Nat) : State :=
  match s.mode ch with
  | 1 => s.evalDi ch
  | 2 => s.evalCount ch
  | 3 => s.evalDo ch
  | 4 => s.evalDo ch
  | 5 => s.evalAi ch
  | 6 => s.evalAi ch
  | 7 => s.evalAo ch
  | 8 => s.evalAo ch
  | 9 => s.evalRes ch
  | 0x0A => s.evalDiel ch
  | 0x0B => s.evalCombChan ch
  | _ => s

/-- An override hive whose face runs, unless every member rests (R25, R283, R418). -/
def State.evalHive (s : State) (slot : Nat) : State :=
  let h := hiveNumber slot
  let loops := memberLoops s.content slot
  if s.cfg P.HIVE_FACE_KIND h = 4 ∧ s.cfg P.LHIVE_TYPE h = 4 ∧ (s.unit slot).st.running ∧ !loops.all s.rests then
    s.evalOverride h
  else s

/-- A unit's evaluation in the tick of work: not when it is not due, rests, or its committed state was found bad. -/
def State.evalUnit (s : State) (slot : Nat) : State :=
  if s.skip.contains slot || s.rests slot || !s.isDue s.workTick slot then s
  else
    let n := slotInst slot
    let active := (s.unit slot).st == .active
    match slotKind slot with
    | 0x02 => s.evalHive slot
    | 0x03 => if active then s.evalChannel n else s
    | 0x04 => s.evalLoop n
    | 0x05 => s.evalProf n
    | 0x06 => s.evalChurn n
    | 0x07 => if active then s.evalProbe n else s
    | 0x08 => if active then s.evalComb n else s
    | 0x09 => s.evalProg n
    | 0x0A => s.evalChain n
    | 0x0B => if active then s.evalObs n else s
    | 0x0C => s.evalFan n
    | 0x0D => if active then s.evalBin n else s
    | 0x0E => s.evalRec
    | 0x10 => s.evalHk
    | _ => s

/-! ## Inputs of a tick (R94, R116, R154, R155) -/

/-- One EDGES entry (Table 04-9). -/
def edgesBytes (more : Bool) (lost : List (Nat × Nat)) (l : List Stamp) : List Byte :=
  let count (c : Nat) : Nat := (lost.filter (fun e => e.1 == c)).foldl (fun a e => a + e.2) 0
  let word := if more then 0 else (List.range 8).foldl (fun a c => a + min (count c) 15 * 16 ^ c) 0
  [BitVec.ofNat 8 l.length, if more then 1 else 0, 0, 0] ++ le 4 word ++
    (l.map (fun x => le 2 x.fine ++ [BitVec.ofNat 8 (flagBit x.rise 7 + flagBit x.late 6 + x.ch % 8), 0])).flatten

/-- The EDGES entries of a bank's stamp batch; a batch without stamps and without losses has none. -/
def State.noteEdges (s : State) (e : Nat × List Stamp × List (Nat × Nat)) : State :=
  let (b, l, lost) := e
  if 60 < l.length then
    let rest := l.drop 60
    let s := s.note 0x11 b (edgesBytes true lost (l.take 60))
    if 60 < rest.length then
      (s.note 0x11 b (edgesBytes true lost (rest.take 60))).note 0x11 b (edgesBytes false lost (rest.drop 60))
    else s.note 0x11 b (edgesBytes false lost rest)
  else s.note 0x11 b (edgesBytes false lost l)

/-- What the records of a channel bring beside its own evaluation: sweeps in flight, comb rounds, faults of the field. -/
def State.channelRecords (s : State) (ch : Nat) : State :=
  let s := s.recordFaults ch
  let c := s.work.chan ch
  match s.mode ch with
  | 0x0A => c.batch.foldl (fun s r => s.sweepMember ch (s.workTick - 1) r) s
  | 0x0B => (c.batch.foldl (fun s r => s.roundMember ch (s.workTick - 1) r) s).feedCheck ch
  | 9 => if (s.unit (chanSlot ch)).st = .active ∧ !c.skip then s.selectRes ch else s
  | _ => s

/-- The inputs of the tick of work are gathered: stamps, channel batches, fan records, sweeps and rounds. -/
def State.gatherAll (s : State) : State :=
  let w := s.workTick
  let s := (s.inputs (w - 1)).edges.foldl State.noteEdges s
  let chans := (slotsOfKind s.content 0x03).map slotInst
  let s := chans.foldl State.gather s
  let s := chans.foldl State.channelRecords s
  let s := ((slotsOfKind s.content 0x0C).map slotInst).foldl State.gatherFan s
  let s := ((slotsOfKind s.content 0x07).map slotInst).foldl (fun s p => s.takeSweep p w) s
  ((slotsOfKind s.content 0x08).map slotInst).foldl (fun s l => s.takeRound l w) s

/-! ## The deadline (R94) -/

/-- Evaluation of the tick of work. -/
def State.evaluate (s : State) : State :=
  let s : State := { s with drawsAt := s.draws }
  let s := s.gatherAll
  let s := s.order.foldl State.evalUnit s
  let s := ((slotsOfKind s.content 0x03).map slotInst).foldl State.countSubst s
  { s with evaluated := true }

/-- Evaluation starts when the deadline of the tick of work has passed. -/
def State.evaluateDue (s : State) : State :=
  if s.logicRuns && !s.evaluated && decide (s.workTick ≤ s.deadlineAt) then s.evaluate else s

/-- INPUT_DEADLINE: stamp batches that are not complete are held back; the tick of work is evaluated. -/
def execInputDeadline (s : State) : Result :=
  if !s.logicRuns || decide (s.tick ≤ s.deadlineAt) then .next s
  else
    let late (s : State) (b : Nat) : State := if (s.bank b).powered then s.holdStamps b else s
    let s := (List.range s.bankCount).foldl late s
    let s : State := { s with deadlineAt := s.tick }
    .next s.evaluateDue

/-! ## The recorder's cut (R368) -/

/-- Whether an action on a handle reaches the recorder unit. -/
def State.reachesRecorder (s : State) (h : Nat) : Bool :=
  h == recSlot || (isHive h && inScope s.content h 258 recSlot)

/-- Whether the generation that becomes active at boundary `t` has a property. -/
def State.nextContent (s : State) (t : Nat) (f : Content → Bool) : Bool :=
  match s.awaiting with
  | some a => a.at_ == t &&
      (match s.gens.find? (fun g => g.number == a.number) with
       | some g => f g.content
       | none => false)
  | none => false

/-- Whether boundary `t` stops the recorder unit: a command, a program action or a generation that waits for it. -/
def State.recorderStops (s : State) (t : Nat) : Bool :=
  let prog (n : Nat) : Bool :=
    let p := s.work.prog n
    let due := match p.faultStop with | some e => decide (e ≤ t) | none => false
    p.actions.any (fun a => a.1 == 2 && s.reachesRecorder a.2) ||
      (due && (List.range 4).any (fun i => s.reachesRecorder (field (s.cfgBlock P.PRG_FAULT_STOP n) (2 * i) 2)))
  (s.unit recSlot).st == .active &&
    ((dueCommands s.sched t).any (fun x => x.opcode == 0x0203#16 && s.reachesRecorder (field x.payload 0 2)) ||
      (List.range 4).any prog || s.nextContent t (fun c => !configured c recSlot))

/-- Whether boundary `t` changes the power state. -/
def State.powerChanges (s : State) (t : Nat) : Bool :=
  match ((dueCommands s.sched t).filter (fun x => x.opcode == 0x0011#16 && !s.calmDrops x)).getLast? with
  | some x => match powerOf (field x.payload 0 1) with | some p => p != s.power | none => false
  | none => false

/-- Whether the generation that becomes active at boundary `t` changes what is recorded. -/
def State.recordingChanges (s : State) (t : Nat) : Bool := s.nextContent t (recordingDiffers s.content)

/-- Causes that end an interval with tick `t` for what its next boundary brings (R368). -/
def State.cutCauses (s : State) (t : Nat) : BitVec 8 :=
  BitVec.ofNat 8 (flagBit (s.recordingChanges (t + 1)) 5 + flagBit (s.recorderStops (t + 1)) 6 +
    flagBit (s.powerChanges (t + 1)) 7)

/-- The cut of the tick of work, if one is due. -/
def State.cutTick (s : State) : State := s.cutSummary s.content s.workTick (s.cutCauses s.workTick)

/-- The summary cut in the tick of work, if any. -/
def State.tickCut (s : State) : List Byte :=
  match s.recorder.queue.getLast? with
  | some x => if field x.bytes 14 6 = s.workTick then x.bytes else []
  | none => []

/-- A redo discards the summary cut in its tick with the rest of the tick's work (R103). -/
def State.uncut (s : State) : State :=
  match s.recorder.queue.getLast? with
  | some x =>
    if field x.bytes 14 6 = s.workTick then
      { s with recorder := { s.recorder with
        queue := s.recorder.queue.dropLast, nextSeq := x.seq, restart := x.restart, extremesDue := [] } }
    else s
  | none => s

/-- SUMMARY_CUT: the summary of an interval that ends with the tick of work, after the recorder's evaluation. -/
def execSummaryCut (s : State) : Result :=
  .next (if s.evaluated && !s.committed then s.cutTick else s)

/-- SUMMARY_FLASH_WRITE: the first summary that waits, of a committed tick, is written to flash (R370, R374). -/
def execSummaryFlashWrite (programOk healthOk : Bool) (s : State) : Result :=
  match s.recorder.queue with
  | x :: _ =>
    if !s.committed ∧ field x.bytes 14 6 = s.workTick then .next s else .next (s.writeSummary programOk healthOk)
  | [] => .next s

/-! ## The host stamp FIFO (R156) -/

/-- LOST_FIFO markers while places are free, for the channels with dropped entries in ascending order. -/
def fifoMarkers : Tab (Nat × Nat × Nat) → List FifoEntry → List FifoEntry × Tab (Nat × Nat × Nat)
  | [], l => (l, [])
  | (c, n, t, f) :: rest, l =>
    if l.length < 256 then fifoMarkers rest (l ++ [⟨t, f, BitVec.ofNat 8 c, 2, sat16 n⟩])
    else (l, (c, n, t, f) :: rest)

/-- One entry due for a bank's FIFO: after the markers that wait, or dropped and counted. Answers whether it was dropped. -/
def Bank.fifoPut (k : Bank) (e : FifoEntry) : Bank × Bool :=
  let m := fifoMarkers k.fifoLost k.fifo
  if m.1.length < 256 then ({ k with fifo := m.1 ++ [e], fifoLost := m.2 }, false)
  else
    let c := e.channel.toNat % 8
    let x := Tab.get (0, 0, 0) m.2 c
    let x := if x.1 = 0 then (1, e.tick, e.fine) else (x.1 + 1, x.2)
    ({ k with fifo := m.1, fifoLost := Tab.put (0, 0, 0) m.2 c x, lostFifo := sat32 (k.lostFifo + 1) }, true)

/-- The stamps of a delivered batch, and a LOST_FIELD marker for each channel with losses, go to the host's FIFO. -/
def State.fifoAppend (s : State) (e : Nat × List Stamp × List (Nat × Nat)) : State :=
  let (b, l, lost) := e
  let count (c : Nat) : Nat := (lost.filter (fun x => x.1 == c)).foldl (fun a x => a + x.2) 0
  let edge (x : Stamp) : FifoEntry := ⟨x.tick, x.fine, BitVec.ofNat 8 (flagBit x.rise 7 + x.ch % 8), 0, 0⟩
  let marks := ((List.range 8).filter (fun c => count c != 0)).map (fun c =>
    (⟨s.workTick - 1, 0xFFFF, BitVec.ofNat 8 c, 1, sat16 (count c)⟩ : FifoEntry))
  let r := (l.map edge ++ marks).foldl (fun (r : Bank × Bool) x =>
    let q := r.1.fifoPut x
    (q.1, r.2 || q.2)) (s.bank b, false)
  let k := { r.1 with fifoHigh := Nat.max r.1.fifoHigh r.1.fifo.length }
  let s := s.setBank b k
  if r.2 then s.bankMark b 4 else s

/-! ## The values a calibration collects (R200) -/

/-- Channels whose records a calibration of `ch` writes: the members of a RES element, or the channel itself. -/
def State.calMembers (s : State) (ch : Nat) : List Nat := if s.mode ch = 9 then resMembers s.content ch else [ch]

/-- Whether an action on a path is allowed in the channel's mode: in RES the handle is the force member's, and OFFSET needs
the 2-wire form; the fine items of an AO group are the output stage's. -/
def State.calAllowed (s : State) (ch action path : Nat) : Bool :=
  if s.mode ch = 9 then
    resForce s.content ch == ch && (action != 0 || (resMembers s.content ch).length == 1)
  else if s.mode ch = 7 ∨ s.mode ch = 8 then action == 2 || path != 2
  else true

/-- The code of a RES element from its members' codes, or the code of one channel (Table 05-9). -/
def calDiff (l : List F64) : F64 :=
  match l with
  | [a] => a
  | [a, b] => dsub a b
  | [_, b, c] => dsub b c
  | _ => 0

/-- The values that the members' records of tick `t` give a calibration of `ch`, with the quality of the value. -/
def State.calValues (s : State) (ch t quality : Nat) : List CalConv :=
  let raws := (s.calMembers ch).map (fun m => (Tab.get ((0, 0), []) (s.inputs t).raws m).2)
  (List.range ((raws.headD []).length)).map (fun i =>
    ⟨calDiff (raws.map (fun l => (l.getD i (0, 0)).1)), calDiff (raws.map (fun l => (l.getD i (0, 0)).2)), quality⟩)

/-- A calibration job takes the values of the tick of work: consecutive ones, of an element whose members are ACTIVE, with
quality GOOD or CALMISMATCH, under one load class and band. -/
def State.collectJob (s : State) (j : Job) : State :=
  let ch := slotInst (field j.args 0 2)
  let t := s.workTick - 1
  let ms := s.calMembers ch
  let bar (status detail : Nat) : State := s.modJob j.handle (fun k => { k with bar := some (status, detail) })
  if j.opcode ≠ 0x0503#16 ∨ field j.args 2 1 = 2 ∨ j.bar.isSome ∨ j.state.ended then s
  else if j.state ≠ .running then s.modJob j.handle (fun k => { k with coll := [], tags := none })
  else if field j.args 8 2 ≤ j.coll.length then s
  else
    match ms.find? (fun m => (s.unit (chanSlot m)).st != .active) with
    | some m => bar stState (s.unit (chanSlot m)).st.code
    | none =>
      let quality := (s.work.cell (chanSlot ch)).own.quality
      if ms.any (fun m => (s.work.chan m).skip) then s
      else if 1 < quality then bar stState quality
      else
        let tags := (Tab.get ((0, 0), []) (s.inputs t).raws ch).1
        if j.tags.any (fun x => x != tags) then bar stRange 2
        else
          let values := s.calValues ch t quality
          s.modJob j.handle (fun k => { k with tags := some tags, coll := k.coll ++ values })

/-! ## The commit (R102) -/

/-- The commit of the tick of work: the recorder's cut, the record's entries, the stamp FIFOs and the cells for the link;
then one switch of the copies. -/
def State.commit (s : State) : State :=
  let w := s.workTick
  let s := s.cutTick
  let s := s.appendTick w (fun u => s.isDue w u && !s.rests u) s.tickCut
  let s := (s.inputs (w - 1)).edges.foldl State.fifoAppend s
  let s := s.jobs.foldl State.collectJob s
  let s := s.sendCells
  { s with
    prev := s.work
    base := s.work
    committed := true
    inbufs := s.inbufs.filter (fun e => decide (w ≤ e.1))
    hk := { s.hk with fresh := s.hk.fresh && w % 512 != 0 }
    sram := { s.sram with redoRun := 0 } }

/-- TICK_COMMIT: evaluation has completed. Under lag the next tick of work opens at once (R96). -/
def execTickCommit (s : State) : Result :=
  if !(s.logicRuns && s.evaluated && !s.committed) then .next s
  else
    let s := s.commit
    .next (if s.workTick < s.tick then s.openTick.evaluateDue else s)

/-! ## Redo and lag (R96, R103, R104) -/

/-- Whether an entry noted for the record comes from evaluation, which notes it again in a redo. -/
def noteOfEvaluation (type : Nat) : Bool :=
  type == 0x10 || type == 0x11 || type == 0x13 || type == 0x14 || type == 0x30

/-- The tick of work evaluated again from the committed copies, with the same inputs and the same draws; what the first
evaluation has counted and raised outside the working copies stands. -/
def State.redo (s : State) : State :=
  let s := s.uncut
  let s : State := { s with inrec := { s.inrec with notes := s.inrec.notes.filter (fun n => !noteOfEvaluation n.1) } }
  let r := { s with work := s.base, draws := s.drawsAt }.evaluate
  { s with
    work := r.work
    inrec := r.inrec
    sram := { s.sram with redoCount := sat32 (s.sram.redoCount + 1), redoTick := s.workTick, redoRun := s.sram.redoRun + 1 } }

/-- The logic domain stops, and starts again with `cause` when no fallback takes its place. -/
def State.restartAfter (s : State) (closed : Nat) (c : StartCause) (report : BootReport) : State :=
  (s.stopFor closed (startCode c)).bootStart c report

/-- TICK_REDO: an error in the working data of the running evaluation, found in an SRAM page, which is retired (R111), or by
lockstep. After two redos of one tick that have failed, the logic domain restarts (R104). -/
def execTickRedo (fault : RedoFault) (s : State) : Result :=
  if !(s.logicRuns && s.evaluated && !s.committed) then .next s
  else
  let s := fault.page.elim s (fun p => s.pageFails p.val)
  if s.sram.redoRun < 2 then .next s.redo
  else .next (s.restartAfter 0 .redo fault.report)

/-- LAG_RESTART: the work of tick t has not committed by the end of tick t + 7. -/
def execLagRestart (report : BootReport) (s : State) : Result :=
  if s.logicRuns && !s.committed && decide (s.workTick + 7 ≤ s.tick) then .next (s.restartAfter 0 .lag report)
  else .next s

end Sys2Proof.Machine
end

