-- ==== Sys2Proof/Machine/Events.lean ====
section
/-! DEFINITION. Events of the clock, the memory, the supplies, the start-up and the host's wires, and the items of a
boundary as rows of their own. An item row acts at the boundary that the model stands at, with the same operation as
TICK_BOUNDARY, when its condition holds. -/

namespace Sys2Proof.Machine

/-! ## The boundary and its items (R22, R69, R85, R95, R111, R118, R354, R379) -/

/-- TICK_BOUNDARY. -/
def execTickBoundary (s : State) : Result := .next s.tickBoundary

/-- A calm that falls due at boundary `t`, decided at the end of the tick before it (R85, R87). -/
def State.calmAt (s : State) (t : Nat) : State :=
  if s.calmsAt t then ({ s with smoker := { s.smoker with due := some t } } : State).calmDue t else s.calmDue t

/-- SMOKER_CALM: no packet has been accepted for N ticks. -/
def execSmokerCalm (s : State) : Result := .next (s.atBoundary (fun t s => s.calmAt t))

/-- The first command that falls due at boundary `t`, applied after the calm of that boundary if there is one (R87), with the
change of power state it asks for. -/
def State.applyOne (s : State) (t : Nat) : State :=
  let s := s.calmAt t
  match dueCommands s.sched t with
  | [] => s
  | x :: _ =>
    let target := if x.opcode = 0x0011#16 ∧ !s.calmDrops x then powerOf (field x.payload 0 1) else none
    let s : State := { s with sched := s.sched.erase x }
    let s := (s.applyCommand x).syncHives
    match target with
    | none => s
    | some p =>
      let was := s.power
      let s := s.enterPower t p
      if s.power = .dormant then s else s.recBoundary t false (s.power != was)

/-- SCHEDULED_COMMAND_APPLY: a command reaches its effective tick. -/
def execScheduledCommandApply (s : State) : Result := .next (s.atBoundary (fun t s => s.applyOne t))

/-- WIND_DOWN_COMPLETE: a unit whose wind-down is over is STOPPED. -/
def execWindDownComplete (slot : Fin 1024) (s : State) : Result :=
  .next (s.atBoundary (fun _ s => (s.windDown slot.val).syncHives))

/-- GENERATION_ACTIVATE: at boundary E the generation that awaits it becomes active. -/
def execGenerationActivate (s : State) : Result :=
  .next (s.atBoundary (fun t s =>
    match s.awaiting with
    | some a => if a.at_ = t then ((s.activate t).syncHives).recBoundary t true false else s
    | none => s))

/-- INREC_SEGMENT_BOUNDARY: a segment that has run its ticks ends and the next one begins (R118). -/
def execInrecSegmentBoundary (s : State) : Result :=
  .next (s.atBoundary (fun t s => if s.power = .dormant then s else s.recBoundary t false false))

/-- REMOTE_CELL_APPLY: entries whose boundary it is are applied (R354). -/
def execRemoteCellApply (s : State) : Result := .next (s.atBoundary (fun _ s => s.remoteDue))

/-- NODE_JOIN: at its announced boundary a node is grafted; node 0 stands for a forager's own join (R360). -/
def execNodeJoin (node : Fin 8) (s : State) : Result :=
  .next (s.atBoundary (fun _ s => (if node.val = 0 then s.joinSelf else s.joinNode node.val).syncHives))

/-- NODE_LOST: a peer whose loss is due is lost at the boundary; node 0 stands for a forager's queen (R361, R362). -/
def execNodeLost (node : Fin 8) (s : State) : Result :=
  .next (s.atBoundary (fun _ s => (s.loseDue node.val).syncHives))

/-- THERMAL_SHUTDOWN: at the boundary after SHUTDOWN is set (R433). -/
def execThermalShutdown (s : State) : Result :=
  if !s.logicRuns || !s.hk.shutdownDue || (s.evaluated && !s.committed) then .next s
  else .next (s.thermalShutdown (if s.committed then s.tick + 1 else s.tick))

/-! ## Memory (R105, R106, R111) -/

/-- ECC_CORRECTED: a corrected word is written back and counted; a page with 4 addresses within 1,048,576 ticks is to be
retired. -/
def execEccCorrected (page : Fin 2048) (address : Nat) (s : State) : Result :=
  if !s.logicPowered then .next s
  else
    let old := (Tab.get [] s.sram.corrected page.val).filter (fun e => e.1 != address && decide (s.tick ≤ e.2 + 1048576))
    let now := old ++ [(address, s.tick)]
    let s : State := { s with sram := { s.sram with
      corrCount := sat32 (s.sram.corrCount + 1)
      corrected := Tab.put [] s.sram.corrected page.val now } }
    .next (if 4 ≤ now.length then s.pageFails page.val else s)

/-- A unit's committed state is bad: it is not evaluated in this tick and enters HOLD at the next boundary. Its code is
free: the spec gives none (log entry 4). -/
def State.unitBad (s : State) (slot : Nat) : State :=
  if !s.logicRuns || !s.has slot then s
  else
    let (v, s) := s.drawFree
    let code := v % 256
    let s := (s.modPlants (·.modUnit slot (fun u => { u with holdDue := some code }))).note 0x31 slot (code4 code)
    if s.committed then s
    else
      let s : State := { s with skip := insertSorted s.skip slot }
      if !s.evaluated then s
      else
        let s := s.uncut
        let s : State := { s with inrec := { s.inrec with
          notes := s.inrec.notes.filter (fun n => !noteOfEvaluation n.1) } }
        let r := { s with work := s.base, draws := s.drawsAt }.evaluate
        { s with
          work := r.work
          inrec := r.inrec
          draws := Nat.max s.draws r.draws }

/-- A value whose memory was bad. -/
def CellVal.spoiled (v : CellVal) : CellVal := { v with value := 0, quality := 6, conditions := condBit 6 }

/-- A cell reads VALUE 0 with BAD until its next write (R112); one that has never been written holds nothing. -/
def State.cellBad (s : State) (ref : Nat) : State :=
  let bad (p : Plant) : Plant :=
    p.setCell ref { p.cell ref with own := (p.cell ref).own.spoiled, forced := (p.cell ref).forced.map CellVal.spoiled }
  if !s.logicRuns || !(s.base.cell ref).written then s
  else
    let same := decide (s.work.cell ref = s.base.cell ref)
    { s with
      prev := bad s.prev
      base := bad s.base
      work := if same then bad s.work else s.work }.note 0x32 ref []

/-- ECC_UNCORRECTABLE_COMMITTED: an uncorrectable error in committed or stored data (R105, Table 03-4, R374). Errors of
system data restart the logic domain; the journal has no cause of its own for that and shows that of R104 (log entry 22). The
SRAM page in which it is found is retired at the next boundary (R111). -/
def execEccUncorrectableCommitted (fault : EccFault) (s : State) : Result :=
  let s := if s.logicPowered then fault.page.elim s (fun p => s.pageFails p.val) else s
  match fault.place with
  | .unit slot => .next (s.unitBad slot.val)
  | .cell index => .next (s.cellBad index.val)
  | .record => .next (s.recordGap s.workTick (if s.committed then s.workTick else s.workTick - 1))
  | .system report =>
    if s.logicPowered && s.host.alive then .next (s.restartAfter 0 .redo report) else .next s
  | .replyCache id =>
    .next (s.modSession id (fun x => { x with cached := none, awaits := x.awaits || x.cached.isSome }))
  | .linkReply id =>
    .next { s with link := { s.link with replies := s.link.replies.filter (fun r => r.1 != id) } }
  | .heldSummary seq => .next (s.heldLost seq)
  | .flashSummary founding seq => .next (s.summaryBad founding seq)
  | .update block => .next (s.stagedBad block)

/-- SRAM_SCRUB: the scrub reads a page ahead of its own pace (R106). -/
def execSramScrub (page : Fin 2048) (s : State) : Result :=
  .next (if s.logicPowered then { s with sram := s.sram.scrub page.val } else s)

/-- PAGE_RETIRE: a failing page is retired at the boundary (R111). -/
def execPageRetire (page : Fin 2048) (s : State) : Result :=
  if !s.logicRuns then .next s
  else .next ((s.pageFails page.val).atBoundary (fun _ s => s.retirePage page.val))

/-- TICK_CHECKPOINT: every 65,536 ticks. -/
def execTickCheckpoint (s : State) : Result :=
  .next (if s.vinOn && s.tick % 65536 == 0 then s.writeCheckpoint else s)

/-! ## Recorder (R371, R373) -/

/-- REC_FREEZE_EXPIRY. -/
def execRecFreezeExpiry (s : State) : Result := .next s.freezeExpiry

/-- REC_CLEAR_ERASE_DONE: the rolling sectors are erased. -/
def execRecClearEraseDone (s : State) : Result := .next { s with recorder := { s.recorder with clearing := false } }

/-! ## Clocks (R90, R424) -/

/-- FINE_CLOCK_LOCK: the fine clock runs in every state but DORMANT; with the crystal out of limits it stays unlocked. -/
def execFineClockLock (s : State) : Result :=
  .next (if s.logicPowered && !s.hk.crystalFail then { s with fineValid := true } else s)

/-- CRYSTAL_FAIL_SET. -/
def execCrystalFailSet (s : State) : Result := .next (if s.vinOn then (s.crystal true).reportAlign s else s)

/-- CRYSTAL_FAIL_CLEAR. -/
def execCrystalFailClear (s : State) : Result := .next (if s.vinOn then s.crystal false else s)

/-! ## Starts and supplies (R46 to R48, R423 to R426, R437, R461) -/

/-- HOST_RESET_N_ASSERT. -/
def execHostResetNAssert (s : State) : Result := .next s.hostReset

/-- BOOT_START. -/
def execBootStart (cause : StartCause) (report : BootReport) (s : State) : Result := .next (s.bootStart cause report)

/-- HOST_WAKE. -/
def execHostWake (s : State) : Result := .next s.hostWake

/-- VIN_POWER_ON: VIN rises through the power-on threshold, which lies at 16.6 V or above; HOST_SEL is sampled. -/
def execVinPowerOn (millivolts : Nat) (uart : Bool) (s : State) : Result :=
  .next (if 16600 ≤ millivolts then s.vinReturn uart else s)

/-- VIN_POWER_FAIL. -/
def execVinPowerFail (s : State) : Result := .next s.vinFail

/-- VIN_THRESHOLD_CROSSING. -/
def execVinThresholdCrossing (crossing : VinCrossing) (millivolts : Nat) (s : State) : Result :=
  .next (if s.vinOn then s.vinCrossing crossing millivolts else s)

/-! ## Housekeeping (R427 to R436) -/

/-- HOUSEKEEPING_ROUND: the housekeeper measures in every power state. -/
def execHousekeepingRound (meas : HkMeas) (s : State) : Result := .next (if s.vinOn then s.housekeepingRound meas else s)

/-- THERMAL_ABORT_135: the comparator of an included site aborts a running flash program (R434). Every program of the model
is one step that has completed or not begun, so nothing is half-written; an erase in the background stays unfinished. -/
def execThermalAbort135 (site : Fin 6) (tenths : Int) (s : State) : Result :=
  .next (if s.vinOn && s.hk.included site.val && decide (1350 ≤ tenths) then
    s.raise causeThermal hkSlot 6 (65536 * (tenths % 65536).toNat + site.val) else s)

/-! ## The host's wires (R50 to R56, R462) -/

/-- The interface listens: it has power and VIO, and is not held in reset. -/
def State.hostListens (s : State) : Bool := s.logicPowered && s.host.vioOk && !s.host.resetHeld

/-- What the first byte of an SPI transaction makes of it (R50). -/
inductive SpiUse where
  | write | read | ignored
  deriving DecidableEq, Repr

/-- The use of a transaction by its first byte. -/
def spiUse (first : Byte) : SpiUse := if first = 0x5A then .write else if first = 0xA5 then .read else .ignored

/-- A discarded packet in its counter. -/
def State.countDiscard (s : State) (reason : DiscardReason) : State :=
  s.modHost (fun h =>
    match reason with
    | .noBuffer => { h with overrun := sat32 (h.overrun + 1) }
    | .framing => { h with framing := sat32 (h.framing + 1) }
    | .crc => { h with crcErr := sat32 (h.crcErr + 1) })

/-- Why the packet of an SPI write transaction is discarded, `b` being its bytes after the first (R51): none for a packet
that goes on to the checks of R60. -/
def State.spiFault (s : State) (b : List Byte) : Option DiscardReason :=
  if !s.host.alive || s.rxCredits == 0 then some .noBuffer
  else if b.take 2 ≠ [0xB7, 0x4D] ∨ b.length ≠ 20 + field b 8 2 then some .framing
  else if !crcOkAt b (16 + field b 8 2) then some .crc
  else none

/-- A LENGTH that the UART receiver takes (R55). -/
def uartLength (len : Nat) (auth : Bool) : Bool := decide (len ≤ if auth then 4112 else 4096)

/-- What the UART receiver makes of the bytes it holds (R55): packets discarded for their LENGTH and for their CRC, and the
bytes it keeps, which begin with a sync or with its first byte. A whole packet is passed over: it comes as a command of its
own. `k` bounds the steps. -/
def uartScan : Nat → List Byte → Nat × Nat × List Byte
  | 0, b => (0, 0, b)
  | k + 1, b =>
    match b with
    | [] => (0, 0, [])
    | x :: t =>
      if x ≠ 0xB7 then uartScan k t
      else if t.isEmpty then (0, 0, b)
      else if t.headD 0 ≠ 0x4D then uartScan k t
      else if b.length < 10 then (0, 0, b)
      else if !uartLength (field b 8 2) (bit (field b 3 1) 5) then
        let r := uartScan k (b.drop 2)
        (r.1 + 1, r.2)
      else if b.length < 20 + field b 8 2 then (0, 0, b)
      else if crcOkAt b (16 + field b 8 2) then uartScan k (b.drop (20 + field b 8 2))
      else
        let r := uartScan k (b.drop 2)
        (r.1, r.2.1 + 1, r.2.2)

/-- Packets discarded for framing and for their CRC are counted, and the receiver keeps `rest`. -/
def State.uartKeeps (s : State) (r : Nat × Nat × List Byte) : State :=
  s.modHost (fun h => { h with framing := sat32 (h.framing + r.1), crcErr := sat32 (h.crcErr + r.2.1), rx := r.2.2 })

/-- PACKET_DISCARD: the bytes of an SPI transaction, the first byte among them, or bytes that the UART receives. What is
discarded is counted by its reason; nothing is answered and the smoker is not fed. A transaction that writes no packet, and a
packet that nothing speaks against, have no effect here. -/
def execPacketDiscard (bytes : List Byte) (s : State) : Result :=
  if !s.hostListens then .next s
  else if s.host.uart then
    .next (if s.host.alive then s.uartKeeps (uartScan (s.host.rx.length + bytes.length + 1) (s.host.rx ++ bytes)) else s)
  else
    match bytes with
    | [] => .next s
    | first :: rest =>
      match spiUse first, s.spiFault rest with
      | .write, some reason => .next (s.countDiscard reason)
      | _, _ => .next s

/-- A gap in the bytes that the UART receiver holds: the packet under way is discarded, and with it every packet that the
search finds in the rest of it, since they all miss bytes. -/
def uartGap : Nat → List Byte → Nat × Nat
  | 0, _ => (0, 0)
  | k + 1, b =>
    let r := uartScan (b.length + 1) b
    if r.2.2.length < 2 then (r.1, r.2.1)
    else
      let q := uartGap k (r.2.2.drop 2)
      (r.1 + q.1 + 1, r.2.1 + q.2)

/-- UART_BYTE_GAP: more than 2 ms between two bytes of the packet under way. -/
def execUartByteGap (s : State) : Result :=
  let g := uartGap (s.host.rx.length + 1) s.host.rx
  .next (if s.hostListens && s.host.alive && s.host.uart then s.uartKeeps (g.1, g.2, []) else s)

/-- The bytes that follow the status byte in a read transaction of `n` more bytes (R52): the count and the oldest reply, or a
count of 0, then 0x00. -/
def State.spiBytes (s : State) (n : Nat) : List Byte :=
  padTo n (match s.host.replies with
    | r :: _ => le 2 r.packet.length ++ r.packet
    | [] => le 2 0)

/-- The oldest reply has been read whole: it is removed, and REPLY_READY is cleared when no reply remains (R83). -/
def State.replyRead (s : State) : State :=
  match s.host.replies with
  | [] => s
  | r :: rest =>
    s.modHost (fun h => { h with
      replies := rest
      sent := h.sent ++ [r]
      cause := if rest.isEmpty then h.cause &&& ~~~1#32 else h.cause })

/-- Whether `n` bytes after the first byte take in the whole of the oldest reply. -/
def State.readsWhole (s : State) (n : Nat) : Bool :=
  match s.host.replies with
  | r :: _ => decide (2 + r.packet.length ≤ n)
  | [] => false

/-- SPI_READ: a transaction with its first byte and the bytes clocked after it. While the first byte comes in the
module sends its status byte. A read sends the count and the oldest reply, which is removed when HOST_CS_N rises after its
last byte; a write sends 0x00 (Table 02-4); another first byte makes the module ignore the rest. -/
def execSpiRead (x : SpiTransfer) (s : State) : Result :=
  if !s.hostListens || s.host.uart then .next s
  else
    let status := BitVec.ofNat 8 s.spiStatus
    let out (b : List Byte) : State := s.modHost (fun h => { h with miso := status :: b })
    match spiUse x.first with
    | .write => .next (out (List.replicate x.clocked 0))
    | .ignored => .next (out [])
    | .read =>
      let t := out (s.spiBytes x.clocked)
      .next (if s.readsWhole x.clocked then t.replyRead else t)

/-- VIO_LOW: the pads are high-impedance; a packet cut short counts as a framing error. -/
def execVioLow (inPacket : Bool) (s : State) : Result :=
  let s' := s.modHost (fun h => { h with vioOk := false, rx := [] })
  .next (if inPacket && s.hostListens && s.host.alive then
    s'.modHost (fun h => { h with framing := sat32 (h.framing + 1) }) else s')

/-- VIO_RETURN: the interface continues without a reset. -/
def execVioReturn (s : State) : Result := .next (s.modHost (fun h => { h with vioOk := true }))

/-! ## Timeouts of the interface (R54, R63, R66) -/

/-- AUTH_PROVE_BAR_END. -/
def execAuthProveBarEnd (s : State) : Result :=
  match s.host.barUntil with
  | some b => .next (if b ≤ s.tick then s.modHost (fun h => { h with barUntil := none, authFails := 0 }) else s)
  | none => .next s

/-- BAUD_FALLBACK: no packet within 2 s of the change of rate. -/
def execBaudFallback (s : State) : Result :=
  match s.host.baudAt with
  | some a => .next (if s.host.alive && decide (a + 2048 ≤ s.tick) then s.baudFallback else s)
  | none => .next s

/-- SESSION_IDLE_TIMEOUT. -/
def execSessionIdleTimeout (session : BitVec 16) (s : State) : Result :=
  match s.host.sessions.find? (fun x => x.id == session) with
  | some x => .next (if x.idleAt (s.tick + 1) then (s.closeSession session true).dispatchJobs else s)
  | none => .next s

end Sys2Proof.Machine
end

