-- ==== Sys2Proof/Machine/Host.lean ====
section
/-! DEFINITION. What the interface does with a command packet: acceptance, authorisation, the checks before a command's
own meaning, commands named for a forager, and the reply (R51, R56, R60 to R74, R86, R356 to R359). -/

namespace Sys2Proof

/-- The bytes that a packet's tag is computed over (R66): header and payload before the tag. -/
def Packet.signed (p : Packet) (opcode : BitVec 16) : List Byte :=
  [0xB7, 0x4D, p.version, p.flags] ++ Machine.le 2 p.seq.toNat ++ Machine.le 2 opcode.toNat ++ Machine.le 2 p.payload.length ++
    Machine.le 2 p.session.toNat ++ Machine.le 4 p.etick.toNat ++ p.payload.take (p.payload.length - 16)

/-- AUTH. -/
def Packet.auth (p : Packet) : Bool := p.flags.getLsbD 5
/-- ETV. -/
def Packet.etv (p : Packet) : Bool := p.flags.getLsbD 6
/-- The data of a packet: its payload without a tag (R57). -/
def Packet.data (p : Packet) : List Byte := if p.auth then p.payload.take (p.payload.length - 16) else p.payload

end Sys2Proof

namespace Sys2Proof.Machine

/-! ## Acceptance (R60, R61, R84) -/

/-- An accepted packet feeds the smoker: its count begins anew (R84, R85). -/
def State.feedSmoker (s : State) : State := { s with smoker := { s.smoker with last := s.tick, spent := false } }

/-- What an accepted packet brings: it feeds the smoker, the UART keeps its rate, the queen may feed its foragers, and its
session's counter and idle limit move on. -/
def State.accept (s : State) (p : Packet) : State :=
  let s := (s.modHost (fun h => { h with baudAt := none })).feedSmoker
  let s : State := { s with link := { s.link with feedDue := true } }
  s.modSession p.session (fun x => { x with expect := p.seq + 1, lastSeq := p.seq, lastTick := s.tick })

/-- An accepted packet that repeats the last one of its session: it is not executed again. -/
def State.acceptAgain (s : State) (p : Packet) : State :=
  let s := (s.modHost (fun h => { h with baudAt := none })).feedSmoker
  let s : State := { s with link := { s.link with feedDue := true } }
  s.modSession p.session (fun x => { x with lastTick := s.tick })

/-- A reply that is kept for retransmission in its session. -/
def State.cacheReply (s : State) (r : Reply) : State :=
  s.modSession r.session (fun x => { x with cached := some r, awaits := false })

/-- What the checks of R60 find. -/
inductive Arrival where
  /-- not received, or discarded without a reply -/
  | ignored
  /-- refused and not accepted -/
  | refused (a : Answer)
  /-- a retransmission whose reply is cached -/
  | again (r : Reply)
  /-- a retransmission of a command that was sent on to a forager -/
  | onward
  | accepted
  deriving DecidableEq, Repr

/-- The checks of R60 in their order. `needs`: the opcode needs a session. -/
def State.arrival (s : State) (p : Packet) (needs : Bool) : Arrival :=
  if p.version ≠ 1#8 then .refused (refuse stBadVersion 1)
  else if p.flags &&& 0x9F#8 ≠ 0#8 then .refused (refuse stBadFlags)
  else if p.session = 0#16 then (if needs then .refused (refuse stSessionUnknown) else .accepted)
  else
    match s.session p.session with
    | none => .refused (refuse stSessionUnknown)
    | some x =>
      if p.seq = x.expect then .accepted
      else if p.seq = x.lastSeq ∧ x.awaits then .onward
      else
        match x.cached with
        | some r =>
          if p.seq = x.lastSeq then .again r else .refused (refuse stSequence (x.expect.toNat % 256))
        | none => .refused (refuse stSequence (x.expect.toNat % 256))

/-- A packet reaches the checks: the interface listens, is ready, has a buffer, and in UART the LENGTH is one that its
receiver takes. Answers whether it does, with an overrun or a framing error counted otherwise (R51, R55, R56). -/
def State.admitPacket (s : State) (p : Packet) : Bool × State :=
  if !s.hostListens then (false, s)
  else if !s.host.alive then (false, if s.host.uart then s else s.countDiscard .noBuffer)
  else if 3 ≤ s.host.line.length then (false, s.countDiscard .noBuffer)
  else if s.host.uart && !uartLength p.payload.length p.auth then (false, s.countDiscard .framing)
  else (true, s)

/-! ## Authorisation (R64 to R66) -/

/-- The key of the session a packet comes in, if it is authorised. -/
def State.keyOf (s : State) (p : Packet) : Option (List Byte) :=
  match s.session p.session with
  | some x => x.key
  | none => none

/-- The key of the tag on the reply to a command: AUTH is set, the packet has room for a tag and its session is authorised
(R66). The tag itself may be wrong. -/
def State.tagKey (s : State) (p : Packet) : Option (List Byte) :=
  if p.auth && decide (16 ≤ p.payload.length) then s.keyOf p else none

/-- A tag that must be refused: too short, from a session that is not authorised, or wrong. -/
def State.tagFails (s : State) (p : Packet) (opcode : BitVec 16) : Bool :=
  p.auth &&
    (decide (p.payload.length < 16) ||
      (match s.keyOf p with
       | some k => cmac k (p.signed opcode) != p.payload.drop (p.payload.length - 16)
       | none => true))

/-! ## Commands for a forager (R73, R356, R357) -/

/-- The references of a payload that name node `n`, with their node fields set to `m`. -/
def renode (l : List (Nat × Nat)) (n m : Nat) (d : List Byte) : List Byte :=
  l.foldl (fun d e => if e.2 / 8192 = n then overlay d e.1 (le 2 (8192 * m + e.2 % 8192)) else d) d

/-- A command goes on to node `n` and its reply is awaited. -/
def State.sendOn (s : State) (n : Nat) (p : Packet) (opcode : BitVec 16) (key : Option (List Byte)) (packet : List Byte) :
    State :=
  let trusted := (s.keyOf p).isSome && (s.peer n).oemHash == s.oemHash
  let body := le 2 p.session.toNat ++ le 2 p.seq.toNat ++ [if trusted then 1 else 0, 0, 0, 0] ++ packet
  let h : Held := {
    session := p.session
    seq := p.seq
    opcode := opcode
    key := key
    node := n
    deadline := s.tick + s.cfg P.LINK_REPLY_TICKS 0 }
  let s := (s.sendPeer n 0x30 body).modHost (fun x => { x with line := x.line ++ [h] })
  s.modSession p.session (fun x => { x with cached := none, awaits := true })

/-- The index of the first handle of a command that no module has: one with a reserved bit set, or 0xFFFF (R18). -/
def badHandle (opcode : Nat) (d : List Byte) : Option Nat :=
  if opcode = 0x0201 ∨ (0x0202 ≤ opcode ∧ opcode ≤ 0x0208) ∨ (0x0503 ≤ opcode ∧ opcode ≤ 0x0506) then
    firstFailing (fun (e : Nat × Nat) => e.2 / 1024 % 8 == 0) (namedRefs opcode d)
  else none

/-- The node that a command's references name, if it is not this module (R73): `none` for a local command; an offset for
references to several nodes. -/
def foreignNode (opcode : Nat) (d : List Byte) : Except Nat (Option Nat) :=
  let refs := namedRefs opcode d
  match mixedNodes refs with
  | some o => .error o
  | none =>
    match refs with
    | [] => .ok none
    | (_, r) :: _ => .ok (if r / 8192 = 0 then none else some (r / 8192))

/-- A joined forager. -/
def State.nodeJoined (s : State) (n : Nat) : Bool := s.queen && n != 0 && (s.peer n).state == 3

/-- The answer to a command for node `n` that cannot go on. A module that is no queen knows no other node: INVALID_INSTANCE
(R18), not the NODE_UNREACHABLE that R73 has a queen answer (DESIGN CHOICE, log entry 35). -/
def State.foreignAnswer (s : State) (n : Nat) : Answer := if s.queen then refuse stNodeUnreachable n else refuse stInvalid 0

/-- The packet inside a NODE_FORWARD as it goes on to node `n`, or where it is no whole command packet (R357). -/
def innerPacket (n : Nat) (b : List Byte) : Except Nat (List Byte) :=
  let len := field b 8 2
  let auth := bit (field b 3 1) 5
  if field b 0 1 ≠ 0xB7 then .error 4
  else if field b 1 1 ≠ 0x4D then .error 5
  else if b.length ≠ 20 + len ∨ (auth ∧ len < 16) then .error 12
  else if !crcOkAt b (16 + len) then .error (20 + len)
  else
    let opcode := field b 6 2
    let d := bytesAt b 16 (if auth then len - 16 else len)
    .ok (commandPacket (if auth then field b 3 1 - 32 else field b 3 1) (BitVec.ofNat 16 (field b 10 2))
      (BitVec.ofNat 16 (field b 4 2)) (BitVec.ofNat 16 opcode) (field b 12 4) (renode (namedRefs opcode d) n 0 d))

/-- NODE_FORWARD (R357): the packet that goes on and its node, or the refusal. -/
def State.forwardCheck (s : State) (d : List Byte) : Except Answer (Nat × List Byte) :=
  let n := field d 0 1
  if d.length < 24 then .error (refuse stBadLength)
  else
    match (List.range 3).find? (fun i => field d (1 + i) 1 != 0) with
    | some i => .error (refuse stBadPayload (1 + i))
    | none =>
      if !s.queen ∨ n = 0 ∨ 7 < n then .error (refuse stInvalid 0)
      else
        match innerPacket n (d.drop 4) with
        | .error o => .error (refuse stBadPayload (Nat.min 255 o))
        | .ok packet => if s.nodeJoined n then .ok (n, packet) else .error (refuse stNodeUnreachable n)

/-! ## The checks before a command's own meaning -/

/-- The POWER_STATE refusals of R74 and R439: in thermal shutdown and in boot hold. -/
def State.stateBars (s : State) (opcode : Nat) : Option Answer :=
  if answersAlways opcode then none
  else if s.hk.shutdown then some (refuse stPowerState 0x10)
  else if s.boot.hold then some (refuse stPowerState 0x20)
  else none

/-- The refusals that need no look at the payload: a command that the table or the state bars (R57, R64, R68, R74). The spec
gives no order for them: POWER_STATE, BAD_LENGTH, BAD_OPCODE of SET_BAUD, BAD_FLAGS, NOT_AUTHORISED, and after them
TOO_LATE or TOO_FAR, then CALMED (DESIGN CHOICE, log entry 36). -/
def State.formBars (s : State) (r : OpInfo) (etv auth : Bool) (data : List Byte) : Option Answer :=
  match s.stateBars r.code with
  | some a => some a
  | none =>
    if 4096 < data.length then some (refuse stBadLength)
    else if r.code = 0x0009 ∧ !s.host.uart then some (refuse stBadOpcode)
    else if etv ∧ !r.et then some (refuse stBadFlags)
    else if s.needsAuth (s.opClass r) ∧ !auth then some (refuse stNotAuthorised)
    else none

/-- A local command that has passed the checks before: its effective tick, the calm, then its own meaning. `now`: the tick
of acceptance on the clock of its ETICK. -/
def State.runBody (s : State) (r : OpInfo) (body : Body) (c : Ctx) (now : Nat) (etv : Bool) (low : Nat) : Answer × State :=
  match (if r.et then effectiveTick now etv low else .ok now) with
  | .error status => (refuse status, s)
  | .ok e =>
    if r.calm ∧ s.smoker.calmed then (refuse stCalmed, s)
    else
      let own := e + s.tick - now
      body s { c with etick := own }

/-- The effective tick that a reply shows: of a command that has one and was carried out or scheduled (R59). -/
def replyTick (r : OpInfo) (a : Answer) (e : Nat) : Option Nat :=
  if r.et ∧ (a.status = stOk ∨ a.status = stAccepted) then some (a.etick.getD e) else none

/-- The effective tick asked for, for the reply. -/
def wantedTick (r : OpInfo) (now : Nat) (etv : Bool) (low : Nat) : Nat :=
  match (if r.et then effectiveTick now etv low else .ok now) with
  | .ok e => e
  | .error _ => now

/-! ## The whole way of a packet -/

/-- An accepted local command: its meaning, the reply and what follows the reply. A command refused with AUTH_FAILED is
not accepted (R66). -/
def State.execute (s : State) (p : Packet) (r : OpInfo) (body : Body) (after : State → State) : State :=
  let key := s.tagKey p
  let c : Ctx := {
    who := .session p.session
    sid := p.session
    schedSid := p.session
    seq := p.seq
    opcode := BitVec.ofNat 16 r.code
    etick := 0
    etv := p.etv
    auth := p.auth && (s.keyOf p).isSome
    needed := s.needsAuth (s.opClass r)
    data := p.data }
  let x := s.runBody r body c s.tick p.etv p.etick.toNat
  let e := replyTick r x.1 (wantedTick r s.tick p.etv p.etick.toNat)
  let reply := makeReply p.session p.seq (BitVec.ofNat 16 r.code) key e x.1
  if x.1.status = stAuthFailed then x.2.produce reply
  else
    let s := ((x.2.accept p).cacheReply reply).produce reply
    if x.1.status = stOk then after s else s

/-- A packet refused before its own meaning, accepted all the same. -/
def State.refusePacket (s : State) (p : Packet) (opcode : BitVec 16) (a : Answer) : State :=
  let reply := makeReply p.session p.seq opcode (s.tagKey p) none a
  ((s.accept p).cacheReply reply).produce reply

/-- An accepted packet with a known opcode: the tag, the form, commands that go on to a forager, then its own meaning. -/
def State.handle (s : State) (p : Packet) (r : OpInfo) (body : Body) (after : State → State) (again : Bool) : State :=
  let opcode := BitVec.ofNat 16 r.code
  if s.tagFails p opcode then s.produce (makeReply p.session p.seq opcode (s.tagKey p) none (refuse stAuthFailed))
  else
    match s.formBars r p.etv (p.auth && (s.keyOf p).isSome) p.data with
    | some a => s.refusePacket p opcode a
    | none =>
      if r.code = 0x0902 then
        match s.forwardCheck p.data with
        | .error a => s.refusePacket p opcode a
        | .ok (n, packet) =>
          (if again then s.acceptAgain p else s.accept p).sendOn n p opcode (s.tagKey p) packet
      else
      match badHandle r.code p.data with
      | some i => s.refusePacket p opcode (refuse stInvalid i)
      | none =>
      match foreignNode r.code p.data with
      | .error o => s.refusePacket p opcode (refuse stBadPayload (Nat.min 255 o))
      | .ok (some n) =>
        if s.nodeJoined n then
          let d := renode (namedRefs r.code p.data) n 0 p.data
          let key := s.tagKey p
          let s := if again then s.acceptAgain p else s.accept p
          s.sendOn n p opcode key (commandPacket (flagBit p.etv 6) p.session p.seq opcode p.etick.toNat d)
        else s.refusePacket p opcode (s.foreignAnswer n)
      | .ok none => s.execute p r body after

/-- A command packet of opcode `code` arrives. -/
def State.hostCommand (s : State) (p : Packet) (code : Nat) (body : Body) (after : State → State := fun s => s) : State :=
  let a := s.admitPacket p
  if !a.1 then a.2
  else
    let s := a.2
    match opInfo code with
    | none => s
    | some r =>
      match s.arrival p (r.cls != .n) with
      | .ignored => s
      | .refused x => s.produce (makeReply p.session p.seq (BitVec.ofNat 16 code) (s.tagKey p) none x)
      | .again y => (s.acceptAgain p).produce y
      | .onward => s.handle p r body after true
      | .accepted => s.handle p r body after false

/-- A packet whose opcode is in no row of the table: accepted, and answered with BAD_OPCODE (R60, R72), in thermal shutdown
and in boot hold too, where R74 would have POWER_STATE for every opcode (DESIGN CHOICE, log entry 37). -/
def execBadOpcode (opcode : BitVec 16) (p : Packet) (s : State) : Result :=
  if (opInfo opcode.toNat).isSome then .next s
  else
    let a := s.admitPacket p
    if !a.1 then .next a.2
    else
      let s := a.2
      match s.arrival p false with
      | .ignored => .next s
      | .refused x => .next (s.produce (makeReply p.session p.seq opcode (s.tagKey p) none x))
      | .again y => .next ((s.acceptAgain p).produce y)
      | _ =>
        if s.tagFails p opcode then
          .next (s.produce (makeReply p.session p.seq opcode (s.tagKey p) none (refuse stAuthFailed)))
        else .next (s.refusePacket p opcode (refuse stBadOpcode))

end Sys2Proof.Machine
end

