-- ==== Sys2Proof/Machine/HostSession.lean ====
section
/-! DEFINITION. Commands 0x0001 to 0x0012: identity, sessions, authorisation, lock, smoker, causes and events, time, power
state and restart (R54, R61 to R67, R74, R78, R83 to R86, R375, R417, R435, R450). -/

namespace Sys2Proof.Machine

/-! ## PING and IDENTIFY -/

/-- 0 to 64 bytes, echoed. -/
def pingBody : Body := fun s c => if 64 < c.data.length then (refuse stBadLength, s) else (okData c.data, s)

/-- PING. -/
def execPing (p : Packet) (s : State) : Result := .next (s.hostCommand p 0x0001 pingBody)

/-- The reply data of IDENTIFY (Table 15-3). -/
def State.identity (s : State) : List Byte :=
  padTo 16 s.id.orderingCode ++ padTo 16 s.id.serial ++ le 2 s.id.clHighest ++ le 2 (s.cfg P.COMPAT_LEVEL 0) ++
    [if s.id.sg1064 then 1 else 0, if s.id.gradeX then 1 else 0, BitVec.ofNat 8 (slotIndex s.upd.slotB),
      BitVec.ofNat 8 s.nodeNumber] ++ le 4 s.upd.fwVersion ++ le 2 s.id.formatLevel ++ [0, 0]

def identifyBody : Body := exactly 0 (fun s _ => (okData s.identity, s))

/-- IDENTIFY. -/
def execIdentify (p : Packet) (s : State) : Result := .next (s.hostCommand p 0x0002 identifyBody)

/-! ## Sessions (R63) -/

/-- A session opens with an ID that no open session and no waiting command has (log entry 4). -/
def sessionOpenBody : Body := exactly 18 (fun s c =>
  let want := field c.data 16 2
  let idle := if want = 0 then 600 else want
  if idle < 10 ∨ 3600 < idle then (refuse stRange 0, s)
  else if 4 ≤ s.host.sessions.length then (refuse stBusy 1, s)
  else
    let (v, s) := s.drawFree
    let used := s.host.sessions.map (fun x => x.id.toNat) ++ s.sched.map (fun x => x.session.toNat)
    let sid := BitVec.ofNat 16 (freshId v used)
    let x : Session := {
      id := sid
      label := c.data.take 16
      idle := idle
      expect := 1#16
      lastSeq := 0#16
      lastTick := s.tick
      cached := none
      awaits := false
      nonce := none
      key := none }
    (okData (le 2 sid.toNat), s.modHost (fun h => { h with sessions := h.sessions ++ [x] })))

/-- SESSION_OPEN. -/
def execSessionOpen (p : Packet) (s : State) : Result := .next (s.hostCommand p 0x0003 sessionOpenBody)

def sessionCloseBody : Body := exactly 0 (fun s c => (okAns, s.closeSession c.sid false))

/-- SESSION_CLOSE. -/
def execSessionClose (p : Packet) (s : State) : Result := .next (s.hostCommand p 0x0004 sessionCloseBody)

/-! ## Authorisation (R65, R66) -/

def authBeginBody : Body := exactly 0 (fun s c =>
  let (n, s) := s.drawBytes 16
  (okData n, s.modSession c.sid (fun x => { x with nonce := some n })))

/-- AUTH_BEGIN. -/
def execAuthBegin (p : Packet) (s : State) : Result := .next (s.hostCommand p 0x0005 authBeginBody)

/-- The session key that a proof gives, if the proof holds. -/
def State.proveKey (s : State) (sid : BitVec 16) (d : List Byte) : Option (List Byte) :=
  match s.session sid, s.id.oemKey with
  | some x, some oem =>
    match x.nonce with
    | none => none
    | some nm =>
      let qh := d.take 64
      if ecdsaVerify oem (sha256 (nm ++ qh ++ padTo 16 s.id.serial ++ le 2 sid.toNat)) (d.drop 64) then
        (ecdh Config.deviceKey qh).map (fun z => (sha256 (z ++ nm ++ le 2 sid.toNat ++ ascii "SG-HOST")).take 16)
      else none
  | _, _ => none

/-- AUTH_PROVE is barred for 60 s, 61,440 ticks, after three failures in a row. -/
def authProveBody : Body := exactly 128 (fun s c =>
  let barred := match s.host.barUntil with | some b => decide (s.tick < b) | none => false
  if barred then (refuse stAuthFailed 1, s)
  else
    match s.proveKey c.sid c.data with
    | some k =>
      let s := s.modSession c.sid (fun x => { x with key := some k })
      (okAns, s.modHost (fun h => { h with authFails := 0 }))
    | none =>
      let n := s.host.authFails + 1
      (refuse stAuthFailed, s.modHost (fun h => { h with
        authFails := n
        barUntil := if 3 ≤ n then some (s.tick + 61440) else h.barUntil })))

/-- AUTH_PROVE. -/
def execAuthProve (p : Packet) (s : State) : Result := .next (s.hostCommand p 0x0006 authProveBody)

/-! ## Lock (R67) -/

/-- The lock state, kept in flash; without an OEM key it cannot change. -/
def lockBody (on : Bool) : Body := exactly 0 (fun s _ =>
  if s.id.oemKey.isNone then (refuse stNotAuthorised, s) else (okAns, { s with id := { s.id with locked := on } }))

/-- LOCK. -/
def execLock (p : Packet) (s : State) : Result := .next (s.hostCommand p 0x0007 (lockBody true))

/-- UNLOCK. -/
def execUnlock (p : Packet) (s : State) : Result := .next (s.hostCommand p 0x0008 (lockBody false))

/-! ## UART rate (R54) -/

/-- The rates of the UART in bit/s. -/
def baudRates : List Nat := [115200, 230400, 460800, 921600, 1500000, 2000000, 3000000]

/-- SET_BAUD: the new rate applies once the reply has been sent; 2 s without an accepted packet undo it. -/
def setBaudBody : Body := exactly 4 (fun s c =>
  if baudRates.contains (field c.data 0 4) then (okAns, s.modHost (fun h => { h with baudNext := some (field c.data 0 4) }))
  else (refuse stRange 0, s))

/-- SET_BAUD. -/
def execSetBaud (p : Packet) (s : State) : Result := .next (s.hostCommand p 0x0009 setBaudBody)

/-! ## Smoker (R84, R86) -/

def smokerFeedBody : Body := exactly 0 (fun s _ => (okAns, s))

/-- SMOKER_FEED. -/
def execSmokerFeed (p : Packet) (s : State) : Result := .next (s.hostCommand p 0x000A smokerFeedBody)

def smokerClearBody : Body := exactly 0 State.schedule

/-- SMOKER_CLEAR. -/
def execSmokerClear (p : Packet) (s : State) : Result := .next (s.hostCommand p 0x000B smokerClearBody)

/-! ## Causes and events (R78, R83) -/

def irqStatusBody : Body := exactly 0 (fun s _ => (okData (le 4 s.host.cause.toNat ++ le 4 s.irqMask), s))

/-- IRQ_STATUS. -/
def execIrqStatus (p : Packet) (s : State) : Result := .next (s.hostCommand p 0x000C irqStatusBody)

def irqAckBody : Body := exactly 4 (fun s c =>
  (okAns, s.modHost (fun h => { h with cause := h.cause &&& ~~~BitVec.ofNat 32 (field c.data 0 4) })))

/-- IRQ_ACK. -/
def execIrqAck (p : Packet) (s : State) : Result := .next (s.hostCommand p 0x000D irqAckBody)

/-- An event record (Table 02-11). -/
def Event.bytes (e : Event) : List Byte :=
  le 6 e.tick ++ [BitVec.ofNat 8 e.cause, 0] ++ le 2 e.handle ++ le 2 e.code ++ le 4 e.data.toNat

def readEventsBody : Body := exactly 1 (fun s c =>
  let out := s.host.events.take (field c.data 0 1)
  let rest := s.host.events.drop (field c.data 0 1)
  (okData (le 2 s.host.lost ++ le 2 out.length ++ (out.map Event.bytes).flatten),
    s.modHost (fun h => { h with
      events := rest
      lost := 0
      overflowed := h.overflowed && decide (255 ≤ rest.length) })))

/-- READ_EVENTS. -/
def execReadEvents (p : Packet) (s : State) : Result := .next (s.hostCommand p 0x000E readEventsBody)

/-! ## Time (R375) -/

def getTickBody : Body := exactly 0 (fun s _ => (okData (le 6 s.tick ++ leInt 8 (s.tick + s.wallDiff)), s))

/-- GET_TICK. -/
def execGetTick (p : Packet) (s : State) : Result := .next (s.hostCommand p 0x000F getTickBody)

def setWallTimeBody : Body := exactly 8 State.schedule

/-- SET_WALL_TIME. -/
def execSetWallTime (p : Packet) (s : State) : Result := .next (s.hostCommand p 0x0010 setWallTimeBody)

/-! ## Power state and restart (R357, R417, R435) -/

/-- DORMANT is barred while a job of class 0 or 1 has not ended or a generation awaits activation. -/
def State.dormantBarred (s : State) : Bool :=
  s.awaiting.isSome || s.jobs.any (fun j => !j.state.ended && decide (jobClass j.opcode ≤ 1))

def powerStateBody : Body := exactly 1 (fun s c =>
  let target := field c.data 0 1
  if 3 < target then (refuse stRange 0, s)
  else if 2 ≤ target ∧ s.smoker.calmed then (refuse stCalmed, s)
  else if target = 0 ∧ c.who = .link then (refuse stPowerState (powerCode s.power), s)
  else if target = 0 ∧ s.dormantBarred then (refuse stBusy 2, s)
  else s.schedule c)

/-- POWER_STATE. -/
def execPowerState (p : Packet) (s : State) : Result := .next (s.hostCommand p 0x0011 powerStateBody)

/-- In thermal shutdown only once the sites have cooled. -/
def restartBody : Body := exactly 0 (fun s _ =>
  if s.hk.shutdown && !s.hk.cool then (refuse stRange s.hk.thetaDetail, s) else (okAns, s))

/-- RESTART: the reply, then the restart. -/
def execRestart (p : Packet) (s : State) : Result := .next (s.hostCommand p 0x0012 restartBody State.restartLogic)

end Sys2Proof.Machine
end

