-- ==== Sys2Proof/Machine/HostUnits.lean ====
section
/-! DEFINITION. Commands 0x0101 to 0x0305: parameters, units and cells (R18, R20, R21, R23, R27, R31, R32, R34, R38, R75 to
R77, R174, R272, R295, R308, R427, R438, R443, R477). -/

namespace Sys2Proof.Machine

/-! ## Parameters -/

/-- PARAM_READ. -/
def execParamRead (p : Packet) (s : State) : Result := .next (s.hostCommand p 0x0101 paramRead)

/-- PARAM_WRITE. -/
def execParamWrite (p : Packet) (s : State) : Result := .next (s.hostCommand p 0x0102 paramWrite)

/-- PARAM_READ_BLOCK. -/
def execParamReadBlock (p : Packet) (s : State) : Result := .next (s.hostCommand p 0x0103 paramReadBlock)

/-- PARAM_WRITE_BLOCK. -/
def execParamWriteBlock (p : Packet) (s : State) : Result := .next (s.hostCommand p 0x0104 paramWriteBlock)

/-- PRG_GOTO (R308): a PARAM_WRITE of that parameter; the step is entered at the effective tick. -/
def execPrgGoto (p : Packet) (s : State) : Result := .next (s.hostCommand p 0x0102 paramWrite)

/-- CHURN_CLEAR (R295): a PARAM_WRITE of that parameter; the table is cleared at the effective tick. -/
def execChurnClear (p : Packet) (s : State) : Result := .next (s.hostCommand p 0x0102 paramWrite)

/-- BOOT_RETRY (R438): a PARAM_WRITE of that parameter; the marks of the journal are taken up again at the next start. -/
def execBootRetry (p : Packet) (s : State) : Result := .next (s.hostCommand p 0x0102 paramWrite)

/-! ## Units -/

/-- UNIT_STATUS: status words as they stand; the read clears two flags of each unit. A handle with another node or a
reserved bit, or of a channel the part lacks (DEDUCED, log entry 32), is refused with its index. -/
def unitStatusBody : Body := listForm 255 (fun hs s _ =>
  match firstFailing s.slotExists hs with
  | some i => (refuse stInvalid i, s)
  | none => (okData ((hs.map (fun h => le 4 (s.statusWord h))).flatten), hs.foldl State.clearReadFlags s))

/-- UNIT_STATUS. -/
def execUnitStatus (p : Packet) (s : State) : Result := .next (s.hostCommand p 0x0201 unitStatusBody)

/-- A start, stop or clear fault of the root hive that has been accepted goes on to the grafted root hives for the same
boundary (R29, R30). -/
def State.actOnGrafts (s : State) (c : Ctx) : State :=
  let code := c.opcode.toNat
  if code = 0x0202 ∨ code = 0x0203 ∨ code = 0x0206 then
    (s.nodesActed code).foldl (fun s n =>
      s.actOnNode c.sid c.seq code (c.auth && (s.peer n).oemHash == s.oemHash) (some c.etick) n) s
  else s

/-- A command of 2 bytes that schedules an action on a unit; a check of the unit comes first. -/
def unitAction (bar : State → Nat → Option Answer) : Body := exactly 2 (fun s c =>
  let h := field c.data 0 2
  if !s.goodHandle h then (refuse stInvalid 0, s)
  else
    match bar s h with
    | some a => (a, s)
    | none =>
      let r := s.schedule c
      (r.1, if h = 0 then r.2.actOnGrafts c else r.2))

/-- The housekeeping unit cannot be started, stopped or cleared (R427). -/
def barHousekeeping (s : State) (h : Nat) : Option Answer :=
  if h = hkSlot then some (refuse stState (s.view.unit h).st.code) else none

/-- A unit whose kind or face has no operator mode (R21). -/
def barMode (s : State) (h : Nat) : Option Answer :=
  if modeSlot s.content h then none else some (refuse stInvalid 0)

/-- A comb line unit is not started while it is enumerated (R254), the housekeeping unit never. -/
def barStart (s : State) (h : Nat) : Option Answer :=
  if slotKind h = 0x08 ∧ (s.fcomb (slotInst h)).enumerating then some (refuse stState (s.view.unit h).st.code)
  else barHousekeeping s h

def unitStartBody : Body := unitAction barStart

/-- UNIT_START. -/
def execUnitStart (p : Packet) (s : State) : Result := .next (s.hostCommand p 0x0202 unitStartBody)

/-- UNIT_STOP. -/
def execUnitStop (p : Packet) (s : State) : Result := .next (s.hostCommand p 0x0203 (unitAction barHousekeeping))

/-- UNIT_MANUAL. -/
def execUnitManual (p : Packet) (s : State) : Result := .next (s.hostCommand p 0x0204 (unitAction barMode))

/-- UNIT_AUTO. -/
def execUnitAuto (p : Packet) (s : State) : Result := .next (s.hostCommand p 0x0205 (unitAction barMode))

/-- UNIT_CLEAR_FAULT. -/
def execUnitClearFault (p : Packet) (s : State) : Result := .next (s.hostCommand p 0x0206 (unitAction barHousekeeping))

/-- The unit behind a hive's operator mode, through hives that are members themselves; `k` bounds their depth (R27). -/
def modeTarget (c : Content) : Nat → Nat → Option Nat
  | 0, _ => none
  | k + 1, slot =>
    if isHive slot then
      match boundTo c (hiveNumber slot) modeItem with
      | some b => modeTarget c k (b.1 % 1024)
      | none => none
    else some slot

/-- UNIT_SET_MANUAL_VALUE (R272, R308): 8 bytes of which four are 0, finite, for a unit in MANUAL. -/
def setManualBody : Body := exactly 10 (fun s c =>
  let h := field c.data 0 2
  if !s.goodHandle h then (refuse stInvalid 0, s)
  else if !modeSlot s.content h then (refuse stInvalid 0, s)
  else
    match modeTarget s.content 257 h with
    | none => (refuse stInvalid 0, s)
    | some u =>
      if !hasMode (slotKind u) ∨ slotKind u = 0x09 then (refuse stInvalid 0, s)
      else
        match firstSet c.data 6 4 with
        | some o => (refuse stBadPayload o, s)
        | none =>
          if !fFinite (BitVec.ofNat 32 (field c.data 2 4)) then (refuse stRange 0, s)
          else
            let st := (s.view.unit u).st
            if st ≠ .manual then (refuse stState st.code, s) else s.schedule c)

/-- UNIT_SET_MANUAL_VALUE. -/
def execUnitSetManualValue (p : Packet) (s : State) : Result := .next (s.hostCommand p 0x0207 setManualBody)

/-- CHANNEL_SERVICE (R174): a channel handle and 0 or 1. -/
def channelServiceBody : Body := exactly 3 (ofKind 0x03 0 (fun _ s c =>
  if 1 < field c.data 2 1 then (refuse stRange 0, s) else s.schedule c))

/-- CHANNEL_SERVICE. -/
def execChannelService (p : Packet) (s : State) : Result := .next (s.hostCommand p 0x0208 channelServiceBody)

/-- Kind and state of a slot, 0 and 0 for a vacant one. -/
def State.listEntry (s : State) (slot : Nat) : List Byte :=
  if s.has slot then [BitVec.ofNat 8 (headerOf s.content slot).kind, BitVec.ofNat 8 (s.view.unit slot).st.code]
  else [0, 0]

/-- UNIT_LIST (R477). -/
def unitListBody : Body := exactly 2 (fun s c =>
  let first := field c.data 0 2
  if 1023 < first then (refuse stRange 0, s)
  else
    let n := Nat.min 1000 (1024 - first)
    (okData (le 2 first ++ le 2 n ++ ((List.range n).map (fun i => s.listEntry (first + i))).flatten), s))

/-- UNIT_LIST. -/
def execUnitList (p : Packet) (s : State) : Result := .next (s.hostCommand p 0x0209 unitListBody)

/-! ## Cells -/

/-- A cell of this module. -/
def ownCell (ref : Nat) : Bool := decide (ref < 8192)

/-- A cell of this module that a unit or the host writes; the null cells have no writer. -/
def State.written (s : State) (ref : Nat) : Bool := ownCell ref && (cellWriters s.content).any (fun w => w.1 == ref)

/-- CELL_READ (R77): each cell with its quality judged at the tick of reply. -/
def cellReadBody : Body := listForm 127 (fun refs s _ =>
  match firstFailing ownCell refs with
  | some i => (refuse stInvalid i, s)
  | none => (okData ((refs.map (s.cellBytes s.tick)).flatten), s))

/-- CELL_READ. -/
def execCellRead (p : Packet) (s : State) : Result := .next (s.hostCommand p 0x0301 cellReadBody)

/-- Bytes of a value of a TYPE that are used. -/
def usedBytes (type : Nat) : Nat := if type < 3 then 4 else 8

/-- The check of entry `i` of a CELL_WRITE (R77). -/
def State.checkCell (s : State) (hosts : List Nat) (d : List Byte) (i : Nat) : Option Answer :=
  let off := 1 + 12 * i
  let ref := field d off 2
  let type := field d (off + 2) 1
  let place (o : Nat) : Nat := Nat.min 255 (off + o)
  if !hosts.contains ref then some (refuse stReadOnly (Nat.min 255 i))
  else if type ≠ scalarOf s.content P.CELL_HOST_TYPE ref then some (refuse stBadPayload (place 2))
  else if field d (off + 3) 1 ≠ 0 then some (refuse stBadPayload (place 3))
  else (firstSet d (off + 4 + usedBytes type) (8 - usedBytes type)).map (fun o => refuse stBadPayload o)

/-- CELL_WRITE (R77): all entries or none, at the effective tick. -/
def cellWriteBody : Body := fun s c =>
  match c.data with
  | [] => (refuse stBadLength, s)
  | b :: _ =>
    let n := b.toNat
    if n = 0 then (refuse stBadPayload 0, s)
    else if c.data.length ≠ 1 + 12 * n then (refuse stBadLength, s)
    else
      match (List.range n).findSome? (s.checkCell (hostCells s.content) c.data) with
      | some a => (a, s)
      | none => s.schedule c

/-- CELL_WRITE. -/
def execCellWrite (p : Packet) (s : State) : Result := .next (s.hostCommand p 0x0302 cellWriteBody)

/-- CELL_FORCE (R38): a cell with a writer, a TYPE of Table 01-6 and a value without unused bytes. -/
def cellForceBody : Body := exactly 11 (fun s c =>
  let type := field c.data 2 1
  if !s.written (field c.data 0 2) then (refuse stInvalid 0, s)
  else if 4 < type then (refuse stRange 0, s)
  else
    match firstSet c.data (3 + usedBytes type) (8 - usedBytes type) with
    | some o => (refuse stBadPayload o, s)
    | none => s.schedule c)

/-- CELL_FORCE. -/
def execCellForce (p : Packet) (s : State) : Result := .next (s.hostCommand p 0x0303 cellForceBody)

/-- CELL_RELEASE (R38). -/
def cellReleaseBody : Body := exactly 2 (fun s c =>
  if s.written (field c.data 0 2) then s.schedule c else (refuse stInvalid 0, s))

/-- CELL_RELEASE. -/
def execCellRelease (p : Packet) (s : State) : Result := .next (s.hostCommand p 0x0304 cellReleaseBody)

/-- CELL_RESET_EXTREMES (R34). -/
def cellResetBody : Body := listForm 255 (fun refs s c =>
  match firstFailing s.written refs with
  | some i => (refuse stInvalid i, s)
  | none => s.schedule c)

/-- CELL_RESET_EXTREMES. -/
def execCellResetExtremes (p : Packet) (s : State) : Result := .next (s.hostCommand p 0x0305 cellResetBody)

end Sys2Proof.Machine
end

