-- ==== Sys2Proof/Machine/HostCfg.lean ====
section
/-! DEFINITION. Commands 0x0401 to 0x0502: configuration generations, the diagnostic page of a bank and its stamp FIFO (R4,
R76, R82, R144, R156, R157, R379 to R382, R384). -/

namespace Sys2Proof.Machine

/-! ## Jobs that commands start (R79) -/

/-- A job created for the sender, and the runner called. -/
def State.startJob (s : State) (c : Ctx) (f : Job → Job := fun j => j) : Answer × State :=
  let r := s.newJob c f
  (r.1, if r.1.status = stAccepted then r.2.dispatchJobs else r.2)

/-! ## Generations (R76, R379 to R382) -/

/-- CFG_BEGIN: the active content copied into the session's pending generation, unless another session holds one. -/
def cfgBeginBody : Body := exactly 0 (fun s c =>
  let other := match s.pendGen with | some p => p.holder != c.sid | none => false
  if other then (refuse stBusy 4, s)
  else (okAns, { s with pendGen := some ⟨c.sid, s.activeGen, s.content⟩ }))

/-- CFG_BEGIN. -/
def execCfgBegin (p : Packet) (s : State) : Result := .next (s.hostCommand p 0x0401 cfgBeginBody)

/-- The effective tick that a commit or revert asks for (R82). -/
def Job.asking (j : Job) (c : Ctx) : Job := { j with wanted := c.etick, wantedSet := c.etv }

/-- CFG_COMMIT from the holder of the pending generation. -/
def cfgCommitBody : Body := exactly 0 (fun s c =>
  if s.holdsPending c.sid then s.startJob c (fun j => j.asking c) else (refuse stBusy 4, s))

/-- CFG_COMMIT. -/
def execCfgCommit (p : Packet) (s : State) : Result := .next (s.hostCommand p 0x0402 cfgCommitBody)

/-- CFG_REVERT needs no pending generation. -/
def cfgRevertBody : Body := exactly 0 (fun s c => s.startJob c (fun j => j.asking c))

/-- CFG_REVERT. -/
def execCfgRevert (p : Packet) (s : State) : Result := .next (s.hostCommand p 0x0403 cfgRevertBody)

/-- CFG_VALIDATION_DONE: the running commit or revert of handle `job` has been validated. -/
def execCfgValidationDone (job : Nat) (s : State) : Result :=
  match s.job job with
  | none => .next s
  | some j => .next (if j.change then s.completeJob job j.opcode.toNat State.validationDone else s)

def cfgListBody : Body := exactly 0 (fun s _ => (okData s.cfgListBytes, s))

/-- CFG_LIST. -/
def execCfgList (p : Packet) (s : State) : Result := .next (s.hostCommand p 0x0404 cfgListBody)

def cfgDiscardBody : Body := exactly 0 (fun s c => (okAns, s.dropPending (some c.sid)))

/-- CFG_DISCARD. -/
def execCfgDiscard (p : Packet) (s : State) : Result := .next (s.hostCommand p 0x0405 cfgDiscardBody)

/-- CFG_EXPORT_SUCCESSION: a target serial number, or zeros. -/
def cfgExportBody : Body := exactly 16 (fun s c => s.startJob c)

/-- CFG_EXPORT_SUCCESSION. -/
def execCfgExportSuccession (p : Packet) (s : State) : Result := .next (s.hostCommand p 0x0406 cfgExportBody)

/-- A chunk in the framing of R124: flags, 3 reserved bytes, an offset and data, within an area of `size` bytes. -/
def chunkBody (size : Nat) : Body := fun s c =>
  if c.data.length < 8 then (refuse stBadLength, s)
  else if 3 < field c.data 0 1 then (refuse stBadPayload 0, s)
  else
    match firstSet c.data 1 3 with
    | some o => (refuse stBadPayload o, s)
    | none =>
      if size < field c.data 4 4 + (c.data.length - 8) then (refuse stRange 0, s) else s.startJob c

/-- The greatest bundle: header, content, certificate and signature (Table 12-9). -/
def bundleMax : Nat := 128 + 196608 + 65535 + 64

/-- CFG_IMPORT_SUCCESSION. -/
def execCfgImportSuccession (p : Packet) (s : State) : Result := .next (s.hostCommand p 0x0407 (chunkBody bundleMax))

/-! ## The diagnostic page of a bank (R144, Tables 04-5 to 04-7) -/

/-- The page of a bank as its field side holds it. -/
def State.diagPage (s : State) (b : Nat) : List Byte :=
  let k := s.bank b
  let chs := bankChannels b
  let code (ch : Nat) : Nat :=
    let u := s.view.unit (chanSlot ch)
    if s.has (chanSlot ch) ∧ u.st.held then u.faultCode else 0
  [BitVec.ofNat 8 b, BitVec.ofNat 8 k.state.code] ++
    le 2 (((k.flags &&& 0xFFFE#16).toNat) + flagBit (s.commonFault b) 0) ++ le 2 k.vfld ++ le 2 k.vfldMin ++
    le 2 k.guardTime ++ le 2 k.guardTrips ++ le 4 k.crcErrors ++ le 4 k.retries ++ le 4 k.lateSamples ++
    le 4 k.lostField ++ le 4 k.lostFifo ++ le 2 k.fifo.length ++ le 2 k.fifoHigh ++ le 2 k.uvloEvents ++
    le 2 k.lowEvents ++ chs.map (fun ch => BitVec.ofNat 8 (s.mode ch)) ++ chs.map (fun ch => BitVec.ofNat 8 (code ch)) ++
    (chs.map (fun ch => le 2 (s.fch ch).flags.toNat)).flatten ++ chs.map (fun ch => BitVec.ofNat 8 (s.fch ch).partner) ++
    le 2 k.lastEvent.1 ++ le 6 k.lastEvent.2 ++ [BitVec.ofNat 8 k.restarts] ++ List.replicate 7 0

/-- A channel's flags after a read: those whose condition is gone are cleared. -/
def FieldChan.afterRead (f : FieldChan) : FieldChan :=
  { f with
    flags := f.flags &&& f.present
    partner := if f.present.getLsbD 4 then f.partner else 0xFF }

/-- What a read leaves of a bank: latched flags whose condition is gone are cleared, the extremes start again. -/
def State.diagRead (s : State) (b : Nat) : State :=
  let s := (bankChannels b).foldl (fun s ch => s.setFch ch (s.fch ch).afterRead) s
  let k := s.bank b
  s.setBank b { k with
    flags := k.flags &&& k.present
    vfldMin := k.vfld
    fifoHigh := k.fifo.length }

/-- A bank of the fitted part, or INVALID_INSTANCE (R4). -/
def ofBank (f : Nat → Body) : Body := fun s c =>
  let b := field c.data 0 1
  if b < s.bankCount then f b s c else (refuse stInvalid 0, s)

def bankDiagBody : Body := exactly 1 (ofBank (fun b s _ => (okData (s.diagPage b), s.diagRead b)))

/-- BANK_DIAG_READ. -/
def execBankDiagRead (p : Packet) (s : State) : Result := .next (s.hostCommand p 0x0501 bankDiagBody)

/-- A FIFO entry in its 12 bytes (Table 04-10). -/
def FifoEntry.bytes (e : FifoEntry) : List Byte :=
  le 2 e.fine ++ le 6 e.tick ++ [e.channel, BitVec.ofNat 8 e.kind] ++ le 2 e.count

/-- STAMP_FIFO_READ (R157): the oldest entries leave the FIFO. -/
def stampFifoBody : Body := exactly 2 (ofBank (fun b s c =>
  let n := field c.data 1 1
  if n = 0 then (refuse stRange 0, s)
  else
    let k := s.bank b
    let out := k.fifo.take n
    let rest := k.fifo.drop n
    (okData (le 2 rest.length ++ le 2 out.length ++ (out.map FifoEntry.bytes).flatten), s.setBank b { k with fifo := rest })))

/-- STAMP_FIFO_READ. -/
def execStampFifoRead (p : Packet) (s : State) : Result := .next (s.hostCommand p 0x0502 stampFifoBody)

end Sys2Proof.Machine
end

