-- ==== Sys2Proof/Machine/HostJobs.lean ====
section
/-! DEFINITION. Jobs: calibrations and enumeration, the commands that query and steer jobs, checkpoints, and the cancel of
a scheduled command (R69, R79 to R82, R196 to R201, R223 to R225, R234, R253 to R255). -/

namespace Sys2Proof.Machine

/-! ## CAL_RUN (R200, Table 05-12) -/

/-- CAL_RUN: a channel unit, an action, a path, a reference and a count. -/
def calRunBody : Body := exactly 12 (ofKind 0x03 0 (fun _ => reserved 10 2 (fun s c =>
  let d := c.data
  let n := field d 8 2
  if 2 < field d 2 1 ∨ 2 < field d 3 1 ∨ !fFinite (BitVec.ofNat 32 (field d 4 4)) ∨ n < 16 ∨ 16384 < n then
    (refuse stRange 0, s)
  else s.startJob c)))

/-- CAL_RUN. -/
def execCalRun (p : Packet) (s : State) : Result := .next (s.hostCommand p 0x0503 calRunBody)

/-- The mean of codes in binary64. -/
def meanCode (l : List F64) : F64 :=
  match l with
  | [] => 0
  | a :: t => ddiv (t.foldl dadd a) (dOfInt l.length)

/-- REFERENCE as the quantity of the codes: in RES the voltage that the nominal current gives, with the lead of the 2-wire
form (Table 05-9). -/
def State.calReference (s : State) (ch : Nat) (r : F32) : F64 :=
  if s.mode ch = 9 then
    let lead := if (resMembers s.content ch).length = 1 then toF64 (s.cfgF P.RES_LEAD_OHM ch) else 0
    ddiv (dmul (dadd (toF64 r) lead) (dOfInt (s.run P.EXC_CURRENT ch))) (dOfInt 32000000)
  else toF64 r

/-- The offset that makes the mean equal the reference, if it is at most 0.5 % of full scale. -/
def newOffset (mean ref lsb : F64) (gain : F32) : Option Int :=
  let o := dsub mean (ddiv ref (dmul (toF64 gain) lsb))
  if dFinite o ∧ (drne o).natAbs * 1000 ≤ 5 * 2 ^ 23 then some (drne o) else none

/-- The gain that makes the mean equal the reference after the offset, if it lies within 0.98 to 1.02. -/
def newGain (mean ref lsb : F64) (offset : Int) : Option F32 :=
  let g := toF32 (ddiv ref (dmul (dsub mean (dOfInt offset)) lsb))
  if fle (fRat 98 100) g && fle g (fRat 102 100) then some g else none

/-- The offset that a difference of members' codes carries (Table 05-9). -/
def sumOffset (f : CalRec → Int) (l : List CalRec) : Int :=
  match l with
  | [a] => f a
  | [a, b] => f a - f b
  | [_, b, c] => f b - f c
  | _ => 0

/-- The records with one path changed. `pick` chooses the path's code, `off` and `gain` read its items. -/
def calPath (action : Nat) (ref lsb : F64) (codes : List F64) (off : CalRec → Int) (gain : CalRec → F32)
    (setOff : CalRec → Int → CalRec) (setGain : CalRec → F32 → CalRec) (l : List CalRec) : Option (List CalRec) :=
  let mean := meanCode codes
  if action = 0 then
    (newOffset mean ref lsb ((l.map gain).headD 0)).map (fun o => l.map (fun r => setOff r o))
  else (newGain mean ref lsb (sumOffset off l)).map (fun g => l.map (fun r => setGain r g))

/-- The records with the coarse path changed. -/
def calCoarse (action : Nat) (ref lsb : F64) (convs : List CalConv) : List CalRec → Option (List CalRec) :=
  calPath action ref lsb (convs.map (·.coarse)) (·.coarseOffset) (·.coarseGain)
    (fun r o => { r with coarseOffset := o }) (fun r g => { r with coarseGain := g })

/-- The records with the fine path changed. -/
def calFine (action : Nat) (ref lsb : F64) (convs : List CalConv) : List CalRec → Option (List CalRec) :=
  calPath action ref lsb (convs.map (·.fine)) (·.fineOffset) (·.fineGain)
    (fun r o => { r with fineOffset := o }) (fun r g => { r with fineGain := g })

/-- The new records of the members from the present ones, under the load class and band of the collection. -/
def State.calRecords (s : State) (ch group action path : Nat) (tags : Nat × Nat) (r : F32) (convs : List CalConv) :
    Option (List CalRec) :=
  let now := (s.calMembers ch).map (fun m => s.calInUse m (s.fch m).calNow (s.fch m).tagsNow)
  let tagged := now.map (fun r => { r with
    group := group
    loadClass := tags.1
    band := tags.2
    tick := s.tick })
  let k := pathConst (if s.mode ch = 6 ∨ s.mode ch = 7 then 6 else 5)
  let ref := s.calReference ch r
  let fine := path != 1 && decide (group < 3)
  let coarse := if path = 2 then some tagged else calCoarse action ref (toF64 k.lsbC) convs tagged
  match coarse with
  | none => none
  | some l => if fine then calFine action ref (toF64 k.lsbF) convs l else some l

/-- Whether a channel has a place for a record. -/
def FieldChan.hasPlace (f : FieldChan) (r : CalRec) : Bool :=
  ((placeRec ((f.newRecs.map (·.2)).foldl placeRec f.fieldRecs) r).map (·.2)).contains r

/-- Every field record of a group deleted. -/
def FieldChan.deleteGroup (f : FieldChan) (g : Nat) : FieldChan :=
  { f with
    fieldRecs := f.fieldRecs.filter (fun e => e.2.group != g)
    newRecs := f.newRecs.filter (fun e => e.2.group != g) }

/-- What a collection does, or STATUS and DETAIL of its failure (R200); nothing while values are still to come. -/
def State.calOutcome (s : State) (j : Job) : Except (Nat × Nat) (Option State) :=
  let d := j.args
  let ch := slotInst (field d 0 2)
  let action := field d 2 1
  let path := field d 3 1
  let members := s.calMembers ch
  match members.find? (fun m => (s.view.unit (chanSlot m)).st != .active) with
  | some m => .error (stState, (s.view.unit (chanSlot m)).st.code)
  | none =>
    match calGroup (s.mode ch) with
    | none => .error (stInvalid, 0)
    | some g =>
      if !s.calAllowed ch action path then .error (stInvalid, 0)
      else if action = 2 then .ok (some (members.foldl (fun s m => s.setFch m ((s.fch m).deleteGroup g)) s))
      else
        match j.bar with
        | some e => .error e
        | none =>
          if j.coll.length < field d 8 2 then .ok none
          else
            let convs := j.coll.take (field d 8 2)
            match s.calRecords ch g action path (j.tags.getD (0, 0xFF)) (BitVec.ofNat 32 (field d 4 4)) convs with
            | none => .error (stRange, 1)
            | some l =>
              let placed := members.zip l
              if placed.any (fun e => !(s.fch e.1).hasPlace e.2) then .error (stRange, 3)
              else .ok (some (placed.foldl (fun s e =>
                s.setFch e.1 { s.fch e.1 with newRecs := (s.fch e.1).newRecs ++ [(s.tick + 2, e.2)] }) s))

/-- A job of class 2 ends with what its collection gave. -/
def State.endWith (s : State) (j : Job) (r : Except (Nat × Nat) (Option State)) : State :=
  match r with
  | .ok none => s
  | .ok (some s) => s.endJob j.handle .done stOk 0 []
  | .error e => s.endJob j.handle .failed e.1 e.2 []

/-- The unit that job `h` works on, by the first field of its payload. -/
def State.jobUnit (s : State) (h : Nat) : Option Nat := (s.job h).map (fun j => field j.args 0 2 % 1024)

/-- CAL_RUN_DONE: the collection of job `job` has the conversions asked for or has failed, or it deletes. The row names the
channel unit and the ACTION of the job; of another unit or action it changes nothing. -/
def execCalRunDone (job : Nat) (unit : Fin 1024) (action : Fin 3) (s : State) : Result :=
  .next (if s.jobUnit job = some unit.val ∧ (s.job job).map (fun j => field j.args 2 1) = some action.val then
    s.completeJob job 0x0503 (fun s j => s.endWith j (s.calOutcome j))
  else s)

/-! ## PROBE_CAL (R225, Table 06-3) -/

/-- PROBE_CAL: a probe unit, a standard and a number of sweeps. -/
def probeCalBody : Body := exactly 8 (ofKind 0x07 0 (fun _ => reserved 4 4 (fun s c =>
  let n := field c.data 3 1
  if 3 < field c.data 2 1 ∨ n = 0 ∨ 64 < n then (refuse stRange 0, s) else s.startJob c)))

/-- PROBE_CAL. -/
def execProbeCal (p : Packet) (s : State) : Result := .next (s.hostCommand p 0x0504 probeCalBody)

/-- DELETE_SET: the set that matches the present tags, or an empty one; a probe left without a complete set is UNCALIBRATED
(Table 06-6). With neither the job fails (R225). -/
def State.deleteSet (s : State) (p : Nat) : Except (Nat × Nat) (Option State) :=
  let ch := s.probeDrive p
  let f := s.fprobe p
  let lc := (s.bank (ch / 8)).loadClass
  match calTarget f.sets (s.cfg P.DIEL_AMPLITUDE p) lc with
  | none => .error (stRange, 3)
  | some n =>
    let s := s.setFprobe p { f with sets := Tab.put {} f.sets n {} }
    .ok (some (if s.probeReady p then s else s.detectNow (probeSlot p) 0x01))

/-- The first unit that is not in the state a probe calibration needs. -/
def State.probeCalBar (s : State) (p : Nat) : Option Nat :=
  let st (slot : Nat) : UState := (s.view.unit slot).st
  if st (probeSlot p) ≠ .stopped then some (st (probeSlot p)).code
  else
    let ch := s.probeDrive p
    ([chanSlot ch, chanSlot (ch + 1)].find? (fun u => st u != .active)).map (fun u => (st u).code)

/-- What the collected sweeps give. -/
def State.probeCalOutcome (s : State) (j : Job) (sweeps : List RawSweep) : Except (Nat × Nat) (Option State) :=
  let p := slotInst (field j.args 0 2)
  match s.probeCalBar p with
  | some code => .error (stState, code)
  | none =>
    if field j.args 2 1 = 3 then s.deleteSet p
    else if sweeps.length < field j.args 3 1 ∧ !sweeps.any (·.bad) then .ok none
    else
      match calSetResult (s.fprobe p).sets (s.probePlan p) (field j.args 2 1) s.tick
          (sweeps.take (field j.args 3 1)) with
      | .error e => .error e
      | .ok r => .ok (some (s.setFprobe p { s.fprobe p with sets := Tab.put {} (s.fprobe p).sets r.1 r.2 }))

/-- PROBE_CAL_DONE: the sweeps that job `job` asked for have been collected, or a set is deleted. -/
def execProbeCalDone (job : Nat) (sweeps : List RawSweep) (s : State) : Result :=
  .next (s.completeJob job 0x0504 (fun s j => s.endWith j (s.probeCalOutcome j sweeps)))

/-! ## COMB_ENUMERATE (R254) -/

/-- COMB_ENUMERATE: a comb line unit. -/
def combEnumerateBody : Body := exactly 4 (ofKind 0x08 0 (fun _ => reserved 2 2 (fun s c => s.startJob c)))

/-- COMB_ENUMERATE. -/
def execCombEnumerate (p : Packet) (s : State) : Result := .next (s.hostCommand p 0x0505 combEnumerateBody)

/-- What the search of the ID space gives, from the answers of the line: the found map, kept beside the stored one, and
COMB_MAP when they differ (R255); nothing while frames are still to be answered. -/
def State.enumerateOutcome (s : State) (l : Nat) (answers : List (List ReadSlot)) : Except (Nat × Nat) (Option State) :=
  let e := EnumRun.run {} answers
  if (s.fcomb l).enumFault then .error (stState, 6)
  else
    match s.enumerateBar l with
    | some code => .error (stState, code)
    | none =>
      match e.ask with
      | .failed => .error (stRange, 2)
      | .finished =>
        match foundMap (s.nodeMap l) e.found with
        | none => .error (stRange, 1)
        | some m =>
          let s := s.setFcomb l { s.fcomb l with found := some (mapBytes m), startDue := true }
          .ok (some (if mapDiffers (s.nodeMap l) m then s.raise causeCombMap (combSlot l) l (256 * 4 + 0xFF) else s))
      | _ => .ok none

/-- COMB_ENUMERATE_DONE: the line of the job has answered the frames of the search; of another line it changes nothing. -/
def execCombEnumerateDone (job : Nat) (line : Fin 64) (answers : List (List ReadSlot)) (s : State) : Result :=
  .next (if s.jobUnit job = some (combSlot line.val) then
    s.completeJob job 0x0505 (fun s j =>
      match s.enumerateOutcome line.val answers with
      | .ok none => s
      | r => (s.setEnumerating j false).endWith j
          (match r with | .ok (some t) => .ok (some (t.setEnumerating j false)) | r => r))
  else s)

/-- COMB_NODEMAP_READ: the stored or the found map; an empty one where none has been found. -/
def combNodemapBody : Body := exactly 4 (ofKind 0x08 0 (fun l => reserved 3 1 (fun s c =>
  match field c.data 2 1 with
  | 0 => (okData (padTo 580 (s.cfgBlock P.COMB_NODEMAP l)), s)
  | 1 => (okData (padTo 580 ((s.fcomb l).found.getD [])), s)
  | _ => (refuse stRange 0, s))))

/-- COMB_NODEMAP_READ. -/
def execCombNodemapRead (p : Packet) (s : State) : Result := .next (s.hostCommand p 0x0506 combNodemapBody)

/-! ## Jobs as the host sees them (R79 to R82) -/

/-- A command for a job of the sender, or JOB_UNKNOWN. -/
def onJob (f : Job → Body) : Body := exactly 2 (fun s c =>
  match s.job (field c.data 0 2) with
  | none => (refuse stJobUnknown 0, s)
  | some j => if j.session = some c.sid then f j s c else (refuse stJobUnknown 0, s))

/-- Jobs whose data is returned part by part while they run (R122, R372, R384). -/
def Job.reads (j : Job) : Bool := j.opcode == 0x0602#16 || j.opcode == 0x0704#16 || j.opcode == 0x0406#16

/-- JOB_STATUS reply data (Table 02-14). The last part of a read comes with DONE. -/
def Job.report (j : Job) (data : List Byte) : List Byte :=
  let e := j.etick.getD 0
  le 2 j.opcode.toNat ++ [BitVec.ofNat 8 j.state.code, j.status, j.detail, 0] ++ le 2 j.progress ++ le 4 (e % 2 ^ 32) ++
    le 2 (e / 2 ^ 32 % 65536) ++ [0, 0] ++ data

/-- JOB_STATUS: an ended job is removed; a running read gives its next part. -/
def jobStatusBody : Body := onJob (fun j s _ =>
  if j.state.ended then
    (okData (j.report j.data), { s with jobs := s.jobs.filter (fun k => k.handle != j.handle) })
  else
    match j.out with
    | part :: next :: rest =>
      if j.reads && j.state == .running then
        (okData (j.report part), s.modJob j.handle (fun k => { k with out := next :: rest, data := part }))
      else (okData (j.report []), s)
    | _ => (okData (j.report []), s))

/-- JOB_STATUS. -/
def execJobStatus (p : Packet) (s : State) : Result := .next (s.hostCommand p 0x0A01 jobStatusBody)

/-- A change whose effective tick is fixed can be neither paused nor cancelled (R82). -/
def Job.fixed (j : Job) : Bool := j.change && j.etick.isSome

/-- JOB_PAUSE: a queued job pauses at once, a running one at its next checkpoint. -/
def jobPauseBody : Body := onJob (fun j s _ =>
  if j.state.ended then (refuse stState j.state.code, s)
  else if j.fixed then (refuse stTooLate, s)
  else
    match j.state with
    | .queued =>
      let s := s.modJob j.handle (fun k => { k with state := .paused })
      (okAns, if j.opcode = 0x0803#16 ∧ s.upd.state = .verifying then s.verifyStopped else s)
    | .running => (okAns, s.modJob j.handle (fun k => { k with pauseDue := true }))
    | _ => (okAns, s))

/-- JOB_PAUSE. -/
def execJobPause (p : Packet) (s : State) : Result := .next (s.hostCommand p 0x0A02 jobPauseBody)

/-- JOB_RESUME of a paused job. -/
def jobResumeBody : Body := onJob (fun j s _ =>
  if j.state = .paused then
    (okAns, (s.modJob j.handle (fun k => { k with state := .queued })).dispatchJobs)
  else (refuse stState j.state.code, s))

/-- JOB_RESUME. -/
def execJobResume (p : Packet) (s : State) : Result := .next (s.hostCommand p 0x0A03 jobResumeBody)

/-- JOB_CANCEL: at the next checkpoint; at once for a job that does not run. -/
def jobCancelBody : Body := onJob (fun j s _ =>
  if j.state.ended then (refuse stState j.state.code, s)
  else if j.fixed then (refuse stTooLate, s)
  else (okAns, (s.modJob j.handle (fun k => { k with cancelDue := true })).dispatchJobs))

/-- JOB_CANCEL. -/
def execJobCancel (p : Packet) (s : State) : Result := .next (s.hostCommand p 0x0A04 jobCancelBody)

/-- JOB_CHECKPOINT: the running job `job` reaches a checkpoint with a progress in per mille. -/
def execJobCheckpoint (job progress : Nat) (s : State) : Result := .next (s.checkpointJob job progress)

/-! ## SCHED_CANCEL (R69) -/

/-- A waiting command named by its session and sequence number is removed, if it is not too late. -/
def schedCancelBody : Body := exactly 4 (fun s c =>
  let names (x : Sched) : Bool := x.session.toNat == field c.data 0 2 && x.seq.toNat == field c.data 2 2
  match s.sched.find? names with
  | none => (refuse stInvalid 0, s)
  | some x =>
    if x.auth ∧ !c.auth then (refuse stNotAuthorised, s)
    else if x.at_ < s.tick + 2 then (refuse stTooLate, s)
    else (okAns, { s with sched := s.sched.erase x }))

/-- SCHED_CANCEL. -/
def execSchedCancel (p : Packet) (s : State) : Result := .next (s.hostCommand p 0x0A05 schedCancelBody)

end Sys2Proof.Machine
end

