-- ==== Sys2Proof/Machine/HostStore.lean ====
section
/-! DEFINITION. Commands 0x0601 to 0x0902: recorder, input record and replay, firmware update, identity and certificates, and
the link (R122 to R126, R357, R364, R371 to R374, R390 to R394, R399 to R412). -/

namespace Sys2Proof.Machine

/-! ## The recorder (R371 to R374) -/

/-- REC_FREEZE: DETAIL 1 tells that a freeze was in force; its count begins again. -/
def recFreezeBody : Body := exactly 0 (fun s _ =>
  ({ okAns with detail := flagBit s.recorder.frozen 0 },
    { s with recorder := { s.recorder with frozen := true, frozenAt := s.tick } }))

/-- REC_FREEZE. -/
def execRecFreeze (p : Packet) (s : State) : Result := .next (s.hostCommand p 0x0601 recFreezeBody)

/-- REC_READ: an area, a first entry and a count. -/
def recReadBody : Body := exactly 12 (reserved 1 3 (reserved 10 2 (fun s c =>
  let n := field c.data 8 2
  if 2 < field c.data 0 1 ∨ n = 0 ∨ 8192 < n then (refuse stRange 0, s) else s.startJob c)))

/-- REC_READ. -/
def execRecRead (p : Packet) (s : State) : Result := .next (s.hostCommand p 0x0602 recReadBody)

def recThawBody : Body := exactly 0 (fun s _ => (okAns, s.endFreeze false))

/-- REC_THAW. -/
def execRecThaw (p : Packet) (s : State) : Result := .next (s.hostCommand p 0x0603 recThawBody)

/-- REC_CLEAR: DETAIL 1 tells that the founding area keeps summaries. -/
def recClearBody : Body := exactly 0 (fun s c =>
  let r := s.schedule c
  if r.1.status = stOk then ({ r.1 with detail := flagBit (!s.recorder.founding.isEmpty) 0 }, r.2) else r)

/-- REC_CLEAR. -/
def execRecClear (p : Packet) (s : State) : Result := .next (s.hostCommand p 0x0604 recClearBody)

def recStatusBody : Body := exactly 0 (fun s _ => (okData (padTo 32 s.recStatus), s))

/-- REC_STATUS. -/
def execRecStatus (p : Packet) (s : State) : Result := .next (s.hostCommand p 0x0605 recStatusBody)

/-! ## Replay and the input record (R122 to R126) -/

/-- The flash replay area, 16 MB. -/
def replayMax : Nat := 16 * 1048576

/-- REPLAY_LOAD: one chunk, at most 4,088 bytes. -/
def execReplayLoad (p : Packet) (s : State) : Result := .next (s.hostCommand p 0x0701 (chunkBody replayMax))

/-- REPLAY_RUN: a flags byte and 3 reserved bytes. -/
def replayRunBody : Body := exactly 4 (fun s c =>
  if 1 < field c.data 0 1 then (refuse stBadPayload 0, s) else reserved 1 3 (fun s c => s.startJob c) s c)

/-- REPLAY_RUN. -/
def execReplayRun (p : Packet) (s : State) : Result := .next (s.hostCommand p 0x0702 replayRunBody)

def replayResultBody : Body := exactly 0 (fun s _ => (okData (padTo 32 s.inrec.result), s))

/-- REPLAY_RESULT. -/
def execReplayResult (p : Packet) (s : State) : Result := .next (s.hostCommand p 0x0703 replayResultBody)

/-- INPUT_RECORD_READ: a start tick and a limit in bytes. -/
def inputRecordBody : Body := exactly 10 (fun s c => s.startJob c)

/-- INPUT_RECORD_READ. -/
def execInputRecordRead (p : Packet) (s : State) : Result := .next (s.hostCommand p 0x0704 inputRecordBody)

/-! ## Firmware update (R399 to R412) -/

def updBeginBody : Body := fun s c => s.updBegin c.who c.data

/-- UPD_BEGIN. -/
def execUpdBegin (p : Packet) (s : State) : Result := .next (s.hostCommand p 0x0801 updBeginBody)

def updBlockBody : Body := fun s c => s.updBlock c.who c.data

/-- UPD_BLOCK. -/
def execUpdBlock (p : Packet) (s : State) : Result := .next (s.hostCommand p 0x0802 updBlockBody)

/-- UPD_BLOCK_PROGRAMMED: the oldest staged block has been programmed and read back; `matched`: its CRC agrees. -/
def execUpdBlockProgrammed (matched : Bool) (s : State) : Result := .next (s.blockProgrammed matched)

/-- UPD_VERIFY in RECEIVED. -/
def updVerifyBody : Body := exactly 0 (fun s c =>
  if s.updForeign c.who then (updBusy, s)
  else if s.upd.state ≠ .received then (s.updState, s)
  else
    let r := s.newJob c (fun j => j)
    if r.1.status = stAccepted then (r.1, (r.2.modUpd (fun u => { u with state := .verifying })).dispatchJobs) else r)

/-- UPD_VERIFY. -/
def execUpdVerify (p : Packet) (s : State) : Result := .next (s.hostCommand p 0x0803 updVerifyBody)

/-- UPD_VERIFY_DONE: the running job `job` has hashed the image. -/
def execUpdVerifyDone (job : Nat) (s : State) : Result := .next (s.completeJob job 0x0803 State.verifyDone)

def updActivateBody : Body := exactly 0 (fun s c => s.updActivate c.who)

/-- UPD_ACTIVATE. -/
def execUpdActivate (p : Packet) (s : State) : Result := .next (s.hostCommand p 0x0804 updActivateBody)

/-- ACTIVATION_PAUSE: from tick A + 2; the first tick that is evaluated after it is `resumeAt`, at most 256 ticks later. -/
def execActivationPause (resumeAt : Nat) (report : BootReport) (s : State) : Result :=
  .next (s.activationPause resumeAt report)

def updConfirmBody : Body := exactly 0 (fun s c => s.updConfirm c.who)

/-- UPD_CONFIRM. -/
def execUpdConfirm (p : Packet) (s : State) : Result := .next (s.hostCommand p 0x0805 updConfirmBody)

def updAbortBody : Body := exactly 0 (fun s c =>
  let r := s.updAbort c.who
  (r.1, r.2.dispatchJobs))

/-- UPD_ABORT. -/
def execUpdAbort (p : Packet) (s : State) : Result := .next (s.hostCommand p 0x0806 updAbortBody)

def updStatusBody : Body := exactly 0 (fun s c => (okData (s.updStatus c.who), s))

/-- UPD_STATUS. -/
def execUpdStatus (p : Packet) (s : State) : Result := .next (s.hostCommand p 0x0807 updStatusBody)

/-! ## Certificates, the OEM key and attestation (R390 to R394) -/

/-- CERT_READ: the item that the selector names. -/
def certReadBody : Body := exactly 4 (reserved 1 3 (fun s c =>
  let item (b : List Byte) : Answer × State := (okData (le 2 b.length ++ [0, 0] ++ b), s)
  match field c.data 0 1 with
  | 0 => item s.id.deviceCert
  | 1 => item (s.id.instCert.getD [])
  | 2 => item (s.id.oemKey.getD [])
  | 3 => item s.id.rootPub
  | _ => (refuse stRange 0, s)))

/-- CERT_READ. -/
def execCertRead (p : Packet) (s : State) : Result := .next (s.hostCommand p 0x0808 certReadBody)

/-- CERT_INSTALL: an installation certificate for the device key, signed by the OEM key if there is one; an empty payload
deletes the one installed. -/
def certInstallBody : Body := fun s c =>
  let put (x : Option (List Byte)) : State := { s with id := { s.id with instCert := x } }
  if 2048 < c.data.length then (refuse stBadLength, s)
  else if c.data.isEmpty then (okAns, put none)
  else if Config.certKey c.data ≠ some s.id.devicePub then (refuse stBadPayload 0, s)
  else
    match s.id.oemKey with
    | none => (okAns, put (some c.data))
    | some k => if Config.certSigned c.data k then (okAns, put (some c.data)) else (refuse stSignature 2, s)

/-- CERT_INSTALL. -/
def execCertInstall (p : Packet) (s : State) : Result := .next (s.hostCommand p 0x0809 certInstallBody)

/-- The OEM key installed, replaced or removed: no session stays authorised, and a certificate that the new key has not
signed is deleted (R391). -/
def State.setOemKey (s : State) (k : Option (List Byte)) : State :=
  let signed (b : List Byte) : Bool := match k with | some k => Config.certSigned b k | none => false
  let s := s.modHost (fun h => { h with sessions := h.sessions.map (fun x : Session => { x with key := none }) })
  { s with id := { s.id with oemKey := k, instCert := s.id.instCert.filter signed } }

/-- OEM_KEY_INSTALL: a point of P-256, or zeros to remove the key of a module that is not locked. -/
def oemKeyBody : Body := exactly 64 (fun s c =>
  if c.data.all (· == 0) then
    (if s.id.locked then (refuse stRange 1, s) else (okAns, s.setOemKey none))
  else if (ecPoint c.data).isNone then (refuse stBadPayload 0, s)
  else (okAns, s.setOemKey (some c.data)))

/-- OEM_KEY_INSTALL. -/
def execOemKeyInstall (p : Packet) (s : State) : Result := .next (s.hostCommand p 0x080A oemKeyBody)

/-- The 52 bytes that SIGN_CHALLENGE attests. -/
def State.attested (s : State) : List Byte :=
  le 6 s.tick ++ [0, 0] ++ le 4 s.upd.fwVersion ++
    [BitVec.ofNat 8 s.upd.secVersion, BitVec.ofNat 8 (slotIndex s.upd.slotB), if s.id.locked then 1 else 0, 0] ++
    le 4 s.activeGen ++ contentHash s.content

/-- SIGN_CHALLENGE: a nonce; the attestation and its signature. -/
def signChallengeBody : Body := exactly 32 (fun s c =>
  let (sig, s') := s.signBytes (ascii "SG-ATTEST" ++ c.data ++ padTo 16 s.id.serial ++ s.attested)
  (okData (s.attested ++ sig), s'))

/-- SIGN_CHALLENGE. -/
def execSignChallenge (p : Packet) (s : State) : Result := .next (s.hostCommand p 0x080B signChallengeBody)

/-! ## The link (R357, R364) -/

def linkStatusBody : Body := exactly 0 (fun s _ => (okData s.linkStatus, s))

/-- LINK_STATUS. -/
def execLinkStatus (p : Packet) (s : State) : Result := .next (s.hostCommand p 0x0901 linkStatusBody)

/-- A NODE_FORWARD never has a meaning of its own: it goes on to a forager, or is refused before (R357). -/
def nodeForwardBody : Body := fun s c =>
  match s.forwardCheck c.data with
  | .error a => (a, s)
  | .ok r => (refuse stNodeUnreachable r.1, s)

/-- NODE_FORWARD. -/
def execNodeForward (p : Packet) (s : State) : Result := .next (s.hostCommand p 0x0902 nodeForwardBody)

end Sys2Proof.Machine
end

