-- ==== Sys2Proof/Machine/LinkEvents.lean ====
section
/-! DEFINITION. What the Xista link brings: frames, handshake, alignment, cells, commands for a forager and their replies
(R340 to R364). Rows for a link whose logic domain does not run change nothing. -/

namespace Sys2Proof.Machine

/-- An effect of the link while its logic domain runs. -/
def State.onLink (s : State) (f : State → State) : Result := .next (if s.logicRuns then f s else s)

/-! ## Ports and frames -/

/-- PHY_LINK_UP. -/
def execPhyLinkUp (port : Fin 2) (amplitude : Amplitude) (s : State) : Result := s.onLink (fun s => s.portUp port.val amplitude)

/-- PHY_LINK_DOWN. -/
def execPhyLinkDown (port : Fin 2) (s : State) : Result := s.onLink (fun s => s.portDown port.val)

/-- A discarded frame counted (R341, R349). -/
def Link.discard (l : Link) (reason : FrameDiscard) : Link :=
  match reason with
  | .address => { l with discards := sat32 (l.discards + 1) }
  | .fcs => { l with discards := sat32 (l.discards + 1) }
  | .etherType => { l with discards := sat32 (l.discards + 1) }
  | .tag => { l with authFailures := sat32 (l.authFailures + 1) }
  | .counter => { l with authFailures := sat32 (l.authFailures + 1) }

/-- XISTA_FRAME_DISCARD on a port whose PHY runs. -/
def execXistaFrameDiscard (port : Fin 2) (reason : FrameDiscard) (s : State) : Result :=
  s.onLink (fun s => if s.portActive port.val then s.modLink (fun l => l.discard reason) else s)

/-- XISTA_RELAY: a frame that arrives on `port` leaves on the other one. -/
def execXistaRelay (port : Fin 2) (s : State) : Result := s.onLink (fun s => s.relay port.val)

/-! ## Handshake -/

/-- HELLO_TIMER. -/
def execHelloTimer (s : State) : Result := s.onLink State.sendHello

/-- HELLO. -/
def execHello (port : Fin 2) (msg : HelloMsg) (s : State) : Result := s.onLink (fun s => s.onHello port.val msg)

/-- CHALLENGE. -/
def execChallenge (port : Fin 2) (msg : ChallengeMsg) (s : State) : Result := s.onLink (fun s => s.onChallenge port.val msg)

/-- PROOF. -/
def execProof (port : Fin 2) (msg : ProofMsg) (s : State) : Result := s.onLink (fun s => s.onProof port.val msg)

/-- PROOF_TIMEOUT of a node's attempt; node 0 is a forager's own. -/
def execProofTimeout (node : Fin 8) (s : State) : Result := s.onLink (fun s => s.proofExpired node.val)

/-- ADMIT. The queen's fine count does not enter O (R351). -/
def execAdmission (_port : Fin 2) (queenTick : Nat) (_queenFine : Nat) (s : State) : Result :=
  s.onLink (fun s => s.onAdmit queenTick)

/-- REFUSE. -/
def execRefuse (port : Fin 2) (target : List Byte) (_reason : Nat) (s : State) : Result :=
  s.onLink (fun s => s.onRefuse port.val target)

/-! ## Alignment -/

/-- SYNC_REQ_TIMER. -/
def execSyncReqTimer (s : State) : Result := s.onLink (fun s => s.sendSync.reportAlign s)

/-- SYNC_REQ. -/
def execSyncReq (node : Fin 8) (arrivalFine replyFine : Nat) (s : State) : Result :=
  s.onLink (fun s => s.onSyncReq node.val arrivalFine replyFine)

/-- SYNC_RESP. -/
def execSyncResp (q1 q2 s2 : Int) (s : State) : Result := s.onLink (fun s => (s.onSyncResp q1 q2 s2).reportAlign s)

/-- TICK_LENGTHEN. -/
def execTickLengthen (s : State) : Result := s.onLink State.lengthenTick

/-! ## Cells -/

/-- SUBSCRIBE. -/
def execSubscribe (fromTick : Nat) (cells : List (Fin 8192)) (s : State) : Result :=
  s.onLink (fun s => s.onSubscribe fromTick (cells.map (fun c => c.val)))

/-- CELLS. -/
def execCells (node : Fin 8) (entries : List CellEntry) (s : State) : Result :=
  s.onLink (fun s => s.onCells node.val entries)

/-! ## Commands for a forager (R356 to R358) -/

/-- The meaning of an opcode that takes it from Table 02-10, with what follows its reply. -/
def bodyOf (code : Nat) : Option Body :=
  match code with
  | 0x0001 => some pingBody
  | 0x0002 => some identifyBody
  | 0x0003 => some sessionOpenBody
  | 0x0004 => some sessionCloseBody
  | 0x0005 => some authBeginBody
  | 0x0006 => some authProveBody
  | 0x0007 => some (lockBody true)
  | 0x0008 => some (lockBody false)
  | 0x0009 => some setBaudBody
  | 0x000A => some smokerFeedBody
  | 0x000B => some smokerClearBody
  | 0x000C => some irqStatusBody
  | 0x000D => some irqAckBody
  | 0x000E => some readEventsBody
  | 0x000F => some getTickBody
  | 0x0010 => some setWallTimeBody
  | 0x0011 => some powerStateBody
  | 0x0012 => some restartBody
  | 0x0101 => some paramRead
  | 0x0102 => some paramWrite
  | 0x0103 => some paramReadBlock
  | 0x0104 => some paramWriteBlock
  | 0x0201 => some unitStatusBody
  | 0x0202 => some unitStartBody
  | 0x0203 => some (unitAction barHousekeeping)
  | 0x0204 => some (unitAction barMode)
  | 0x0205 => some (unitAction barMode)
  | 0x0206 => some (unitAction barHousekeeping)
  | 0x0207 => some setManualBody
  | 0x0208 => some channelServiceBody
  | 0x0209 => some unitListBody
  | 0x0301 => some cellReadBody
  | 0x0302 => some cellWriteBody
  | 0x0303 => some cellForceBody
  | 0x0304 => some cellReleaseBody
  | 0x0305 => some cellResetBody
  | 0x0401 => some cfgBeginBody
  | 0x0402 => some cfgCommitBody
  | 0x0403 => some cfgRevertBody
  | 0x0404 => some cfgListBody
  | 0x0405 => some cfgDiscardBody
  | 0x0406 => some cfgExportBody
  | 0x0407 => some (chunkBody bundleMax)
  | 0x0501 => some bankDiagBody
  | 0x0502 => some stampFifoBody
  | 0x0503 => some calRunBody
  | 0x0504 => some probeCalBody
  | 0x0505 => some combEnumerateBody
  | 0x0506 => some combNodemapBody
  | 0x0601 => some recFreezeBody
  | 0x0602 => some recReadBody
  | 0x0603 => some recThawBody
  | 0x0604 => some recClearBody
  | 0x0605 => some recStatusBody
  | 0x0701 => some (chunkBody replayMax)
  | 0x0702 => some replayRunBody
  | 0x0703 => some replayResultBody
  | 0x0704 => some inputRecordBody
  | 0x0801 => some updBeginBody
  | 0x0802 => some updBlockBody
  | 0x0803 => some updVerifyBody
  | 0x0804 => some updActivateBody
  | 0x0805 => some updConfirmBody
  | 0x0806 => some updAbortBody
  | 0x0807 => some updStatusBody
  | 0x0808 => some certReadBody
  | 0x0809 => some certInstallBody
  | 0x080A => some oemKeyBody
  | 0x080B => some signChallengeBody
  | 0x0901 => some linkStatusBody
  | 0x0902 => some nodeForwardBody
  | 0x0A01 => some jobStatusBody
  | 0x0A02 => some jobPauseBody
  | 0x0A03 => some jobResumeBody
  | 0x0A04 => some jobCancelBody
  | 0x0A05 => some schedCancelBody
  | _ => none

/-- What follows the reply of an opcode. -/
def afterReply (code : Nat) (s : State) : State :=
  if code = 0x0009 then s.newBaud else if code = 0x0012 then s.restartLogic else s

/-- The refusals of R60, and AUTH_FAILED: the packet is not accepted (R60, R66). The queen sends none with AUTH set (R356). -/
def linkRefused (p : Packet) : Option Answer :=
  if p.version ≠ 1#8 then some (refuse stBadVersion 1)
  else if p.flags &&& 0x9F#8 ≠ 0#8 then some (refuse stBadFlags)
  else if p.auth then some (refuse stAuthFailed)
  else none

/-- The refusals of an accepted forwarded packet before its own meaning (R64, R72, R356, R357). -/
def State.linkBars (s : State) (m : ForwardedCmd) : Option Answer :=
  let p := m.packet
  let code := m.opcode.toNat
  match opInfo code with
  | none => some (refuse stBadOpcode)
  | some r =>
    match s.formBars r p.etv m.authorised p.payload with
    | some a => some a
    | none =>
      if code = 0x0011 ∧ p.payload = [0] then some (refuse stPowerState (powerCode s.power))
      else
        match foreignNode code p.payload with
        | .error o => some (refuse stBadPayload (Nat.min 255 o))
        | .ok (some _) => some (refuse stInvalid 0)
        | .ok none => none

/-- A forwarded command carried out on the forager: its answer, and the effective tick on the common tick. -/
def State.executeLink (s : State) (m : ForwardedCmd) : Answer × Option Nat × State :=
  match s.linkBars m, opInfo m.opcode.toNat, bodyOf m.opcode.toNat with
  | none, some r, some body =>
    let p := m.packet
    let c : Ctx := {
      who := .link
      sid := 0
      schedSid := m.session
      seq := m.seq
      opcode := m.opcode
      etick := 0
      etv := p.etv
      auth := m.authorised
      needed := s.needsAuth (s.opClass r)
      data := p.payload }
    let now := s.commonTick
    let x := s.runBody r body c now p.etv p.etick.toNat
    (x.1, replyTick r x.1 (wantedTick r now p.etv p.etick.toNat), x.2)
  | some a, _, _ => (a, none, s)
  | none, _, _ => (refuse stBadOpcode, none, s)

/-- A REPLY sent to the queen. -/
def State.sendReply (s : State) (session seq : BitVec 16) (packet : List Byte) : State :=
  s.sendPeer 0 0x31 (le 2 session.toNat ++ le 2 seq.toNat ++ packet)

/-- The kept reply of a forwarded command (R358). -/
def State.keptReply (s : State) (m : ForwardedCmd) : Option (List Byte) :=
  (s.link.replies.find? (fun e => e.1 == m.session && e.2.1 == m.seq)).map (fun e => e.2.2)

/-- XISTA_COMMAND: a joined forager carries out a forwarded command, or answers it again from the kept reply. -/
def State.onCommand (s : State) (m : ForwardedCmd) : State :=
  if (s.peer 0).state ≠ 3 then s
  else
    let s := s.heard 0
    match s.keptReply m with
    | some b =>
      s.feedSmoker.sendReply m.session m.seq b
    | none =>
      match linkRefused m.packet with
      | some a => s.sendReply m.session m.seq (makeReply m.session m.seq m.opcode none none a).packet
      | none =>
        let x := s.executeLink m
        let b := (makeReply m.session m.seq m.opcode none x.2.1 x.1).packet
        let s := x.2.2
        if x.1.status = stAuthFailed then s.sendReply m.session m.seq b
        else
          let s := s.modLink (fun l => { l with
            replies := l.replies.filter (fun e => e.1 != m.session) ++ [(m.session, m.seq, b)] })
          let s := s.feedSmoker.sendReply m.session m.seq b
          if x.1.status = stOk then afterReply m.opcode.toNat s else s

/-- XISTA_COMMAND. -/
def execXistaCommand (cmd : ForwardedCmd) (s : State) : Result := s.onLink (fun s => s.onCommand cmd)

/-- The SOURCE handles in the cells of a CELL_READ reply, set back to node `n` (R356). -/
def renodeCells (n : Nat) (d : List Byte) : List Byte :=
  (List.range (d.length / 32)).foldl (fun d i =>
    overlay d (32 * i + 14) (le 2 (8192 * n + field d (32 * i + 14) 2 % 8192))) d

/-- A forager's reply as the queen's own: its status and data; for NODE_FORWARD the whole packet (R356, R357). -/
def Held.answered (h : Held) (r : ForwardedReply) : Reply :=
  if h.opcode = 0x0902#16 then makeReply h.session h.seq h.opcode h.key none (okData r.raw)
  else
    makeReply h.session h.seq h.opcode h.key r.etick {
      status := r.status.toNat
      detail := r.detail.toNat
      job := r.job.toNat
      data := if h.opcode = 0x0301#16 then renodeCells h.node r.data else r.data
      etick := none }

/-- XISTA_REPLY at the queen: the command that waits for it is answered, and the answer is kept for its session. -/
def State.onReply (s : State) (n : Nat) (r : ForwardedReply) : State :=
  if !s.nodeJoined n then s
  else
    let s := s.heard n
    let mine (h : Held) : Bool := h.reply.isNone && h.node == n && h.session == r.session && h.seq == r.seq
    match s.host.line.find? mine with
    | none => s
    | some h =>
      let s := s.modHost (fun x => { x with line := giveReply mine (fun h => h.answered r) x.line })
      (s.cacheReply (h.answered r)).flushLine

/-- XISTA_REPLY. -/
def execXistaReply (node : Fin 8) (reply : ForwardedReply) (s : State) : Result :=
  s.onLink (fun s => s.onReply node.val reply)

/-- LINK_REPLY_TIMEOUT. -/
def execLinkReplyTimeout (node : Fin 8) (s : State) : Result := s.onLink (fun s => s.replyTimeout node.val)

/-! ## Status, leaving and the smoker -/

/-- XISTA_STATUS. -/
def execXistaStatus (node : Fin 8) (msg : StatusMsg) (s : State) : Result :=
  s.onLink (fun s => s.onStatus node.val msg)

/-- LEAVE from a peer. -/
def execLeave (node : Fin 8) (_reason : Nat) (s : State) : Result := s.onLink (fun s => s.onLeave node.val)

/-- LINK_LOSS_TIMEOUT: a peer that has been silent for LINK_LOSS_TICKS is lost. -/
def execLinkLossTimeout (node : Fin 8) (s : State) : Result :=
  .next (if s.logicRuns && s.peerSilent node.val then
    s.atBoundary (fun _ s => ((s.markSilent node.val).loseDue node.val).syncHives) else s)

/-- The SMOKER_FEED that goes to node `n`; its sequence number counts the feeds, so that none is taken for another. -/
def State.feedNode (s : State) (n : Nat) : State :=
  let seq := BitVec.ofNat 16 (s.tick / 64)
  let packet := commandPacket 0 0 seq 0x000A#16 0 []
  s.sendPeer n 0x30 (le 2 0 ++ le 2 seq.toNat ++ [0, 0, 0, 0] ++ packet)

/-- QUEEN_SMOKER_FEED: a queen that is not calmed and has accepted a packet since the last feed. -/
def execQueenSmokerFeed (s : State) : Result :=
  s.onLink (fun s =>
    if s.queen && !s.smoker.calmed && s.link.feedDue then
      ((s.joinedNodes.filter (fun n => n != 0)).foldl State.feedNode s).modLink (fun l => { l with feedDue := false })
    else s)

end Sys2Proof.Machine
end

