-- ==== Sys2Proof/Machine/Replay.lean ====
section
/-! DEFINITION. The end of a job's work: reads and exports, an imported bundle, a loaded record, and a replay (R112, R122,
R124 to R126, R384). A replay evaluates the units of its scope on a copy of the state, of which only the result is kept. -/

namespace Sys2Proof.Machine

/-! ## Chunks and staging (R124, R384) -/

/-- Data laid over an area at an offset; bytes of the area that nothing has written are free (log entry 4). -/
def State.overlay (s : State) (area : List Byte) (off : Nat) (d : List Byte) : List Byte × State :=
  let r := s.drawBytes (off - area.length)
  ((area ++ r.1).take off ++ d ++ area.drop (off + d.length), r.2)

/-! ## The structure of a record (R119, R124) -/

/-- LEN of an entry type; none for any multiple of 4 up to 248. -/
def entryLen (type : Nat) : Option Nat :=
  match type with
  | 0x01 => some 48 | 0x02 => some 0 | 0x12 => some 12 | 0x30 => some 4 | 0x31 => some 4 | 0x32 => some 0
  | 0x33 => some 0 | 0x34 => some 4 | 0x35 => some 0 | 0x37 => some 0 | 0x40 => some 8 | 0x7F => some 8
  | _ => none

/-- Entry types of Table 03-6. -/
def entryTypes : List Nat :=
  [0x01, 0x02, 0x03, 0x10, 0x11, 0x12, 0x13, 0x14, 0x20, 0x21, 0x30, 0x31, 0x32, 0x33, 0x34, 0x35, 0x37, 0x40, 0x7F]

/-- The first entry of some bytes, if it is valid, and the bytes after it. -/
def takeEntry (b : List Byte) : Option (List Byte × List Byte) :=
  let len := field b 1 1
  let right : Bool := match entryLen (field b 0 1) with | some n => len == n | none => len % 4 == 0 && decide (len ≤ 248)
  if 8 + len ≤ b.length ∧ entryTypes.contains (field b 0 1) ∧ right then some (b.take (8 + len), b.drop (8 + len)) else none

/-- The entries of a record, at most `k`; the index of the first invalid one otherwise. -/
def readEntries : Nat → Nat → List Byte → Except Nat (List (List Byte))
  | 0, i, _ => .error i
  | k + 1, i, b =>
    if b.isEmpty then .ok []
    else
      match takeEntry b with
      | none => .error i
      | some (e, rest) => (readEntries k (i + 1) rest).map (fun l => e :: l)

/-- Whether entry `i` stands where it may not: the record begins with its one SEGMENT_START and ends with its one
SEGMENT_END. -/
def misplaced (l : List (List Byte)) (i : Nat) : Bool :=
  let type (i : Nat) : Nat := entryType (l.getD i [])
  if i = 0 then type 0 != 0x01 else type i == 0x01 || type (i - 1) == 0x7F

/-- The checks of a whole record: its entries, or the index of the first bad one. -/
def checkRecord (b : List Byte) : Except Nat (List (List Byte)) :=
  match readEntries (b.length / 8 + 1) 0 b with
  | .error i => .error i
  | .ok l =>
    match (List.range l.length).find? (misplaced l) with
    | some i => .error i
    | none =>
      let last := l.getLastD []
      if entryType last ≠ 0x7F then .error l.length
      else if field last 8 4 ≠ l.length then .error (l.length - 1)
      else .ok l

/-! ## A replay on a copy of the state (R125, R126) -/

/-- A replay under way: the copy, H(w) and the string of the running window, and what the result counts. -/
structure ReplayRun where
  s        : State
  hash     : List Byte
  window   : List Byte
  matched  : Nat
  mismatch : Option Nat
  substs   : Nat
  holds    : Nat
  commands : Nat

/-- Entries with their full ticks; `hi` holds bits [47:32]. -/
def timedEntries : Nat → List (List Byte) → List (Nat × List Byte)
  | _, [] => []
  | hi, e :: t =>
    let hi := if entryType e = 0x02 then field e 2 2 else hi
    (hi * 2 ^ 32 + field e 4 4, e) :: timedEntries hi t

/-- Commands of a record with their ticks, opcodes and payloads, spanned ones joined (R120). -/
def recordedCommands : List (Nat × List Byte) → List Sched
  | [] => []
  | (t, e) :: rest =>
    let more := (rest.takeWhile (fun x => entryType x.2 == 0x21)).flatMap (fun x => x.2.drop 8)
    if entryType e = 0x20 then
      { at_ := t, session := 0, seq := 0, opcode := BitVec.ofNat 16 (field e 2 2)
        payload := (e.drop 12 ++ more).take (field e 8 2), auth := false } :: recordedCommands rest
    else recordedCommands rest

/-- One conversion of a SAMPLE entry (Table 03-6). -/
def convOf (b : List Byte) : Conv := ⟨toSigned 3 (field b 0 3), toSigned 3 (field b 3 3), BitVec.ofNat 8 (field b 6 1)⟩

/-- A fan record of a SAMPLE entry (Table 10-1). -/
def fanRecOf (b : List Byte) : FanRec :=
  { edges := field b 0 1, status := BitVec.ofNat 8 (field b 1 1), fine := field b 2 2, vOut := field b 4 2, iOut := field b 6 2 }

/-- A sweep record of a SWEEP entry (Table 06-4). -/
def sweepOf (b : List Byte) : SweepRec :=
  let flags := field b 1 1
  { clamp := bit flags 7, missed := bit flags 6, overload := bit flags 5, opened := bit flags 4, calMismatch := bit flags 3
    dcFault := bit flags 2, amplitude := field b 2 1, loadClass := field b 3 1, set := field b 4 1
    points := (chunks 8 (field b 0 1) (b.drop 8)).map (fun p => (BitVec.ofNat 32 (field p 0 4), BitVec.ofNat 32 (field p 4 4))) }

/-- A node entry of a NODE_REC entry (Table 07-6). -/
def nodeOf (b : List Byte) : NodeEntry :=
  { position := field b 0 1, status := BitVec.ofNat 8 (field b 1 1), temp := BitVec.ofNat 16 (field b 2 2)
    rh := BitVec.ofNat 16 (field b 4 2), co2 := BitVec.ofNat 16 (field b 6 2) }

/-- A round's record from its NODE_REC entries, in their order. -/
def roundOf (l : List (List Byte)) : RoundRec :=
  let flags := field (l.headD []) 1 1
  { missed := bit flags 6, clamp := bit flags 5, start := bit flags 4, unmapped := bit flags 3, lowFeed := bit flags 2
    noHeadroom := bit flags 1, enumerating := bit flags 0
    entries := l.flatMap (fun b => (chunks 8 (field b 0 1) (b.drop 4)).map nodeOf) }

/-- Entries of a type among those of a tick. -/
def ofType (type : Nat) (es : List (List Byte)) : List (List Byte) := es.filter (fun e => entryType e == type)

/-- REF of an entry. -/
def entryRef (e : List Byte) : Nat := field e 2 2

/-- The field inputs that the entries of a tick carry. -/
def inputsOf (es : List (List Byte)) : InBuf :=
  let samples := ofType 0x10 es
  let of (kind : Nat) : List (List Byte) := samples.filter (fun e => slotKind (entryRef e) == kind)
  let rounds := ofType 0x13 es
  { batches := (of 0x03).foldl (fun l e =>
      Tab.insert l (slotInst (entryRef e)) ((chunks 8 32 (e.drop 8)).map convOf)) []
    fans := (of 0x0C).foldl (fun l e => Tab.insert l (slotInst (entryRef e)) (fanRecOf (e.drop 8))) []
    sweeps := (ofType 0x14 es).foldl (fun l e => Tab.insert l (slotInst (entryRef e)) (sweepOf (e.drop 8))) []
    rounds := (sortNats (rounds.map entryRef)).foldl (fun l u =>
      Tab.insert l (slotInst u) (roundOf ((rounds.filter (fun e => entryRef e == u)).map (·.drop 8)))) [] }

/-- A cell that the scope only reads, as its CELL_IN entry gives it; at the segment's `first` tick an OFFLINE cell is one
that nothing has written yet. -/
def State.replayCell (first : Bool) (s : State) (e : List Byte) : State :=
  let house : Bool := decide (129 ≤ entryRef e ∧ entryRef e ≤ 153)
  let v : CellVal :=
    { value := BitVec.ofNat 64 (field e 8 8), stamp := if house then s.workTick - 1 else s.workTick
      source := if house then hkSlot else 0, quality := field e 17 1
      conditions := BitVec.ofNat 8 (field e 18 1), type := field e 16 1 }
  let unwritten := first && v.quality == 7 && v.conditions == condBit 7
  s.modWork (fun p =>
    p.setCell (entryRef e) { p.cell (entryRef e) with own := v, forced := none, written := !unwritten })

/-- A cell whose memory was bad: VALUE 0 and BAD until its next write (R112). -/
def State.replayCellError (s : State) (e : List Byte) : State :=
  s.modWork (fun p =>
    let c := p.cell (entryRef e)
    p.setCell (entryRef e) { c with own := { c.own with value := 0, quality := 6, conditions := condBit 6 } })

/-- Whether a replayed channel is out of service: only a CAPACITY entry brings it back. -/
def State.replayService (s : State) (u : Nat) (off : Bool) : State :=
  let n := slotInst u
  s.setFch n { s.fch n with serviceOff := off }

/-- A recorded capacity change (Table 01-9 by its row code). -/
def State.replayCapacity (s : State) (e : List Byte) : State :=
  let u := entryRef e
  match field e 8 1 with
  | 0 => (s.replayService u true).channelOut (slotInst u)
  | 1 => ((s.replayService u false).returnChannel (slotInst u)).setSt u .stopped
  | 2 => if isHive u then s.addHive u else s.addUnit s.workTick u
  | 7 => s.offlineNode (u / 8192)
  | _ => s

/-- A recorded HOLD: the unit is not evaluated in this tick and enters HOLD at the next boundary (R105). -/
def State.replayHold (s : State) (e : List Byte) : State :=
  let u := entryRef e % 1024
  { (s.modUnit u (fun r => { r with holdDue := some (field e 8 1) })) with skip := insertSorted s.skip u }

/-- A recorded command at its tick. The change of service of a channel stands in its CAPACITY entry. -/
def State.replayCommand (s : State) (x : Sched) : State := if x.opcode = 0x0208#16 then s else s.commandEffect x

/-- The boundary of a replayed tick, in the order of R22, R95 and R105. -/
def State.replayBoundary (s : State) (scope : List Nat) (t : Nat) (es : List (List Byte)) : State :=
  let s : State := { s with tick := t, workTick := t, evaluated := false, committed := false, skip := [] }
  let s := s.unitEvents
  let s := if (ofType 0x33 es).isEmpty then s else s.calm
  let s := (dueCommands s.sched t).foldl State.replayCommand s
  let s : State := { s with sched := s.sched.filter (fun x => decide (t < x.at_)) }
  let progs := ((scope.filter (fun u => slotKind u == 0x09)).map slotInst)
  let s := (progs.foldl State.programActions s).syncHives
  let s := ((ofType 0x34 es).foldl State.replayCapacity s).syncHives.recExtremes t
  let s := (ofType 0x35 es).foldl (fun s e => match powerOf (entryRef e) with | some p => s.enterPower t p | none => s) s
  (ofType 0x31 es).foldl State.replayHold { s with base := s.work }

/-- Batches and records taken in by the units of the scope. -/
def State.replayGather (s : State) (scope : List Nat) : State :=
  let of (kind : Nat) : List Nat := (scope.filter (fun u => slotKind u == kind)).map slotInst
  let record (s : State) (ch : Nat) : State :=
    let s := s.recordFaults ch
    if s.mode ch = 9 ∧ (s.unit (chanSlot ch)).st = .active ∧ !(s.work.chan ch).skip then s.selectRes ch else s
  let s := (of 0x03).foldl State.gather s
  (of 0x0C).foldl State.gatherFan ((of 0x03).foldl record s)

/-- One tick of a replay from its entries. -/
def ReplayRun.tick (scope : List Nat) (t0 : Nat) (r : ReplayRun) (t : Nat) (es : List (List Byte)) : ReplayRun :=
  let s := r.s.replayBoundary scope t es
  let s := (ofType 0x32 es).foldl State.replayCellError ((ofType 0x12 es).foldl (State.replayCell (t == t0)) s)
  let found := inputsOf es
  let rounds := found.rounds.map (fun e => (e.1, { e.2 with limit := s.cfg P.COMB_MISS_LIMIT e.1 }))
  let s := (s.setInputs (t - 1) { found with rounds := rounds }).replayGather scope
  let s := (s.order.filter (fun u => scope.contains u && u != hkSlot)).foldl State.evalUnit s
  let s := if scope.contains recSlot then s.cutTick else s
  let str := s.tickString t (fun u => s.isDue t u && !s.rests u) s.tickCut
  let s : State := { s with
    prev := s.work, base := s.work, committed := true, inbufs := []
    inrec := { s.inrec with notes := [], cmds := [] } }
  let r := { r with
    s := s
    window := r.window ++ str
    substs := r.substs + (ofType 0x30 es).length
    holds := r.holds + (ofType 0x31 es).length
    commands := r.commands + (ofType 0x20 es).length }
  match ofType 0x40 es with
  | [] => r
  | e :: _ =>
    let w := (t - t0) / 1024
    let h := windowHash w r.hash r.window
    let same := h.take 8 == bytesAt e 8 8
    { r with
      hash := h
      window := []
      matched := r.matched + (if same then 1 else 0)
      mismatch := if same then r.mismatch else r.mismatch.or (some w) }

/-- `n` ticks of a replay from tick `t`; with `stop` none after the first mismatch. -/
def ReplayRun.run (scope : List Nat) (t0 : Nat) (stop : Bool) : Nat → Nat → List (Nat × List Byte) → ReplayRun → ReplayRun
  | 0, _, _, r => r
  | n + 1, t, es, r =>
    if stop && r.mismatch.isSome then r
    else
      let here := es.filter (fun e => e.1 == t)
      ReplayRun.run scope t0 stop n (t + 1) (es.filter (fun e => decide (t < e.1))) (r.tick scope t0 t (here.map (·.2)))

/-- The copy on which a replay begins: the units of the scope in the state of their SNAPSHOT entries, HUSH or RUN, no calm
and nothing waiting. The record tells neither the power state before its first POWER entry (free, log entry 4) nor a calm. -/
def State.replayStart (s : State) (scope : List Nat) (hive t0 : Nat) (es : List (Nat × List Byte)) : State :=
  let (v, s) := s.drawFree
  let snaps := ofType 0x03 (es.map (·.2))
  let load (p : Plant) (u : Nat) : Plant :=
    snapUnpack ((snaps.filter (fun e => entryRef e == u)).flatMap (·.drop 8)) u p
  let p := scope.foldl load s.view
  let s := scope.foldl (fun s u =>
    if slotKind u = 0x03 then s.replayService u ((p.unit u).st == .fault && (p.unit u).faultCode == 0x01) else s) s
  { s with
    prev := p, base := p, work := p
    tick := t0, workTick := t0, evaluated := true, committed := true
    power := if v % 2 = 0 then .run else .hush
    sched := recordedCommands es
    jobs := [], awaiting := none, inbufs := [], skip := []
    smoker := { s.smoker with calmed := false, due := none }
    inrec := { s.inrec with open_ := true, t0 := t0, scope := hive, cmds := [], notes := [] } }

/-- REPLAY_RESULT data (Table 03-9). -/
def ReplayRun.result (r : ReplayRun) (windows t0 : Nat) : List Byte :=
  let place := match r.mismatch with | some w => le 4 w ++ le 6 (t0 + 1024 * w) | none => le 4 0xFFFFFFFF ++ le 6 0
  le 4 windows ++ le 4 r.matched ++ place ++ [0, 0] ++ le 4 r.substs ++ le 4 r.holds ++ le 4 r.commands

/-- A whole replay of the loaded record on this state: its result, and the draws it used. No entry after a GAP is valid. -/
def State.replay (s : State) (stop : Bool) (entries : List (List Byte)) : List Byte × State :=
  let start := entries.headD []
  let t0 := field start 8 6
  let hive := field start 14 2
  let scope := scopeSlots s.content hive
  let valid := entries.takeWhile (fun e => entryType e != 0x37)
  let es := timedEntries (t0 / 2 ^ 32) valid
  let digests := es.filter (fun e => entryType e.2 == 0x40)
  let ticks := match digests.getLast? with | some e => e.1 + 1 - t0 | none => 0
  let r : ReplayRun :=
    { s := s.replayStart scope hive t0 es, hash := sha256 (start.drop 8), window := [], matched := 0, mismatch := none
      substs := 0, holds := 0, commands := 0 }
  let r := ReplayRun.run scope t0 stop ticks t0 es r
  (r.result (ofType 0x40 entries).length t0, { s with draws := r.s.draws })

/-! ## What ends a job -/

/-- REPLAY_LOAD: a chunk programmed at its offset; with LAST the record's structure is checked (R124). -/
def State.loadDone (s : State) (j : Job) : State :=
  let flags := field j.args 0 1
  let s : State :=
    if bit flags 0 then { s with inrec := { s.inrec with replay := [], result := List.replicate 32 0 } } else s
  let r := s.overlay s.inrec.replay (field j.args 4 4) (j.args.drop 8)
  let s : State := { r.2 with inrec := { r.2.inrec with replay := r.1, replayOk := false } }
  if bit flags 1 then
    match checkRecord r.1 with
    | .error i => s.finishJob j .failed stBadPayload (i % 256) []
    | .ok _ => { s with inrec := { s.inrec with replayOk := true } }.finishJob j .done stOk 0 []
  else s.finishJob j .done stOk 0 []

/-- REPLAY_RUN: its failures in the order of R125, then the replay. -/
def State.replayDone (s : State) (j : Job) : State :=
  let b := s.inrec.replay
  let hive := field b 14 2
  let failed (status detail : Nat) : State := s.finishJob j .failed status detail []
  match checkRecord b with
  | .error _ => failed stState 0
  | .ok entries =>
    if !s.inrec.replayOk then failed stState 0
    else if 1024 ≤ hive ∨ !isHive hive ∨ !s.has hive then failed stInvalid 0
    else if s.id.clHighest < field b 16 2 then failed stRange 0
    else if s.sram.regions.getD 10 0 < replayNeed s.content (scopeSlots s.content hive) then failed stRange 1
    else if bytesAt b 24 32 ≠ scopeHash s.content hive then failed stConfigRefused 0xE0
    else
      let r := s.replay (bit (field j.args 0 1) 0) entries
      { r.2 with inrec := { r.2.inrec with result := r.1 } }.finishJob j .done stOk 0 []

/-- The first scalar of a bundle that lies outside its own range, or names an instance that no part has (R474). What a part
lacks is judged by the units it would place there (R5), the compatibility level by the check of a commit (R8). -/
def State.bundleFault (s : State) (c : Content) : Option CfgFault :=
  let whole : State := { s with id := { s.id with sg1064 := false } }
  let fault (e : Nat × Nat × PVal) : Option CfgFault :=
    match paramInfo e.1, e.2.2 with
    | some r, .scalar v =>
      faultIf (!(whole.instOk r e.2.1 && Machine.inRange whole.channels r e.2.1 v.toNat)) (blockReason e.1) 0xFFFF e.1 e.2.1
    | _, _ => none
  firstFault (c.map fault)

/-- CFG_IMPORT_SUCCESSION: a chunk staged; with LAST the bundle is checked, validated as a commit, and becomes a
generation that is active two ticks after the job (R384). -/
def State.importDone (s : State) (j : Job) : State :=
  let flags := field j.args 0 1
  let s : State := if bit flags 0 then { s with importBuf := [] } else s
  let r := s.overlay s.importBuf (field j.args 4 4) (j.args.drop 8)
  let s : State := { r.2 with importBuf := r.1 }
  let refused (reason : Nat) (data : List Byte) : State := s.finishJob j .failed stConfigRefused reason data
  if !bit flags 1 then s.finishJob j .done stOk 0 []
  else
    match s.openBundle r.1 with
    | .error reason => refused reason noPlace
    | .ok (c, _) =>
      match s.changeBarred with
      | some reason => refused reason noPlace
      | none =>
        match (s.bundleFault c).or (s.validate c) with
        | some f => refused f.reason f.bytes
        | none => (s.storeGeneration 2 c (s.tick + 2)).finishJob j .done stOk 0 (changeData (s.topNumber + 1) (s.tick + 2))

/-- A read or an export ends with its last part, when every part before it has been returned (R122, R372, R384). -/
def State.readDone (s : State) (j : Job) : State :=
  match j.out with
  | _ :: _ :: _ => s
  | parts => s.finishJob j .done stOk 0 parts.flatten

/-- The work of the running job comes to its end. Jobs whose end has a row of its own are not concerned. -/
def State.workDone (s : State) (j : Job) : State :=
  match j.opcode.toNat with
  | 0x0406 => s.readDone j
  | 0x0407 => s.importDone j
  | 0x0602 => s.readDone j
  | 0x0701 => s.loadDone j
  | 0x0702 => s.replayDone j
  | 0x0704 => s.readDone j
  | _ => s

/-- An uncorrectable memory error or a failed flash write under a job. A pending commit or revert, an import and the replay
jobs end FAILED: with INTERNAL after a memory error (R112), and a change with CONFIG_REFUSED, STORE when its flash write
fails (Table 12-8). -/
def State.workFailed (s : State) (j : Job) (flash : Bool) : State :=
  if j.change then
    let s := if j.etick.isSome then s.storeFailed else s
    if flash then s.finishJob j .failed stConfigRefused 0x12 noPlace else s.finishJob j .failed stInternal 0 []
  else if j.opcode = 0x0407#16 then
    if flash then s.finishJob j .failed stConfigRefused 0x12 noPlace else s.finishJob j .failed stInternal 0 []
  else if j.opcode = 0x0701#16 ∨ j.opcode = 0x0702#16 then s.finishJob j .failed stInternal 0 []
  else s

/-- JOB_END: the work of job `job` has come to its end. A commit or revert ends once its effective tick is fixed; one that
has not ended by then ends at that boundary. -/
def execJobEnd (job : Nat) (end_ : JobWork) (s : State) : Result :=
  match s.job job with
  | none => .next s
  | some j =>
    if j.state.ended then .next s
    else
      match end_ with
      | .done =>
        if j.change ∧ j.etick.isSome then .next (s.endChange j .done stOk 0 j.data).dispatchJobs
        else .next (s.completeJob job j.opcode.toNat State.workDone)
      | .memoryError =>
        .next (if j.state = .running ∨ j.change then (s.workFailed j false).dispatchJobs else s)
      | .flashFailed =>
        .next (if j.state = .running ∧ (j.occupies || j.etick.isSome) then (s.workFailed j true).dispatchJobs else s)

end Sys2Proof.Machine
end

