-- ==== Sys2Proof/Machine/Timers.lean ====
section
/-! DEFINITION. Events of the evaluation timers, as rows of their own: each applies to one unit what its evaluation
applies, when the condition that the event names stands in the unit's state, and nothing otherwise (the evaluation has
applied it, or the condition is gone). -/

namespace Sys2Proof.Machine

/-! ## Fans (R332, R333) -/

/-- FAN_KICK_END: the kick has lasted FAN_KICK_TIME; the demand goes to the sources and proving begins. -/
def execFanKickEnd (fan : Fin 8) (s : State) : Result :=
  let n := fan.val
  let f := s.work.fan n
  .next (if f.seq = .kick ∧ s.cfg P.FAN_KICK_TIME n ≤ f.kickSteps then
    s.modWork (·.setFan n { f with seq := .proving }) else s)

/-- FAN_START_TIMEOUT: FAN_START_TIME has passed without FAN_TACH_MIN: a pause, or BLOCKED. -/
def execFanStartTimeout (fan : Fin 8) (s : State) : Result :=
  let n := fan.val
  let f := s.work.fan n
  if f.seq = .proving ∧ s.cfg P.FAN_START_TIME n ≤ f.kickSteps ∧ !s.fanFast n f then
    let r := failAttempt (s.cfg P.FAN_RETRY_PAUSE n) f
    let s := s.modWork (·.setFan n r.1)
    .next (if r.2 then s.detect (fanSlot n) 0x01 else s)
  else .next s

/-- FAN_PAUSE_END: the pause is over: the next kick, or OFF without demand. -/
def execFanPauseEnd (fan : Fin 8) (s : State) : Result :=
  let n := fan.val
  let f := s.work.fan n
  .next (if f.seq = .pause ∧ f.pauseLeft = 0 then
    s.modWork (·.setFan n (if fPos f.cLast then f.kick else { f with seq := .off })) else s)

/-- FAN_SPEED_FAULT_TIMER: the speed has been low for FAN_FAULT_TIME (R333). -/
def execFanSpeedFaultTimer (fan : Fin 8) (s : State) : Result :=
  let n := fan.val
  let f := s.work.fan n
  let supply := s.cfg P.FAN_SUPPLY n != 0
  if f.seq = .running ∧ 0 < f.lowRun ∧ s.cfg P.FAN_FAULT_TIME n * 16 ≤ f.lowRun then
    if supply ∧ f.lowLimited then .next (s.detect (fanSlot n) 0x03)
    else if supply ∧ f.lowNoTach then .next (s.modWork (·.setFan n { f with
      tachLost := true, lowRun := 0, lowLimited := true, lowNoTach := true }))
    else .next (s.detect (fanSlot n) 0x02)
  else .next s

/-! ## Channels (R113, R152, R159, R168) -/

/-- SUBST_LIMIT_REACHED: more substituted batches in a row than SUBST_LIMIT: rule 2 acts, nothing is written. -/
def execSubstLimitReached (ch : Fin 128) (s : State) : Result :=
  let n := ch.val
  let c := s.work.chan n
  .next (if s.cfg P.SUBST_LIMIT n < c.missRun then
    s.modWork (·.setChan n { c with skip := true, subst := false, batch := [] }) else s)

/-- STUCK_DETECT: the active level has stood for longer than STUCK_LIMIT. -/
def execStuckDetect (ch : Fin 128) (s : State) : Result :=
  let n := ch.val
  let c := s.work.chan n
  let limit := s.cfg P.STUCK_LIMIT n
  .next (if limit ≠ 0 ∧ limit * 1024 < c.stuckRun then
    (s.modWork (·.setChan n { c with stuck := true })).chanFlag n 0 true else s)

/-- COUNT_ZERO_TIMEOUT: no edge for COUNT_ZERO_TIMEOUT ticks: the reference is invalid and the value is 0. -/
def execCountZeroTimeout (ch : Fin 128) (s : State) : Result :=
  let n := ch.val
  let c := s.work.chan n
  .next (if s.mode n = 2 ∧ s.cfg P.COUNT_ZERO_TIMEOUT n ≤ c.idle then
    s.modWork (·.setChan n { c with
      refValid := false, value := 0, settled := true, valueBad := s.cfg P.COUNT_FUNC n == 2 }) else s)

/-- OPEN_LOAD_DETECT: under 3 mA with the switch on for 1,024 records. -/
def execOpenLoadDetect (ch : Fin 128) (s : State) : Result :=
  let n := ch.val
  let c := s.work.chan n
  .next (if s.cfg P.OPEN_LOAD_EN n = 1 ∧ 1024 ≤ c.openRun then
    (s.modWork (·.setChan n { c with openLoad := true })).chanFlag n 6 true else s)

/-! ## Loops, profile generators, churns, observers (R265, R288, R292, R300) -/

/-- A limit on a run of lost inputs, 0 for none. -/
def lossDue (limit run : Nat) : Bool := decide (limit ≠ 0) && decide (limit ≤ run)

/-- LOOP_INPUT_LOSS_FAULT. -/
def execLoopInputLossFault (loop : Fin 256) (s : State) : Result :=
  let n := loop.val
  .next (if lossDue (s.cfg P.LOSS_FAULT_STEPS n) (s.work.loop n).lossRun then s.detect (loopSlot n) 0x01 else s)

/-- PROF_INPUT_LOSS_FAULT. -/
def execProfInputLossFault (prof : Fin 64) (s : State) : Result :=
  let n := prof.val
  .next (if lossDue (s.cfg P.PROF_LOSS_STEPS n) (s.work.prof n).lossRun then s.detect (profSlot n) 0x01 else s)

/-- OBS_INPUT_LOSS_FAULT. -/
def execObsInputLossFault (column : Fin 8) (s : State) : Result :=
  let n := column.val
  .next (if lossDue (s.cfg P.OBS_LOSS_STEPS n) (s.work.observer n).lossRun then s.detect (obsSlot n) 0x01 else s)

/-- CHURN_FADE_END: the fade has reached 0 with the band left: the table is zeroed and takes the present band; in count
mode after a lost phase the table is zeroed (R292). -/
def execChurnFadeEnd (churn : Fin 32) (s : State) : Result :=
  let n := churn.val
  let c := s.work.churn n
  let lost := s.cfg P.CHURN_PHASE_MODE n == 1 && c.lostSince
  .next (
    if c.fadeCount ≠ 0 then s
    else if c.bandLeft ∧ (s.unit (churnSlot n)).st ≠ .stopping then
      s.modWork (·.setChurn n { c with
        table := [], tag := c.band, fadeCount := s.cfg P.CHURN_FADE n, bandLeft := false, lostSince := c.phaseLost })
    else if lost then s.modWork (·.setChurn n { c with table := [], lostSince := c.phaseLost })
    else s)

/-! ## Programs (R306, R307, R310) -/

/-- A program unit that advances by itself: AUTO or STOPPING. -/
def State.progAdvances (s : State) (n : Nat) : Bool :=
  (s.unit (progSlot n)).st == .auto || (s.unit (progSlot n)).st == .stopping

/-- PROGRAM_STEP_TIMEOUT: the step has lasted its timeout without completing. -/
def execProgramStepTimeout (prog : Fin 4) (s : State) : Result :=
  let n := prog.val
  let p := s.work.prog n
  let st := s.prgStepAt n p.step
  .next (if s.progAdvances n ∧ !p.entryDue ∧ st.phase ≠ 0 ∧ st.timeout ≠ 0 ∧ st.timeout * 61440 ≤ s.workTick - p.entry ∧
      !(p.condMet && decide (st.minTime * 1024 ≤ s.workTick - p.entry)) then
    s.advanceProg n ((s.unit (progSlot n)).st == .stopping) st p
  else s)

/-- PROGRAM_INPUT_LOSS: COND_CELL has been unusable for PRG_LOSS_TIME. -/
def execProgramInputLoss (prog : Fin 4) (s : State) : Result :=
  let n := prog.val
  .next (if s.progAdvances n then (s.progLoss n (s.work.prog n)).2 else s)

/-- PROGRAM_ACTION: what a program unit asked for takes effect at the boundary the model stands at (R307). -/
def execProgramAction (prog : Fin 4) (s : State) : Result :=
  .next (s.atBoundary (fun _ s => s.programActions prog.val))

/-! ## Chains (R312, R313) -/

/-- A trip with code `code` that a member shows takes effect, with the cells and the end of the chain it brings. -/
def State.chainTrip (s : State) (n i code : Nat) : State :=
  match (s.chainMembers n)[i]? with
  | none => s
  | some m =>
    let c := s.work.chain n
    if tripCodeOf m (c.member i).plugged (c.member i) = some code then
      ((s.modWork (·.setChain n (c.trip i code))).writeChain n).chainDone n
    else s

/-- CHAIN_PROVE_TIMEOUT: a member has not been proven within its time. -/
def execChainProveTimeout (chain : Fin 32) (member : Fin 16) (s : State) : Result :=
  .next (s.chainTrip chain.val member.val 0x10)

/-- CHAIN_MOTION_LOSS: a proven member has been slow for its time. -/
def execChainMotionLoss (chain : Fin 32) (member : Fin 16) (s : State) : Result :=
  .next (s.chainTrip chain.val member.val 0x11)

/-- CHAIN_PURGE_END: the member upstream has stood for the purge time: this one stops with the flow (R312). -/
def execChainPurgeEnd (chain : Fin 32) (member : Fin 16) (s : State) : Result :=
  let n := chain.val
  let c := s.work.chain n
  let c' := stopFlowMember (s.chainMembers n) c member.val
  .next (if c.stoppingFlow ∧ c' ≠ c then ((s.modWork (·.setChain n c')).writeChain n).chainDone n else s)

/-! ## Bins and comb lines (R255, R318, R319) -/

/-- BIN_SAMPLE: a sample is due in the tick of work. -/
def execBinSample (bin : Fin 64) (s : State) : Result :=
  let n := bin.val
  .next (if (s.unit (binSlot n)).st = .active ∧ s.binSampleAt n s.workTick then s.binSample n else s)

/-- AERATION_HOLD_END: the minimum time of the present permission has passed. -/
def execAerationHoldEnd (bin : Fin 64) (s : State) : Result :=
  let n := bin.val
  let b := s.work.bin n
  let since := s.workTick - b.changedAt
  let on := b.minOnHold && b.permit && decide (s.cfg P.BIN_AER_MIN_ON n * 1024 ≤ since)
  let off := b.minOffHold && !b.permit && decide (s.cfg P.BIN_AER_MIN_OFF n * 1024 ≤ since)
  .next (if on then s.modWork (·.setBin n { b with minOnHold := false, permit := false, changedAt := s.workTick })
    else if off then s.modWork (·.setBin n { b with minOffHold := false, permit := true, changedAt := s.workTick })
    else s)

/-- COMB_MISS_LIMIT: a position's miss run stands at COMB_MISS_LIMIT and is not yet reported (R255). -/
def execCombMissLimit (line : Fin 64) (position : Fin 48) (s : State) : Result :=
  .next (s.missLimit line.val position.val)

end Sys2Proof.Machine
end

