-- ==== Sys2Proof/Machine/Dispatch.lean ====
section
/-! DEFINITION. The dispatch: each command of the table to its meaning. -/

namespace Sys2Proof.Machine

def exec (i : Instr) (s : State) : Host.Outcome State Fault Refusal :=
  match i with
  | .ping p => Sys2Proof.Machine.execPing p s
  | .identify p => Sys2Proof.Machine.execIdentify p s
  | .sessionOpen p => Sys2Proof.Machine.execSessionOpen p s
  | .sessionClose p => Sys2Proof.Machine.execSessionClose p s
  | .authBegin p => Sys2Proof.Machine.execAuthBegin p s
  | .authProve p => Sys2Proof.Machine.execAuthProve p s
  | .authProveBarEnd => Sys2Proof.Machine.execAuthProveBarEnd s
  | .lock p => Sys2Proof.Machine.execLock p s
  | .unlock p => Sys2Proof.Machine.execUnlock p s
  | .setBaud p => Sys2Proof.Machine.execSetBaud p s
  | .baudFallback => Sys2Proof.Machine.execBaudFallback s
  | .smokerFeed p => Sys2Proof.Machine.execSmokerFeed p s
  | .smokerClear p => Sys2Proof.Machine.execSmokerClear p s
  | .irqStatus p => Sys2Proof.Machine.execIrqStatus p s
  | .irqAck p => Sys2Proof.Machine.execIrqAck p s
  | .readEvents p => Sys2Proof.Machine.execReadEvents p s
  | .getTick p => Sys2Proof.Machine.execGetTick p s
  | .setWallTime p => Sys2Proof.Machine.execSetWallTime p s
  | .powerState p => Sys2Proof.Machine.execPowerState p s
  | .restart p => Sys2Proof.Machine.execRestart p s
  | .paramRead p => Sys2Proof.Machine.execParamRead p s
  | .paramWrite p => Sys2Proof.Machine.execParamWrite p s
  | .paramReadBlock p => Sys2Proof.Machine.execParamReadBlock p s
  | .paramWriteBlock p => Sys2Proof.Machine.execParamWriteBlock p s
  | .prgGoto p => Sys2Proof.Machine.execPrgGoto p s
  | .churnClear p => Sys2Proof.Machine.execChurnClear p s
  | .bootRetry p => Sys2Proof.Machine.execBootRetry p s
  | .unitStatus p => Sys2Proof.Machine.execUnitStatus p s
  | .unitStart p => Sys2Proof.Machine.execUnitStart p s
  | .unitStop p => Sys2Proof.Machine.execUnitStop p s
  | .unitManual p => Sys2Proof.Machine.execUnitManual p s
  | .unitAuto p => Sys2Proof.Machine.execUnitAuto p s
  | .unitClearFault p => Sys2Proof.Machine.execUnitClearFault p s
  | .unitSetManualValue p => Sys2Proof.Machine.execUnitSetManualValue p s
  | .channelService p => Sys2Proof.Machine.execChannelService p s
  | .unitList p => Sys2Proof.Machine.execUnitList p s
  | .cellRead p => Sys2Proof.Machine.execCellRead p s
  | .cellWrite p => Sys2Proof.Machine.execCellWrite p s
  | .cellForce p => Sys2Proof.Machine.execCellForce p s
  | .cellRelease p => Sys2Proof.Machine.execCellRelease p s
  | .cellResetExtremes p => Sys2Proof.Machine.execCellResetExtremes p s
  | .cfgBegin p => Sys2Proof.Machine.execCfgBegin p s
  | .cfgCommit p => Sys2Proof.Machine.execCfgCommit p s
  | .cfgRevert p => Sys2Proof.Machine.execCfgRevert p s
  | .cfgValidationDone job => Sys2Proof.Machine.execCfgValidationDone job s
  | .generationActivate => Sys2Proof.Machine.execGenerationActivate s
  | .cfgList p => Sys2Proof.Machine.execCfgList p s
  | .cfgDiscard p => Sys2Proof.Machine.execCfgDiscard p s
  | .cfgExportSuccession p => Sys2Proof.Machine.execCfgExportSuccession p s
  | .cfgImportSuccession p => Sys2Proof.Machine.execCfgImportSuccession p s
  | .bankDiagRead p => Sys2Proof.Machine.execBankDiagRead p s
  | .stampFifoRead p => Sys2Proof.Machine.execStampFifoRead p s
  | .calRun p => Sys2Proof.Machine.execCalRun p s
  | .calRunDone job unit action => Sys2Proof.Machine.execCalRunDone job unit action s
  | .probeCal p => Sys2Proof.Machine.execProbeCal p s
  | .probeCalDone job sweeps => Sys2Proof.Machine.execProbeCalDone job sweeps s
  | .combEnumerate p => Sys2Proof.Machine.execCombEnumerate p s
  | .combEnumerateDone job line answers => Sys2Proof.Machine.execCombEnumerateDone job line answers s
  | .combNodemapRead p => Sys2Proof.Machine.execCombNodemapRead p s
  | .recFreeze p => Sys2Proof.Machine.execRecFreeze p s
  | .recFreezeExpiry => Sys2Proof.Machine.execRecFreezeExpiry s
  | .recThaw p => Sys2Proof.Machine.execRecThaw p s
  | .recRead p => Sys2Proof.Machine.execRecRead p s
  | .recClear p => Sys2Proof.Machine.execRecClear p s
  | .recClearEraseDone => Sys2Proof.Machine.execRecClearEraseDone s
  | .recStatus p => Sys2Proof.Machine.execRecStatus p s
  | .replayLoad p => Sys2Proof.Machine.execReplayLoad p s
  | .replayRun p => Sys2Proof.Machine.execReplayRun p s
  | .replayResult p => Sys2Proof.Machine.execReplayResult p s
  | .inputRecordRead p => Sys2Proof.Machine.execInputRecordRead p s
  | .updBegin p => Sys2Proof.Machine.execUpdBegin p s
  | .updBlock p => Sys2Proof.Machine.execUpdBlock p s
  | .updBlockProgrammed matched => Sys2Proof.Machine.execUpdBlockProgrammed matched s
  | .updVerify p => Sys2Proof.Machine.execUpdVerify p s
  | .updVerifyDone job => Sys2Proof.Machine.execUpdVerifyDone job s
  | .updActivate p => Sys2Proof.Machine.execUpdActivate p s
  | .activationPause resumeAt report => Sys2Proof.Machine.execActivationPause resumeAt report s
  | .updConfirm p => Sys2Proof.Machine.execUpdConfirm p s
  | .updAbort p => Sys2Proof.Machine.execUpdAbort p s
  | .updStatus p => Sys2Proof.Machine.execUpdStatus p s
  | .certRead p => Sys2Proof.Machine.execCertRead p s
  | .certInstall p => Sys2Proof.Machine.execCertInstall p s
  | .oemKeyInstall p => Sys2Proof.Machine.execOemKeyInstall p s
  | .signChallenge p => Sys2Proof.Machine.execSignChallenge p s
  | .linkStatus p => Sys2Proof.Machine.execLinkStatus p s
  | .nodeForward p => Sys2Proof.Machine.execNodeForward p s
  | .jobStatus p => Sys2Proof.Machine.execJobStatus p s
  | .jobPause p => Sys2Proof.Machine.execJobPause p s
  | .jobResume p => Sys2Proof.Machine.execJobResume p s
  | .jobCancel p => Sys2Proof.Machine.execJobCancel p s
  | .jobCheckpoint job progress => Sys2Proof.Machine.execJobCheckpoint job progress s
  | .jobEnd job end_ => Sys2Proof.Machine.execJobEnd job end_ s
  | .schedCancel p => Sys2Proof.Machine.execSchedCancel p s
  | .badOpcode opcode p => Sys2Proof.Machine.execBadOpcode opcode p s
  | .packetDiscard bytes => Sys2Proof.Machine.execPacketDiscard bytes s
  | .uartByteGap => Sys2Proof.Machine.execUartByteGap s
  | .spiRead transfer => Sys2Proof.Machine.execSpiRead transfer s
  | .sessionIdleTimeout session => Sys2Proof.Machine.execSessionIdleTimeout session s
  | .smokerCalm => Sys2Proof.Machine.execSmokerCalm s
  | .tickBoundary => Sys2Proof.Machine.execTickBoundary s
  | .scheduledCommandApply => Sys2Proof.Machine.execScheduledCommandApply s
  | .windDownComplete slot => Sys2Proof.Machine.execWindDownComplete slot s
  | .inputDeadline => Sys2Proof.Machine.execInputDeadline s
  | .substLimitReached ch => Sys2Proof.Machine.execSubstLimitReached ch s
  | .binSample bin => Sys2Proof.Machine.execBinSample bin s
  | .aerationHoldEnd bin => Sys2Proof.Machine.execAerationHoldEnd bin s
  | .fanKickEnd fan => Sys2Proof.Machine.execFanKickEnd fan s
  | .fanStartTimeout fan => Sys2Proof.Machine.execFanStartTimeout fan s
  | .fanPauseEnd fan => Sys2Proof.Machine.execFanPauseEnd fan s
  | .fanSpeedFaultTimer fan => Sys2Proof.Machine.execFanSpeedFaultTimer fan s
  | .fanSupplyShort fan => Sys2Proof.Machine.execFanSupplyShort fan s
  | .summaryCut => Sys2Proof.Machine.execSummaryCut s
  | .summaryFlashWrite programOk healthOk => Sys2Proof.Machine.execSummaryFlashWrite programOk healthOk s
  | .tickCommit => Sys2Proof.Machine.execTickCommit s
  | .inrecSegmentBoundary => Sys2Proof.Machine.execInrecSegmentBoundary s
  | .tickRedo fault => Sys2Proof.Machine.execTickRedo fault s
  | .lagRestart report => Sys2Proof.Machine.execLagRestart report s
  | .eccCorrected page address => Sys2Proof.Machine.execEccCorrected page address s
  | .eccUncorrectableCommitted fault => Sys2Proof.Machine.execEccUncorrectableCommitted fault s
  | .sramScrub page => Sys2Proof.Machine.execSramScrub page s
  | .pageRetire page => Sys2Proof.Machine.execPageRetire page s
  | .tickCheckpoint => Sys2Proof.Machine.execTickCheckpoint s
  | .fineClockLock => Sys2Proof.Machine.execFineClockLock s
  | .crystalFailSet => Sys2Proof.Machine.execCrystalFailSet s
  | .crystalFailClear => Sys2Proof.Machine.execCrystalFailClear s
  | .hostResetNAssert => Sys2Proof.Machine.execHostResetNAssert s
  | .bootStart cause report => Sys2Proof.Machine.execBootStart cause report s
  | .hostWake => Sys2Proof.Machine.execHostWake s
  | .vinPowerOn millivolts uart => Sys2Proof.Machine.execVinPowerOn millivolts uart s
  | .vinPowerFail => Sys2Proof.Machine.execVinPowerFail s
  | .vinThresholdCrossing crossing millivolts => Sys2Proof.Machine.execVinThresholdCrossing crossing millivolts s
  | .vioLow inPacket => Sys2Proof.Machine.execVioLow inPacket s
  | .vfldUvloEntry bank millivolts => Sys2Proof.Machine.execVfldUvloEntry bank millivolts s
  | .vfldUvloReturn bank millivolts => Sys2Proof.Machine.execVfldUvloReturn bank millivolts s
  | .vfldLowSet bank millivolts => Sys2Proof.Machine.execVfldLowSet bank millivolts s
  | .vfldLowClear bank millivolts => Sys2Proof.Machine.execVfldLowClear bank millivolts s
  | .vfanCrossing crossing millivolts => Sys2Proof.Machine.execVfanCrossing crossing millivolts s
  | .bankInService bank report => Sys2Proof.Machine.execBankInService bank report s
  | .bankUplinkFrame source frame => Sys2Proof.Machine.execBankUplinkFrame source frame s
  | .baseRefreshFrame dest intact => Sys2Proof.Machine.execBaseRefreshFrame dest intact s
  | .updateRefreshFrame bank ch => Sys2Proof.Machine.execUpdateRefreshFrame bank ch s
  | .bankGuardExpiry bank => Sys2Proof.Machine.execBankGuardExpiry bank s
  | .bankGuardRelease bank => Sys2Proof.Machine.execBankGuardRelease bank s
  | .bankFailure bank cause => Sys2Proof.Machine.execBankFailure bank cause s
  | .bankRestart bank passed => Sys2Proof.Machine.execBankRestart bank passed s
  | .loadClassUpdate bank unseen => Sys2Proof.Machine.execLoadClassUpdate bank unseen s
  | .diEdgeAccepted ch rise fine => Sys2Proof.Machine.execDiEdgeAccepted ch rise fine s
  | .stuckDetect ch => Sys2Proof.Machine.execStuckDetect ch s
  | .countZeroTimeout ch => Sys2Proof.Machine.execCountZeroTimeout ch s
  | .doOverloadTrip ch => Sys2Proof.Machine.execDoOverloadTrip ch s
  | .doBackfeedTrip ch switchedOn => Sys2Proof.Machine.execDoBackfeedTrip ch switchedOn s
  | .pairImbalanceTrip ch => Sys2Proof.Machine.execPairImbalanceTrip ch s
  | .openLoadDetect ch => Sys2Proof.Machine.execOpenLoadDetect ch s
  | .aoiOpenLoop ch => Sys2Proof.Machine.execAoiOpenLoop ch s
  | .aovCurrentLimitTrip ch => Sys2Proof.Machine.execAovCurrentLimitTrip ch s
  | .doPulsePeriodEnd ch => Sys2Proof.Machine.execDoPulsePeriodEnd ch s
  | .excCurrentApply ch => Sys2Proof.Machine.execExcCurrentApply ch s
  | .probeSweepStart probe => Sys2Proof.Machine.execProbeSweepStart probe s
  | .sweepRecord probe meas => Sys2Proof.Machine.execSweepRecord probe meas s
  | .combRoundStart line meas => Sys2Proof.Machine.execCombRoundStart line meas s
  | .combRoundRecord line meas => Sys2Proof.Machine.execCombRoundRecord line meas s
  | .combMissLimit line position => Sys2Proof.Machine.execCombMissLimit line position s
  | .combLineShort ch => Sys2Proof.Machine.execCombLineShort ch s
  | .combLineBackfeed ch => Sys2Proof.Machine.execCombLineBackfeed ch s
  | .loopInputLossFault loop => Sys2Proof.Machine.execLoopInputLossFault loop s
  | .profInputLossFault prof => Sys2Proof.Machine.execProfInputLossFault prof s
  | .churnFadeEnd churn => Sys2Proof.Machine.execChurnFadeEnd churn s
  | .obsInputLossFault column => Sys2Proof.Machine.execObsInputLossFault column s
  | .programStepTimeout prog => Sys2Proof.Machine.execProgramStepTimeout prog s
  | .programInputLoss prog => Sys2Proof.Machine.execProgramInputLoss prog s
  | .programAction prog => Sys2Proof.Machine.execProgramAction prog s
  | .chainProveTimeout chain member => Sys2Proof.Machine.execChainProveTimeout chain member s
  | .chainMotionLoss chain member => Sys2Proof.Machine.execChainMotionLoss chain member s
  | .chainPurgeEnd chain member => Sys2Proof.Machine.execChainPurgeEnd chain member s
  | .housekeepingRound meas => Sys2Proof.Machine.execHousekeepingRound meas s
  | .thermalShutdown => Sys2Proof.Machine.execThermalShutdown s
  | .thermalAbort135 site tenths => Sys2Proof.Machine.execThermalAbort135 site tenths s
  | .phyLinkUp port amplitude => Sys2Proof.Machine.execPhyLinkUp port amplitude s
  | .phyLinkDown port => Sys2Proof.Machine.execPhyLinkDown port s
  | .xistaFrameDiscard port reason => Sys2Proof.Machine.execXistaFrameDiscard port reason s
  | .xistaRelay port => Sys2Proof.Machine.execXistaRelay port s
  | .helloTimer => Sys2Proof.Machine.execHelloTimer s
  | .hello port msg => Sys2Proof.Machine.execHello port msg s
  | .challenge port msg => Sys2Proof.Machine.execChallenge port msg s
  | .proof port msg => Sys2Proof.Machine.execProof port msg s
  | .proofTimeout node => Sys2Proof.Machine.execProofTimeout node s
  | .admission port queenTick queenFine => Sys2Proof.Machine.execAdmission port queenTick queenFine s
  | .refuse port target reason => Sys2Proof.Machine.execRefuse port target reason s
  | .syncReqTimer => Sys2Proof.Machine.execSyncReqTimer s
  | .syncReq node arrivalFine replyFine => Sys2Proof.Machine.execSyncReq node arrivalFine replyFine s
  | .syncResp q1 q2 s2 => Sys2Proof.Machine.execSyncResp q1 q2 s2 s
  | .tickLengthen => Sys2Proof.Machine.execTickLengthen s
  | .nodeJoin node => Sys2Proof.Machine.execNodeJoin node s
  | .subscribe fromTick cells => Sys2Proof.Machine.execSubscribe fromTick cells s
  | .cells node entries => Sys2Proof.Machine.execCells node entries s
  | .remoteCellApply => Sys2Proof.Machine.execRemoteCellApply s
  | .xistaCommand cmd => Sys2Proof.Machine.execXistaCommand cmd s
  | .xistaReply node reply => Sys2Proof.Machine.execXistaReply node reply s
  | .linkReplyTimeout node => Sys2Proof.Machine.execLinkReplyTimeout node s
  | .xistaStatus node msg => Sys2Proof.Machine.execXistaStatus node msg s
  | .leave node reason => Sys2Proof.Machine.execLeave node reason s
  | .linkLossTimeout node => Sys2Proof.Machine.execLinkLossTimeout node s
  | .nodeLost node => Sys2Proof.Machine.execNodeLost node s
  | .queenSmokerFeed => Sys2Proof.Machine.execQueenSmokerFeed s
  | .vioReturn => Sys2Proof.Machine.execVioReturn s
  | .fanGuardExpiry => Sys2Proof.Machine.execFanGuardExpiry s

end Sys2Proof.Machine
end

