-- ==== Sys2Proof/Safety.lean ====
section
/-! DEFINITION. The terms that claims use: the limits the spec sets to what the module holds at one time, and when a command
packet is carried out by the module itself and what follows then. -/

namespace Sys2Proof.Machine

/-- At most 4 sessions, 256 scheduled commands, 256 event records and 8 jobs exist at one time (R63, R69, R78, R79). Of the
256 places of the event queue the last is taken only by EVENT_OVERFLOW, whose episode `overflowed` notes. -/
structure Bounded (s : State) : Prop where
  sessions : s.host.sessions.length ≤ 4
  sched    : s.sched.length ≤ 256
  events   : s.host.events.length ≤ (if s.host.overflowed then 256 else 255)
  jobs     : s.jobs.length ≤ 8

/-- What a module without power keeps: its logic domain does not run, no activation waits, and the tick is not beyond the one
that the next power-on begins with (R89). -/
def ClockKept (s : State) : Prop :=
  s.vinOn = false → s.host.alive = false ∧ s.upd.activateAt = none ∧ s.tick ≤ s.checkpoint.1 + 131072

/-- The module itself carries out packet `p` as the command of row `r`, with effective tick `e`: the interface listens and
has a buffer and takes the LENGTH (R51, R55, R56), R60 accepts the packet, its tag is right (R66), nothing in its form bars it
(R57, R64, R68, R74), its handles are handles (R18) and name no other node (R73), its ETICK is good (R68), and no calm refuses
it (R85). -/
structure Runs (s : State) (p : Packet) (code : Nat) (r : OpInfo) (e : Nat) : Prop where
  row     : opInfo code = some r
  listens : s.hostListens = true
  alive   : s.host.alive = true
  buffer  : s.host.line.length < 3
  length  : (s.host.uart && !uartLength p.payload.length p.auth) = false
  fresh   : s.arrival p (r.cls != .n) = .accepted
  tag     : s.tagFails p (BitVec.ofNat 16 r.code) = false
  form    : s.formBars r p.etv (p.auth && (s.keyOf p).isSome) p.data = none
  known   : badHandle r.code p.data = none
  here    : foreignNode r.code p.data = .ok none
  tick    : (if r.et then effectiveTick s.tick p.etv p.etick.toNat else .ok s.tick) = .ok e
  calm    : ¬(r.calm = true ∧ s.smoker.calmed = true)

/-- The tick of work has committed, the waiting command `x` is the first that falls due at the next boundary, and no calm takes
effect there or discards it (R69, R85, R87). -/
structure FallsDue (s : State) (x : Sched) : Prop where
  runs      : s.logicRuns = true
  committed : s.committed = true
  first     : (dueCommands s.sched (s.workTick + 1)).head? = some x
  calms     : s.calmsAt (s.workTick + 1) = false
  due       : s.smoker.due = none
  kept      : s.calmDrops x = false

/-- The context in which a packet's meaning runs. -/
def hostCtx (s : State) (p : Packet) (r : OpInfo) (e : Nat) : Ctx :=
  { who := .session p.session, sid := p.session, schedSid := p.session, seq := p.seq, opcode := BitVec.ofNat 16 r.code
    etick := e, etv := p.etv, auth := p.auth && (s.keyOf p).isSome, needed := s.needsAuth (s.opClass r), data := p.data }

/-- The reply to such a packet with answer `a`: SEQ, opcode and session as received, ETICK for an opcode that has one, a
tag when the command carried AUTH (R57, R59, R66). -/
def replyTo (s : State) (p : Packet) (r : OpInfo) (e : Nat) (a : Answer) : Reply :=
  makeReply p.session p.seq (BitVec.ofNat 16 r.code) (s.tagKey p) (replyTick r a e) a

/-- The state when such a packet has had the effect `u` and been answered: acceptance (R60, R84), the reply kept for a
retransmission (R61), the reply given in its order (R62). -/
def replied (s : State) (p : Packet) (r : OpInfo) (e : Nat) (a : Answer) (u : State) : State :=
  ((u.accept p).cacheReply (replyTo s p r e a)).produce (replyTo s p r e a)

/-- The state with the command of packet `p` waiting for tick `e` (R69). -/
def scheduled (s : State) (p : Packet) (r : OpInfo) (e : Nat) : State :=
  { s with sched := s.sched ++
      [⟨e, p.session, p.seq, BitVec.ofNat 16 r.code, p.data, s.needsAuth (s.opClass r)⟩] }

/-- A new job of packet `p`, queued with a free handle (R79). -/
def queuedJob (s : State) (p : Packet) (r : OpInfo) : Job :=
  { handle := freshId (Config.draw s.draws) (sortNats (s.jobs.map (·.handle)))
    session := some p.session, opcode := BitVec.ofNat 16 r.code, state := .queued, progress := 0, status := 0, detail := 0
    etick := none, wanted := 0, wantedSet := false, args := p.data, out := [], data := [], pauseDue := false
    cancelDue := false, started := 0 }

/-- The state with a job created, and the runner called (R79, R80). -/
def withJob (s : State) (j : Job) : State := ({ s with draws := s.draws + 1, jobs := s.jobs ++ [j] } : State).dispatchJobs

/-- A payload in the list form of R477: a count of 1 to `max`, and that many 2-byte entries. -/
abbrev IsList (max : Nat) (d : List Byte) : Prop :=
  d ≠ [] ∧ (d.headD 0).toNat ≠ 0 ∧ (d.headD 0).toNat ≤ max ∧ d.tail.length = 2 * (d.headD 0).toNat

/-- The entries of such a payload. -/
def listOf (d : List Byte) : List Nat := (List.range (d.headD 0).toNat).map (fun i => field d.tail (2 * i) 2)

end Sys2Proof.Machine
end

