-- ==== Sys2Proof/WellFormed.lean ====
section
/-! DEFINITION. Which commands can occur: operands within the fields of the packets, frames and records that carry them. -/

namespace Sys2Proof

/-- A command packet: LENGTH is a 16-bit field (Table 02-5). -/
def Packet.wf (p : Packet) : Bool := decide (p.payload.length < 65536)

/-- A number within a field of `n` bits. -/
def fits (n v : Nat) : Bool := decide (v < 2 ^ n)

/-- A signed number within a field of `n` bits. -/
def fitsInt (n : Nat) (v : Int) : Bool := decide (-(2 ^ (n - 1)) ≤ v ∧ v < 2 ^ (n - 1))

/-- A conversion: int24 codes (Table 03-6). -/
def Conv.wf (c : Conv) : Bool := fitsInt 24 c.coarse && fitsInt 24 c.fine

/-- The measurements of a channel. -/
def ChanMeas.wf (m : ChanMeas) : Bool := decide (m.ch < 128) && m.convs.all Conv.wf

/-- The measurements of a fan port (Table 10-1). -/
def FanMeas.wf (m : FanMeas) : Bool :=
  decide (m.port < 8) && fits 8 m.edges && fits 16 m.fine && fits 16 m.vOut && fits 16 m.iOut

/-- An uplink frame. -/
def Uplink.wf (f : Uplink) : Bool := f.meas.all ChanMeas.wf && f.fans.all FanMeas.wf && fits 16 f.vfld

/-- What a start finds: pages, banks, fan ports, link ports, lines and supplies that exist. -/
def BootReport.wf (r : BootReport) : Bool :=
  r.pagesFailed.all (fun x => decide (x < 2048)) && r.banksFailed.all (fun x => decide (x < 16)) &&
    r.fansFailed.all (fun x => decide (x < 8)) && r.linksFailed.all (fun x => decide (x < 2)) &&
    r.combsFailed.all (fun x => decide (x < 64)) && r.supplies.all (fun e => decide (e.1 ≤ 16) && fits 16 e.2)

/-- What a bank reports: channels and groups, probes and sets that exist, a 16-bit supply measurement. -/
def BankReport.wf (r : BankReport) : Bool :=
  (r.fieldRecBad ++ r.factoryBad).all (fun e => decide (e.1 < 128)) &&
    r.probeSetBad.all (fun e => decide (e.1 < 64 ∧ e.2 < 4)) && fits 16 r.vfld

/-- A housekeeping round: six sites and sixteen banks (R427). -/
def HkMeas.wf (m : HkMeas) : Bool := decide (m.sites.length = 6 ∧ m.vfld.length = 16)

/-- HELLO (R346). -/
def HelloMsg.wf (m : HelloMsg) : Bool :=
  decide (m.serial.length = 16 ∧ m.nonce.length = 16 ∧ m.key.length = 64 ∧ m.oemHash.length = 32) && fits 8 m.role &&
    fits 16 m.certs.length

/-- CHALLENGE (R346). -/
def ChallengeMsg.wf (m : ChallengeMsg) : Bool :=
  decide (m.target.length = 16 ∧ m.nonce.length = 16 ∧ m.key.length = 64 ∧ m.oemHash.length = 32 ∧
    m.signature.length = 64) && fits 8 m.node && fits 16 m.certs.length

/-- PROOF (R346). -/
def ProofMsg.wf (m : ProofMsg) : Bool := decide (m.serial.length = 16 ∧ m.signature.length = 64)

/-- An entry of a CELLS message (R353): this forager's cell, a 48-bit stamp. -/
def CellEntry.wf (e : CellEntry) : Bool := fits 13 e.index && fits 48 e.stamp && fits 8 e.quality && fits 8 e.type

/-- A job handle (R79). -/
def jobHandle (h : Nat) : Bool := decide (h ≠ 0) && fits 16 h

/-- A place of an uncorrectable error. -/
def EccPlace.wf : EccPlace → Bool
  | .system r => r.wf
  | .heldSummary n => fits 32 n
  | .flashSummary _ n => fits 32 n
  | _ => true

/-- A measured line current (Table 07-1: the limit is at most 90 mA). -/
def ReadSlot.wf (r : ReadSlot) : Bool := fits 24 r.baseUa && fits 24 r.pulseUa

/-- The answers of a round: at most 48 nodes on a line, at most 64 read slots for one of them (Table 07-4). -/
def RoundMeas.wf (m : RoundMeas) : Bool :=
  decide (m.answers.length ≤ 48) && m.answers.all (fun a => decide (a.length ≤ 64) && a.all ReadSlot.wf) && m.presence.wf

/-- The packet of a command that carries one. -/
def Instr.packet : Instr → Option Packet
  | .ping p | .identify p | .sessionOpen p | .sessionClose p | .authBegin p | .authProve p | .lock p | .unlock p
  | .setBaud p | .smokerFeed p | .smokerClear p | .irqStatus p | .irqAck p | .readEvents p | .getTick p
  | .setWallTime p | .powerState p | .restart p | .paramRead p | .paramWrite p | .paramReadBlock p
  | .paramWriteBlock p | .prgGoto p | .churnClear p | .bootRetry p | .unitStatus p | .unitStart p | .unitStop p
  | .unitManual p | .unitAuto p | .unitClearFault p | .unitSetManualValue p | .channelService p | .unitList p
  | .cellRead p | .cellWrite p | .cellForce p | .cellRelease p | .cellResetExtremes p | .cfgBegin p | .cfgCommit p
  | .cfgRevert p | .cfgList p | .cfgDiscard p | .cfgExportSuccession p | .cfgImportSuccession p | .bankDiagRead p
  | .stampFifoRead p | .calRun p | .probeCal p | .combEnumerate p | .combNodemapRead p | .recFreeze p | .recThaw p
  | .recRead p | .recClear p | .recStatus p | .replayLoad p | .replayRun p | .replayResult p | .inputRecordRead p
  | .updBegin p | .updBlock p | .updVerify p | .updActivate p | .updConfirm p | .updAbort p | .updStatus p
  | .certRead p | .certInstall p | .oemKeyInstall p | .signChallenge p | .linkStatus p | .nodeForward p
  | .jobStatus p | .jobPause p | .jobResume p | .jobCancel p | .schedCancel p | .badOpcode _ p => some p
  | _ => none

/-- The operands of an event within their fields. -/
def Instr.operandsOk : Instr → Bool
  | .cfgValidationDone job => jobHandle job
  | .calRunDone job _ _ => jobHandle job
  | .probeCalDone job _ => jobHandle job
  | .combEnumerateDone job _ answers => jobHandle job && answers.all (fun a => decide (a.length ≤ 56) && a.all ReadSlot.wf)
  | .updVerifyDone job => jobHandle job
  | .activationPause resumeAt report => fits 48 resumeAt && report.wf
  | .jobCheckpoint job progress => jobHandle job && decide (progress ≤ 1000)
  | .jobEnd job _ => jobHandle job
  | .tickRedo f => f.report.wf
  | .lagRestart r => r.wf
  | .eccUncorrectableCommitted f => f.place.wf
  | .bootStart _ r => r.wf
  | .vinPowerOn mv _ => fits 16 mv
  | .vinThresholdCrossing _ mv => fits 16 mv
  | .vfldUvloEntry _ mv => fits 16 mv
  | .vfldUvloReturn _ mv => fits 16 mv
  | .vfldLowSet _ mv => fits 16 mv
  | .vfldLowClear _ mv => fits 16 mv
  | .vfanCrossing _ mv => fits 16 mv
  | .bankInService _ r => r.wf
  | .bankUplinkFrame _ f => f.wf
  | .loadClassUpdate _ unseen => decide (unseen.length ≤ 1024) && unseen.all (fits 32)
  | .diEdgeAccepted _ _ fine => fits 16 fine
  | .combRoundRecord _ m => m.wf
  | .housekeepingRound m => m.wf
  | .hello _ m => m.wf
  | .challenge _ m => m.wf
  | .proof _ m => m.wf
  | .admission _ queenTick queenFine => fits 48 queenTick && fits 16 queenFine
  | .refuse _ target reason => decide (target.length = 16) && fits 8 reason
  | .syncReq _ a b => fits 16 a && fits 16 b
  | .subscribe fromTick refs => fits 48 fromTick && fits 16 refs.length
  | .cells _ entries => entries.all CellEntry.wf
  | .xistaCommand c => c.packet.wf
  | .leave _ reason => fits 8 reason
  | _ => true

/-- A well-formed command. -/
def Instr.wf (i : Instr) : Bool :=
  i.operandsOk && (match i.packet with | some p => p.wf | none => true)

end Sys2Proof
end

