-- ==== Sys2Proof/Certificates/Slice0/Obligations.lean ====
section
/-! DEFINITION. The statements for the provers, over the machine's own names: what every family of commands does, when it
completes, what it leaves, and what every step keeps. -/

open Sys2Proof Sys2Proof.Machine

/-- A step takes the command at the front of the queue and runs it with the queue's rest; an empty queue idles (log
entry 1: the model's choice). -/
def Obligations.StepRunsFront : Prop :=
  (∀ (c : Instr) (rest : List Instr) (s : State), s.pending = c :: rest → step s = exec c { s with pending := rest }) ∧
    (∀ s : State, s.pending = [] → step s = .next s)

/-- Every command of the table has an effect in every state: no fault and no refusal. -/
def Obligations.EveryCommandRuns : Prop :=
  ∀ (c : Instr) (s : State), ∃ t, exec c s = .next t

/-- What reset leaves: the cause register 0x00000C00, power state WATCH, generation 1 with the empty content active,
no session, no job, no scheduled command, memory pages as Table 03-3, the throttle factor 1.0, the UART rate 115,200;
the cells read VALUE 0 and OFFLINE. The start that State.reset follows is the model's choice (log entry 2). The limits
of R63, R69, R78 and R79 hold after reset (`Bounded`), and so does the clock's part of the invariant (`ClockKept`). -/
def Obligations.ResetState : Prop :=
  (State.reset.host.cause = 0x00000C00#32 ∧ State.reset.power = .watch ∧ State.reset.activeGen = 1 ∧
    State.reset.content = [] ∧ State.reset.host.sessions = [] ∧ State.reset.jobs = [] ∧ State.reset.sched = [] ∧
    State.reset.sram.regions = [256, 256, 256, 16, 64, 256, 48, 64, 64, 128, 128, 16] ∧
    State.reset.hk.throttle = 0x3F800000#32 ∧ State.reset.host.baud = 115200 ∧ State.reset.pending = [] ∧
    (∀ ref, (State.reset.view.cell ref).own.value = 0 ∧ (State.reset.view.cell ref).own.quality = 7)) ∧
  (Bounded State.reset) ∧
  (ClockKept State.reset)

/-- Every step keeps the limits of R63, R69, R78 and R79: at most 4 sessions, 256 scheduled commands, 255 event
records beside the kept place of EVENT_OVERFLOW, and 8 jobs exist, whatever the command at the front is. -/
def Obligations.StepKeepsBounded : Prop :=
  ∀ s t : State, Bounded s → step s = .next t → Bounded t

/-- The tick counter never goes backwards (R89): no step lowers it in a state that keeps `ClockKept`, and every step
keeps `ClockKept`; a boundary of a multiple of 65,536 ticks and the loss of power write the tick to the checkpoint;
power-on begins 131,072 ticks after the checkpoint, above every tick before the loss; without power the counter
stands. -/
def Obligations.TickNeverGoesBack : Prop :=
  (∀ s t, ClockKept s → step s = .next t → s.tick ≤ t.tick ∧ ClockKept t) ∧
  (∀ s, s.vinOn = true → (s.tick + 1) % 65536 = 0 →
    ∃ t, exec .tickBoundary s = .next t ∧ t.checkpoint.1 = s.tick + 1) ∧
  (∀ s mv uart, s.vinOn = true → 16600 ≤ mv →
    ∃ t u, exec .vinPowerFail s = .next t ∧ t.checkpoint = (s.tick, s.wallDiff) ∧
      exec (.vinPowerOn mv uart) t = .next u ∧ u.tick = t.checkpoint.1 + 131072 ∧ s.tick < u.tick) ∧
  (∀ s, s.vinOn = false → exec .tickBoundary s = .next s)

/-- PING echoes its payload; IDENTIFY, GET_TICK and IRQ_STATUS answer with what the module is, the tick with the wall
time, and the cause register with the mask. None of them changes anything beside the interface. IRQ_ACK clears the
bits written as 1. -/
def Obligations.PlainReadsAnswer : Prop :=
  ((∀ s p r e, Runs s p 0x0001 r e → p.data.length ≤ 64 → exec (.ping p) s = .next (replied s p r e (okData p.data) s)) ∧
    (∀ s p r e, Runs s p 0x0002 r e → p.data = [] →
      exec (.identify p) s = .next (replied s p r e (okData s.identity) s)) ∧
    (∀ s p r e, Runs s p 0x000F r e → p.data = [] →
      exec (.getTick p) s = .next (replied s p r e (okData (le 6 s.tick ++ leInt 8 (s.tick + s.wallDiff))) s)) ∧
    (∀ s p r e, Runs s p 0x000C r e → p.data = [] →
      exec (.irqStatus p) s = .next (replied s p r e (okData (le 4 s.host.cause.toNat ++ le 4 s.irqMask)) s))) ∧
  ((∀ s p r e, Runs s p 0x000D r e → p.data.length = 4 →
    exec (.irqAck p) s = .next (replied s p r e okAns { s with
      host := { s.host with cause := s.host.cause &&& ~~~BitVec.ofNat 32 (field p.data 0 4) } })))

/-- The event queue (R78): while fewer than 255 records are queued an event takes the next place and sets its bit; at
255 it is counted as lost, and the first such loss puts EVENT_OVERFLOW, HANDLE 0xFFFF, into the kept place; the
pending bit is set either way (R83). READ_EVENTS returns the lost count and the oldest records, which it removes, and
a queue that has come below 255 records begins a new episode. A record has the 16 bytes of Table 02-11. -/
def Obligations.EventQueue : Prop :=
  (∀ (s : State) cause handle code data, cause < 15 → (s.raise cause handle code data).host.cause.getLsbD cause = true) ∧
  (∀ (s : State) cause handle code data, s.host.events.length < 255 →
    (s.raise cause handle code data).host.events =
      s.host.events ++ [⟨s.tick, cause, handle, code, BitVec.ofNat 32 data⟩] ∧
    (s.raise cause handle code data).host.lost = s.host.lost) ∧
  (∀ (s : State) cause handle code data, s.host.events.length = 255 → s.host.overflowed = false →
    (s.raise cause handle code data).host.events = s.host.events ++ [⟨s.tick, 14, 0xFFFF, 0, 0⟩] ∧
    (s.raise cause handle code data).host.lost = sat16 (s.host.lost + 1) ∧
    (s.raise cause handle code data).host.cause.getLsbD 14 = true) ∧
  (∀ (s : State) cause handle code data, 255 ≤ s.host.events.length → s.host.overflowed = true →
    (s.raise cause handle code data).host.events = s.host.events ∧
    (s.raise cause handle code data).host.lost = sat16 (s.host.lost + 1)) ∧
  (∀ s p r e, Runs s p 0x000E r e → p.data.length = 1 →
      let n := field p.data 0 1
      exec (.readEvents p) s = .next (replied s p r e
        (okData (le 2 s.host.lost ++ le 2 (s.host.events.take n).length ++ ((s.host.events.take n).map Event.bytes).flatten))
        { s with host := { s.host with
            events := s.host.events.drop n
            lost := 0
            overflowed := s.host.overflowed && decide (255 ≤ (s.host.events.drop n).length) } })) ∧
  (∀ e : Event, e.bytes = le 6 e.tick ++ [BitVec.ofNat 8 e.cause, 0] ++ le 2 e.handle ++ le 2 e.code ++ le 4 e.data.toNat)

/-- SESSION_OPEN adds one session, with a free non-zero ID that no other session and no waiting command has;
SESSION_CLOSE removes it. -/
def Obligations.SessionsOpenAndClose : Prop :=
  (∀ s p r e, Runs s p 0x0003 r e → p.data.length = 18 → s.host.sessions.length < 4 → s.sched.length ≤ 256 →
    (field p.data 16 2 = 0 ∨ (10 ≤ field p.data 16 2 ∧ field p.data 16 2 ≤ 3600)) →
    ∃ id : BitVec 16, id ≠ 0 ∧ (∀ x ∈ s.host.sessions, x.id ≠ id) ∧ (∀ x ∈ s.sched, x.session ≠ id) ∧
      exec (.sessionOpen p) s = .next (replied s p r e (okData (le 2 id.toNat)) { s with
        draws := s.draws + 1
        host := { s.host with sessions := s.host.sessions ++
          [{ id := id, label := p.data.take 16, idle := if field p.data 16 2 = 0 then 600 else field p.data 16 2
             expect := 1, lastSeq := 0, lastTick := s.tick, cached := none, awaits := false, nonce := none, key := none }] } })) ∧
    (∀ s p r e, Runs s p 0x0004 r e → p.data = [] →
      exec (.sessionClose p) s = .next (replied s p r e okAns (s.closeSession p.session false)) ∧
      (s.closeSession p.session false).session p.session = none)

/-- AUTH_BEGIN gives a nonce of 16 free bytes and keeps it; a proof that verifies gives the session its key and ends
the run of failures, any other is refused with AUTH_FAILED and counted, the third in a row bars AUTH_PROVE for 61,440
ticks; LOCK and UNLOCK set the lock while an OEM key is installed. -/
def Obligations.AuthorisationAndLock : Prop :=
  (∀ s p r e, Runs s p 0x0005 r e → p.data = [] →
    exec (.authBegin p) s = .next (replied s p r e (okData (s.drawBytes 16).1)
      ((s.drawBytes 16).2.modSession p.session (fun x => { x with nonce := some (s.drawBytes 16).1 })))) ∧
    (∀ s p r e, Runs s p 0x0006 r e → p.data.length = 128 → s.host.barUntil = none →
      exec (.authProve p) s = .next (match s.proveKey p.session p.data with
        | some k => replied s p r e okAns
            ((s.modSession p.session (fun x => { x with key := some k })).modHost (fun h => { h with authFails := 0 }))
        | none => (s.modHost (fun h => { h with
            authFails := h.authFails + 1
            barUntil := if 3 ≤ h.authFails + 1 then some (s.tick + 61440) else none })).produce
              (replyTo s p r e (refuse stAuthFailed)))) ∧
    (∀ s p r e, Runs s p 0x0007 r e → p.data = [] → s.id.oemKey.isSome →
      exec (.lock p) s = .next (replied s p r e okAns { s with id := { s.id with locked := true } })) ∧
    (∀ s p r e, Runs s p 0x0008 r e → p.data = [] → s.id.oemKey.isSome →
      exec (.unlock p) s = .next (replied s p r e okAns { s with id := { s.id with locked := false } }))

/-- SET_BAUD with a rate of R54, in UART: when no earlier command waits for its reply, the reply is sent and then the
new rate applies, with the 2 s that R54 gives it counted from now; when one waits, the reply waits behind it, and the
new rate waits with it. SMOKER_FEED has no effect beside being accepted. RESTART outside thermal shutdown stops the
logic domain after its reply, with start cause 2 to come: sessions, jobs and scheduled commands are gone, identity,
tick and active generation stay. -/
def Obligations.RateFeedRestart : Prop :=
  (∀ s p r e, Runs s p 0x0009 r e → p.data.length = 4 → field p.data 0 4 ∈ baudRates → s.host.line = [] →
    ∃ t, exec (.setBaud p) s = .next t ∧ t.host.baud = field p.data 0 4 ∧ t.host.baudAt = some s.tick ∧
      t.host.baudNext = none ∧ t.host.sent = s.host.sent ++ [replyTo s p r e okAns] ∧ t.smoker.last = s.tick ∧
      t = { s with host := t.host, smoker := t.smoker, link := t.link }) ∧
    (∀ s p r e, Runs s p 0x0009 r e → p.data.length = 4 → field p.data 0 4 ∈ baudRates → s.host.line ≠ [] →
      ∃ t, exec (.setBaud p) s = .next t ∧ t.host.baud = s.host.baud ∧ t.host.baudNext = some (field p.data 0 4) ∧
        t.host.line.length = s.host.line.length + 1 ∧ t.host.sent = s.host.sent ∧
        t = { s with host := t.host, smoker := t.smoker, link := t.link }) ∧
    (∀ s p r e, Runs s p 0x000A r e → p.data = [] → exec (.smokerFeed p) s = .next (replied s p r e okAns s)) ∧
    (∀ s p r e, Runs s p 0x0012 r e → p.data = [] → s.hk.shutdown = false → s.upd.fallbackDue = false →
      ∃ t, exec (.restart p) s = .next t ∧ t.host.alive = false ∧ t.boot.startDue = some 2 ∧ t.sched = [] ∧ t.jobs = [] ∧
        t.host.sessions = [] ∧ t.id = s.id ∧ t.tick = s.tick ∧ t.activeGen = s.activeGen)

/-- The effective tick of a command accepted in tick A (R68): A + 2 without ETV; with ETV the unique tick whose low 32
bits are ETICK in the window from A − 2^31 to A + 2^31 − 1, refused with TOO_LATE up to A + 1 and with TOO_FAR beyond
A + 2^30. For an opcode without an effective tick a set ETV is refused with BAD_FLAGS. -/
def Obligations.EffectiveTicks : Prop :=
  ((opTable.filter (·.et)).map (·.code) = [0x000B, 0x0010, 0x0011, 0x0102, 0x0104, 0x0202, 0x0203, 0x0204, 0x0205, 0x0206,
    0x0207, 0x0208, 0x0302, 0x0303, 0x0304, 0x0305, 0x0402, 0x0403, 0x0604]) ∧
  (∀ a low, effectiveTick a false low = .ok (a + 2)) ∧
  (∀ (a low : Nat) (e : Int), low < 2 ^ 32 → (a : Int) - 2 ^ 31 ≤ e → e ≤ a + 2 ^ 31 - 1 → e % 2 ^ 32 = low →
    effectiveTick a true low =
      if e ≤ a + 1 then .error stTooLate else if (a : Int) + 2 ^ 30 < e then .error stTooFar else .ok e.toNat) ∧
  (∀ (a low : Nat), low < 2 ^ 32 →
    ∃ e : Int, (a : Int) - 2 ^ 31 ≤ e ∧ e ≤ a + 2 ^ 31 - 1 ∧ e % 2 ^ 32 = low) ∧
  (∀ (s : State) (r : OpInfo) body c etv low st, r.et = true → effectiveTick s.tick etv low = .error st →
    s.runBody r body c s.tick etv low = (refuse st, s)) ∧
  (∀ (s : State) (r : OpInfo) body c etv low e, r.et = true → effectiveTick s.tick etv low = .ok e →
    (r.calm && s.smoker.calmed) = false → s.runBody r body c s.tick etv low = body s { c with etick := e }) ∧
  (∀ (s : State) (r : OpInfo) auth data, r.et = false → s.stateBars r.code = none → data.length ≤ 4096 →
    (r.code ≠ 0x0009 ∨ s.host.uart = true) → s.formBars r true auth data = some (refuse stBadFlags))

/-- Commands with an effective tick wait for it: SMOKER_CLEAR, SET_WALL_TIME, POWER_STATE, the unit actions,
CHANNEL_SERVICE, UNIT_SET_MANUAL_VALUE, CELL_WRITE, CELL_FORCE, CELL_RELEASE, CELL_RESET_EXTREMES and REC_CLEAR, each
under its own checks, are answered at once and join the waiting commands, and nothing else changes. A start, stop or
clear fault of the root hive also goes on to the grafted root hives. -/
def Obligations.CommandsScheduled : Prop :=
  ((∀ s p r e, Runs s p 0x000B r e → p.data = [] → s.sched.length < 256 →
    exec (.smokerClear p) s = .next (replied s p r e okAns (scheduled s p r e))) ∧
  (∀ s p r e, Runs s p 0x0010 r e → p.data.length = 8 → s.sched.length < 256 →
    exec (.setWallTime p) s = .next (replied s p r e okAns (scheduled s p r e))) ∧
  (∀ s p r e, Runs s p 0x0011 r e → p.data.length = 1 → field p.data 0 1 ≤ 3 → s.sched.length < 256 →
    (2 ≤ field p.data 0 1 → s.smoker.calmed = false) → (field p.data 0 1 = 0 → s.dormantBarred = false) →
    exec (.powerState p) s = .next (replied s p r e okAns (scheduled s p r e))) ∧
  (∀ s p r e, Runs s p 0x0202 r e → p.data.length = 2 → s.goodHandle (field p.data 0 2) = true →
    barStart s (field p.data 0 2) = none → s.sched.length < 256 →
    exec (.unitStart p) s = .next (replied s p r e okAns (if field p.data 0 2 = 0
      then (scheduled s p r e).actOnGrafts (hostCtx s p r e) else scheduled s p r e))) ∧
  (∀ s p r e, Runs s p 0x0203 r e → p.data.length = 2 → s.goodHandle (field p.data 0 2) = true →
    field p.data 0 2 ≠ hkSlot → s.sched.length < 256 →
    exec (.unitStop p) s = .next (replied s p r e okAns (if field p.data 0 2 = 0
      then (scheduled s p r e).actOnGrafts (hostCtx s p r e) else scheduled s p r e))) ∧
  (∀ s p r e, Runs s p 0x0204 r e → p.data.length = 2 → s.goodHandle (field p.data 0 2) = true →
    modeSlot s.content (field p.data 0 2) = true → s.sched.length < 256 →
    exec (.unitManual p) s = .next (replied s p r e okAns (scheduled s p r e))) ∧
  (∀ s p r e, Runs s p 0x0205 r e → p.data.length = 2 → s.goodHandle (field p.data 0 2) = true →
    modeSlot s.content (field p.data 0 2) = true → s.sched.length < 256 →
    exec (.unitAuto p) s = .next (replied s p r e okAns (scheduled s p r e))) ∧
  (∀ s p r e, Runs s p 0x0206 r e → p.data.length = 2 → s.goodHandle (field p.data 0 2) = true →
    field p.data 0 2 ≠ hkSlot → s.sched.length < 256 →
    exec (.unitClearFault p) s = .next (replied s p r e okAns (if field p.data 0 2 = 0
      then (scheduled s p r e).actOnGrafts (hostCtx s p r e) else scheduled s p r e))) ∧
  (∀ s p r e u, Runs s p 0x0207 r e → p.data.length = 10 → s.goodHandle (field p.data 0 2) = true →
    modeSlot s.content (field p.data 0 2) = true → modeTarget s.content 257 (field p.data 0 2) = some u →
    hasMode (slotKind u) = true → slotKind u ≠ 0x09 → firstSet p.data 6 4 = none →
    fFinite (BitVec.ofNat 32 (field p.data 2 4)) = true → (s.view.unit u).st = .manual → s.sched.length < 256 →
    exec (.unitSetManualValue p) s = .next (replied s p r e okAns (scheduled s p r e))) ∧
  (∀ s p r e, Runs s p 0x0208 r e → p.data.length = 3 → s.goodHandle (field p.data 0 2) = true →
    slotKind (field p.data 0 2) = 0x03 → field p.data 2 1 ≤ 1 → s.sched.length < 256 →
    exec (.channelService p) s = .next (replied s p r e okAns (scheduled s p r e)))) ∧
  ((∀ s p r e n, Runs s p 0x0302 r e → n ≠ 0 → n < 256 → field p.data 0 1 = n → p.data.length = 1 + 12 * n →
    (List.range n).findSome? (s.checkCell (hostCells s.content) p.data) = none → s.sched.length < 256 →
    exec (.cellWrite p) s = .next (replied s p r e okAns (scheduled s p r e))) ∧
  (∀ s p r e, Runs s p 0x0303 r e → p.data.length = 11 → s.written (field p.data 0 2) = true → field p.data 2 1 ≤ 4 →
    firstSet p.data (3 + usedBytes (field p.data 2 1)) (8 - usedBytes (field p.data 2 1)) = none → s.sched.length < 256 →
    exec (.cellForce p) s = .next (replied s p r e okAns (scheduled s p r e))) ∧
  (∀ s p r e, Runs s p 0x0304 r e → p.data.length = 2 → s.written (field p.data 0 2) = true → s.sched.length < 256 →
    exec (.cellRelease p) s = .next (replied s p r e okAns (scheduled s p r e))) ∧
  (∀ s p r e, Runs s p 0x0305 r e → IsList 255 p.data → (∀ x ∈ listOf p.data, s.written x = true) → s.sched.length < 256 →
    exec (.cellResetExtremes p) s = .next (replied s p r e okAns (scheduled s p r e))) ∧
  (∀ s p r e, Runs s p 0x0604 r e → p.data = [] → s.sched.length < 256 →
    exec (.recClear p) s = .next (replied s p r e { okAns with detail := if s.recorder.founding = [] then 0 else 1 }
      (scheduled s p r e))))

/-- Commands from a session (R61, R64, R86), shown for packets without flags: a repetition of the last SEQUENCE gets
the cached reply again and is not executed; a SEQUENCE that is neither the expected nor the last one is refused with
SEQUENCE and the low byte of the expected one, and nothing is executed; a class A opcode (LOCK) without authorisation
is refused with NOT_AUTHORISED; an opcode of the Calm column (UNIT_START) is refused with CALMED while the module is
calmed. -/
def Obligations.Refusals : Prop :=
  (∀ s p x r, s.hostListens = true → s.host.alive = true → s.host.line.length < 3 → p.version = 1#8 → p.flags = 0#8 →
    (s.host.uart = true → p.payload.length ≤ 4096) → p.session ≠ 0#16 → s.session p.session = some x → p.seq = x.lastSeq →
    p.seq ≠ x.expect → x.awaits = false → x.cached = some r →
    exec (.smokerClear p) s = .next ((s.acceptAgain p).produce r)) ∧
  (∀ s p x, s.hostListens = true → s.host.alive = true → s.host.line.length < 3 → p.version = 1#8 → p.flags = 0#8 →
    (s.host.uart = true → p.payload.length ≤ 4096) → p.session ≠ 0#16 → s.session p.session = some x → p.seq ≠ x.lastSeq →
    p.seq ≠ x.expect →
    exec (.smokerClear p) s = .next (s.produce
      (makeReply p.session p.seq 0x000B#16 none none (refuse stSequence (x.expect.toNat % 256))))) ∧
  (∀ s p, s.hostListens = true → s.host.alive = true → s.host.line.length < 3 → p.flags = 0#8 → p.payload.length ≤ 4096 →
    s.hk.shutdown = false → s.boot.hold = false → s.arrival p true = .accepted →
    exec (.lock p) s = .next (s.refusePacket p 0x0007#16 (refuse stNotAuthorised))) ∧
  (∀ s p, s.hostListens = true → s.host.alive = true → s.host.line.length < 3 → p.flags = 0#8 → p.payload.length = 2 →
    field p.payload 0 2 < 1024 → s.hk.shutdown = false → s.boot.hold = false → s.arrival p true = .accepted →
    s.id.locked = false → s.smoker.calmed = true →
    exec (.unitStart p) s = .next (s.refusePacket p 0x0202#16 (refuse stCalmed)))

/-- An opcode outside the table, in a packet without flags that its session accepts, is accepted and answered with
BAD_OPCODE, and has no other effect. -/
def Obligations.UnknownOpcode : Prop :=
  ∀ (s : State) (p : Packet) (code : BitVec 16), opInfo code.toNat = none → s.hostListens = true → s.host.alive = true →
    s.host.line.length < 3 → p.flags = 0 → (s.host.uart = true → p.payload.length ≤ 4096) →
    s.arrival p true = .accepted →
    exec (.badOpcode code p) s = .next (((s.accept p).cacheReply
      (makeReply p.session p.seq code none none (refuse stBadOpcode))).produce
        (makeReply p.session p.seq code none none (refuse stBadOpcode)))

/-- Every reply packet (R57 to R59): it begins with 0xB7 0x4D and version 1, repeats SEQ and OPCODE, has REPLY set in
FLAGS, its prefix begins with STATUS and DETAIL, and its last 4 bytes are the CRC-32C of the bytes before them. -/
def Obligations.ReplyPackets : Prop :=
  ∀ r : Reply, r.packet.take 3 = [0xB7, 0x4D, 0x01] ∧ (r.packet.getD 3 0).getLsbD 7 = true ∧
    (r.packet.getD 3 0).getLsbD 6 = r.etick.isSome ∧ (r.packet.getD 3 0).getLsbD 5 = r.auth ∧
    field r.packet 4 2 = r.seq.toNat ∧ field r.packet 6 2 = r.opcode.toNat ∧ field r.packet 10 2 = r.session.toNat ∧
    field r.packet 12 4 = r.etick.getD 0 % 2 ^ 32 ∧ r.packet.getD 16 0 = r.status ∧ r.packet.getD 17 0 = r.detail ∧
    field r.packet 18 2 = r.job.toNat ∧ (r.packet.drop 24).take r.data.length = r.data ∧
    r.packet.length = 28 + r.data.length + r.tag.length ∧ crcOkAt r.packet (r.packet.length - 4) = true

/-- UNIT_STATUS returns the status words of the units it names, and clears CMD_DROPPED and CAPACITY_CHANGED of each of
them. UNIT_LIST returns KIND and STATE of up to 1,000 slots from the first one, 0 and 0 for a vacant slot; CELL_READ
returns the 32 bytes of each cell; PARAM_READ_BLOCK returns the bytes asked for of the block; none of these changes
anything beside the interface. PARAM_READ of scalars that exist returns ID, INSTANCE, TYPE, status 0 and value of each
entry, and clears the two flags of a unit whose status word it reads. A parameter that takes effect at a tick reads as
it runs, one that takes effect at a commit as the sender's pending generation has it, or the active one. -/
def Obligations.UnitReads : Prop :=
  (∀ s p r e, Runs s p 0x0201 r e → IsList 255 p.data → (∀ h ∈ listOf p.data, s.slotExists h = true) →
    exec (.unitStatus p) s = .next (replied s p r e
      (okData ((listOf p.data).flatMap (fun h => le 4 (s.statusWord h)))) ((listOf p.data).foldl State.clearReadFlags s))) ∧
  (∀ s p r e, Runs s p 0x0209 r e → p.data.length = 2 → field p.data 0 2 ≤ 1023 →
    let first := field p.data 0 2
    let n := Nat.min 1000 (1024 - first)
    exec (.unitList p) s = .next (replied s p r e
      (okData (le 2 first ++ le 2 n ++ (List.range n).flatMap (fun i => if s.has (first + i)
        then [BitVec.ofNat 8 (headerOf s.content (first + i)).kind, BitVec.ofNat 8 (s.view.unit (first + i)).st.code]
        else [0, 0]))) s)) ∧
  (∀ s p r e, Runs s p 0x0301 r e → IsList 127 p.data → (∀ x ∈ listOf p.data, x < 8192) →
    exec (.cellRead p) s = .next (replied s p r e (okData ((listOf p.data).flatMap (s.cellBytes s.tick))) s) ∧
      ∀ x, (s.cellBytes s.tick x).length = 32) ∧
  (∀ s p r e t, Runs s p 0x0103 r e → p.data.length = 10 → field p.data 8 2 ≠ 0 →
    s.blockTarget (field p.data 0 2) (field p.data 2 2) (field p.data 4 4) (field p.data 8 2) = .ok t →
    exec (.paramReadBlock p) s = .next (replied s p r e
      (okData (bytesAt (s.readBlock (hostCtx s p r e) t) (field p.data 4 4) (field p.data 8 2))) s)) ∧
  (∀ s p r e n, Runs s p 0x0101 r e → 0 < n → n < 256 → p.data.headD 0 = BitVec.ofNat 8 n → p.data.length = 1 + 4 * n →
    let ids := (List.range n).map (fun i => (field p.data (1 + 4 * i) 2, field p.data (3 + 4 * i) 2))
    (∀ x ∈ ids, ∃ t code, s.resolve x.1 x.2 = .found t ∧ typeCode t.info.ty = some code) →
    ∃ rows : List (List Byte), exec (.paramRead p) s = .next (replied s p r e (okData rows.flatten)
        (ids.foldl (fun s x => if x.1 = P.UNIT_STATUS_WORD ∧ x.2 < 1024 then s.clearReadFlags x.2 else s) s)) ∧
      rows.length = n ∧ ∀ i t code, i < n → s.resolve (ids.getD i (0, 0)).1 (ids.getD i (0, 0)).2 = .found t →
        typeCode t.info.ty = some code →
        rows.getD i [] = le 2 (ids.getD i (0, 0)).1 ++ le 2 (ids.getD i (0, 0)).2 ++ [BitVec.ofNat 8 code, 0, 0, 0] ++
          le 8 (s.readScalar (hostCtx s p r e) t)) ∧
  (∀ (s : State) c t i, t.inst = some i → t.info.acc = .rw → t.info.eff = .tick →
    s.readScalar c t = runningOf s.view s.content t.info.id i) ∧
  (∀ (s : State) c t i, t.inst = some i → t.info.acc = .rw → t.info.eff = .commit →
    s.readScalar c t = scalarOf (match s.pendGen with
      | some p => if p.holder = c.sid then p.content else s.content
      | none => s.content) t.info.id i)

/-- The status word of a unit (R20, Table 01-2): KIND, STATE, FAULT_CODE that is 0 outside HOLD and FAULT, the flags
in their places, reserved fields 0; a vacant slot reads 0. -/
def Obligations.StatusWords : Prop :=
  (∀ (s : State) slot, (headerOf s.content slot).kind = 0 → s.statusWord slot = 0) ∧
  (∀ (s : State) slot, (headerOf s.content slot).kind ≠ 0 →
    let u := s.view.unit slot
    let w := s.statusWord slot
    w / 2 ^ 24 = (headerOf s.content slot).kind ∧ w % 16 = u.st.code ∧
      w / 256 % 256 = (if u.st = .hold ∨ u.st = .fault then u.faultCode % 256 else 0) ∧
      w.testBit 19 = u.cmdDropped ∧ w.testBit 18 = u.capChanged ∧ w.testBit 17 = u.inputSubst ∧
      w.testBit 16 = u.inputUnusable ∧ w.testBit 7 = u.memberFault ∧ w / 2 ^ 20 % 16 = 0 ∧ w / 16 % 8 = 0) ∧
  (∀ (s : State) slot,
    let v := (s.clearReadFlags slot).view.unit slot
    v = { s.view.unit slot with cmdDropped := false, capChanged := false })

/-- The transitions of a unit that is no hive by its actions (R23, Table 01-4): what each action leads to in each
state, where it is refused, and where it changes nothing. A comb line is not started while it is enumerated (R254). A
clear fault in FAULT leads to STOPPED, or is refused and leaves FAULT with its code. -/
def Obligations.UnitTransitions : Prop :=
  ∀ (s : State) (slot : Nat), slot ≠ hkSlot →
    ((s.unit slot).st = .stopped →
      ((slotKind slot ≠ 0x08 ∨ (s.fcomb (slotInst slot)).enumerating = false) →
        (s.actUnit slot .start).1 = true ∧ ((s.actUnit slot .start).2.unit slot).st = startedState s.content slot) ∧
      (slotKind slot = 0x08 → (s.fcomb (slotInst slot)).enumerating = true → s.actUnit slot .start = (false, s)) ∧
      s.actUnit slot .stop = (true, s) ∧ s.actUnit slot .clear = (true, s) ∧ s.actUnit slot .manual = (false, s) ∧
      s.actUnit slot .auto = (false, s)) ∧
    ((s.unit slot).st = .active ∨ (s.unit slot).st = .auto ∨ (s.unit slot).st = .manual →
      s.actUnit slot .start = (true, s) ∧ s.actUnit slot .clear = (true, s) ∧ (s.actUnit slot .stop).1 = true ∧
      (((s.actUnit slot .stop).2.unit slot).st = .stopping ∨ ((s.actUnit slot .stop).2.unit slot).st = .stopped) ∧
      (hasMode (slotKind slot) = true →
        (s.actUnit slot .manual).1 = true ∧ ((s.actUnit slot .manual).2.unit slot).st = .manual ∧
        (s.actUnit slot .auto).1 = true ∧ ((s.actUnit slot .auto).2.unit slot).st = .auto)) ∧
    ((s.unit slot).st = .stopping →
      (s.actUnit slot .start).1 = true ∧ ((s.actUnit slot .start).2.unit slot).st = (s.unit slot).resume ∧
      s.actUnit slot .stop = (true, s) ∧ s.actUnit slot .clear = (true, s) ∧ s.actUnit slot .manual = (false, s) ∧
      s.actUnit slot .auto = (false, s)) ∧
    ((s.unit slot).st = .hold ∨ (s.unit slot).st = .fault →
      s.actUnit slot .start = (false, s) ∧ s.actUnit slot .manual = (false, s) ∧ s.actUnit slot .auto = (false, s) ∧
      (s.actUnit slot .stop).1 = true ∧ ((s.actUnit slot .stop).2.unit slot).st = .stopped ∧
      ((s.actUnit slot .stop).2.unit slot).faultCode = 0) ∧
    ((s.unit slot).st = .hold → s.actUnit slot .clear = (false, s)) ∧
    ((s.unit slot).st = .fault →
      ((s.actUnit slot .clear).1 = true ∧ ((s.actUnit slot .clear).2.unit slot).st = .stopped) ∨
      ((s.actUnit slot .clear).1 = false ∧ ((s.actUnit slot .clear).2.unit slot).st = .fault ∧
        ((s.actUnit slot .clear).2.unit slot).faultCode = (s.unit slot).faultCode)) ∧
    (∀ v, (s.unit slot).st ≠ .manual → s.actUnit slot (.value v) = (false, s))

/-- A PARAM_WRITE whose entries pass their checks: when one of them takes effect at a tick or at the next start, the
command waits for its effective tick; those that take effect at a commit enter the sender's pending generation at
once. PRG_GOTO, CHURN_CLEAR and BOOT_RETRY are written by the same command. PARAM_WRITE_BLOCK of a writable block,
within its size, writes the bytes into the pending generation that the sender holds; a UNIT_HEADER only with KIND 0 or
the kind of its slot. -/
def Obligations.ParameterWrites : Prop :=
  (∀ s p r e n l, Runs s p 0x0102 r e → 0 < n → n < 256 → p.data.headD 0 = BitVec.ofNat 8 n → p.data.length = 1 + 14 * n →
    s.checkWrites (hostCtx s p r e) (List.range n) = .ok l → s.sched.length < 256 →
    let later := l.any (fun x => x.target.info.eff != .commit)
    let u := (l.filter (fun x => x.target.info.eff == .commit)).foldl (fun s x =>
      s.modPending (fun c => contentSetScalar c x.target.info.id (x.target.inst.getD 0) x.value))
      (if later then scheduled s p r e else s)
    exec (.paramWrite p) s = .next (replied s p r e okAns u) ∧ exec (.prgGoto p) s = .next (replied s p r e okAns u) ∧
      exec (.churnClear p) s = .next (replied s p r e okAns u) ∧ exec (.bootRetry p) s = .next (replied s p r e okAns u)) ∧
  (∀ s p r e t i, Runs s p 0x0104 r e → 8 ≤ p.data.length →
    s.blockTarget (field p.data 0 2) (field p.data 2 2) (field p.data 4 4) (p.data.length - 8) = .ok t →
    t.inst = some i → readOnly t.info i = false → s.holdsPending p.session = true →
    let now := overlay (s.readBlock (hostCtx s p r e) t) (field p.data 4 4) (p.data.drop 8)
    (t.info.id = P.UNIT_HEADER → field now 0 1 = 0 ∨ field now 0 1 = slotKind i) →
    exec (.paramWriteBlock p) s = .next (replied s p r e okAns (s.modPending (fun c =>
      contentSetBlock c t.info.id i now))))

/-- CFG_BEGIN copies the active content into the session's pending generation when no other session holds one;
CFG_DISCARD gives it up; CFG_LIST changes nothing beside the interface. -/
def Obligations.PendingGeneration : Prop :=
  (∀ s p r e, Runs s p 0x0401 r e → p.data = [] → (∀ g, s.pendGen = some g → g.holder = p.session) →
    exec (.cfgBegin p) s = .next (replied s p r e okAns { s with pendGen := some ⟨p.session, s.activeGen, s.content⟩ })) ∧
  (∀ s p r e, Runs s p 0x0405 r e → p.data = [] →
    exec (.cfgDiscard p) s = .next (replied s p r e okAns (s.dropPending (some p.session))) ∧
      (∀ g, (s.dropPending (some p.session)).pendGen = some g → g.holder ≠ p.session)) ∧
  (∀ s p r e, Runs s p 0x0404 r e → p.data = [] →
    exec (.cfgList p) s = .next (replied s p r e (okData s.cfgListBytes) s))

/-- Job opcodes create a job for the sender while fewer than 8 exist, answered ACCEPTED with its handle; the runner is
called. Each under its own checks of the payload. -/
def Obligations.JobsAreCreated : Prop :=
  (∀ s p r e, Runs s p 0x0402 r e → p.data = [] → s.holdsPending p.session = true → s.jobs.length < 8 →
    exec (.cfgCommit p) s = .next (replied s p r e ⟨stAccepted, 0, (queuedJob s p r).handle, [], none⟩
      (withJob s { queuedJob s p r with wanted := e, wantedSet := p.etv }))) ∧
  (∀ s p r e, Runs s p 0x0403 r e → p.data = [] → s.jobs.length < 8 →
    exec (.cfgRevert p) s = .next (replied s p r e ⟨stAccepted, 0, (queuedJob s p r).handle, [], none⟩
      (withJob s { queuedJob s p r with wanted := e, wantedSet := p.etv }))) ∧
  (∀ s p r e, Runs s p 0x0406 r e → p.data.length = 16 → s.jobs.length < 8 →
    exec (.cfgExportSuccession p) s = .next (replied s p r e ⟨stAccepted, 0, (queuedJob s p r).handle, [], none⟩
      (withJob s (queuedJob s p r)))) ∧
  (∀ s p r e, Runs s p 0x0407 r e → 8 ≤ p.data.length → field p.data 0 1 ≤ 3 → firstSet p.data 1 3 = none →
    field p.data 4 4 + (p.data.length - 8) ≤ bundleMax → s.jobs.length < 8 →
    exec (.cfgImportSuccession p) s = .next (replied s p r e ⟨stAccepted, 0, (queuedJob s p r).handle, [], none⟩
      (withJob s (queuedJob s p r)))) ∧
  (∀ s p r e, Runs s p 0x0503 r e → p.data.length = 12 → s.goodHandle (field p.data 0 2) = true →
    slotKind (field p.data 0 2) = 0x03 → firstSet p.data 10 2 = none → field p.data 2 1 ≤ 2 → field p.data 3 1 ≤ 2 →
    fFinite (BitVec.ofNat 32 (field p.data 4 4)) = true → 16 ≤ field p.data 8 2 → field p.data 8 2 ≤ 16384 →
    s.jobs.length < 8 →
    exec (.calRun p) s = .next (replied s p r e ⟨stAccepted, 0, (queuedJob s p r).handle, [], none⟩
      (withJob s (queuedJob s p r)))) ∧
  (∀ s p r e, Runs s p 0x0504 r e → p.data.length = 8 → s.goodHandle (field p.data 0 2) = true →
    slotKind (field p.data 0 2) = 0x07 → firstSet p.data 4 4 = none → field p.data 2 1 ≤ 3 → 1 ≤ field p.data 3 1 →
    field p.data 3 1 ≤ 64 → s.jobs.length < 8 →
    exec (.probeCal p) s = .next (replied s p r e ⟨stAccepted, 0, (queuedJob s p r).handle, [], none⟩
      (withJob s (queuedJob s p r)))) ∧
  (∀ s p r e, Runs s p 0x0505 r e → p.data.length = 4 → s.goodHandle (field p.data 0 2) = true →
    slotKind (field p.data 0 2) = 0x08 → firstSet p.data 2 2 = none → s.jobs.length < 8 →
    exec (.combEnumerate p) s = .next (replied s p r e ⟨stAccepted, 0, (queuedJob s p r).handle, [], none⟩
      (withJob s (queuedJob s p r)))) ∧
  (∀ s p r e, Runs s p 0x0602 r e → p.data.length = 12 → firstSet p.data 1 3 = none → firstSet p.data 10 2 = none →
    field p.data 0 1 ≤ 2 → 1 ≤ field p.data 8 2 → field p.data 8 2 ≤ 8192 → s.jobs.length < 8 →
    exec (.recRead p) s = .next (replied s p r e ⟨stAccepted, 0, (queuedJob s p r).handle, [], none⟩
      (withJob s (queuedJob s p r)))) ∧
  (∀ s p r e, Runs s p 0x0701 r e → 8 ≤ p.data.length → field p.data 0 1 ≤ 3 → firstSet p.data 1 3 = none →
    field p.data 4 4 + (p.data.length - 8) ≤ replayMax → s.jobs.length < 8 →
    exec (.replayLoad p) s = .next (replied s p r e ⟨stAccepted, 0, (queuedJob s p r).handle, [], none⟩
      (withJob s (queuedJob s p r)))) ∧
  (∀ s p r e, Runs s p 0x0702 r e → p.data.length = 4 → field p.data 0 1 ≤ 1 → firstSet p.data 1 3 = none →
    s.jobs.length < 8 →
    exec (.replayRun p) s = .next (replied s p r e ⟨stAccepted, 0, (queuedJob s p r).handle, [], none⟩
      (withJob s (queuedJob s p r)))) ∧
  (∀ s p r e, Runs s p 0x0704 r e → p.data.length = 10 → s.jobs.length < 8 →
    exec (.inputRecordRead p) s = .next (replied s p r e ⟨stAccepted, 0, (queuedJob s p r).handle, [], none⟩
      (withJob s (queuedJob s p r))))

/-- Commands for a job of the sender. JOB_STATUS of an ended job returns its record with its data and removes it; of a
running read with parts left beyond the next one, the record with the next part, which is gone then; else the record
alone. JOB_PAUSE marks a running job and pauses a queued one; a queued UPD_VERIFY in VERIFYING gives up verifying.
JOB_RESUME queues a paused job and calls the runner. JOB_CANCEL of a job that has not ended, whose effective tick is
not fixed, marks it and calls the runner. SCHED_CANCEL removes a waiting command of the named session and sequence
number whose tick is at least 2 ahead. -/
def Obligations.JobControl : Prop :=
  (∀ s p r e j, Runs s p 0x0A01 r e → p.data.length = 2 → s.job (field p.data 0 2) = some j → j.session = some p.session →
    j.state.ended = true →
    exec (.jobStatus p) s = .next (replied s p r e (okData (j.report j.data))
      { s with jobs := s.jobs.filter (fun k => k.handle != j.handle) })) ∧
  (∀ s p r e j part next rest, Runs s p 0x0A01 r e → p.data.length = 2 → s.job (field p.data 0 2) = some j →
    j.session = some p.session → j.state = .running → j.reads = true → j.out = part :: next :: rest →
    exec (.jobStatus p) s = .next (replied s p r e (okData (j.report part))
      (s.modJob j.handle (fun k => { k with out := next :: rest, data := part })))) ∧
  (∀ s p r e j, Runs s p 0x0A01 r e → p.data.length = 2 → s.job (field p.data 0 2) = some j → j.session = some p.session →
    j.state.ended = false → (j.state ≠ .running ∨ j.reads = false ∨ j.out.length < 2) →
    exec (.jobStatus p) s = .next (replied s p r e (okData (j.report [])) s)) ∧
  (∀ s p r e j, Runs s p 0x0A02 r e → p.data.length = 2 → s.job (field p.data 0 2) = some j → j.session = some p.session →
    j.state = .running → j.fixed = false →
    exec (.jobPause p) s = .next (replied s p r e okAns (s.modJob j.handle (fun k => { k with pauseDue := true })))) ∧
  (∀ s p r e j, Runs s p 0x0A02 r e → p.data.length = 2 → s.job (field p.data 0 2) = some j → j.session = some p.session →
    j.state = .queued → j.fixed = false →
    let u := s.modJob j.handle (fun k => { k with state := .paused })
    exec (.jobPause p) s = .next (replied s p r e okAns
      (if j.opcode = 0x0803#16 ∧ s.upd.state = .verifying then u.verifyStopped else u))) ∧
  (∀ s p r e j, Runs s p 0x0A03 r e → p.data.length = 2 → s.job (field p.data 0 2) = some j → j.session = some p.session →
    j.state = .paused →
    exec (.jobResume p) s = .next (replied s p r e okAns
      (s.modJob j.handle (fun k => { k with state := .queued })).dispatchJobs)) ∧
  (∀ s p r e j, Runs s p 0x0A04 r e → p.data.length = 2 → s.job (field p.data 0 2) = some j → j.session = some p.session →
    j.state.ended = false → j.fixed = false →
    exec (.jobCancel p) s = .next (replied s p r e okAns
      (s.modJob j.handle (fun k => { k with cancelDue := true })).dispatchJobs)) ∧
  (∀ s p r e x, Runs s p 0x0A05 r e → p.data.length = 4 →
    s.sched.find? (fun x => x.session.toNat == field p.data 0 2 && x.seq.toNat == field p.data 2 2) = some x →
    (x.auth = true → p.auth = true ∧ (s.keyOf p).isSome = true) → s.tick + 2 ≤ x.at_ →
    exec (.schedCancel p) s = .next (replied s p r e okAns { s with sched := s.sched.erase x }))

/-- BANK_DIAG_READ of a bank of the fitted part returns its page and leaves what `diagRead` says: of the bank and of
each of its channels the latched flags whose condition is gone are cleared, the lowest VFLD and the highest FIFO level
begin anew, and nothing of the plant changes. STAMP_FIFO_READ returns how many entries remain and how many come, and
the oldest entries, which it removes. COMB_NODEMAP_READ returns the stored map (0) or the map that an enumeration has
found (1). -/
def Obligations.FieldReads : Prop :=
  (∀ s p r e, Runs s p 0x0501 r e → p.data.length = 1 → field p.data 0 1 < s.bankCount →
    exec (.bankDiagRead p) s = .next (replied s p r e (okData (s.diagPage (field p.data 0 1))) (s.diagRead (field p.data 0 1)))) ∧
  (∀ (s : State) b, (s.diagRead b).work = s.work ∧
    (∀ ch, ch / 8 = b → ((s.diagRead b).fch ch).flags = (s.fch ch).flags &&& (s.fch ch).present) ∧
    ((s.diagRead b).bank b).flags = (s.bank b).flags &&& (s.bank b).present ∧
    ((s.diagRead b).bank b).vfldMin = (s.bank b).vfld ∧ ((s.diagRead b).bank b).fifoHigh = (s.bank b).fifo.length) ∧
  (∀ s p r e, Runs s p 0x0502 r e → p.data.length = 2 → field p.data 0 1 < s.bankCount → field p.data 1 1 ≠ 0 →
    let k := s.bank (field p.data 0 1)
    let n := field p.data 1 1
    exec (.stampFifoRead p) s = .next (replied s p r e
      (okData (le 2 (k.fifo.drop n).length ++ le 2 (k.fifo.take n).length ++ ((k.fifo.take n).map FifoEntry.bytes).flatten))
      (s.setBank (field p.data 0 1) { k with fifo := k.fifo.drop n }))) ∧
  (∀ s p r e, Runs s p 0x0506 r e → p.data.length = 4 → s.goodHandle (field p.data 0 2) = true →
    slotKind (field p.data 0 2) = 0x08 → firstSet p.data 3 1 = none → field p.data 2 1 ≤ 1 →
    let l := slotInst (field p.data 0 2)
    exec (.combNodemapRead p) s = .next (replied s p r e (okData (padTo 580
      (if field p.data 2 1 = 0 then s.cfgBlock P.COMB_NODEMAP l else (s.fcomb l).found.getD []))) s))

/-- The recorder and the replay result: REC_FREEZE starts the freeze and its count, with DETAIL 1 when one was in
force; REC_THAW ends it; REC_STATUS and REPLAY_RESULT return 32 bytes and change nothing beside the interface. A
freeze that has lasted 614,400 ticks, or while which 64 summaries wait, expires with the event RECORDER, CODE 1
(R371), and any other stands; the erase after a clear ends (R373); the first waiting summary of a committed tick is
written to the rolling area while it has place, and to the founding area too while its SEQ is below 256 and there is
place (R370); while a freeze is in force none is written. -/
def Obligations.RecorderCommands : Prop :=
  ((∀ s p r e, Runs s p 0x0601 r e → p.data = [] →
    exec (.recFreeze p) s = .next (replied s p r e { okAns with detail := if s.recorder.frozen then 1 else 0 }
      { s with recorder := { s.recorder with frozen := true, frozenAt := s.tick } })) ∧
  (∀ s p r e, Runs s p 0x0603 r e → p.data = [] →
    exec (.recThaw p) s = .next (replied s p r e okAns { s with recorder := { s.recorder with frozen := false } })) ∧
  (∀ s p r e, Runs s p 0x0605 r e → p.data = [] →
    exec (.recStatus p) s = .next (replied s p r e (okData (padTo 32 s.recStatus)) s)) ∧
  (∀ s p r e, Runs s p 0x0703 r e → p.data = [] →
    exec (.replayResult p) s = .next (replied s p r e (okData (padTo 32 s.inrec.result)) s))) ∧
  ((∀ s, s.recorder.frozen = true → (s.recorder.frozenAt + 614400 ≤ s.tick ∨ 64 ≤ s.recorder.queue.length) →
    exec .recFreezeExpiry s = .next
      (({ s with recorder := { s.recorder with frozen := false } } : State).raise causeRecorder 0x03D4 1 0)) ∧
  (∀ s, ¬(s.recorder.frozen = true ∧ (s.recorder.frozenAt + 614400 ≤ s.tick ∨ 64 ≤ s.recorder.queue.length)) →
    exec .recFreezeExpiry s = .next s) ∧
  (∀ s, exec .recClearEraseDone s = .next { s with recorder := { s.recorder with clearing := false } }) ∧
  (∀ s x l health, s.recorder.queue = x :: l → s.recorder.frozen = false → s.committed = true → x.foundOnly = false →
    s.recorder.rolling.length < s.recorder.rollCap →
    exec (.summaryFlashWrite true health) s = .next { s with recorder := { s.recorder with
      queue := l
      founding := if x.seq < 256 ∧ s.recorder.founding.length < s.recorder.foundCap then s.recorder.founding ++ [x]
        else s.recorder.founding
      rolling := s.recorder.rolling ++ [x] } }) ∧
  (∀ s ok health, s.recorder.frozen = true → s.committed = true →
    exec (.summaryFlashWrite ok health) s = .next s))

/-- Firmware update: UPD_BEGIN in IDLE with a manifest that passes its checks opens the session and makes the other
slot bad, and with one that fails a check it is refused with that check's answer and changes nothing; UPD_BLOCK stages
the next block; UPD_VERIFY in RECEIVED makes a job and begins verifying; UPD_ACTIVATE in VERIFIED sets the tick of the
pause, acceptance plus 2, unless one is set; UPD_CONFIRM in TRIAL ends the trial, takes the manifest's security
version if it is higher, drops the old formats of the generations and raises UPDATE; UPD_ABORT ends a session that
receives, has received, is verified or has failed and raises UPDATE, cancels the job that verifies, and in TRIAL sets
the tick of the fallback; UPD_STATUS changes nothing beside the interface. -/
def Obligations.UpdateCommands : Prop :=
  (∀ s p r e, Runs s p 0x0801 r e → s.upd.state = .idle →
    exec (.updBegin p) s = .next (match s.checkManifest p.data with
      | some a => replied s p r e a s
      | none => replied s p r e okAns { s with upd := { s.upd.close with
          state := .receiving
          owner := .session p.session
          manifest := p.data
          lastStatus := 0
          lastDetail := 0
          manifests := s.upd.manifests.set (if s.upd.slotB then 0 else 1) p.data
          slotBad := s.upd.slotBad.set (if s.upd.slotB then 0 else 1) true } })) ∧
  (∀ s p r e, Runs s p 0x0802 r e → p.data.length = 4096 → s.updForeign (.session p.session) = false →
    s.upd.state = .receiving → field p.data 2 2 = 0 → crcOkAt p.data 4092 = true → field p.data 0 2 = s.upd.nextBlock →
    s.upd.nextBlock < s.upd.blockCount → s.updFree ≠ 0 →
    let u : State := { s with upd := { s.upd with
      staged := s.upd.staged ++ [(s.upd.nextBlock, bytesAt p.data 4 4088)], nextBlock := s.upd.nextBlock + 1 } }
    exec (.updBlock p) s = .next (replied s p r e (okData u.blockData) u)) ∧
  (∀ s p r e, Runs s p 0x0803 r e → p.data = [] → s.updForeign (.session p.session) = false → s.upd.state = .received →
    s.jobs.length < 8 →
    exec (.updVerify p) s = .next (replied s p r e ⟨stAccepted, 0, (queuedJob s p r).handle, [], none⟩
      (withJob { s with upd := { s.upd with state := .verifying } } (queuedJob s p r)))) ∧
  (∀ s p r e, Runs s p 0x0804 r e → p.data = [] → s.updForeign (.session p.session) = false → s.upd.state = .verified →
    s.awaiting = none →
    exec (.updActivate p) s = .next (replied s p r e okAns
      { s with upd := { s.upd with activateAt := some (s.upd.activateAt.getD (s.tick + 2)), fallbackDue := false } })) ∧
  (∀ s p r e, Runs s p 0x0805 r e → p.data = [] → s.updForeign (.session p.session) = false → s.upd.state = .trial →
    let u : State := { s with
      upd := { s.upd.writeBoot.close with
        trial := false, trialsLeft := 0, lastStatus := 0, lastDetail := 0
        secVersion := max s.upd.secVersion (field (s.upd.manifests.getD (if s.upd.slotB then 1 else 0) []) 7 1) }
      gens := s.gens.map (fun g => { g with oldFormat := none }) }
    exec (.updConfirm p) s = .next (replied s p r e okAns u.raiseUpdate)) ∧
  (∀ s p r e, Runs s p 0x0806 r e → p.data = [] → s.updForeign (.session p.session) = false →
    s.upd.state = .receiving ∨ s.upd.state = .received ∨ s.upd.state = .verified ∨ s.upd.state = .failed →
    exec (.updAbort p) s = .next (replied s p r e okAns
      (({ s with upd := s.upd.close } : State).raiseUpdate).dispatchJobs)) ∧
  (∀ s p r e, Runs s p 0x0806 r e → p.data = [] → s.updForeign (.session p.session) = false → s.upd.state = .verifying →
    exec (.updAbort p) s = .next (replied s p r e okAns ({ s with
      jobs := s.jobs.map (fun j => if j.opcode = 0x0803#16 ∧ !j.state.ended then { j with cancelDue := true } else j)
      upd := { s.upd with abortDue := true } } : State).dispatchJobs)) ∧
  (∀ s p r e, Runs s p 0x0806 r e → p.data = [] → s.updForeign (.session p.session) = false → s.upd.state = .trial →
    exec (.updAbort p) s = .next (replied s p r e okAns
      ({ s with upd := { s.upd with activateAt := some (s.tick + 2), fallbackDue := true } } : State).dispatchJobs)) ∧
  (∀ u : Update, u.close.state = .idle ∧ u.close.owner = .none ∧ u.close.manifest = [] ∧ u.close.staged = [] ∧
    u.close.activateAt = none ∧ u.close.slotBad = u.slotBad ∧ u.close.secVersion = u.secVersion) ∧
  (∀ s p r e, Runs s p 0x0807 r e → p.data = [] →
    exec (.updStatus p) s = .next (replied s p r e (okData (s.updStatus (.session p.session))) s))

/-- Identity: CERT_READ returns the item of its selector with its length (0 the device certificate, 1 the installation
certificate, 2 the OEM key, 3 the root key; an item that is not there has length 0); CERT_INSTALL of a certificate for
the device key that the OEM key, if there is one, has signed installs it, and an empty one deletes the one installed;
a key of OEM_KEY_INSTALL that is a point of the curve is installed, zeros remove the key of a module that is not
locked, and either way no session stays authorised and an installation certificate that the key now installed has not
signed is deleted; SIGN_CHALLENGE answers with the attestation and a signature of the device key over nonce, serial
number and attestation. -/
def Obligations.IdentityCommands : Prop :=
  (∀ s p r e, Runs s p 0x0808 r e → p.data.length = 4 → firstSet p.data 1 3 = none → field p.data 0 1 ≤ 3 →
    let item := match field p.data 0 1 with
      | 0 => s.id.deviceCert
      | 1 => s.id.instCert.getD []
      | 2 => s.id.oemKey.getD []
      | _ => s.id.rootPub
    exec (.certRead p) s = .next (replied s p r e (okData (le 2 item.length ++ [0, 0] ++ item)) s)) ∧
  (∀ s p r e, Runs s p 0x0809 r e → p.data = [] →
    exec (.certInstall p) s = .next (replied s p r e okAns { s with id := { s.id with instCert := none } })) ∧
  (∀ s p r e, Runs s p 0x0809 r e → p.data ≠ [] → p.data.length ≤ 2048 → Config.certKey p.data = some s.id.devicePub →
    (∀ k, s.id.oemKey = some k → Config.certSigned p.data k = true) →
    exec (.certInstall p) s = .next (replied s p r e okAns { s with id := { s.id with instCert := some p.data } })) ∧
  (∀ s p r e, Runs s p 0x080A r e → p.data.length = 64 → (ecPoint p.data).isSome = true → p.data.any (· != 0) = true →
    exec (.oemKeyInstall p) s = .next (replied s p r e okAns { s with
      host := { s.host with sessions := s.host.sessions.map (fun x => { x with key := none }) }
      id := { s.id with oemKey := some p.data
                        instCert := s.id.instCert.filter (fun b => Config.certSigned b p.data) } })) ∧
  (∀ s p r e, Runs s p 0x080A r e → p.data = List.replicate 64 0 → s.id.locked = false →
    exec (.oemKeyInstall p) s = .next (replied s p r e okAns { s with
      host := { s.host with sessions := s.host.sessions.map (fun x => { x with key := none }) }
      id := { s.id with oemKey := none, instCert := none } })) ∧
  (∀ s p r e, Runs s p 0x080B r e → p.data.length = 32 →
    ∃ sig, exec (.signChallenge p) s = .next (replied s p r e (okData (s.attested ++ sig)) { s with draws := s.draws + 1 }) ∧
      sig = ecdsaSign Config.deviceKey (freeScalar (Config.draw s.draws))
        (sha256 (ascii "SG-ATTEST" ++ p.data ++ padTo 16 s.id.serial ++ s.attested)))

/-- LINK_STATUS answers with the link's role, node and peers and changes nothing beside the interface. NODE_FORWARD of
a queen to a joined forager is accepted and sent on: a frame of type 0x30 with the session, the sequence number,
whether the session's authorisation counts at the forager, and the packet goes to the node, and the command waits in
the interface's line for the reply, until LINK_REPLY_TICKS have passed (R356 to R358). -/
def Obligations.LinkCommands : Prop :=
  (∀ s p r e, Runs s p 0x0901 r e → p.data = [] →
    exec (.linkStatus p) s = .next (replied s p r e (okData s.linkStatus) s)) ∧
  (∀ s p r e n packet, Runs s p 0x0902 r e → s.forwardCheck p.data = .ok (n, packet) →
    exec (.nodeForward p) s = .next ((s.accept p).sendOn n p 0x0902#16 (s.tagKey p) packet)) ∧
  (∀ (s : State) n p opcode key packet,
    let trusted : Byte := if (s.keyOf p).isSome = true ∧ (s.peer n).oemHash = s.oemHash then 1 else 0
    let u := s.sendPeer n 0x30 (le 2 p.session.toNat ++ le 2 p.seq.toNat ++ [trusted, 0, 0, 0] ++ packet)
    s.sendOn n p opcode key packet = ({ u with host := { u.host with line := u.host.line ++
      [Held.mk p.session p.seq opcode key n (s.tick + s.cfg P.LINK_REPLY_TICKS 0) none] } } : State).modSession p.session
        (fun x => { x with cached := none, awaits := true }))

/-- Timeouts of the interface: the bar of AUTH_PROVE ends (R66); the UART rate falls back to 115,200 bit/s after 2,048
ticks without a packet and raises SESSION with CODE 3 (R54); an idle session closes and raises SESSION with CODE 1,
while commands that it has scheduled keep waiting (R63, R69). An SPI write transaction whose packet is at fault counts
in the counter of its reason and changes nothing else (R51, R56), and no other transaction counts there; the bytes
that the UART receives go through its search for packets, which counts those it discards for their LENGTH and their
CRC and keeps the rest; a gap of more than 2 ms ends the packet under way (R55), and so does the loss of VIO. VIO_LOW
and VIO_RETURN switch the pads off and on. An SPI read transaction gives the status byte, the count and bytes of the
oldest reply and 0x00 after them; one that clocks the whole of the reply removes it, and clears REPLY_READY when none
remains; one that is cut short removes nothing, and with no reply the count is 0 (R52, R83). A write transaction gives
the status byte and 0x00, another one the status byte alone (R50). -/
def Obligations.InterfaceEvents : Prop :=
  ((∀ s b, s.host.barUntil = some b → b ≤ s.tick →
    exec .authProveBarEnd s = .next { s with host := { s.host with barUntil := none, authFails := 0 } }) ∧
  (∀ s a, s.host.baudAt = some a → s.host.alive = true → a + 2048 ≤ s.tick →
    exec .baudFallback s =
      .next (({ s with host := { s.host with baud := 115200, baudAt := none } } : State).raise causeSession 0xFFFF 0 3)) ∧
  (∀ s x, s.session x.id = some x → x.lastTick + 1024 * x.idle ≤ s.tick →
    let u := s.closeSession x.id true
    exec (.sessionIdleTimeout x.id) s = .next u.dispatchJobs ∧ u.session x.id = none ∧
      u.host.cause.getLsbD 13 = true ∧ u.sched = s.sched ∧ u.tick = s.tick)) ∧
  ((∀ s rest reason, s.hostListens = true → s.host.uart = false → s.spiFault rest = some reason →
    exec (.packetDiscard (0x5A#8 :: rest)) s = .next { s with host := match reason with
      | .noBuffer => { s.host with overrun := sat32 (s.host.overrun + 1) }
      | .framing => { s.host with framing := sat32 (s.host.framing + 1) }
      | .crc => { s.host with crcErr := sat32 (s.host.crcErr + 1) } }) ∧
  (∀ s bytes, s.hostListens = true → s.host.uart = false →
    (∀ rest reason, bytes = 0x5A#8 :: rest → s.spiFault rest ≠ some reason) →
    exec (.packetDiscard bytes) s = .next s) ∧
  (∀ s bytes, s.hostListens = true → s.host.alive = true → s.host.uart = true →
    let r := uartScan (s.host.rx.length + bytes.length + 1) (s.host.rx ++ bytes)
    exec (.packetDiscard bytes) s = .next { s with host := { s.host with
      framing := sat32 (s.host.framing + r.1), crcErr := sat32 (s.host.crcErr + r.2.1), rx := r.2.2 } }) ∧
  (∀ s, s.hostListens = true → s.host.alive = true → s.host.uart = true →
    let g := uartGap (s.host.rx.length + 1) s.host.rx
    exec .uartByteGap s = .next { s with host := { s.host with
      framing := sat32 (s.host.framing + g.1), crcErr := sat32 (s.host.crcErr + g.2), rx := [] } }) ∧
  (∀ s inPacket, s.hostListens = true → s.host.alive = true →
    exec (.vioLow inPacket) s = .next { s with host := { s.host with
      vioOk := false
      rx := []
      framing := if inPacket then sat32 (s.host.framing + 1) else s.host.framing } }) ∧
  (∀ s, exec .vioReturn s = .next { s with host := { s.host with vioOk := true } })) ∧
  ((∀ s n r rest, s.hostListens = true → s.host.uart = false → s.host.replies = r :: rest → 2 + r.packet.length ≤ n →
    exec (.spiRead ⟨0xA5#8, n⟩) s = .next { s with host := { s.host with
      miso := BitVec.ofNat 8 s.spiStatus :: (le 2 r.packet.length ++ r.packet ++
        List.replicate (n - 2 - r.packet.length) 0)
      replies := rest
      sent := s.host.sent ++ [r]
      cause := if rest = [] then s.host.cause &&& ~~~1#32 else s.host.cause } }) ∧
  (∀ s n r rest, s.hostListens = true → s.host.uart = false → s.host.replies = r :: rest → n < 2 + r.packet.length →
    exec (.spiRead ⟨0xA5#8, n⟩) s = .next { s with host := { s.host with
      miso := BitVec.ofNat 8 s.spiStatus :: (le 2 r.packet.length ++ r.packet).take n } }) ∧
  (∀ s n, s.hostListens = true → s.host.uart = false → s.host.replies = [] →
    exec (.spiRead ⟨0xA5#8, n⟩) s = .next { s with host := { s.host with
      miso := BitVec.ofNat 8 s.spiStatus :: List.replicate n 0 } }) ∧
  (∀ s n, s.hostListens = true → s.host.uart = false →
    exec (.spiRead ⟨0x5A#8, n⟩) s = .next { s with host := { s.host with
      miso := BitVec.ofNat 8 s.spiStatus :: List.replicate n 0 } }) ∧
  (∀ s first n, s.hostListens = true → s.host.uart = false → first ≠ 0x5A#8 → first ≠ 0xA5#8 →
    exec (.spiRead ⟨first, n⟩) s = .next { s with host := { s.host with miso := [BitVec.ofNat 8 s.spiStatus] } }))

/-- A corrected word is counted; the page is to be retired at the next boundary when four different addresses of it
have been corrected within 1,048,576 ticks (R111). The scrub remembers the pages it has read and begins anew after the
last (R106). A failing page is retired at the boundary: a page of the pool takes its place in its region; a page of a
region for which the pool has none waits for the next start, with the event of it. Nothing of the plant changes.
(R106, R111) Uncorrectable errors in committed or stored data (R105, R112), the SRAM page of the error being retired
at the next boundary: a cell that has been written reads VALUE 0 with BAD; a unit's state makes the unit due for HOLD
and it is not evaluated in the tick; a reply kept for retransmission, on the host's side or on the link's, is gone; an
open segment of the input record gets its GAP entry and ends with reason 4; a summary held for flash is lost, with
RECORDER, CODE 4; a summary in flash is marked with the bad sector; the staged block of an update and those after it
are to be sent again with VERIFY_FAILED. -/
def Obligations.MemoryErrors : Prop :=
  ((∀ s page address, s.logicPowered = true →
    ∃ t, exec (.eccCorrected page address) s = .next t ∧ t.sram.corrCount = sat32 (s.sram.corrCount + 1) ∧
      (address, s.tick) ∈ Tab.get [] t.sram.corrected page.val ∧
      (page.val ∈ t.sram.retireDue ↔ page.val ∈ s.sram.retireDue ∨
        (s.sram.retired.contains page.val = false ∧ 4 ≤ (Tab.get [] t.sram.corrected page.val).length)) ∧
      t = { s with sram := { s.sram with
        corrCount := t.sram.corrCount, corrected := t.sram.corrected, retireDue := t.sram.retireDue } }) ∧
  (∀ s page, s.logicPowered = true →
    exec (.sramScrub page) s = .next { s with sram := { s.sram with
      scrubbed := if (insertSorted s.sram.scrubbed page.val).length = 2048 then []
        else insertSorted s.sram.scrubbed page.val } }) ∧
  (∀ s page m, s.logicRuns = true → s.committed = true → s.sram.retired.contains page.val = false →
    s.sram.retire page.val = some m →
    ∃ t, exec (.pageRetire page) s = .next t ∧ t.sram.retired = sortNats (page.val :: s.sram.retired) ∧
      t.sram.map = m.map ∧ page.val ∉ t.sram.retireDue ∧ t = { s with sram := t.sram, base := s.work }) ∧
  (∀ s page, s.logicRuns = true → s.committed = true → s.sram.retired.contains page.val = false →
    s.sram.retire page.val = none →
    ∃ t, exec (.pageRetire page) s = .next t ∧ t.sram.retired = s.sram.retired ∧ page.val ∈ t.boot.marksPages ∧
      t.host.cause.getLsbD causeSupply = true ∧
      t = { s with sram := t.sram, base := s.work, boot := t.boot, host := t.host })) ∧
  ((∀ s page index, s.logicRuns = true → s.committed = true → (s.base.cell index.val).written = true →
    s.work.cell index.val = s.base.cell index.val →
    ∃ t, exec (.eccUncorrectableCommitted ⟨page, (.cell index)⟩) s = .next t ∧ (t.work.cell index.val).own.value = 0 ∧
      (t.work.cell index.val).own.quality = 6 ∧ t.work.units = s.work.units ∧
      t = { s with prev := t.prev, base := t.base, work := t.work, inrec := t.inrec, sram := t.sram }) ∧
  (∀ s page slot, s.logicRuns = true → s.has slot.val = true → s.committed = true →
    ∃ t code, exec (.eccUncorrectableCommitted ⟨page, (.unit slot)⟩) s = .next t ∧ code < 256 ∧
      t.work = s.work.modUnit slot.val (fun u => { u with holdDue := some code }) ∧
      t.base = s.base.modUnit slot.val (fun u => { u with holdDue := some code }) ∧
      t = { s with work := t.work, base := t.base, draws := t.draws, inrec := t.inrec, sram := t.sram }) ∧
  (∀ s slot, s.logicRuns = true → s.has slot.val = true → s.committed = false → s.evaluated = false →
    ∃ t, exec (.eccUncorrectableCommitted ⟨none, (.unit slot)⟩) s = .next t ∧ slot.val ∈ t.skip ∧
      (t.work.unit slot.val).holdDue.isSome = true ∧ t.evalUnit slot.val = t ∧
      t = { s with work := t.work, base := t.base, draws := t.draws, inrec := t.inrec, skip := t.skip }) ∧
  (∀ s page place, s.logicPowered = true → s.sram.retired.contains page.val = false →
    (∀ report, place ≠ .system report) →
    ∃ t, exec (.eccUncorrectableCommitted ⟨(some page), place⟩) s = .next t ∧ page.val ∈ t.sram.retireDue) ∧
  (∀ s id x, s.session id = some x → x.cached.isSome = true →
    ∃ t y, exec (.eccUncorrectableCommitted ⟨none, (.replyCache id)⟩) s = .next t ∧ t.session id = some y ∧ y.cached = none ∧
      y.awaits = true ∧ y.expect = x.expect ∧ y.lastSeq = x.lastSeq ∧ t = { s with host := t.host }) ∧
  (∀ s id, exec (.eccUncorrectableCommitted ⟨none, (.linkReply id)⟩) s = .next { s with link := { s.link with
    replies := s.link.replies.filter (fun r => r.1 != id) } }) ∧
  (∀ s, s.inrec.open_ = true → s.committed = true → s.run P.INREC_MODE 0 ≠ 2 →
    exec (.eccUncorrectableCommitted ⟨none, .record⟩) s = .next
      ((s.append [recEntry 0x37 0 s.workTick []]).endSegment s.workTick s.workTick 4)) ∧
  (∀ s seq, s.recorder.queue.any (fun x => x.seq == seq) = true →
    exec (.eccUncorrectableCommitted ⟨none, (.heldSummary seq)⟩) s = .next (({ s with recorder := { s.recorder with
      queue := s.recorder.queue.filter (fun x => x.seq != seq) } } : State).raise causeRecorder 0x03D4 4 0)) ∧
  (∀ s founding seq x,
    (if founding then s.recorder.founding else s.recorder.rolling).find? (fun x => x.seq == seq) = some x →
    x.unreadable = none →
    ∃ t sector, exec (.eccUncorrectableCommitted ⟨none, (.flashSummary founding seq)⟩) s = .next t ∧
      (if founding then t.recorder.founding else t.recorder.rolling).find? (fun x => x.seq == seq) =
        some { x with unreadable := some sector } ∧ t.work = s.work ∧ t.tick = s.tick ∧ t.recorder.queue = s.recorder.queue) ∧
  (∀ s n, s.upd.state = .receiving → s.upd.staged.any (fun b => b.1 == n) = true →
    exec (.eccUncorrectableCommitted ⟨none, (.update n)⟩) s = .next { s with upd := { s.upd with
      staged := s.upd.staged.filter (fun b => decide (b.1 < n)), nextBlock := n
      lastStatus := BitVec.ofNat 8 stVerifyFailed, lastDetail := BitVec.ofNat 8 (n % 256) } }))

/-- Clocks: FINE_CLOCK_LOCK makes fine counts valid while the crystal is within limits; CRYSTAL_FAIL_SET makes them
invalid and raises SUPPLY with CODE 18 and DATA 1, CRYSTAL_FAIL_CLEAR raises it with DATA 0 (R90, R92, R424). The
housekeeper writes a tick checkpoint every 65,536 ticks (R89). A housekeeping round takes the supplies and counts
itself; the throttle factor is that of R432 while THROTTLING is set, and 1.0 otherwise; what a round changes is the
housekeeper's own and its events (R427, R432). A site's neighbours are those of Table 14-6: an included site whose
valid reading lies more than 15 K from the median of its included neighbours for the third round in a row is excluded,
with THERMAL, CODE 7 (R428, R429). The comparator of an included site raises THERMAL with CODE 6 from 135 °C, and
never for an excluded one (R434, R436). -/
def Obligations.ClocksAndHousekeeping : Prop :=
  ((∀ s, s.vinOn = true → s.power ≠ .dormant → s.hk.crystalFail = false →
    exec .fineClockLock s = .next { s with fineValid := true }) ∧
  (∀ s, s.vinOn = true → s.hk.crystalFail = false → (s.peer 0).state = 0 →
    exec .crystalFailSet s = .next
      (({ s with hk := { s.hk with crystalFail := true }, fineValid := false } : State).raise causeSupply 0xFFFF 18 1)) ∧
  (∀ s, s.vinOn = true → s.hk.crystalFail = true →
    exec .crystalFailClear s = .next
      (({ s with hk := { s.hk with crystalFail := false } } : State).raise causeSupply 0xFFFF 18 0)) ∧
  (∀ s, s.vinOn = true →
    exec .tickCheckpoint s =
      .next (if s.tick % 65536 = 0 then { s with checkpoint := (s.tick, s.wallDiff) } else s))) ∧
  ((∀ s m, s.vinOn = true →
    ∃ t, exec (.housekeepingRound m) s = .next t ∧ t.hk.rounds = (s.hk.rounds + 1) % 2 ^ 32 ∧ t.hk.vin = m.vin ∧
      t.hk.vfan = m.vfan ∧ t.hk.fresh = true ∧
      t.hk.throttle = (if t.hk.throttling then
          fmax (fRat 1 4) (fsub fone (fmul (fRat 375 10000)
            (fmax (fmax (fsub t.hk.theta (fOfNat 100)) (fmul (fOfNat 5) (fsub t.hk.rho (fOfNat 4)))) 0)))
        else 0x3F800000#32) ∧
      t = { s with hk := t.hk, host := t.host }) ∧
  (∀ (before : Hk) (s : State) i x m, i < 6 → validSite (before.sites.getD i none) = some x →
    before.excluded.getD i false = false → s.hk.excluded.length = 6 →
    let near := match i with
      | 0 => [1, 2, 3, 4]
      | 1 => [0, 2, 4]
      | 2 => [0, 1, 3, 5]
      | 3 => [0, 2, 4, 5]
      | 4 => [0, 1, 3]
      | _ => [0, 2, 3]
    medianF ((near.filter before.included).filterMap (fun n => validSite (before.sites.getD n none))) = some m →
    flt (fOfNat 15) (fabs (fsub x m)) = true → before.devRun.getD i 0 = 2 →
    (s.judgeSite before i).hk.excluded = s.hk.excluded.set i true ∧
      (s.judgeSite before i).host = (s.raiseThermal 7 x i).host) ∧
  (∀ s (i : Fin 6) x, s.vinOn = true → s.hk.included i.val = true → 1350 ≤ x →
    exec (.thermalAbort135 i x) s =
      .next (s.raise causeThermal hkSlot 6 (65536 * (x % 65536).toNat + i.val))) ∧
  (∀ s (i : Fin 6) x, s.hk.included i.val = false → exec (.thermalAbort135 i x) s = .next s))

/-- Crossings of VIN thresholds set and clear their flags and raise SUPPLY with CODE 17 and VIN in mV (R425).
Crossings of a bank's VFLD thresholds set and clear the bank's condition and keep VFLD and its lowest value; those of
a monitored bank in service raise SUPPLY with the bank's number as CODE and VFLD in mV, and an entry into UVLO or
VFLD_LOW counts; those of a bank that is not monitored raise nothing and count nothing (R169). Crossings of VFAN do
the same for the fan domain with CODE 16; the first return and the first clearing after its power-up are silent
(R323). Nothing of the plant changes. -/
def Obligations.SupplyCrossings : Prop :=
  (∀ (s : State) (c : VinCrossing) (mv : Nat), s.vinOn = true →
    exec (.vinThresholdCrossing c mv) s = .next (({ s with hk := match c with
      | .lowSet => { s.hk with vinLow := true }
      | .lowClear => { s.hk with vinLow := false }
      | .highSet => { s.hk with vinHigh := true }
      | .highClear => { s.hk with vinHigh := false } } : State).raise causeSupply 0xFFFF 17 mv)) ∧
  (∀ s (b : Fin 16) mv, (s.bank b.val).powered = true →
    ((s.bank b.val).uvlo = false →
      ∃ t, exec (.vfldUvloEntry b mv) s = .next t ∧ (t.bank b.val).uvlo = true ∧
        (t.bank b.val).vfldLow = (s.bank b.val).vfldLow ∧ (t.bank b.val).uvloEvents =
          (if s.monitored b.val = true ∧ (s.bank b.val).state = .inService
            then sat16 ((s.bank b.val).uvloEvents + 1) else (s.bank b.val).uvloEvents)) ∧
    ((s.bank b.val).uvlo = true →
      ∃ t, exec (.vfldUvloReturn b mv) s = .next t ∧ (t.bank b.val).uvlo = false ∧
        (t.bank b.val).vfldLow = (s.bank b.val).vfldLow ∧ (t.bank b.val).uvloEvents = (s.bank b.val).uvloEvents) ∧
    ((s.bank b.val).vfldLow = false →
      ∃ t, exec (.vfldLowSet b mv) s = .next t ∧ (t.bank b.val).vfldLow = true ∧
        (t.bank b.val).uvlo = (s.bank b.val).uvlo ∧ (t.bank b.val).lowEvents =
          (if s.monitored b.val = true ∧ (s.bank b.val).state = .inService
            then sat16 ((s.bank b.val).lowEvents + 1) else (s.bank b.val).lowEvents)) ∧
    ((s.bank b.val).vfldLow = true →
      ∃ t, exec (.vfldLowClear b mv) s = .next t ∧ (t.bank b.val).vfldLow = false ∧
        (t.bank b.val).uvlo = (s.bank b.val).uvlo ∧ (t.bank b.val).lowEvents = (s.bank b.val).lowEvents)) ∧
  (∀ s (b : Fin 16) mv c t, (s.bank b.val).powered = true →
    (c = Instr.vfldUvloEntry b mv ∧ (s.bank b.val).uvlo = false ∨
      c = Instr.vfldUvloReturn b mv ∧ (s.bank b.val).uvlo = true ∨
      c = Instr.vfldLowSet b mv ∧ (s.bank b.val).vfldLow = false ∨
      c = Instr.vfldLowClear b mv ∧ (s.bank b.val).vfldLow = true) → exec c s = .next t →
    (t.bank b.val).vfld = mv ∧ (t.bank b.val).vfldMin = Nat.min (s.bank b.val).vfldMin mv ∧
      t.host = (if s.monitored b.val = true ∧ (s.bank b.val).state = .inService
        then (s.raise causeSupply 0xFFFF b.val mv).host else s.host) ∧
      t = { s with banks := t.banks, fieldChans := t.fieldChans, host := t.host }) ∧
  ((∀ s mv, s.fanDom.powered = true → s.fanDom.uvlo = false →
    exec (.vfanCrossing .uvloEntry mv) s = .next
      (({ s with fanDom := { s.fanDom with uvlo := true, millivolts := mv } } : State).raise causeSupply 0xFFFF 16 mv)) ∧
  (∀ s mv, s.fanDom.powered = true → s.fanDom.uvlo = true →
    let u : State := { s with fanDom := { s.fanDom with uvlo := false, millivolts := mv, quietUvlo := false } }
    exec (.vfanCrossing .uvloReturn mv) s = .next (if s.fanDom.quietUvlo then u else u.raise causeSupply 0xFFFF 16 mv)) ∧
  (∀ s mv, s.fanDom.powered = true → s.fanDom.low = false →
    exec (.vfanCrossing .lowSet mv) s = .next
      (({ s with fanDom := { s.fanDom with low := true, millivolts := mv } } : State).raise causeSupply 0xFFFF 16 mv)) ∧
  (∀ s mv, s.fanDom.powered = true → s.fanDom.low = true →
    let u : State := { s with fanDom := { s.fanDom with low := false, millivolts := mv, quietLow := false } }
    exec (.vfanCrossing .lowClear mv) s = .next (if s.fanDom.quietLow then u else u.raise causeSupply 0xFFFF 16 mv)))

/-- The power-fail threshold writes the checkpoint, stops the logic domain and takes the power; when VIN returns the
tick counter starts at the checkpoint plus 131,072, so that it never goes backwards, the wall time is stale, HOST_SEL
is sampled, counters begin at 0, and a start with cause 0 is due (R46, R89, R375, R426, R461). HOST_RESET_N stops the
logic domain and asks for a start with cause 1, unless the start after power-on is still due, which then waits for its
release; in DORMANT and without VIN it has no effect. HOST_WAKE in DORMANT asks for a start with cause 7, and has no
effect otherwise (R46 to R48). -/
def Obligations.PowerAndReset : Prop :=
  ((∀ s, s.vinOn = true →
    ∃ t, exec .vinPowerFail s = .next t ∧ t.vinOn = false ∧ t.checkpoint = (s.tick, s.wallDiff) ∧ t.tick = s.tick ∧
      t.fineValid = false ∧ t.boot.closed = 2 ∧ t.host.alive = false ∧ t.host.sessions = [] ∧ t.host.replies = [] ∧
      t.sched = [] ∧ t.jobs = [] ∧ t.pendGen = none ∧ t.id = s.id ∧ t.activeGen = s.activeGen ∧ t.boot.startDue = none) ∧
  (∀ s mv uart, s.vinOn = false → 16600 ≤ mv →
    ∃ t, exec (.vinPowerOn mv uart) s = .next t ∧ t.vinOn = true ∧ t.tick = s.checkpoint.1 + 131072 ∧
      t.wallDiff = s.checkpoint.2 ∧ t.wallStale = true ∧ t.power = .watch ∧ t.host.uart = uart ∧ t.host.baud = 115200 ∧
      t.boot.startDue = some 0 ∧ t.host.overrun = 0 ∧ t.host.framing = 0 ∧ t.host.crcErr = 0 ∧ t.sram.corrCount = 0 ∧
      t.sram.redoCount = 0 ∧ t.banks = [] ∧ t.id = s.id ∧ t.activeGen = s.activeGen) ∧
  (∀ s mv uart, s.vinOn = true ∨ mv < 16600 → exec (.vinPowerOn mv uart) s = .next s) ∧
  (∀ s mv uart, s.vinOn = true → 16600 ≤ mv →
    ∃ t u, exec .vinPowerFail s = .next t ∧ exec (.vinPowerOn mv uart) t = .next u ∧ s.tick < u.tick)) ∧
  ((∀ s, s.vinOn = true → s.power ≠ .dormant → s.boot.startDue ≠ some 0 → s.upd.fallbackDue = false →
    ∃ t, exec .hostResetNAssert s = .next t ∧ t.host.alive = false ∧ t.host.resetHeld = true ∧ t.boot.startDue = some 1 ∧
      t.host.sessions = [] ∧ t.sched = [] ∧ t.jobs = [] ∧ t.id = s.id ∧ t.activeGen = s.activeGen ∧ t.tick = s.tick) ∧
  (∀ s, s.vinOn = true → s.power ≠ .dormant → s.boot.startDue = some 0 →
    exec .hostResetNAssert s = .next { s with host := { s.host with resetHeld := true } }) ∧
  (∀ s, s.vinOn = false ∨ s.power = .dormant → exec .hostResetNAssert s = .next s) ∧
  (∀ s, s.vinOn = true → s.power = .dormant → s.boot.startDue = none →
    exec .hostWake s = .next { s with boot := { s.boot with startDue := some 7 } }) ∧
  (∀ s, s.power ≠ .dormant → exec .hostWake s = .next s))

/-- A start with the cause that is due (R83, R423, R437, R439): when no step fails, the interface answers, units run,
the cause register shows BOOT and INTERFACE_READY, the power state is WATCH after power-on, DORMANT and thermal
shutdown and the one held otherwise. When the OTP check of step B1 fails outside TRIAL, the start ends in boot hold,
where no unit runs. A start that is not asked for does not happen. -/
def Obligations.Starts : Prop :=
  (∀ s cause report, s.vinOn = true → s.host.alive = false → s.boot.startDue = some (startCode cause) →
    report.otpOk = false → s.upd.trial = false →
    ∃ t, exec (.bootStart cause report) s = .next t ∧ t.boot.hold = true ∧ t.host.alive = true ∧ t.logicRuns = false ∧
      t.host.cause.getLsbD 10 = true ∧ t.host.cause.getLsbD 11 = true) ∧
  (∀ s cause report, s.vinOn = true → s.host.alive = false → s.boot.startDue = some (startCode cause) →
    report.otpOk = true → report.slotOk = true → report.checkpointOk = true → report.selfTestsOk = true →
    s.upd.trial = false → s.slotStarts s.upd.slotB true = true → s.hk.shutdownDue = false → s.hk.shutdown = false →
    ∃ t, exec (.bootStart cause report) s = .next t ∧ t.host.alive = true ∧ t.boot.startDue = none ∧
      t.power = startPower (startCode cause) s.power ∧ t.host.cause.getLsbD 10 = true ∧ t.host.cause.getLsbD 11 = true ∧
      t.evaluated = true ∧ t.committed = true ∧ t.smoker.calmed = false ∧ t.tick = s.tick ∧ t.boot.hold = false) ∧
  (∀ s cause report, s.boot.startDue ≠ some (startCode cause) → exec (.bootStart cause report) s = .next s)

/-- A tick boundary advances the tick counter by 1 while the module has power. After a commit the next tick of work
opens; under lag, when the work of the running tick has not committed, the tick of work stays and the lag is noted,
and work that has not committed by the end of the seventh tick after its own ends in a stop of the logic domain, with
start cause 3 to come (R88, R96). Without power nothing happens. -/
def Obligations.TickAdvances : Prop :=
  (∀ s, s.vinOn = true → ∃ t, exec .tickBoundary s = .next t ∧ t.tick = s.tick + 1) ∧
  (∀ s, s.vinOn = true → s.logicRuns = true → s.committed = true → s.upd.activateAt = none →
    ∃ t, exec .tickBoundary s = .next t ∧ t.tick = s.tick + 1 ∧ t.workTick = s.workTick + 1) ∧
  (∀ s, s.vinOn = true → s.logicRuns = true → s.committed = false → s.tick + 1 ≤ s.workTick + 7 →
    ∃ t, exec .tickBoundary s = .next t ∧ t.tick = s.tick + 1 ∧ t.workTick = s.workTick ∧ t.committed = false ∧
      t.sram.lagMax = Nat.max s.sram.lagMax (s.tick + 1 - s.workTick)) ∧
  (∀ s, s.vinOn = true → s.logicRuns = true → s.committed = false → s.workTick + 7 < s.tick + 1 →
    s.upd.fallbackDue = false →
    ∃ t, exec .tickBoundary s = .next t ∧ t.tick = s.tick + 1 ∧ t.host.alive = false ∧ t.boot.startDue = some 3 ∧
      t.host.sessions = [] ∧ t.jobs = [] ∧ t.sched = []) ∧
  (∀ s, s.vinOn = false → exec .tickBoundary s = .next s)

/-- The phases of a tick: the input deadline starts the evaluation of the tick of work (R94), which leaves the
committed copies; the commit makes the working copy the committed one and nothing of it is discarded, and under lag
the next tick of work opens with it (R96, R102); the cut of a summary appends one record with the next SEQ and opens
the next interval one tick later, and without a cause nothing is cut (R368). A calibration job that runs takes the
values that the committed tick brought its channel, and no tick that the channel skipped (R200). -/
def Obligations.EvaluationAndCommit : Prop :=
  (∀ s, s.logicRuns = true → s.deadlineAt < s.tick → s.evaluated = false → s.workTick ≤ s.tick →
    ∃ t, exec .inputDeadline s = .next t ∧ t.evaluated = true ∧ t.committed = s.committed ∧ t.deadlineAt = s.tick ∧
      t.base = s.base ∧ t.prev = s.prev ∧ t.workTick = s.workTick ∧ t.tick = s.tick) ∧
  (∀ s, s.logicRuns = true → s.evaluated = true → s.committed = false → s.tick ≤ s.workTick →
    ∃ t, exec .tickCommit s = .next t ∧ t.committed = true ∧ t.base = t.work ∧ t.prev = t.work ∧
      t.work.cells = s.work.cells ∧ t.work.units = s.work.units ∧ t.workTick = s.workTick ∧ t.sram.redoRun = 0 ∧
      t.inbufs = s.inbufs.filter (fun e => decide (s.workTick ≤ e.1)) ∧ t.tick = s.tick) ∧
  (∀ s, s.logicRuns = true → s.evaluated = true → s.committed = false → s.workTick < s.tick →
    ∃ t, exec .tickCommit s = .next t ∧ t.workTick = s.workTick + 1 ∧ t.tick = s.tick) ∧
  (∀ s, s.evaluated = true → s.committed = false → s.work.recAcc.opened = true →
    s.work.recAcc.tStart ≤ s.workTick → s.work.recAcc.causes ||| s.cutCauses s.workTick ≠ 0#8 →
    ∃ t x, exec .summaryCut s = .next t ∧ t.recorder.queue = s.recorder.queue ++ [x] ∧ x.seq = s.recorder.nextSeq ∧
      t.recorder.nextSeq = s.recorder.nextSeq + 1 ∧ t.work.recAcc = { opened := true, tStart := s.workTick + 1 } ∧
      t.work.cells = s.work.cells) ∧
  (∀ s, s.work.recAcc.causes ||| s.cutCauses s.workTick = 0#8 → exec .summaryCut s = .next s) ∧
  (∀ (s : State) (j : Job), s.job j.handle = some j → j.opcode = 0x0503#16 → field j.args 2 1 ≠ 2 → j.bar = none →
    j.state = .running → j.coll.length < field j.args 8 2 →
    let ch := slotInst (field j.args 0 2)
    let quality := (s.work.cell (chanSlot ch)).own.quality
    let tags := (Tab.get ((0, 0), []) (s.inputs (s.workTick - 1)).raws ch).1
    (∀ m ∈ s.calMembers ch, (s.unit (chanSlot m)).st = .active) → quality ≤ 1 → j.tags ≠ some tags →
    ((∃ m ∈ s.calMembers ch, (s.work.chan m).skip = true) → s.collectJob j = s) ∧
    ((∀ m ∈ s.calMembers ch, (s.work.chan m).skip = false) → j.tags = none →
      s.collectJob j = s.modJob j.handle (fun k => { k with
        tags := some tags, coll := k.coll ++ s.calValues ch (s.workTick - 1) quality })))

/-- A redo evaluates the tick of work again from the committed copies, with the same draws, after it has discarded the
summary cut in the tick and the notes of the first evaluation; what stands outside the working copies stays, but for
the pages that are to be retired and the counts of the redo (R103, R111). -/
def Obligations.RedoStartsFromCommitted : Prop :=
  ∀ (s : State) page (report : BootReport), s.logicRuns = true → s.evaluated = true → s.committed = false →
    s.sram.redoRun < 2 →
    ∃ t, exec (.tickRedo ⟨page, report⟩) s = .next t ∧ t.base = s.base ∧ t.prev = s.prev ∧ t.host = s.host ∧
      t.banks = s.banks ∧ t.inbufs = s.inbufs ∧ t.draws = s.draws ∧
      t.sram.redoCount = sat32 (s.sram.redoCount + 1) ∧ t.sram.redoTick = s.workTick ∧
      t.sram.redoRun = s.sram.redoRun + 1 ∧ t.tick = s.tick ∧ t.workTick = s.workTick ∧
      (∀ p, page = some p → s.sram.retired.contains p.val = false → p.val ∈ t.sram.retireDue) ∧
      t = { s with work := t.work, inrec := t.inrec, recorder := t.recorder, sram := t.sram } ∧
      (∃ v : State, v = { s with recorder := v.recorder, inrec := v.inrec, sram := v.sram } ∧
        t.work = ({ v with work := s.base, draws := s.drawsAt } : State).evaluate.work)

/-- A tick whose work has not committed by the end of the seventh tick after it, and a third error in the working data
of one tick, restart the logic domain: it stops and starts with the journal causes 3 and 4, unless a fallback is due,
which takes their place (R96, R104). An error in system data does the same with cause 4 (log entry 22: the model's
choice). -/
def Obligations.LagAndRedoRestarts : Prop :=
  (∀ s report, s.logicRuns = true → s.committed = false → s.workTick + 7 ≤ s.tick →
    exec (.lagRestart report) s = .next ((s.stopFor 0 3).bootStart .lag report)) ∧
  (∀ s report, s.logicRuns = true → s.evaluated = true → s.committed = false → 2 ≤ s.sram.redoRun →
    exec (.tickRedo ⟨none, report⟩) s = .next ((s.stopFor 0 4).bootStart .redo report)) ∧
  (∀ s report, s.vinOn = true → s.power ≠ .dormant → s.host.alive = true →
    exec (.eccUncorrectableCommitted ⟨none, (.system report)⟩) s = .next ((s.stopFor 0 4).bootStart .redo report)) ∧
  (∀ (s : State) cause, s.upd.fallbackDue = false → (s.stopFor 0 cause).boot.startDue = some cause ∧
    (s.stopFor 0 cause).host.alive = false ∧ (s.stopFor 0 cause).host.sessions = [] ∧ (s.stopFor 0 cause).jobs = [] ∧
    (s.stopFor 0 cause).sched = [] ∧ (s.stopFor 0 cause).tick = s.tick ∧ (s.stopFor 0 cause).id = s.id) ∧
  (∀ s report, s.committed = true → exec (.lagRestart report) s = .next s)

/-- What one thing at the boundary after a commit is: its effect under the clock of that boundary, and the tick
counter and the tick of work as they were (R95). At such a boundary the module calms when the smoker timeout has
passed without an accepted packet, with SMOKER (R85); a calm puts an output channel that is neither STOPPED nor in
FAULT into FAULT with code 0x02 (R140, R208) and a driven loop into MANUAL at its SAFE_OUTPUT or its last output
(R276); a unit whose wind-down is over is STOPPED (R22, R24); thermal shutdown takes effect, with every bank unpowered
(R433). -/
def Obligations.BoundaryStates : Prop :=
  (∀ (s : State) (f : Nat → State → State), s.logicRuns = true → s.committed = true → s.power ≠ .dormant →
    let r := f (s.workTick + 1) { s with tick := s.workTick + 1, workTick := s.workTick + 1 }
    r.power ≠ .dormant →
    s.atBoundary f = { r with tick := s.tick, workTick := s.workTick, base := r.work }) ∧
  (∀ s, s.logicRuns = true → s.committed = true → s.calmsAt (s.workTick + 1) = true →
    ∃ t, exec .smokerCalm s = .next t ∧ t.smoker.calmed = true ∧ t.smoker.due = none ∧
      t.host.cause.getLsbD causeSmoker = true ∧ t.tick = s.tick ∧ t.workTick = s.workTick ∧ t.sched = s.sched) ∧
  (∀ s, s.calmsAt (s.workTick + 1) = false → s.smoker.due = none → s.logicRuns = true → s.committed = true →
    exec .smokerCalm s = .next { s with base := s.work }) ∧
  (∀ (s : State) ch, (s.mode ch = 3 ∨ s.mode ch = 4 ∨ s.mode ch = 7 ∨ s.mode ch = 8) → ch < 128 →
    (s.unit (chanSlot ch)).st ≠ .stopped → (s.unit (chanSlot ch)).st ≠ .fault →
    ((s.calmUnit (chanSlot ch)).unit (chanSlot ch)).st = .fault ∧
      ((s.calmUnit (chanSlot ch)).unit (chanSlot ch)).faultCode = 0x02) ∧
  (∀ (s : State) n, n < 256 → (s.unit (loopSlot n)).st = .auto ∨ (s.unit (loopSlot n)).st = .manual →
    ((s.calmUnit (loopSlot n)).unit (loopSlot n)).st = .manual ∧
      ((s.calmUnit (loopSlot n)).work.loop n).calmSafe = true ∧
      ((s.calmUnit (loopSlot n)).work.loop n).manual =
        (if s.cfg P.SAFE_MODE n = 0 then (s.work.loop n).uLast else s.cfgF P.SAFE_OUTPUT n)) ∧
  (∀ s (slot : Fin 1024), s.logicRuns = true → s.committed = true → isHive slot.val = false →
    (s.work.unit slot.val).st = .stopping → (s.work.unit slot.val).windDone = true →
    ∃ t, exec (.windDownComplete slot) s = .next t ∧ (t.work.unit slot.val).st = .stopped ∧
      (t.work.unit slot.val).faultCode = 0 ∧ t.tick = s.tick) ∧
  (∀ s, s.logicRuns = true → s.committed = true → s.hk.shutdownDue = true →
    ∃ t, exec .thermalShutdown s = .next t ∧ t.hk.shutdown = true ∧ t.hk.shutdownDue = false ∧ t.logicRuns = false ∧
      t.host.cause.getLsbD causeThermal = true ∧ t.fanDom.powered = false ∧
      ∀ b < s.bankCount, (t.bank b).state = .unpowered)

/-- A waiting command that falls due takes effect at its boundary and waits no longer (R69): SMOKER_CLEAR ends the
calm (R86); SET_WALL_TIME sets the wall time (R375); POWER_STATE changes the power state, and into DORMANT stops the
logic domain and the fine clock (R417, R422); UNIT_START starts a STOPPED unit (R23); CHANNEL_SERVICE takes a channel
out of service, with its unit in FAULT with code 0x01 and its cells OFFLINE (R174); CELL_WRITE writes a cell of the
host (R77); CELL_FORCE makes readers see the forced value with GOOD, FORCED and the effective tick, and leaves the
writer's own value; CELL_RELEASE ends a force (R38); CELL_RESET_EXTREMES makes the extremes not valid, from the
effective tick (R34); REC_CLEAR empties the rolling area, ends a freeze and starts the erase (R373). A command of the
Calm column whose tick comes while the module is calmed is discarded and marks its unit (R85). -/
def Obligations.ScheduledEffects : Prop :=
  ((∀ s x, FallsDue s x → x.opcode = 0x000B#16 →
    ∃ t, exec .scheduledCommandApply s = .next t ∧ t.smoker.calmed = false ∧ t.smoker.last = s.smoker.last ∧
      t.sched = s.sched.erase x ∧ t.tick = s.tick ∧ t.workTick = s.workTick) ∧
  (∀ s x, FallsDue s x → x.opcode = 0x0010#16 →
    ∃ t, exec .scheduledCommandApply s = .next t ∧
      t.wallDiff = toSigned 8 (field x.payload 0 8) - (s.workTick + 1 : Nat) ∧ t.wallStale = false ∧
      t.sched = s.sched.erase x) ∧
  (∀ s x p, FallsDue s x → x.opcode = 0x0011#16 → powerOf (field x.payload 0 1) = some p →
    ∃ t, exec .scheduledCommandApply s = .next t ∧ t.power = p ∧ t.tick = s.tick) ∧
  (∀ s x, FallsDue s x → x.opcode = 0x0011#16 → field x.payload 0 1 = 0 → s.power ≠ .dormant →
    ∃ t, exec .scheduledCommandApply s = .next t ∧ t.power = .dormant ∧ t.host.alive = false ∧ t.fineValid = false ∧
      t.checkpoint = (s.tick, s.wallDiff) ∧ t.sched = [] ∧ t.fanDom.powered = false ∧
      ∀ b < s.bankCount, (t.bank b).state = .unpowered) ∧
  (∀ s x slot, FallsDue s x → x.opcode = 0x0202#16 → field x.payload 0 2 = slot → s.has slot = true → isHive slot = false →
    slot ≠ hkSlot → (s.work.unit slot).st = .stopped → slotKind slot ≠ 0x08 →
    ∃ t, exec .scheduledCommandApply s = .next t ∧ t.sched = s.sched.erase x ∧
      (t.work.unit slot).st = startedState s.content slot) ∧
  (∀ s x ch, FallsDue s x → x.opcode = 0x0208#16 → ch < 128 → field x.payload 0 2 = chanSlot ch → field x.payload 2 1 = 0 →
    s.has (chanSlot ch) = true →
    ∃ t, exec .scheduledCommandApply s = .next t ∧ t.sched = s.sched.erase x ∧ (t.fch ch).serviceOff = true ∧
      (t.work.unit (chanSlot ch)).st = .fault ∧ (t.work.unit (chanSlot ch)).faultCode = 0x01 ∧
      ∀ r ∈ unitWrites s.content (chanSlot ch), (t.work.cell r).own.quality = 7 ∧
        (t.work.cell r).own.value = (s.work.cell r).own.value ∧ (t.work.cell r).own.stamp = (s.work.cell r).own.stamp)) ∧
  ((∀ s x, FallsDue s x → x.opcode = 0x0302#16 → field x.payload 0 1 = 1 →
    (hostCells s.content).contains (field x.payload 1 2) = true →
    ∃ t, exec .scheduledCommandApply s = .next t ∧ t.sched = s.sched.erase x ∧
      (t.work.cell (field x.payload 1 2)).own =
        ⟨BitVec.ofNat 64 (field x.payload 5 8), s.workTick + 1, 0, 0, 0, field x.payload 3 1⟩ ∧
      (t.work.cell (field x.payload 1 2)).written = true) ∧
  (∀ s x, FallsDue s x → x.opcode = 0x0303#16 →
    ∃ t, exec .scheduledCommandApply s = .next t ∧ t.sched = s.sched.erase x ∧
      (t.work.cell (field x.payload 0 2)).forced =
        some ⟨BitVec.ofNat 64 (field x.payload 3 8), s.workTick + 1, 0, 0, 0x80#8, field x.payload 2 1⟩ ∧
      (t.work.cell (field x.payload 0 2)).own = (s.work.cell (field x.payload 0 2)).own ∧
      ∀ r, r ≠ field x.payload 0 2 → t.work.cell r = s.work.cell r) ∧
  (∀ s x, FallsDue s x → x.opcode = 0x0304#16 →
    ∃ t, exec .scheduledCommandApply s = .next t ∧ t.sched = s.sched.erase x ∧
      (t.work.cell (field x.payload 0 2)).forced = none ∧
      (t.work.cell (field x.payload 0 2)).own = (s.work.cell (field x.payload 0 2)).own ∧
      ∀ r, r ≠ field x.payload 0 2 → t.work.cell r = s.work.cell r) ∧
  (∀ s x, FallsDue s x → x.opcode = 0x0305#16 → field x.payload 0 1 = 1 →
    ∃ t, exec .scheduledCommandApply s = .next t ∧ t.sched = s.sched.erase x ∧
      (t.work.cell (field x.payload 1 2)).extremesValid = false ∧
      (t.work.cell (field x.payload 1 2)).epoch = (s.workTick + 1) % 2 ^ 32 ∧
      (t.work.cell (field x.payload 1 2)).own = (s.work.cell (field x.payload 1 2)).own) ∧
  (∀ s x, FallsDue s x → x.opcode = 0x0604#16 →
    ∃ t, exec .scheduledCommandApply s = .next t ∧ t.sched = s.sched.erase x ∧ t.recorder.rolling = [] ∧
      t.recorder.frozen = false ∧ t.recorder.clearing = true ∧ t.recorder.founding = s.recorder.founding)) ∧
  (∀ s x slot, s.logicRuns = true → s.committed = true → s.smoker.calmed = true → s.smoker.due = none →
    (dueCommands s.sched (s.workTick + 1)).head? = some x → x.opcode = 0x0202#16 → field x.payload 0 2 = slot →
    s.has slot = true → isHive slot = false →
    ∃ t, exec .scheduledCommandApply s = .next t ∧ t.sched = s.sched.erase x ∧ (t.work.unit slot).cmdDropped = true ∧
      (t.work.unit slot).st = (s.work.unit slot).st)

/-- The generation that awaits boundary E becomes active there, with its content (R379), and one that awaits another
boundary waits on. A segment of the input record that is wanted begins there with its SEGMENT_START, and one that has
run its ticks ends and the next one begins (R118). Remote entries whose boundary it is leave the queue, and the one of
a cell is written as it came, with the node's root hive as SOURCE (R354; the SOURCE is log entry 41: the model's
choice). A replay that begins with the SNAPSHOT entries of a unit begins with the state that they were formed from
(R119, R125), on the premise that a state block does what it is for (SnapLaw, log entry 4). -/
def Obligations.BoundaryStores : Prop :=
  (∀ s a g, s.logicRuns = true → s.committed = true → s.awaiting = some a → a.at_ = s.workTick + 1 →
    s.generation a.number = some g →
    ∃ t, exec .generationActivate s = .next t ∧ t.activeGen = a.number ∧ t.awaiting = none ∧ t.content = g.content ∧
      t.tick = s.tick) ∧
  (∀ s, s.logicRuns = true → s.committed = true → (∀ a, s.awaiting = some a → a.at_ ≠ s.workTick + 1) →
    exec .generationActivate s = .next { s with base := s.work }) ∧
  (∀ s, s.logicRuns = true → s.committed = true → s.recWanted = true → s.inrec.open_ = false →
    ∃ t, exec .inrecSegmentBoundary s = .next t ∧ t.inrec.open_ = true ∧ t.inrec.t0 = s.workTick + 1 ∧
      t.inrec.scope = s.run P.INREC_SCOPE 0 ∧ t.work = s.work) ∧
  (∀ s, s.logicRuns = true → s.committed = true → s.recWanted = true → s.inrec.open_ = true →
    s.inrec.scope = s.run P.INREC_SCOPE 0 → s.run P.INREC_MODE 0 ≠ 2 → s.inrec.t0 ≤ s.workTick →
    s.inrec.t0 + s.run P.INREC_SEGMENT_TICKS 0 ≤ s.workTick + 1 →
    ∃ t, exec .inrecSegmentBoundary s = .next t ∧ t.inrec.open_ = true ∧ t.inrec.t0 = s.workTick + 1 ∧ t.work = s.work) ∧
  (∀ s, s.logicRuns = true → s.committed = true →
    ∃ t, exec .remoteCellApply s = .next t ∧
      t.link.remote = s.link.remote.filter (fun e => decide (s.workTick + 1 < e.due)) ∧ t.work.units = s.work.units) ∧
  (∀ s r, s.logicRuns = true → s.committed = true →
    s.link.remote.filter (fun e => decide (e.due ≤ s.workTick + 1)) = [r] →
    ∃ t, exec .remoteCellApply s = .next t ∧ (t.work.cell r.ref).written = true ∧
      (t.work.cell r.ref).own = ⟨r.entry.value, r.entry.stamp, 8192 * (r.ref / 8192), r.entry.quality, r.entry.conditions,
        r.entry.type⟩ ∧
      ∀ q, q ≠ r.ref → t.work.cell q = s.work.cell q) ∧
  (∀ same : Nat → Plant → Plant → Prop, SnapLaw same → ∀ (s : State) c p u hive t0 tick es, u < 1024 →
    es.map (·.2) = snapEntries c p tick u → same u (s.replayStart [u] hive t0 es).work p)

/-- Joining and losing at a boundary: a node that has announced it is grafted, with LINK, reason 1, and
CAPACITY_CHANGED on the root hive and on every unit that reads a cell of the node; a forager itself is joined (R43,
R360). A peer whose loss is due is lost: an admitted node's place stays known by its serial number, and of a joined
one the cells read OFFLINE and LINK is raised with reason 2; a forager is alone again, and its own work goes on as it
was (R361, R362). -/
def Obligations.BoundaryLink : Prop :=
  (∀ s (n : Fin 8) b, s.logicRuns = true → s.committed = true → n.val ≠ 0 → (s.peer n.val).state = 2 →
    (s.peer n.val).joinAt = some b → b ≤ s.workTick + 1 →
    ∃ t, exec (.nodeJoin n) s = .next t ∧ (t.peer n.val).state = 3 ∧ (t.peer n.val).joinAt = none ∧
      (t.peer n.val).align = 4 ∧ t.host.cause.getLsbD causeLink = true ∧ (t.work.unit 0).capChanged = true ∧
      (∀ u ∈ configuredSlots s.content, (∃ r ∈ unitReads s.content u, r / 8192 = n.val) →
        (t.work.unit u).capChanged = true)) ∧
  (∀ s b, s.logicRuns = true → s.committed = true → (s.peer 0).state = 2 → (s.peer 0).joinAt = some b →
    b ≤ s.workTick + 1 →
    ∃ t, exec (.nodeJoin 0) s = .next t ∧ t.link.joined = true ∧ (t.peer 0).state = 3 ∧ (t.peer 0).joinAt = none) ∧
  (∀ s (n : Fin 8), s.logicRuns = true → s.committed = true → n.val ≠ 0 → (s.peer n.val).lostDue = true →
    ∃ t, exec (.nodeLost n) s = .next t ∧ (t.peer n.val).state = 0 ∧ (t.peer n.val).lostDue = false ∧
      (t.peer n.val).serial = (s.peer n.val).serial ∧
      ((s.peer n.val).state = 3 → t.link.losses = sat32 (s.link.losses + 1) ∧ t.host.cause.getLsbD causeLink = true ∧
        ∀ r, r / 8192 = n.val → (s.work.cell r).written = true → (t.work.cell r).own.quality = 7)) ∧
  (∀ s, s.logicRuns = true → s.committed = true → (s.peer 0).lostDue = true →
    ∃ t, exec (.nodeLost 0) s = .next t ∧ t.link.joined = false ∧ t.link.offset = 0 ∧ t.link.nodeId = 0 ∧
      t.link.subscribed = [] ∧ t.work.cells = s.work.cells ∧ t.order = s.order)

/-- The start sequence of a fan port (R332, R333, Table 10-4): at the end of the kick the port proves; without
FAN_TACH_MIN within FAN_START_TIME the attempt fails, with a pause that doubles, or with FAULT 0x01 after the third
retry; at the end of the pause the next kick begins, or the port is OFF without demand. A speed that has been low for
FAN_FAULT_TIME is FAULT 0x02, but on a port with a supply FAULT 0x03 when the supply was at its limit in every record,
and TACH_LOST with a run that begins anew when every record had current in the running band and no edge. -/
def Obligations.FanTimers : Prop :=
  (∀ s (n : Fin 8), (s.work.fan n.val).seq = .kick → s.cfg P.FAN_KICK_TIME n.val ≤ (s.work.fan n.val).kickSteps →
    exec (.fanKickEnd n) s = .next { s with
      work := s.work.setFan n.val { s.work.fan n.val with seq := .proving } }) ∧
  (∀ s (n : Fin 8) k, (s.work.fan n.val).seq = .proving →
    s.cfg P.FAN_START_TIME n.val ≤ (s.work.fan n.val).kickSteps → s.fanFast n.val (s.work.fan n.val) = false →
    (s.work.fan n.val).retries = k → k < 3 →
    exec (.fanStartTimeout n) s = .next { s with work := s.work.setFan n.val { s.work.fan n.val with
      retries := k + 1
      seq := .pause
      pauseLeft := s.cfg P.FAN_RETRY_PAUSE n.val * 2 ^ k * 16 } }) ∧
  (∀ s (n : Fin 8), (s.work.fan n.val).seq = .proving →
    s.cfg P.FAN_START_TIME n.val ≤ (s.work.fan n.val).kickSteps → s.fanFast n.val (s.work.fan n.val) = false →
    (s.work.fan n.val).retries = 3 → (s.work.unit (fanSlot n.val)).faultDue = none →
    ∃ t, exec (.fanStartTimeout n) s = .next t ∧ (t.work.unit (fanSlot n.val)).faultDue = some 0x01 ∧
      t = { s with work := t.work }) ∧
  (∀ s (n : Fin 8), (s.work.fan n.val).seq = .pause → (s.work.fan n.val).pauseLeft = 0 →
    exec (.fanPauseEnd n) s = .next { s with
      work := s.work.setFan n.val (if fPos (s.work.fan n.val).cLast then { s.work.fan n.val with seq := .kick, kickSteps := 0 }
        else { s.work.fan n.val with seq := .off }) }) ∧
  (∀ s (n : Fin 8), (s.work.fan n.val).seq = .running → 0 < (s.work.fan n.val).lowRun →
    s.cfg P.FAN_FAULT_TIME n.val * 16 ≤ (s.work.fan n.val).lowRun → (s.work.unit (fanSlot n.val)).faultDue = none →
    (s.cfg P.FAN_SUPPLY n.val = 0 ∨ ((s.work.fan n.val).lowLimited = false ∧ (s.work.fan n.val).lowNoTach = false) →
      exec (.fanSpeedFaultTimer n) s = .next { s with
        work := s.work.modUnit (fanSlot n.val) (fun u => { u with faultDue := some 0x02 }) }) ∧
    (s.cfg P.FAN_SUPPLY n.val ≠ 0 → (s.work.fan n.val).lowLimited = true →
      exec (.fanSpeedFaultTimer n) s = .next { s with
        work := s.work.modUnit (fanSlot n.val) (fun u => { u with faultDue := some 0x03 }) }) ∧
    (s.cfg P.FAN_SUPPLY n.val ≠ 0 → (s.work.fan n.val).lowLimited = false → (s.work.fan n.val).lowNoTach = true →
      exec (.fanSpeedFaultTimer n) s = .next { s with work := s.work.setFan n.val { s.work.fan n.val with
        tachLost := true, lowRun := 0, lowLimited := true, lowNoTach := true } }))

/-- Timers of channels: beyond SUBST_LIMIT the batch is dropped and nothing is written (R113); a level that has stood
longer than STUCK_LIMIT is STUCK, with its flag (R152); no edge for COUNT_ZERO_TIMEOUT makes the reference invalid and
the value 0, which is BAD for a period (R159); an output that carries under 3 mA for 1,024 records shows OPEN_LOAD
(R168). Before, none of them does anything. -/
def Obligations.ChannelTimers : Prop :=
  (∀ s (ch : Fin 128), exec (.substLimitReached ch) s = .next (if s.cfg P.SUBST_LIMIT ch.val < (s.work.chan ch.val).missRun
    then { s with work := s.work.setChan ch.val { s.work.chan ch.val with skip := true, subst := false, batch := [] } }
    else s)) ∧
  (∀ s (ch : Fin 128), s.cfg P.STUCK_LIMIT ch.val ≠ 0 → s.cfg P.STUCK_LIMIT ch.val * 1024 < (s.work.chan ch.val).stuckRun →
    ∃ t, exec (.stuckDetect ch) s = .next t ∧
      t.work = s.work.setChan ch.val { s.work.chan ch.val with stuck := true } ∧
      (t.fch ch.val).flags = (s.fch ch.val).flags ||| 1#16 ∧
      t = { s with work := t.work, banks := t.banks, fieldChans := t.fieldChans }) ∧
  (∀ s (ch : Fin 128), s.cfg P.STUCK_LIMIT ch.val = 0 ∨
      (s.work.chan ch.val).stuckRun ≤ s.cfg P.STUCK_LIMIT ch.val * 1024 →
    exec (.stuckDetect ch) s = .next s) ∧
  (∀ s (ch : Fin 128), exec (.countZeroTimeout ch) s = .next
    (if s.mode ch.val = 2 ∧ s.cfg P.COUNT_ZERO_TIMEOUT ch.val ≤ (s.work.chan ch.val).idle
      then { s with work := s.work.setChan ch.val { s.work.chan ch.val with
        refValid := false
        value := 0
        settled := true
        valueBad := s.cfg P.COUNT_FUNC ch.val == 2 } }
      else s)) ∧
  (∀ s (ch : Fin 128), s.cfg P.OPEN_LOAD_EN ch.val = 1 → 1024 ≤ (s.work.chan ch.val).openRun →
    ∃ t, exec (.openLoadDetect ch) s = .next t ∧
      t.work = s.work.setChan ch.val { s.work.chan ch.val with openLoad := true } ∧
      (t.fch ch.val).flags = (s.fch ch.val).flags ||| 0x40#16 ∧
      t = { s with work := t.work, banks := t.banks, fieldChans := t.fieldChans }) ∧
  (∀ s (ch : Fin 128), s.cfg P.OPEN_LOAD_EN ch.val ≠ 1 ∨ (s.work.chan ch.val).openRun < 1024 →
    exec (.openLoadDetect ch) s = .next s)

/-- Inputs lost for a kind's limit of steps, when the limit is not 0: the loop, profile or observer unit is due for
FAULT 0x01 (R265, R288, R300), and nothing but its record changes. A churn whose fade has reached 0 with its band left
zeroes its table and takes the present band, with the fade count back at CHURN_FADE, and in count mode one that has
lost its phase zeroes its table (R292). -/
def Obligations.LossAndFade : Prop :=
  ((∀ s (n : Fin 256), s.cfg P.LOSS_FAULT_STEPS n.val ≠ 0 → s.cfg P.LOSS_FAULT_STEPS n.val ≤ (s.work.loop n.val).lossRun →
    (s.work.unit (loopSlot n.val)).faultDue = none →
    exec (.loopInputLossFault n) s = .next { s with
      work := s.work.modUnit (loopSlot n.val) (fun u => { u with faultDue := some 0x01 }) }) ∧
  (∀ s (n : Fin 64), s.cfg P.PROF_LOSS_STEPS n.val ≠ 0 → s.cfg P.PROF_LOSS_STEPS n.val ≤ (s.work.prof n.val).lossRun →
    (s.work.unit (profSlot n.val)).faultDue = none →
    exec (.profInputLossFault n) s = .next { s with
      work := s.work.modUnit (profSlot n.val) (fun u => { u with faultDue := some 0x01 }) }) ∧
  (∀ s (n : Fin 8), s.cfg P.OBS_LOSS_STEPS n.val ≠ 0 → s.cfg P.OBS_LOSS_STEPS n.val ≤ (s.work.observer n.val).lossRun →
    (s.work.unit (obsSlot n.val)).faultDue = none →
    exec (.obsInputLossFault n) s = .next { s with
      work := s.work.modUnit (obsSlot n.val) (fun u => { u with faultDue := some 0x01 }) })) ∧
  (∀ (s : State) (n : Fin 32), (s.work.churn n.val).fadeCount = 0 → (s.work.churn n.val).bandLeft = true →
    (s.work.unit (churnSlot n.val)).st ≠ .stopping →
    exec (.churnFadeEnd n) s = .next { s with work := s.work.setChurn n.val { s.work.churn n.val with
      table := [], tag := (s.work.churn n.val).band, fadeCount := s.cfg P.CHURN_FADE n.val, bandLeft := false
      lostSince := (s.work.churn n.val).phaseLost } }) ∧
  (∀ (s : State) (n : Fin 32), (s.work.churn n.val).fadeCount = 0 →
    ((s.work.churn n.val).bandLeft = false ∨ (s.work.unit (churnSlot n.val)).st = .stopping) →
    s.cfg P.CHURN_PHASE_MODE n.val = 1 → (s.work.churn n.val).lostSince = true →
    exec (.churnFadeEnd n) s = .next { s with work := s.work.setChurn n.val { s.work.churn n.val with
      table := [], lostSince := (s.work.churn n.val).phaseLost } }) ∧
  (∀ (s : State) (n : Fin 32), (s.work.churn n.val).fadeCount ≠ 0 → exec (.churnFadeEnd n) s = .next s)

/-- Programs that advance: a step that lasts its timeout without completing goes on to the step of its timeout, or
puts the unit in line for FAULT 0x03 where it names none (R306); a condition cell that has been unusable for
PRG_LOSS_TIME puts it in line for FAULT 0x01 (R306, R310), and not before; an action that waits is carried out at the
boundary: a STOP of a running channel unit stops it, and no action waits any more (R307). -/
def Obligations.ProgramEvents : Prop :=
  (∀ s (n : Fin 4), s.progAdvances n.val = true → (s.work.prog n.val).entryDue = false →
    let p := s.work.prog n.val
    let st := s.prgStepAt n.val p.step
    (p.condMet = false ∨ s.workTick - p.entry < st.minTime * 1024) →
    st.phase ≠ 0 → st.timeout ≠ 0 → st.timeout * 61440 ≤ s.workTick - p.entry →
    (st.timeoutNext ≠ 0xFF → exec (.programStepTimeout n) s = .next { s with
      work := s.work.setProg n.val { p with
        step := st.timeoutNext % 64, entryDue := true, rerun := false, unusableSince := none, timedOut := true } }) ∧
    (st.timeoutNext = 0xFF → (s.work.unit (progSlot n.val)).faultDue = none →
      ∃ t, exec (.programStepTimeout n) s = .next t ∧ (t.work.unit (progSlot n.val)).faultDue = some 0x03 ∧
        t.work.prog n.val = p ∧ t = { s with work := t.work })) ∧
  (∀ s (n : Fin 4), s.progAdvances n.val = true → (s.work.unit (progSlot n.val)).faultDue = none →
    let p := s.work.prog n.val
    p.condUnusable = true → s.cfg P.PRG_LOSS_TIME n.val ≠ 0 →
    exec (.programInputLoss n) s = .next
      (if s.cfg P.PRG_LOSS_TIME n.val * 1024 ≤ s.workTick - p.unusableSince.getD s.workTick
        then { s with work := s.work.modUnit (progSlot n.val) (fun u => { u with faultDue := some 0x01 }) } else s)) ∧
  (∀ s (n : Fin 4), s.cfg P.PRG_LOSS_TIME n.val = 0 ∨ (s.work.prog n.val).condUnusable = false →
    exec (.programInputLoss n) s = .next s) ∧
  (∀ s (n : Fin 4) u, s.logicRuns = true → s.committed = true → (s.work.prog n.val).actions = [(2, u)] →
    (s.work.prog n.val).faultStop = none → u < 1024 → slotKind u = 0x03 → (s.work.unit u).st = .active →
    ∃ t, exec (.programAction n) s = .next t ∧ (t.work.unit u).st = .stopped ∧ (t.work.prog n.val).actions = [])

/-- Chains: a member that runs and has not been proven within its time, and whose plug does not show, is tripped with
code 0x10; a proven one that has been slow for its time with code 0x11, and with that it and every member upstream
stop, the rest stop with the flow, and the chain's cells are written (R312, R313); the end of a purge stops the member
with the flow (R312). A member that shows neither is not tripped. -/
def Obligations.ChainTrips : Prop :=
  (∀ s (n : Fin 32) (i : Fin 16) m, (s.chainMembers n.val)[i.val]? = some m →
    let c := s.work.chain n.val
    let x := c.member i.val
    x.plugged = false → x.running = true → x.proven = false → m.prove ≤ x.sinceStart →
    exec (.chainProveTimeout n i) s = .next ((({ s with
      work := s.work.setChain n.val (c.trip i.val 0x10) } : State).writeChain n.val).chainDone n.val)) ∧
  (∀ s (n : Fin 32) (i : Fin 16) m, (s.chainMembers n.val)[i.val]? = some m →
    let c := s.work.chain n.val
    let x := c.member i.val
    x.plugged = false → x.running = true → x.proven = true → m.motion ≤ x.lowRun →
    exec (.chainMotionLoss n i) s = .next ((({ s with
      work := s.work.setChain n.val (c.trip i.val 0x11) } : State).writeChain n.val).chainDone n.val)) ∧
  (∀ s (n : Fin 32) (i : Fin 16), ((s.work.chain n.val).member i.val).running = false →
    exec (.chainProveTimeout n i) s = .next s ∧ exec (.chainMotionLoss n i) s = .next s) ∧
  (∀ (c : ChainState) i code j, j ≤ i → ((c.trip i code).member j).running = false ∧ (c.trip i code).stoppingFlow = true ∧
    (c.trip i code).tripped = true) ∧
  (∀ s (n : Fin 32) (i : Fin 16) m, (s.chainMembers n.val)[i.val]? = some m → 0 < i.val →
    let c := s.work.chain n.val
    c.stoppingFlow = true → (c.member i.val).running = true → (c.member (i.val - 1)).running = false →
    ((c.member (i.val - 1)).everRan = false ∨ m.purge ≤ (c.member (i.val - 1)).sinceStop) →
    exec (.chainPurgeEnd n i) s = .next ((({ s with
      work := s.work.setChain n.val (c.stopMember i.val) } : State).writeChain n.val).chainDone n.val)) ∧
  (∀ s (n : Fin 32) (i : Fin 16), (s.work.chain n.val).stoppingFlow = false → exec (.chainPurgeEnd n i) s = .next s)

/-- Bins and comb lines: a due sample of an ACTIVE bin is taken, which changes the rings, rates and conditions of that
bin alone (R318); an aeration permission that was only held by its minimum time ends with it (R319); a position whose
miss run stands at the limit of its round and is not yet reported raises COMB_MAP with the line as CODE and reason 2
with the position as DATA (R255). Read slots: a pulse level at most 3.5 mA over the baseline reads 0 and one more than
4.5 mA over it reads 1; an excess of at most 10.5 mA records no MULTIPLE and one over 11.5 mA does; a node whose READ
no slot answers with a 1 is NO_REPLY (R242). Sweeps and comb rounds in the field: a sweep of an active probe starts in
its slot with the set chosen for it (R217, R223), or makes the probe UNCALIBRATED where no set is complete (R224); its
record waits for the evaluation 41 ticks after the start, and one that comes after that deadline is counted and not
used (R219, R220). A due round opens, and runs unless the line is low, has no headroom or is being enumerated (R246,
R248); its record waits for the evaluation 2,048 ticks after the start, and one that comes after that deadline is
counted and not used (R247, R248). -/
def Obligations.SamplesAndRounds : Prop :=
  ((∀ s (n : Fin 64), (s.unit (binSlot n.val)).st = .active → s.binSampleAt n.val s.workTick = true →
    ∃ t, exec (.binSample n) s = .next t ∧ t = s.binSample n.val ∧ t = { s with work := t.work } ∧
      (∀ k, k ≠ n.val → t.work.bin k = s.work.bin k) ∧ (t.work.bin n.val).permit = (s.work.bin n.val).permit ∧
      (t.work.bin n.val).changedAt = (s.work.bin n.val).changedAt) ∧
  (∀ s (n : Fin 64), (s.unit (binSlot n.val)).st ≠ .active ∨ s.binSampleAt n.val s.workTick = false →
    exec (.binSample n) s = .next s) ∧
  (∀ s (n : Fin 64), (s.work.bin n.val).minOnHold = true → (s.work.bin n.val).permit = true →
    s.cfg P.BIN_AER_MIN_ON n.val * 1024 ≤ s.workTick - (s.work.bin n.val).changedAt →
    exec (.aerationHoldEnd n) s = .next { s with work := s.work.setBin n.val { s.work.bin n.val with
      minOnHold := false
      permit := false
      changedAt := s.workTick } }) ∧
  (∀ s (n : Fin 64), (s.work.bin n.val).minOffHold = true → (s.work.bin n.val).permit = false →
    s.cfg P.BIN_AER_MIN_OFF n.val * 1024 ≤ s.workTick - (s.work.bin n.val).changedAt →
    exec (.aerationHoldEnd n) s = .next { s with work := s.work.setBin n.val { s.work.bin n.val with
      minOffHold := false
      permit := true
      changedAt := s.workTick } }) ∧
  (∀ s (l : Fin 64) (pos : Fin 48),
    (match (s.work.comb l.val).last with | some r => r.limit | none => s.cfg P.COMB_MISS_LIMIT l.val) ≤
      Tab.get 0 (s.work.comb l.val).missRun pos.val →
    512 + pos.val ∉ (s.work.comb l.val).raised →
    exec (.combMissLimit l pos) s = .next ((s.raise causeCombMap (combSlot l.val) l.val (512 + pos.val)).modWork
      (fun p => p.setComb l.val { p.comb l.val with
        raised := (s.work.comb l.val).raised ++ [512 + pos.val] })))) ∧
  ((∀ r : ReadSlot, (r.pulseUa ≤ r.baseUa + 3500 → readsOne r = false) ∧ (r.baseUa + 4500 < r.pulseUa → readsOne r = true) ∧
    (r.pulseUa ≤ r.baseUa + 10500 → readsMultiple r = false) ∧ (r.baseUa + 11500 < r.pulseUa → readsMultiple r = true)) ∧
  (∀ (e : MapEntry) (slots : List ReadSlot), (∀ r ∈ slots, r.pulseUa ≤ r.baseUa + 3500) →
    (nodeEntry false e slots).status.getLsbD 7 = true ∧ (nodeEntry false e slots).failed = true ∧
      (nodeEntry false e slots).temp = 0 ∧ (nodeEntry false e slots).position = e.position)) ∧
  ((∀ s (p : Fin 64), s.logicRuns = true → s.has (probeSlot p.val) = true → s.rests (probeSlot p.val) = false →
    s.tick % s.probePeriod p.val = s.probeSlotAt p.val → (∀ r, (s.fprobe p.val).run = some r → r.start ≠ s.tick) →
    (s.unit (probeSlot p.val)).st = .active → (s.bank (s.probeDrive p.val / 8)).state = .inService →
    s.membersActive p.val = true →
    (∀ n m, s.chooseSet p.val s.tick = some (n, m) →
      exec (.probeSweepStart p) s = .next (s.setFprobe p.val { s.fprobe p.val with
        ready := none
        run := some {
          start := s.tick
          set := some n
          mismatch := m
          amplitude := s.cfg P.DIEL_AMPLITUDE p.val
          loadClass := (s.bank (s.probeDrive p.val / 8)).loadClass
          plan := (s.probePlan p.val).map enginePoint } })) ∧
    (s.chooseSet p.val s.tick = none → exec (.probeSweepStart p) s = .next (s.detectNow (probeSlot p.val) 0x01))) ∧
  (∀ s (p : Fin 64) r m, s.logicRuns = true → (s.fprobe p.val).run = some r → (s.fprobe p.val).ready = none →
    (s.deadlineAt < r.start + 41 → m.complete = true → r.missed = false → m.points.length = r.plan.length →
      exec (.sweepRecord p m) s = .next (s.setFprobe p.val { s.fprobe p.val with
        ready := some (r.start + 40, sweepRecord r (Tab.get {} (s.fprobe p.val).sets (r.set.getD 0)) m) })) ∧
    (r.start + 41 ≤ s.deadlineAt →
      exec (.sweepRecord p m) s = .next (s.countLate (s.probeDrive p.val / 8)))) ∧
  (∀ s (l : Fin 64) m, s.logicRuns = true → s.has (combSlot l.val) = true →
    (s.unit (combSlot l.val)).st = .active → s.roundAt l.val s.tick = true →
    (s.view.unit (chanSlot (s.lineChannel l.val))).st = .active →
    (s.bank (s.lineChannel l.val / 8)).guardTripped = false →
    let f := s.fcomb l.val
    let low := decide (m.millivolts < 17000)
    let head := flt (s.feedAllowance (s.lineChannel l.val / 8)) (fOfNat (m.baselineUa + 11000))
    let missed := low || head || f.enumerating
    ∃ t, exec (.combRoundStart l m) s = .next t ∧ t = { s with fcombs := t.fcombs } ∧
      (∀ k, k ≠ l.val → t.fcomb k = s.fcomb k) ∧
      t.fcomb l.val = { f with
        ended := (f.run.map (fun r => (r, f.ready.map (·.2)))).or f.ended
        ready := none
        startDue := f.startDue && missed
        run := some {
          t0 := s.tick
          start := f.startDue
          missed := missed
          lowFeed := low
          noHeadroom := head
          enumerating := f.enumerating
          limit := s.cfg P.COMB_MISS_LIMIT l.val
          frames := if missed then [] else roundFrames f.startDue f.needAssign (s.nodeMap l.val) } }) ∧
  (∀ s (l : Fin 64) r m, s.logicRuns = true → (s.fcomb l.val).ended = none → (s.fcomb l.val).run = some r →
    (s.fcomb l.val).ready = none →
    (∀ x, s.deadlineAt < r.t0 + 2048 → r.missed = false → roundRecord r (s.nodeMap l.val) m = some x →
      exec (.combRoundRecord l m) s = .next (s.setFcomb l.val { s.fcomb l.val with
        needAssign := x.failures
        ready := some (r.t0 + 2047, x) })) ∧
    (r.t0 + 2048 ≤ s.deadlineAt →
      exec (.combRoundRecord l m) s = .next (s.countLate (s.lineChannel l.val / 8)))) ∧
  (∀ r map m x, m.complete = true → roundRecord r map m = some x → x.entries.length = map.length ∧ x.missed = false ∧
    x.start = r.start ∧ x.unmapped = readsOne m.presence ∧ x.limit = r.limit))

/-- A base refresh frame with a good CRC and the number the field side expects arms the bank's guard with GUARD_TIME,
gives every configured channel of the bank the value last committed, and releases a tripped guard of a bank IN_SERVICE
after 4 consecutive valid uplink frames (R133, R134, R137); any other frame arms nothing, and one that is not intact
is counted as a CRC error; the number expected next is the successor of the last one sent (log entry 47). An update
frame carries one output as it has been computed (R133). The fan domain's frame carries the drives and arms its guard
(R324). Guards: on expiry an armed bank is GUARD_TRIPPED, the trip is counted and a comb round in flight on the bank
is abandoned (R135, R248), and every output channel that neither a fault nor its supply holds off takes row 5 of Table
04-2, its safe state (R136, R139); the trip is released only in a bank IN_SERVICE after 4 consecutive valid uplink
frames (R137). The fan guard trips in the same way (R324). -/
def Obligations.GuardsAndFrames : Prop :=
  ((∀ s (b : Fin 16), s.refreshes b.val = true → (s.bank b.val).seqDown = (s.bank b.val).seqNext →
    ∃ t, exec (.baseRefreshFrame ⟨b.val, by omega⟩ true) s = .next t ∧ (t.bank b.val).guardArmed = true ∧
      (t.bank b.val).guardTime = s.cfg P.GUARD_TIME b.val ∧ (t.bank b.val).seqDown = (s.bank b.val).seqDown + 1 ∧
      (t.bank b.val).seqNext = (s.bank b.val).seqDown + 1 ∧ (t.bank b.val).stretched = s.stretchMark ∧
      (t.bank b.val).throttle = s.hk.sent ∧
      (t.bank b.val).guardTripped = ((s.bank b.val).guardTripped && !(s.bank b.val).releases) ∧
      (∀ ch, ch / 8 = b.val → s.has (chanSlot ch) = true →
        (t.fch ch).cmd = s.driveCmd s.view ch ∧ (t.fch ch).refreshed = true) ∧
      (∀ ch, ch / 8 ≠ b.val → t.fch ch = s.fch ch) ∧ (∀ c, c ≠ b.val → t.bank c = s.bank c) ∧
      t = { s with banks := t.banks, fieldChans := t.fieldChans }) ∧
  (∀ s (b : Fin 16) intact, s.refreshes b.val = true →
    intact = false ∨ (s.bank b.val).seqDown ≠ (s.bank b.val).seqNext →
    exec (.baseRefreshFrame ⟨b.val, by omega⟩ intact) s = .next (s.setBank b.val { s.bank b.val with
        seqDown := (s.bank b.val).seqDown + 1
        seqNext := (s.bank b.val).seqDown + 1
        crcErrors := if intact then (s.bank b.val).crcErrors else sat32 ((s.bank b.val).crcErrors + 1) })) ∧
  (∀ s (b : Fin 16) intact, s.refreshes b.val = false →
    exec (.baseRefreshFrame ⟨b.val, by omega⟩ intact) s = .next s) ∧
  (∀ s, s.vinOn = true → s.logicRuns = true → s.fanDom.powered = true → s.fanDom.seqDown = s.fanDom.seqNext →
    exec (.baseRefreshFrame 16 true) s = .next { s with fanDom := { s.fanDom with
      seqDown := s.fanDom.seqDown + 1
      seqNext := s.fanDom.seqDown + 1
      guardArmed := true
      stretched := s.stretchMark
      throttle := s.hk.sent
      driven := (List.range 8).map (fun n => (s.fanCommand s.view n).demand)
      supplyOn := (List.range 8).map (fun n => (s.fanCommand s.view n).supply)
      guardTripped := s.fanDom.guardTripped && !decide (4 ≤ s.fanDom.goodUp) } }) ∧
  (∀ s (b : Fin 16) (ch : Fin 8), s.refreshes b.val = true → (s.bank b.val).guardArmed = true →
    s.has (chanSlot (8 * b.val + ch.val)) = true → (s.bank b.val).seqDown = (s.bank b.val).seqNext →
    ∃ t, exec (.updateRefreshFrame b ch) s = .next t ∧
      (t.fch (8 * b.val + ch.val)).cmd = s.driveCmd s.work (8 * b.val + ch.val) ∧
      (t.fch (8 * b.val + ch.val)).refreshed = true ∧
      t.bank b.val = { s.bank b.val with
        seqDown := (s.bank b.val).seqDown + 1, seqNext := (s.bank b.val).seqDown + 1 } ∧
      (∀ k, k ≠ 8 * b.val + ch.val → t.fch k = s.fch k) ∧ (∀ c, c ≠ b.val → t.bank c = s.bank c) ∧
      t = { s with banks := t.banks, fieldChans := t.fieldChans })) ∧
  ((∀ s (b : Fin 16), (s.bank b.val).powered = true → (s.bank b.val).guardArmed = true →
    (s.bank b.val).guardTripped = false →
    ∃ t, exec (.bankGuardExpiry b) s = .next t ∧ (t.bank b.val).guardTripped = true ∧
      (t.bank b.val).guardTrips = sat16 ((s.bank b.val).guardTrips + 1) ∧ (t.bank b.val).flags.getLsbD 7 = true ∧
      t = { s with banks := t.banks, fieldChans := t.fieldChans, fcombs := t.fcombs } ∧
      (∀ ch, ch / 8 = b.val → modeOutput (s.mode ch) = true → s.driveRow ch = 6 → t.driveRow ch = 5) ∧
      (∀ ch l r, ch / 8 = b.val → s.mode ch = 0x0B → l ∈ s.linesOn ch → (s.fcomb l).run = some r → s.tick < r.t0 + 2048 →
        (t.fcomb l).run = some { r with missed := true } ∧ (t.fcomb l).startDue = ((s.fcomb l).startDue || r.start))) ∧
  (∀ s (b : Fin 16), (s.bank b.val).powered = false ∨ (s.bank b.val).guardArmed = false ∨
    (s.bank b.val).guardTripped = true → exec (.bankGuardExpiry b) s = .next s) ∧
  (∀ (s : State) ch, s.driveRow ch = 5 → s.mode ch = 3 →
    (s.cfg P.SAFE_STATE ch = 0 → s.outTerminal ch = .off) ∧ (s.cfg P.SAFE_STATE ch = 1 → s.outTerminal ch = .drives 1) ∧
      (s.cfg P.SAFE_STATE ch = 2 → s.outTerminal ch = s.heldTerminal ch)) ∧
  (∀ s (b : Fin 16), (s.bank b.val).guardTripped = true → (s.bank b.val).state = .inService → 4 ≤ (s.bank b.val).goodUp →
    ∃ t, exec (.bankGuardRelease b) s = .next t ∧ (t.bank b.val).guardTripped = false ∧
      (t.bank b.val).guardTrips = (s.bank b.val).guardTrips ∧ (∀ c, c ≠ b.val → t.bank c = s.bank c) ∧
      t = { s with banks := t.banks, fieldChans := t.fieldChans }) ∧
  (∀ s (b : Fin 16), (s.bank b.val).guardTripped = false ∨ (s.bank b.val).state ≠ .inService ∨ (s.bank b.val).goodUp < 4 →
    exec (.bankGuardRelease b) s = .next s) ∧
  (∀ s, s.fanDom.powered = true → s.fanDom.guardArmed = true → s.fanDom.guardTripped = false →
    exec .fanGuardExpiry s = .next { s with fanDom := { s.fanDom with guardTripped := true } }))

/-- Uplink frames of a bank in service: an intact one counts towards the release, reports VFLD and a failed self-check
or barrier supply (R132, R133, R137), and brings the bank's common fault bit, whose rise raises FIELD_FAULT (R143); in
time it delivers the stamps of the last tick after those held back, and the record latched for a digital input (R115,
R154); late, each of its records is counted and none used (R115). One that is not intact is counted, requested again
once, and breaks the run of valid frames, and its records are lost (R133, R137). The fan domain's intact frame counts
towards its release (R324). Service and failure of a bank: a restarted bank reaches IN_SERVICE with VFLD as it reports
it (R131, R169), without the field calibration records that fail their check (R201) and with its engine's self-test
(R234); a failure of a bank in service is declared and takes effect at the next boundary (R132); a failed bank
restarts, and is RETIRED and marked after the third failure (R132). The mean current of a block decides, once, the
load class that applies from the second block after it (R197). -/
def Obligations.BanksAndUplink : Prop :=
  ((∀ s (b : Fin 16) f, s.vinOn = true → s.logicRuns = true → (s.bank b.val).state = .inService → f.intact = true →
    ∃ t, exec (.bankUplinkFrame ⟨b.val, by omega⟩ f) s = .next t ∧ (t.bank b.val).goodUp = (s.bank b.val).goodUp + 1 ∧
      (t.bank b.val).missUp = 0 ∧ (t.bank b.val).sawUp = true ∧ (t.bank b.val).vfld = f.vfld ∧
      (t.bank b.val).vfldMin = Nat.min (s.bank b.val).vfldMin f.vfld ∧
      (t.bank b.val).seqUp = (s.bank b.val).seqUp + 1 ∧
      (t.bank b.val).failDue = (if f.selfCheck then some .selfCheck else if f.barrier then some .barrierSupply
        else (s.bank b.val).failDue) ∧
      (t.bank b.val).faultBit = t.commonFault b.val ∧
      (t.commonFault b.val = true → (s.bank b.val).faultBit = false → t.host.cause.getLsbD causeFieldFault = true) ∧
      (t.commonFault b.val = false ∨ (s.bank b.val).faultBit = true → t.host = s.host) ∧
      (f.onTime = true → s.deadlineAt < s.tick → (s.bank b.val).batchIn = false →
        (t.bank b.val).batchIn = true ∧ (t.bank b.val).lateSamples = (s.bank b.val).lateSamples ∧
        (Tab.get ([], []) (t.inputs (s.tick - 1)).edges b.val).1 = (s.bank b.val).heldBack ++ (s.bank b.val).batch) ∧
      (f.onTime = false ∨ s.tick ≤ s.deadlineAt →
        (t.bank b.val).lateSamples = sat32 ((s.bank b.val).lateSamples + f.meas.length) ∧ t.inbufs = s.inbufs) ∧
      t = { s with banks := t.banks, fieldChans := t.fieldChans, inbufs := t.inbufs, host := t.host }) ∧
  (∀ s (b : Fin 16) f m c, s.vinOn = true → s.logicRuns = true → (s.bank b.val).state = .inService → f.intact = true →
    f.onTime = true → s.deadlineAt < s.tick → 1 ≤ s.tick → f.meas = [m] → m.convs = [] → m.ch / 8 = b.val →
    s.has (chanSlot m.ch) = true → modeDi (s.mode m.ch) = true → s.tick % chanPeriod s.content m.ch = 0 →
    (s.fch m.ch).formed = none → (s.fch m.ch).latched = some (s.tick - 1, c) →
    ∃ t, exec (.bankUplinkFrame ⟨b.val, by omega⟩ f) s = .next t ∧
      Tab.get [] (t.inputs (s.tick - 1)).batches m.ch = [c]) ∧
  (∀ s (b : Fin 16) f, s.vinOn = true → s.logicRuns = true → (s.bank b.val).state = .inService → f.intact = false →
    ∃ t, exec (.bankUplinkFrame ⟨b.val, by omega⟩ f) s = .next t ∧ (t.bank b.val).goodUp = 0 ∧
      (t.bank b.val).crcErrors = sat32 ((s.bank b.val).crcErrors + 1) ∧ (t.bank b.val).retried = true ∧
      (t.bank b.val).retries =
        (if (s.bank b.val).retried then (s.bank b.val).retries else sat32 ((s.bank b.val).retries + 1)) ∧
      (t.bank b.val).vfld = (s.bank b.val).vfld ∧ (t.bank b.val).seqUp = (s.bank b.val).seqUp ∧
      t = { s with banks := t.banks, fieldChans := t.fieldChans }) ∧
  (∀ s (b : Fin 16) f, s.vinOn = false ∨ s.logicRuns = false ∨ (s.bank b.val).state ≠ .inService →
    exec (.bankUplinkFrame ⟨b.val, by omega⟩ f) s = .next s) ∧
  (∀ s f, s.vinOn = true → s.logicRuns = true → s.fanDom.powered = true →
    ∃ t, exec (.bankUplinkFrame 16 f) s = .next t ∧
      t.fanDom = (if f.intact then { s.fanDom with goodUp := s.fanDom.goodUp + 1, sawUp := true }
        else { s.fanDom with goodUp := 0 }) ∧ t = { s with fanDom := t.fanDom, inbufs := t.inbufs })) ∧
  ((∀ s (b : Fin 16) r, (s.bank b.val).state = .starting →
    ∃ t, exec (.bankInService b r) s = .next t ∧ (t.bank b.val).state = .inService ∧ (t.bank b.val).restarts = 0 ∧
      (t.bank b.val).engine = (if r.engineOk then 1 else 2) ∧ (t.bank b.val).vfld = r.vfld ∧
      (t.bank b.val).vfldMin = Nat.min (s.bank b.val).vfldMin r.vfld ∧
      (t.bank b.val).guardArmed = (s.bank b.val).guardArmed ∧
      (s.monitored b.val = true → (s.bank b.val).uvlo = true → t.host.cause.getLsbD causeSupply = true ∧
        (t.bank b.val).present.getLsbD 5 = true) ∧
      (s.monitored b.val = false → t.host = s.host) ∧
      (∀ ch i, (ch, i) ∈ r.fieldRecBad → ch / 8 = b.val → i ∉ (t.fch ch).fieldRecs.map (·.1)) ∧
      (∀ c, c ≠ b.val → t.bank c = s.bank c) ∧
      t = { s with banks := t.banks, fieldChans := t.fieldChans, host := t.host, fprobes := t.fprobes,
                   work := t.work, base := t.base }) ∧
  (∀ s (b : Fin 16) r, (s.bank b.val).state ≠ .starting → (s.bank b.val).state ≠ .inService ∨ (s.bank b.val).guardArmed = true →
    exec (.bankInService b r) s = .next s) ∧
  (∀ s (b : Fin 16) cause, (s.bank b.val).state = .inService →
    ∃ t, exec (.bankFailure b cause) s = .next t ∧ (t.bank b.val).failDue = some cause ∧
      (t.bank b.val).state = .inService ∧ ((t.bank b.val).flags.getLsbD 2 = true ∨ cause ≠ .selfCheck) ∧
      ((t.bank b.val).flags.getLsbD 1 = true ∨ cause ≠ .barrierSupply) ∧ (∀ c, c ≠ b.val → t.bank c = s.bank c) ∧
      t = { s with banks := t.banks }) ∧
  (∀ s (b : Fin 16) cause, (s.bank b.val).state ≠ .inService → exec (.bankFailure b cause) s = .next s) ∧
  (∀ s (b : Fin 16), (s.bank b.val).state = .failed → (s.bank b.val).restarts < 3 → (s.bank b.val).restartAt ≤ s.tick →
    ∃ t, exec (.bankRestart b true) s = .next t ∧ t.bank b.val = { (s.bank b.val).bare with
        state := .starting
        flags := (s.bank b.val).flags
        restarts := (s.bank b.val).restarts + 1
        fifo := (s.bank b.val).fifo
        fifoLost := (s.bank b.val).fifoLost } ∧
      (∀ ch, ch / 8 = b.val → t.fch ch = { (s.fch ch).bare with serviceOff := (s.fch ch).serviceOff }) ∧
      (∀ ch, ch / 8 ≠ b.val → t.fch ch = s.fch ch) ∧ (∀ c, c ≠ b.val → t.bank c = s.bank c) ∧
      t = { s with banks := t.banks, fieldChans := t.fieldChans }) ∧
  (∀ s (b : Fin 16), (s.bank b.val).state = .failed → (s.bank b.val).restarts < 2 → (s.bank b.val).restartAt ≤ s.tick →
    exec (.bankRestart b false) s = .next (s.setBank b.val { s.bank b.val with
      restarts := (s.bank b.val).restarts + 1
      restartAt := s.tick + 1024 })) ∧
  (∀ s (b : Fin 16), (s.bank b.val).state = .failed → (s.bank b.val).restarts = 2 → (s.bank b.val).restartAt ≤ s.tick →
    ∃ t, exec (.bankRestart b false) s = .next t ∧
      t.bank b.val = { s.bank b.val with state := .retired, restarts := 3 } ∧ b.val ∈ t.boot.marksBanks ∧
      t = { s with banks := t.banks, boot := { s.boot with marksBanks := t.boot.marksBanks } }) ∧
  (∀ s (b : Fin 16) passed, (s.bank b.val).state ≠ .failed ∨ 3 ≤ (s.bank b.val).restarts ∨ s.tick < (s.bank b.val).restartAt →
    exec (.bankRestart b passed) s = .next s) ∧
  (∀ s (b : Fin 16) unseen, (s.bank b.val).powered = true → (s.bank b.val).loadBlock < s.tick / 1024 →
    let k := s.bank b.val
    let n := s.tick / 1024
    let sum := Tab.get 0 k.loadSums (n - 1) + unseen.sum * 2 ^ 23
    exec (.loadClassUpdate b unseen) s = .next (s.setBank b.val { k with
      loadMean := toF32 (dRat sum (1000000 * 2 ^ 23 * 1024))
      loadNext := k.loadNext ++ [((n + 1) * 1024,
        loadClassOf (match k.loadNext.getLast? with | some e => e.2 | none => k.loadClass) sum)]
      loadSums := k.loadSums.filter (fun e => decide (n ≤ e.1))
      loadBlock := n })) ∧
  (∀ s (b : Fin 16) unseen, (s.bank b.val).powered = false ∨ s.tick / 1024 ≤ (s.bank b.val).loadBlock →
    exec (.loadClassUpdate b unseen) s = .next s) ∧
  (∀ sum, (loadSumOf 25 ≤ sum → ∀ old, loadClassOf old sum = 2) ∧ (sum < loadSumOf 8 → ∀ old, loadClassOf old sum = 0) ∧
    (loadSumOf 10 ≤ sum → sum < loadSumOf 23 → ∀ old, loadClassOf old sum = 1)))

/-- An accepted edge of a digital input changes the level, counts among the edges of the window and, when COUNT_EDGE
takes its direction, in the counter, with its fine count in the running tick (R149, R158), which is 0xFFFF while the
fine clock is not valid (R150); it is stamped, in time order, when STAMP_EN takes its direction (R154). DI_INVERT
turns the direction round. Nothing else changes. An edge that does not change the level, or of a channel that is no
digital input, is none. -/
def Obligations.DigitalEdges : Prop :=
  (∀ s (ch : Fin 128) rise fine, s.fieldAlive ch.val = true → modeDi (s.mode ch.val) = true →
    (s.fch ch.val).level = !rise →
    let f := s.fch ch.val
    let fine' := if s.fineValid then Nat.min fine (s.tickFine - 1) else 0xFFFF
    let up := rise != (s.cfg P.DI_INVERT ch.val == 1)
    let counted := s.cfg P.COUNT_EDGE ch.val == 2 || (s.cfg P.COUNT_EDGE ch.val == 0 && up) ||
      (s.cfg P.COUNT_EDGE ch.val == 1 && !up)
    ∃ t, exec (.diEdgeAccepted ch rise fine) s = .next t ∧
      t.fch ch.val = { f with
        level := rise
        edges := f.edges + 1
        lastFine := some fine'
        counted := if counted then f.counted + 1 else f.counted
        countFine := if counted then some fine' else f.countFine } ∧
      (∀ k, k ≠ ch.val → t.fch k = s.fch k) ∧ (∀ c, c ≠ ch.val / 8 → t.bank c = s.bank c) ∧
      t.bank (ch.val / 8) = (if bit (s.run P.STAMP_EN ch.val) (if up then 0 else 1)
        then { s.bank (ch.val / 8) with
          stamps := insertStamp (s.bank (ch.val / 8)).stamps { ch := ch.val, rise := up, tick := s.tick, fine := fine' } }
        else s.bank (ch.val / 8)) ∧
      t = { s with banks := t.banks, fieldChans := t.fieldChans }) ∧
  (∀ s (ch : Fin 128) rise fine,
    (s.fch ch.val).level = rise ∨ modeDi (s.mode ch.val) = false ∨ s.fieldAlive ch.val = false →
    exec (.diEdgeAccepted ch rise fine) s = .next s) ∧
  (∀ (l : List Stamp) x y, y ∈ insertStamp l x ↔ y = x ∨ y ∈ l)

/-- Protections of outputs: overload, back-feed, a pair out of balance and a current limit of 100 ms trip the channel
with codes 0x10 to 0x13, and its terminal is off whatever the guard says (R139, R164, R165, R167, R205); a trip of
either member of a pair is the even channel's (R166). A back-feed when exactly one other digital output of the bank
has switched on before it is WIRED_TOGETHER with that output, which shows the flag too, else SHORT_TO_SUPPLY (R165). A
channel that has tripped does not trip again. An open AO-I loop shows OPEN_LOAD with its flag (R204); a waveform takes
its waiting value at the end of a period (R206); a short or a back-feed on a comb line trips the channel with 0x40 or
0x41 and makes the next round of its lines a start round (R257); a short on a fan supply switches it off (R333); a new
excitation current begins with the first window at or after its effective tick, with its settling windows (R189). -/
def Obligations.OutputEvents : Prop :=
  ((∀ s (ch : Fin 128), s.fieldAlive (s.pairLead ch.val) = true → modeDo (s.mode (s.pairLead ch.val)) = true →
    (s.fch (s.pairLead ch.val)).trip = none →
    let c := s.pairLead ch.val
    ∃ t, exec (.doOverloadTrip ch) s = .next t ∧ (t.fch c).trip = some 0x10 ∧ (t.fch c).flags.getLsbD 2 = true ∧
      (t.outTerminal c = .off ∨ t.outTerminal c = .dead) ∧ t = { s with banks := t.banks, fieldChans := t.fieldChans }) ∧
  (∀ s (ch : Fin 128) (on : List (Fin 8)), s.fieldAlive (s.pairLead ch.val) = true →
    modeDo (s.mode (s.pairLead ch.val)) = true → (s.fch (s.pairLead ch.val)).trip = none →
    let c := s.pairLead ch.val
    let d := fun j : Fin 8 => s.pairLead (8 * (c / 8) + j.val)
    (∀ j ∈ on, d j = c ∨ modeDo (s.mode (d j)) = false) →
    ∃ t, exec (.doBackfeedTrip ch on) s = .next t ∧ (t.fch c).trip = some 0x11 ∧ (t.fch c).partner = 0xFF ∧
      (t.fch c).flags.getLsbD 3 = true ∧ (t.outTerminal c = .off ∨ t.outTerminal c = .dead) ∧
      t = { s with banks := t.banks, fieldChans := t.fieldChans }) ∧
  (∀ s (ch : Fin 128) (on : List (Fin 8)) (i : Fin 8), s.fieldAlive (s.pairLead ch.val) = true →
    modeDo (s.mode (s.pairLead ch.val)) = true → (s.fch (s.pairLead ch.val)).trip = none →
    let c := s.pairLead ch.val
    let o := 8 * (c / 8) + i.val
    let d := fun j : Fin 8 => s.pairLead (8 * (c / 8) + j.val)
    o ≠ c → modeDo (s.mode o) = true → (∀ j ∈ on, d j = o ∨ d j = c ∨ modeDo (s.mode (d j)) = false) →
    (∃ j ∈ on, d j = o) →
    ∃ t, exec (.doBackfeedTrip ch on) s = .next t ∧ (t.fch c).trip = some 0x12 ∧ (t.fch c).partner = i.val ∧
      (t.fch c).flags.getLsbD 4 = true ∧ (t.fch o).flags.getLsbD 4 = true ∧ (t.fch o).trip = (s.fch o).trip ∧
      (t.outTerminal c = .off ∨ t.outTerminal c = .dead) ∧ t = { s with banks := t.banks, fieldChans := t.fieldChans }) ∧
  (∀ s (ch : Fin 128), s.fieldAlive (s.pairLead ch.val) = true → modeDo (s.mode (s.pairLead ch.val)) = true →
    s.cfg P.DO_PAIR (s.pairLead ch.val) = 1 → (s.fch (s.pairLead ch.val)).trip = none →
    let c := s.pairLead ch.val
    ∃ t, exec (.pairImbalanceTrip ch) s = .next t ∧ (t.fch c).trip = some 0x13 ∧ (t.fch c).flags.getLsbD 5 = true ∧
      (t.outTerminal c = .off ∨ t.outTerminal c = .dead) ∧ t = { s with banks := t.banks, fieldChans := t.fieldChans }) ∧
  (∀ s (ch : Fin 128) on, (s.fch (s.pairLead ch.val)).trip.isSome = true ∨ s.fieldAlive (s.pairLead ch.val) = false ∨
    modeDo (s.mode (s.pairLead ch.val)) = false →
    exec (.doOverloadTrip ch) s = .next s ∧ exec (.doBackfeedTrip ch on) s = .next s ∧
      exec (.pairImbalanceTrip ch) s = .next s) ∧
  (∀ s (ch : Fin 128), s.fieldAlive ch.val = true → s.mode ch.val = 8 → (s.fch ch.val).trip = none →
    ∃ t, exec (.aovCurrentLimitTrip ch) s = .next t ∧ (t.fch ch.val).trip = some 0x10 ∧
      t.work = s.work.modUnit (chanSlot ch.val) (·.detect 0x10) ∧ t.base = s.base.modUnit (chanSlot ch.val) (·.detect 0x10) ∧
      t = { s with banks := t.banks, fieldChans := t.fieldChans, work := t.work, base := t.base }) ∧
  (∀ s (ch : Fin 128), s.fieldAlive ch.val = false ∨ s.mode ch.val ≠ 8 → exec (.aovCurrentLimitTrip ch) s = .next s)) ∧
  ((∀ s (ch : Fin 128), s.fieldAlive ch.val = true → s.mode ch.val = 7 →
    ∃ t, exec (.aoiOpenLoop ch) s = .next t ∧ (t.fch ch.val).openLoop = true ∧ (t.fch ch.val).flags.getLsbD 6 = true ∧
      (∀ k, k ≠ ch.val → t.fch k = s.fch k) ∧ t = { s with banks := t.banks, fieldChans := t.fieldChans }) ∧
  (∀ s (ch : Fin 128), s.fieldAlive ch.val = false ∨ s.mode ch.val ≠ 7 → exec (.aoiOpenLoop ch) s = .next s) ∧
  (∀ s (ch : Fin 128) v, (s.fch ch.val).pulseNext = some v →
    exec (.doPulsePeriodEnd ch) s = .next (s.setFch ch.val { s.fch ch.val with pulseNow := v, pulseNext := none })) ∧
  (∀ s (ch : Fin 128), (s.fch ch.val).pulseNext = none → exec (.doPulsePeriodEnd ch) s = .next s) ∧
  (∀ s (ch : Fin 128) (short : Bool), s.fieldAlive ch.val = true → s.mode ch.val = 0x0B → (s.fch ch.val).trip = none →
    let code := if short then 0x40 else 0x41
    ∃ t, exec (if short then .combLineShort ch else .combLineBackfeed ch) s = .next t ∧ (t.fch ch.val).trip = some code ∧
      (t.outTerminal ch.val = .off ∨ t.outTerminal ch.val = .dead) ∧
      (∀ l ∈ s.linesOn ch.val, t.fcomb l = { s.fcomb l with startDue := true }) ∧
      (∀ l, l ∉ s.linesOn ch.val → t.fcomb l = s.fcomb l) ∧
      t.work = s.work.modUnit (chanSlot ch.val) (·.detect code) ∧ t.base = s.base.modUnit (chanSlot ch.val) (·.detect code) ∧
      t = { s with banks := t.banks, fieldChans := t.fieldChans, fcombs := t.fcombs, work := t.work, base := t.base }) ∧
  (∀ s (ch : Fin 128), s.fieldAlive ch.val = false ∨ s.mode ch.val ≠ 0x0B →
    exec (.combLineShort ch) s = .next s ∧ exec (.combLineBackfeed ch) s = .next s) ∧
  (∀ s (n : Fin 8), n.val < 4 → s.fanDom.powered = true → s.cfg P.FAN_SUPPLY n.val ≠ 0 →
    exec (.fanSupplyShort n) s = .next { s with fanDom := { s.fanDom with
      supplyShort := s.fanDom.supplyShort.set n.val true } }) ∧
  (∀ s (n : Fin 8), 4 ≤ n.val ∨ s.fanDom.powered = false ∨ s.cfg P.FAN_SUPPLY n.val = 0 →
    exec (.fanSupplyShort n) s = .next s) ∧
  (∀ s (ch : Fin 128), s.logicRuns = true → s.evaluated = false → s.committed = false → s.mode ch.val = 9 →
    s.excOn (resForce s.content ch.val) = true → s.workTick % chanPeriod s.content ch.val = 0 →
    let f := s.fch ch.val
    let want := s.run P.EXC_CURRENT (resForce s.content ch.val)
    let count := s.cfg P.EXC_SETTLE (resForce s.content ch.val)
    want ≠ 0 → f.excNow ≠ want →
    ∃ t, exec (.excCurrentApply ch) s = .next t ∧
      t.fch ch.val = { f with excNow := want, settle := if f.excNow = 0 then Nat.max f.settle count else count } ∧
      (∀ k, k ≠ ch.val → t.fch k = s.fch k) ∧ t = { s with fieldChans := t.fieldChans, base := s.work }) ∧
  (∀ s (ch : Fin 128), s.logicRuns = false ∨ s.evaluated = true ∨ s.committed = true →
    exec (.excCurrentApply ch) s = .next s))

/-- What the end of a running job's work gives. A job that ends has its state, STATUS and DETAIL and JOB_DONE is
raised; one whose session is gone is removed (R79, R81). JOB_CHECKPOINT sets the progress and lets a cancel, a pause
or the pre-emption by a waiting job of a higher class take effect, and then the next job runs (R80). The validation of
a commit by the holder of the pending generation fixes the effective tick, no earlier than 2 ticks on, stores the
generation and awaits it; a refused content or a tick that is too late ends the job FAILED, and no generation is
created (R82, R379). A memory error ends a replay job FAILED with INTERNAL (R112); a read job whose last part is left
ends DONE with it (R122, R372, R384). The collections of calibration and enumeration jobs: the job ends DONE with the
new state or FAILED with the case's STATUS and DETAIL, and goes on while values are still to come (R200, R225, R254).
Rows for a job that does not exist, or that works on another unit or with another ACTION than the row names, do
nothing. -/
def Obligations.JobsEnd : Prop :=
  ((∀ (s : State) h j (st : JobState) status detail data, s.job h = some j → st = .done ∨ st = .failed ∨ st = .cancelled →
    let t := s.endJob h st status detail data
    t.host.cause.getLsbD causeJobDone = true ∧ t = { s with jobs := t.jobs, host := t.host } ∧
      (j.session = none → t.job h = none) ∧
      (j.session ≠ none → t.job h = some { j with
        state := st
        status := BitVec.ofNat 8 status
        detail := BitVec.ofNat 8 detail
        data := data
        progress := if st = .done then 1000 else j.progress
        pauseDue := false
        cancelDue := false })) ∧
  (∀ s : State, (∀ k ∈ s.jobs, k.state ≠ .queued ∧ k.cancelDue = false) → s.dispatchJobs = s) ∧
  (∀ (s : State) h k, (∀ x ∈ s.jobs, x.handle = h → x = k) → k ∈ s.jobs → k.state.ended = true → s.dispatchJobs.job h = some k)) ∧
  ((∀ s j h n, s.job h = some j → j.occupies = true → j.cancelDue = false → j.pauseDue = false →
    (∀ k ∈ s.jobs, k.state = .queued → jobClass j.opcode ≤ jobClass k.opcode) →
    exec (.jobCheckpoint h n) s = .next (s.modJob h (fun k => { k with progress := Nat.min 1000 n }))) ∧
  (∀ s j h n, s.job h = some j → j.occupies = true → j.cancelDue = true → j.change = false → j.opcode ≠ 0x0803#16 →
    ∃ t, exec (.jobCheckpoint h n) s = .next t ∧
      t = (((s.modJob h (fun k => { k with progress := Nat.min 1000 n })).setEnumerating j false).endJob h .cancelled
        stOk 0 []).dispatchJobs ∧ t.host.cause.getLsbD causeJobDone = true ∧ ∀ k, t.job h = some k → k.state = .cancelled) ∧
  (∀ s j h n, s.job h = some j → j.occupies = true → j.cancelDue = false → j.pauseDue = true → j.opcode ≠ 0x0803#16 →
    exec (.jobCheckpoint h n) s = .next (((s.modJob h (fun k => { k with progress := Nat.min 1000 n })).modJob h
      (fun k => { k with state := .paused, pauseDue := false })).dispatchJobs)) ∧
  (∀ s j h n k, s.job h = some j → j.occupies = true → j.cancelDue = false → j.pauseDue = false → k ∈ s.jobs →
    k.state = .queued → jobClass k.opcode < jobClass j.opcode →
    exec (.jobCheckpoint h n) s = .next (((s.modJob h (fun k => { k with progress := Nat.min 1000 n })).modJob h
      (fun k => { k with state := .queued })).dispatchJobs)) ∧
  (∀ s h n w sweeps u a l answers, s.job h = none → exec (.jobCheckpoint h n) s = .next s ∧ exec (.jobEnd h w) s = .next s ∧
    exec (.cfgValidationDone h) s = .next s ∧ exec (.calRunDone h u a) s = .next s ∧
    exec (.probeCalDone h sweeps) s = .next s ∧ exec (.combEnumerateDone h l answers) s = .next s)) ∧
  ((∀ s j h p, s.job h = some j → j.occupies = true → j.cancelDue = false → j.pauseDue = false →
    j.opcode = 0x0402#16 → s.changeBarred = none → s.pendGen = some p → j.session = some p.holder → p.base = s.activeGen →
    s.validate (dropVacant p.content) = none → j.wantedSet = false ∨ s.tick + 2 ≤ j.wanted →
    ∃ t, exec (.cfgValidationDone h) s = .next t ∧
      t.awaiting = some ⟨s.topNumber + 1, Nat.max j.wanted (s.tick + 2), false⟩ ∧
      (∃ g ∈ t.gens, g.number = s.topNumber + 1 ∧ g.content = dropVacant p.content ∧ g.parent = s.activeGen) ∧
      t.activeGen = s.activeGen) ∧
  (∀ s j h p f, s.job h = some j → j.occupies = true → j.cancelDue = false → j.pauseDue = false →
    j.opcode = 0x0402#16 → s.changeBarred = none → s.pendGen = some p → j.session = some p.holder → p.base = s.activeGen →
    s.validate (dropVacant p.content) = some f →
    exec (.cfgValidationDone h) s = .next (({ s with pendGen := none }.endJob h .failed stConfigRefused f.reason
      f.bytes).dispatchJobs)) ∧
  (∀ s j h p, s.job h = some j → j.occupies = true → j.cancelDue = false → j.pauseDue = false →
    j.opcode = 0x0402#16 → s.changeBarred = none → s.pendGen = some p → j.session = some p.holder → p.base = s.activeGen →
    s.validate (dropVacant p.content) = none → j.wantedSet = true → j.wanted < s.tick + 2 →
    exec (.cfgValidationDone h) s = .next (({ s with pendGen := none }.endJob h .failed stTooLate 0 noPlace).dispatchJobs)) ∧
  (∀ s j h, s.job h = some j → j.state = .running → j.opcode = 0x0702#16 →
    exec (.jobEnd h .memoryError) s = .next ((s.endJob h .failed stInternal 0 []).dispatchJobs)) ∧
  (∀ s j h part, s.job h = some j → j.occupies = true → j.cancelDue = false → j.pauseDue = false →
    j.opcode = 0x0602#16 ∨ j.opcode = 0x0704#16 ∨ j.opcode = 0x0406#16 → j.out = [part] →
    exec (.jobEnd h .done) s = .next ((s.endJob h .done stOk 0 part).dispatchJobs))) ∧
  ((∀ s j h (u : Fin 1024) (a : Fin 3), s.job h = some j → j.occupies = true → j.cancelDue = false → j.pauseDue = false →
    j.opcode = 0x0503#16 → field j.args 0 2 = u.val → field j.args 2 1 = a.val →
    (∀ e, s.calOutcome j = .error e → exec (.calRunDone h u a) s = .next ((s.endJob h .failed e.1 e.2 []).dispatchJobs)) ∧
    (∀ t, s.calOutcome j = .ok (some t) → exec (.calRunDone h u a) s = .next ((t.endJob h .done stOk 0 []).dispatchJobs)) ∧
    (s.calOutcome j = .ok none → exec (.calRunDone h u a) s = .next s.dispatchJobs)) ∧
  (∀ s j h sweeps, s.job h = some j → j.occupies = true → j.cancelDue = false → j.pauseDue = false →
    j.opcode = 0x0504#16 →
    (∀ e, s.probeCalOutcome j sweeps = .error e →
      exec (.probeCalDone h sweeps) s = .next ((s.endJob h .failed e.1 e.2 []).dispatchJobs)) ∧
    (∀ t, s.probeCalOutcome j sweeps = .ok (some t) →
      exec (.probeCalDone h sweeps) s = .next ((t.endJob h .done stOk 0 []).dispatchJobs)) ∧
    (s.probeCalOutcome j sweeps = .ok none → exec (.probeCalDone h sweeps) s = .next s.dispatchJobs)) ∧
  (∀ s j h (u : Fin 1024) (a : Fin 3), s.job h = some j → field j.args 0 2 % 1024 ≠ u.val ∨ field j.args 2 1 ≠ a.val →
    exec (.calRunDone h u a) s = .next s) ∧
  (∀ s j h (l : Fin 64) answers, s.job h = some j → j.occupies = true → j.cancelDue = false → j.pauseDue = false →
    j.opcode = 0x0505#16 → field j.args 0 2 = combSlot l.val →
    (∀ e, s.enumerateOutcome l.val answers = .error e → exec (.combEnumerateDone h l answers) s =
      .next (((s.setEnumerating j false).endJob h .failed e.1 e.2 []).dispatchJobs)) ∧
    (∀ t, s.enumerateOutcome l.val answers = .ok (some t) → exec (.combEnumerateDone h l answers) s =
      .next (((t.setEnumerating j false).endJob h .done stOk 0 []).dispatchJobs)) ∧
    (s.enumerateOutcome l.val answers = .ok none → exec (.combEnumerateDone h l answers) s = .next s.dispatchJobs)) ∧
  (∀ s j h (l : Fin 64) answers, s.job h = some j → field j.args 0 2 % 1024 ≠ combSlot l.val →
    exec (.combEnumerateDone h l answers) s = .next s) ∧
  (∀ (s : State) l (a : List ReadSlot), (s.fcomb l).enumFault = false → s.enumerateBar l = none → s.nodeMap l = [] → a.length = 1 →
    (∀ r ∈ a, r.pulseUa ≤ r.baseUa + 3500) →
    s.enumerateOutcome l [a] = .ok (some (s.setFcomb l { s.fcomb l with found := some (mapBytes []), startDue := true }))))

/-- The stages of an update: a staged block that has been programmed and read back counts as verified, the last one
makes the state RECEIVED with the event UPDATE; one that does not match is to be sent again with those after it, and
the third failure in a sector makes the state FAILED (R402); an image whose hash is the manifest's makes it VERIFIED,
any other FAILED with VERIFY_FAILED and DETAIL 0xFF (R403). The activation pause, due once tick A + 1 has committed:
the new slot is active in state TRIAL with three trials, of which this boot takes one, and the old slot as fallback,
the tick of work resumes at most 256 ticks after A + 2, scheduled commands that were handed over still wait, and no
session is open (R69, R408 to R410); before tick A + 1 has committed nothing happens. -/
def Obligations.UpdateStages : Prop :=
  ((∀ s b l, s.upd.state = .receiving → s.upd.staged = b :: l → s.upd.verified + 1 ≠ s.upd.blockCount →
    exec (.updBlockProgrammed true) s = .next { s with upd := { s.upd with
      staged := l
      verified := s.upd.verified + 1
      image := s.upd.image ++ [b.2]
      sectorFails := if blockSector (s.upd.verified + 1) = blockSector s.upd.verified then s.upd.sectorFails else 0 } }) ∧
  (∀ s b l, s.upd.state = .receiving → s.upd.staged = b :: l → s.upd.verified + 1 = s.upd.blockCount →
    ∃ t, exec (.updBlockProgrammed true) s = .next t ∧ t.host.cause.getLsbD causeUpdate = true ∧ t.upd = { s.upd with
        state := .received
        staged := l
        verified := s.upd.verified + 1
        image := s.upd.image ++ [b.2]
        sectorFails := if blockSector (s.upd.verified + 1) = blockSector s.upd.verified then s.upd.sectorFails else 0 } ∧
      t = { s with upd := t.upd, host := t.host }) ∧
  (∀ s b l, s.upd.state = .receiving → s.upd.staged = b :: l → s.upd.sectorFails < 2 →
    exec (.updBlockProgrammed false) s = .next { s with upd := { s.upd with
      staged := []
      nextBlock := s.upd.verified
      sectorFails := s.upd.sectorFails + 1 } }) ∧
  (∀ s b l, s.upd.state = .receiving → s.upd.staged = b :: l → 2 ≤ s.upd.sectorFails →
    ∃ t, exec (.updBlockProgrammed false) s = .next t ∧ t.host.cause.getLsbD causeUpdate = true ∧ t.upd = { s.upd with
        state := .failed
        staged := []
        lastStatus := BitVec.ofNat 8 stInternal
        lastDetail := 0 } ∧ t = { s with upd := t.upd, host := t.host }) ∧
  (∀ s m, s.upd.staged = [] ∨ s.upd.state ≠ .receiving → exec (.updBlockProgrammed m) s = .next s) ∧
  (∀ s j h, s.job h = some j → j.occupies = true → j.cancelDue = false → j.pauseDue = false → j.opcode = 0x0803#16 →
    s.upd.state = .verifying → (∀ k ∈ s.jobs, k.state ≠ .queued ∧ k.cancelDue = false) →
    ∃ t, exec (.updVerifyDone h) s = .next t ∧ t.host.cause.getLsbD causeUpdate = true ∧
      t.host.cause.getLsbD causeJobDone = true ∧
      t.upd = (if s.upd.imageOk then { s.upd with state := .verified }
        else { s.upd with state := .failed, lastStatus := BitVec.ofNat 8 stVerifyFailed, lastDetail := 0xFF#8 }) ∧
      (∀ k, t.job h = some k → k.state = (if s.upd.imageOk then .done else .failed) ∧
        k.status = (if s.upd.imageOk then 0 else BitVec.ofNat 8 stVerifyFailed)) ∧
      t = { s with upd := t.upd, host := t.host, jobs := t.jobs }) ∧
  (∀ s h, s.job h = none → exec (.updVerifyDone h) s = .next s)) ∧
  ((∀ (s : State) (e resumeAt : Nat) (report : BootReport), s.upd.activateAt = some e → s.upd.fallbackDue = false →
    s.committed = true → s.tick + 1 = e → e ≤ resumeAt → resumeAt ≤ e + 256 → report.otpOk = true →
    report.slotOk = true → report.selfTestsOk = true → report.handoverOk = true →
    s.upd.secVersion ≤ field (s.upd.manifests.getD (slotIndex !s.upd.slotB) []) 7 1 → s.upd.slotBad.length = 2 →
    ∃ t, exec (.activationPause resumeAt report) s = .next t ∧ t.upd.slotB = !s.upd.slotB ∧ t.upd.trial = true ∧
      t.upd.state = .trial ∧ t.upd.trialsLeft = 2 ∧ t.upd.fallbackB = s.upd.slotB ∧ t.tick = resumeAt - 1 ∧
      t.workTick = resumeAt - 1 ∧ t.sched = s.sched ∧ t.host.sessions = [] ∧ t.jobs = [] ∧ t.host.alive = true ∧
      t.committed = true) ∧
  (∀ s resumeAt report, s.upd.activateAt = none ∨ s.committed = false ∨ (∃ e, s.upd.activateAt = some e ∧ s.tick + 1 < e) →
    exec (.activationPause resumeAt report) s = .next s))

/-- Ports: a PHY that reports link up raises LINK with reason 6, one that goes down with reason 7, and the peers
reached through it are lost at the next boundary, an attempt at once (R361, R364); a discarded frame is counted by its
reason on an active port (R341, R349); a relayed frame marks both ports (R344). Cells across the line: a subscription
is kept for its common tick (R353); an entry of CELLS that comes before its boundary waits for STAMP plus
XISTA_LATENCY, a later one is counted as late and not used (R354). What is not joined or not up changes nothing. -/
def Obligations.PortsAndCells : Prop :=
  ((∀ s (i : Fin 2) a, s.logicRuns = true → s.portActive i.val = true → s.link.ports.length = 2 →
    ∃ t, exec (.phyLinkUp i a) s = .next t ∧
      t.port i.val = { s.port i.val with
        up := true
        amplitude := match a with | .v1_0 => 1 | .v2_4 => 2
        sqiLow := (t.port i.val).sqiLow } ∧ t.port (1 - i.val) = s.port (1 - i.val) ∧
      t.host = (s.raise causeLink (portSlot i.val) s.link.nodeId 6).host ∧
      t = { s with link := { s.link with ports := t.link.ports }, host := t.host, draws := s.draws + 1 }) ∧
  (∀ s (i : Fin 2) a, s.logicRuns = false ∨ s.portActive i.val = false → exec (.phyLinkUp i a) s = .next s) ∧
  (∀ s (i : Fin 2), s.logicRuns = true → (s.port i.val).up = true → s.link.ports.length = 2 →
    ∃ t, exec (.phyLinkDown i) s = .next t ∧
      t.port i.val = { s.port i.val with up := false, amplitude := 0, neighbour := false } ∧
      t.port (1 - i.val) = s.port (1 - i.val) ∧
      t.link.peers = (s.link.peers.filter (fun e => e.2.port == i.val)).foldl (fun l e => Tab.put {} l e.1
        (if 2 ≤ e.2.state then { e.2 with lostDue := true } else { serial := e.2.serial, wasLost := e.2.wasLost }))
        s.link.peers ∧
      t.host = (s.raise causeLink (portSlot i.val) s.link.nodeId 7).host ∧
      t = { s with link := { s.link with ports := t.link.ports, peers := t.link.peers }, host := t.host }) ∧
  (∀ s (i : Fin 2), s.logicRuns = false ∨ (s.port i.val).up = false → exec (.phyLinkDown i) s = .next s) ∧
  (∀ s (i : Fin 2) reason, s.logicRuns = true → s.portActive i.val = true →
    exec (.xistaFrameDiscard i reason) s = .next { s with link := match reason with
      | .tag => { s.link with authFailures := sat32 (s.link.authFailures + 1) }
      | .counter => { s.link with authFailures := sat32 (s.link.authFailures + 1) }
      | _ => { s.link with discards := sat32 (s.link.discards + 1) } }) ∧
  (∀ s (i : Fin 2), s.logicRuns = true → s.portActive 0 = true → s.portActive 1 = true → (s.port 0).up = true →
    (s.port 1).up = true → s.link.ports.length = 2 →
    exec (.xistaRelay i) s = .next { s with link := { s.link with
      ports := [{ s.port 0 with relayAt := some s.tick }, { s.port 1 with relayAt := some s.tick }] } }) ∧
  (∀ s (i : Fin 2), s.portActive 0 = false ∨ s.portActive 1 = false ∨ (s.port 0).up = false ∨ (s.port 1).up = false →
    exec (.xistaRelay i) s = .next s)) ∧
  ((∀ s fromTick cells, s.logicRuns = true → 2 ≤ (s.peer 0).state →
    exec (.subscribe fromTick cells) s = .next { s with link := { s.link with
      peers := Tab.put {} s.link.peers 0 { s.peer 0 with lastRx := s.tick }
      subFrom := fromTick
      subNext := sortNats (cells.map (fun c => c.val)) } }) ∧
  (∀ s fromTick cells, (s.peer 0).state < 2 → exec (.subscribe fromTick cells) s = .next s) ∧
  (∀ s (n : Fin 8) (es : List CellEntry), s.logicRuns = true → s.queen = true → n.val ≠ 0 → 2 ≤ (s.peer n.val).state →
    let due := fun e : CellEntry => e.stamp + s.cfg P.XISTA_LATENCY 0
    let late := es.filter (fun e => decide (due e ≤ s.tick))
    exec (.cells n es) s = .next { s with link := { s.link with
      peers := Tab.put {} s.link.peers n.val { s.peer n.val with lastRx := s.tick }
      remote := s.link.remote ++ (es.filter (fun e => decide (s.tick < due e))).map
        (fun e => ⟨8192 * n.val + e.index, due e, e⟩)
      lateUpdates := if late = [] then s.link.lateUpdates else sat32 (s.link.lateUpdates + late.length) } }) ∧
  (∀ s (n : Fin 8) es, s.queen = false ∨ n.val = 0 ∨ (s.peer n.val).state < 2 → exec (.cells n es) s = .next s))

/-- Admission: a module that is not joined sends HELLO on every port that is up, with a fresh nonce and key (R346); a
queen answers the HELLO of a node in LINK_NODES with valid certificates with a CHALLENGE, and that of an unknown
serial number, of another queen or with certificates that fail with REFUSE, raised as LINK (R347, R364); a forager
answers a CHALLENGE whose checks hold with PROOF (R346, R347); a queen admits a node whose proof verifies and refuses
one whose does not (R347, R348); ADMIT begins the alignment with the queen's tick (R348, R351); REFUSE and 512 ticks
without PROOF end an attempt (R347). What no attempt waits for is ignored or relayed. -/
def Obligations.Admission : Prop :=
  (∀ s, s.logicRuns = true → s.link.joined = false → (s.peer 0).state = 0 → s.hk.crystalFail = false ∨ s.queen = true →
    ∃ t, exec .helloTimer s = .next t ∧ t.link.nonceF.length = 16 ∧
      t.link.helloBody = helloBytes s.id.serial t.link.nonceF (ecPublic t.link.ephKey) (s.cfg P.LINK_ROLE 0) s.oemHash
        s.ownCerts ∧
      (∀ i : Fin 2, s.portActive i.val = true → (s.port i.val).up = true → ∀ e ∈ fragments t.link.helloBody,
        ∃ f ∈ t.link.sent, f.type = 0x01 ∧ f.port = i.val ∧ f.body = e.1 ∧ f.index = e.2) ∧
      ((∀ i : Fin 2, s.portActive i.val = false ∨ (s.port i.val).up = false) → t.link.sent = s.link.sent) ∧
      t.link.peers = s.link.peers ∧ t = { s with link := t.link, draws := s.draws + 2 }) ∧
  (∀ s, s.link.joined = true ∨ (s.peer 0).state ≠ 0 ∨ (s.hk.crystalFail = true ∧ s.queen = false) →
    exec .helloTimer s = .next s) ∧
  (∀ s (i : Fin 2) m n, s.logicRuns = true → s.queen = true → m.role ≠ 1 → s.nodeOfSerial m.serial = some n →
    (s.peer n).state ≠ 3 →
    ∃ t, exec (.hello i m) s = .next t ∧ (t.peer n).serial = m.serial ∧ (t.peer n).port = i.val ∧
      (∀ k, k ≠ n → t.peer k = s.peer k) ∧
      t = { s with link := t.link, host := t.host, draws := t.draws } ∧
      (∀ pub, s.chainKey m.certs = some pub → s.siteOk m.certs = true →
        (t.peer n).state = 1 ∧ (t.peer n).pub = pub ∧ (t.peer n).challengeAt = s.tick ∧ t.host = s.host ∧
        ∃ f ∈ t.link.sent, f.type = 0x02 ∧ f.port = i.val) ∧
      (s.chainKey m.certs = none ∨ s.siteOk m.certs = false →
        (t.peer n).state = 4 ∧ t.host = (s.raise causeLink (portSlot i.val) n 4).host ∧
        (m.serial.length = 16 → ∃ f ∈ t.link.sent, f.type = 0x05 ∧ f.port = i.val ∧ f.body = m.serial ++ [2, 0, 0, 0]))) ∧
  (∀ s (i : Fin 2) m, s.logicRuns = true → s.queen = true → m.role = 1 ∨ s.nodeOfSerial m.serial = none →
    ∃ t, exec (.hello i m) s = .next t ∧ t.link.peers = s.link.peers ∧
      t.host = (s.raise causeLink (portSlot i.val) 0 (if m.role = 1 then 5 else 3)).host ∧
      t = { s with link := t.link, host := t.host }) ∧
  (∀ s (i : Fin 2) m n, s.logicRuns = true → s.queen = true → m.role ≠ 1 → s.nodeOfSerial m.serial = some n →
    (s.peer n).state = 3 →
    exec (.hello i m) s = .next (s.modPort i.val (fun p => { p with neighbour := true }))) ∧
  (∀ s (i : Fin 2) m, s.logicRuns = true → m.target = s.id.serial → s.queen = false → s.link.joined = false →
    (s.peer 0).state = 0 →
    let ok := (match s.chainKey m.certs with
      | some pub => ecdsaVerify pub (sha256 (s.link.helloBody ++
          challengeBytes m.target m.node m.nonce m.key m.oemHash m.certs)) m.signature
      | none => false) && s.siteOk m.certs &&
        ((s.cfgBlock P.LINK_QUEEN 0).all (· == 0) || s.cfgBlock P.LINK_QUEEN 0 == m.serial)
    (ok = true → ∃ t, exec (.challenge i m) s = .next t ∧ (t.peer 0).state = 1 ∧ (t.peer 0).serial = m.serial ∧
      (t.peer 0).challengeAt = s.tick ∧ t.link.nodeId = m.node ∧ (∃ f ∈ t.link.sent, f.type = 0x03 ∧ f.port = i.val) ∧
      t = { s with link := t.link, draws := s.draws + 1 }) ∧
    (ok = false → exec (.challenge i m) s = .next (s.modPort i.val (fun p => { p with neighbour := true })))) ∧
  (∀ s (i : Fin 2) m, s.logicRuns = true → m.target = s.id.serial → s.queen = true ∨ s.link.joined = true ∨
    (s.peer 0).state ≠ 0 →
    exec (.challenge i m) s = .next (s.modPort i.val (fun p => { p with neighbour := true }))) ∧
  (∀ s (i : Fin 2) m n p, s.logicRuns = true → s.queen = true →
    s.link.peers.find? (fun e => e.2.state == 1 && e.2.serial == m.serial) = some (n, p) →
    (ecdsaVerify p.pub p.proofHash m.signature = true →
      ∃ t, exec (.proof i m) s = .next t ∧ (t.peer n).state = 2 ∧ (t.peer n).serial = p.serial ∧
        (t.peer n).lastRx = s.tick ∧ (∃ f ∈ t.link.sent, f.type = 0x04) ∧ (∃ f ∈ t.link.sent, f.type = 0x21) ∧
        (∀ k, k ≠ n → t.peer k = s.peer k) ∧ t = { s with link := t.link, draws := s.draws + 1 }) ∧
    (ecdsaVerify p.pub p.proofHash m.signature = false →
      ∃ t, exec (.proof i m) s = .next t ∧ t.peer n = { p with state := 4 } ∧
        t.host = (s.raise causeLink (portSlot i.val) n 4).host ∧ t = { s with link := t.link, host := t.host })) ∧
  (∀ s (n : Fin 8), s.logicRuns = true → n.val ≠ 0 → (s.peer n.val).state = 1 →
    (s.peer n.val).challengeAt + 512 < s.tick →
    ∃ t, exec (.proofTimeout n) s = .next t ∧ t.peer n.val = { s.peer n.val with state := 4 } ∧
      t.host = (s.raise causeLink (portSlot (s.peer n.val).port) n.val 4).host ∧
      t = { s with link := t.link, host := t.host }) ∧
  (∀ s, s.logicRuns = true → (s.peer 0).state = 1 → (s.peer 0).challengeAt + 512 < s.tick →
    ∃ t, exec (.proofTimeout 0) s = .next t ∧ t.peer 0 = {} ∧ t.link.nodeId = 0 ∧ t.link.offset = 0 ∧
      t = { s with link := t.link }) ∧
  (∀ s (n : Fin 8), (s.peer n.val).state ≠ 1 ∨ s.tick ≤ (s.peer n.val).challengeAt + 512 →
    exec (.proofTimeout n) s = .next s) ∧
  (∀ s (i : Fin 2) tick fine, s.logicRuns = true → (s.peer 0).state = 1 →
    exec (.admission i tick fine) s = .next { s with link := { s.link with
      peers := Tab.put {} s.link.peers 0 { s.peer 0 with state := 2, align := 1, lastRx := s.tick }
      offset := (tick : Int) - s.tick
      goodSync := 0
      badSync := 0
      failSync := 0
      syncSent := none } }) ∧
  (∀ s (i : Fin 2) tick fine, (s.peer 0).state ≠ 1 → exec (.admission i tick fine) s = .next s) ∧
  (∀ s (i : Fin 2) reason, s.logicRuns = true → s.link.joined = false →
    ∃ t, exec (.refuse i s.id.serial reason) s = .next t ∧ t.peer 0 = {} ∧ t.link.nodeId = 0 ∧ t.link.offset = 0 ∧
      (∀ k, k ≠ 0 → t.peer k = s.peer k) ∧ t = { s with link := t.link }) ∧
  (∀ s (i : Fin 2) reason, s.logicRuns = true → s.link.joined = true →
    exec (.refuse i s.id.serial reason) s = .next (s.modPort i.val (fun p => { p with neighbour := true })))

/-- Alignment (R350 to R352): a forager sends SYNC_REQ in its tick of every 64 and notes its stamp; the queen answers
it with both stamps; the first exchange corrects the offset by whole ticks and asks for a longer tick; 16 good
exchanges in a row make the forager ALIGNED and announce its join with a STATUS, no earlier than XISTA_LATENCY later
(R360); 4 bad exchanges in a row, or 16 that fail, lose the alignment, which a STATUS reports, and the forager leaves
the line at the next boundary (R351, R361); the tick is lengthened when no exchange is under way (R352). -/
def Obligations.Alignment : Prop :=
  (∀ s, s.logicRuns = true → 2 ≤ (s.peer 0).state → s.commonTick % 64 = 8 * s.link.nodeId → s.link.thisLong = 0 →
    let missed := s.link.syncSent.isSome
    let fails := if missed then s.link.failSync + 1 else s.link.failSync
    ∃ t, exec .syncReqTimer s = .next t ∧ t.link.syncSent = some ((s.commonTick : Int) * 32000 + 16000) ∧
      t.link.failSync = fails ∧ (∃ f ∈ t.link.sent, f.type = 0x10 ∧ f.body = le 2 16000 ++ le 6 s.commonTick) ∧
      ((s.peer 0).align ≠ 4 ∨ fails < 16 → (t.peer 0).align = (s.peer 0).align ∧ (t.peer 0).lostDue = (s.peer 0).lostDue) ∧
      ((s.peer 0).align = 4 → 16 ≤ fails → (t.peer 0).align = 0 ∧ (t.peer 0).lostDue = true ∧
        ∃ f ∈ t.link.sent, f.type = 0x40) ∧ t = { s with link := t.link }) ∧
  (∀ s, (s.peer 0).state < 2 ∨ s.commonTick % 64 ≠ 8 * s.link.nodeId ∨ s.link.thisLong ≠ 0 →
    exec .syncReqTimer s = .next s) ∧
  (∀ s (n : Fin 8) a r, s.logicRuns = true → s.queen = true → n.val ≠ 0 → 2 ≤ (s.peer n.val).state →
    ∃ t, exec (.syncReq n a r) s = .next t ∧ (t.peer n.val).lastRx = s.tick ∧
      (∃ f ∈ t.link.sent, f.type = 0x11 ∧ f.node = n.val ∧
        f.body = le 2 a ++ le 6 s.tick ++ le 2 r ++ le 6 (if r < a then s.tick + 1 else s.tick)) ∧
      t = { s with link := t.link }) ∧
  (∀ s (n : Fin 8) a r, s.queen = false ∨ n.val = 0 ∨ (s.peer n.val).state < 2 → exec (.syncReq n a r) s = .next s) ∧
  (∀ s q1 q2 s1 s2, s.logicRuns = true → s.link.syncSent = some s1 → (s.peer 0).align = 1 →
    let th := syncTheta q1 q2 s1 s2
    exec (.syncResp q1 q2 s2) s = .next { s with link := { s.link with
      peers := (s.setPeer 0 { s.peer 0 with theta := th, lastRx := s.tick }).setPeer 0
        { s.peer 0 with theta := th, lastRx := s.tick, align := 2 } |>.link.peers
      syncSent := none
      failSync := 0
      offset := s.link.offset + (stepAlign th).1
      lengthen := some (stepAlign th).2 } }) ∧
  (∀ s q1 q2 s1 s2, s.logicRuns = true → s.link.syncSent = some s1 → (s.peer 0).align = 3 →
    let th := syncTheta q1 q2 s1 s2
    let good := if th.natAbs ≤ 33 then s.link.goodSync + 1 else 0
    ∃ t, exec (.syncResp q1 q2 s2) s = .next t ∧ t.link.goodSync = good ∧ (t.peer 0).theta = th ∧
      (good < 16 → (t.peer 0).align = 3 ∧ t.link.sent = s.link.sent) ∧
      (16 ≤ good → (t.peer 0).align = 4 ∧ (t.peer 0).joinAt = some (s.tick + s.cfg P.XISTA_LATENCY 0) ∧
        ∃ f ∈ t.link.sent, f.type = 0x40) ∧ t = { s with link := t.link }) ∧
  (∀ s q1 q2 s1 s2, s.logicRuns = true → s.link.syncSent = some s1 → (s.peer 0).align = 4 →
    let th := syncTheta q1 q2 s1 s2
    let bad := if 65 < th.natAbs then s.link.badSync + 1 else 0
    ∃ t, exec (.syncResp q1 q2 s2) s = .next t ∧ t.link.badSync = bad ∧ (t.peer 0).theta = th ∧
      (bad < 4 → (t.peer 0).align = 4 ∧ t.link.sent = s.link.sent) ∧
      (4 ≤ bad → (t.peer 0).align = 0 ∧ (t.peer 0).lostDue = true ∧ ∃ f ∈ t.link.sent, f.type = 0x40) ∧
      t = { s with link := t.link }) ∧
  (∀ s q1 q2 s2, s.link.syncSent = none → exec (.syncResp q1 q2 s2) s = .next s) ∧
  (∀ theta : Int, 0 ≤ theta - 32000 * (stepAlign theta).1 - 1000 * (stepAlign theta).2 ∧
    theta - 32000 * (stepAlign theta).1 - 1000 * (stepAlign theta).2 < 1000 ∧ (stepAlign theta).2 ≤ 31) ∧
  (∀ s c, s.logicRuns = true → s.link.lengthen = some c → s.link.syncSent = none →
    exec .tickLengthen s = .next { s with link := { s.link with
      peers := Tab.put {} s.link.peers 0 { s.peer 0 with align := 3 }
      lengthen := none
      thisLong := c } }) ∧
  (∀ s, s.link.lengthen = none ∨ s.link.syncSent ≠ none → exec .tickLengthen s = .next s)

/-- Commands across the line: a joined forager carries out a forwarded PING, feeds its smoker, sends REPLY and keeps
the reply; a repetition is answered from the copy and not executed again (R356, R358); a packet it refuses is not
accepted (R60, R356). The queen answers the command that waits for a REPLY with the forager's status and data (R356),
and with NODE_UNREACHABLE when LINK_REPLY_TICKS have passed (R358), not before; a queen that is not calmed and has
accepted a packet feeds its foragers, and only then (R359). -/
def Obligations.ForwardedCommands : Prop :=
  (∀ s m, s.logicRuns = true → (s.peer 0).state = 3 → m.opcode = 0x0001#16 → s.keptReply m = none →
    m.packet.version = 1#8 → m.packet.flags = 0#8 → m.packet.payload.length ≤ 64 →
    let b := (makeReply m.session m.seq m.opcode none none (okData m.packet.payload)).packet
    ∃ t, exec (.xistaCommand m) s = .next t ∧
      t.link.replies = s.link.replies.filter (fun e => e.1 != m.session) ++ [(m.session, m.seq, b)] ∧
      t.smoker = { s.smoker with last := s.tick, spent := false } ∧ (t.peer 0).lastRx = s.tick ∧
      (∃ f ∈ t.link.sent, f.type = 0x31) ∧ t = { s with link := t.link, smoker := t.smoker }) ∧
  (∀ s m b, s.logicRuns = true → (s.peer 0).state = 3 → s.keptReply m = some b →
    exec (.xistaCommand m) s = .next ((s.heard 0).feedSmoker.sendReply m.session m.seq b)) ∧
  (∀ s m, s.logicRuns = true → (s.peer 0).state = 3 → s.keptReply m = none → m.packet.version ≠ 1#8 →
    ∃ t, exec (.xistaCommand m) s = .next t ∧ t.smoker = s.smoker ∧ t.link.replies = s.link.replies ∧
      (∃ f ∈ t.link.sent, f.type = 0x31) ∧ t = { s with link := t.link }) ∧
  (∀ s m, (s.peer 0).state ≠ 3 → exec (.xistaCommand m) s = .next s) ∧
  (∀ s (n : Fin 8) r h, s.logicRuns = true → s.nodeJoined n.val = true → s.host.line = [h] → h.reply = none →
    h.node = n.val → h.session = r.session → h.seq = r.seq →
    let c := (s.heard n.val).cacheReply (h.answered r)
    exec (.xistaReply n r) s = .next (({ c with host := { c.host with line := [] } } : State).send (h.answered r))) ∧
  (∀ (h : Held) r, h.opcode ≠ 0x0902#16 → h.opcode ≠ 0x0301#16 →
    (h.answered r).status = r.status ∧ (h.answered r).detail = r.detail ∧ (h.answered r).data = r.data ∧
      (h.answered r).etick = r.etick ∧ (h.answered r).session = h.session ∧ (h.answered r).seq = h.seq) ∧
  (∀ s (n : Fin 8) r, s.nodeJoined n.val = false → exec (.xistaReply n r) s = .next s) ∧
  (∀ s (n : Fin 8) h, s.logicRuns = true → s.host.line = [h] → h.reply = none → h.node = n.val → h.deadline ≤ s.tick →
    exec (.linkReplyTimeout n) s = .next (({ s with host := { s.host with line := [] } } : State).send
      (makeReply h.session h.seq h.opcode h.key none (refuse stNodeUnreachable n.val)))) ∧
  (∀ s (n : Fin 8) h, s.host.line = [h] → h.reply = none → h.node ≠ n.val ∨ s.tick < h.deadline →
    exec (.linkReplyTimeout n) s = .next s) ∧
  (∀ s, s.logicRuns = true → s.queen = true → s.smoker.calmed = false → s.link.feedDue = true →
    ∃ t, exec .queenSmokerFeed s = .next t ∧ t.link.feedDue = false ∧
      (∀ n ∈ s.joinedNodes, n ≠ 0 → ∃ f ∈ t.link.sent, f.type = 0x30 ∧ f.node = n) ∧
      (s.joinedNodes = [] → t.link.sent = s.link.sent) ∧ t = { s with link := t.link }) ∧
  (∀ s, s.queen = false ∨ s.smoker.calmed = true ∨ s.link.feedDue = false → exec .queenSmokerFeed s = .next s)

/-- Status and loss: a forager's STATUS brings its root hive's status word, the alignment of its port and, while it is
being admitted, its join boundary (R360); a joined one that has lost alignment is lost at the next boundary with LINK,
reason 8 (R361, R364); LEAVE makes its peer lost at the next boundary (R361); a peer from which nothing has come for
LINK_LOSS_TICKS is lost: a joined node's cells read OFFLINE and LINK is raised with reason 2, a commit being awaited
or not (R361, Table 01-9), and a forager's queen is gone (R362); one that has been heard is not lost. -/
def Obligations.LinkStatusAndLoss : Prop :=
  (∀ s (n : Fin 8) m, s.logicRuns = true → s.queen = true → n.val ≠ 0 → 2 ≤ (s.peer n.val).state →
    let p := s.peer n.val
    let align := Nat.max m.xaStatus.toNat m.xbStatus.toNat / 8192
    ∃ t, exec (.xistaStatus n m) s = .next t ∧
      t.peer n.val = { p with
        lastRx := s.tick
        rootWord := m.rootWord
        align := align
        joinAt := if p.state = 2 then m.joinAt.or p.joinAt else p.joinAt
        lostDue := p.lostDue || (p.state == 3 && align != 4) } ∧
      (∀ k, k ≠ n.val → t.peer k = s.peer k) ∧
      t.host = (if p.state = 3 ∧ align ≠ 4 then (s.raise causeLink 0xFFFF n.val 8).host else s.host) ∧
      t = { s with link := t.link, host := t.host }) ∧
  (∀ s (n : Fin 8) m, s.queen = false ∨ n.val = 0 ∨ (s.peer n.val).state < 2 → exec (.xistaStatus n m) s = .next s) ∧
  (∀ s (n : Fin 8) reason, s.logicRuns = true → 2 ≤ (s.peer n.val).state →
    exec (.leave n reason) s = .next { s with link := { s.link with
      peers := Tab.put {} s.link.peers n.val { s.peer n.val with lostDue := true, lastRx := s.tick } } }) ∧
  (∀ s (n : Fin 8) reason, (s.peer n.val).state < 2 → exec (.leave n reason) s = .next s) ∧
  (∀ s (n : Fin 8), s.logicRuns = true → s.committed = true → n.val ≠ 0 → 2 ≤ (s.peer n.val).state →
    (s.peer n.val).lastRx + s.cfg P.LINK_LOSS_TICKS 0 < s.tick →
    (s.peer n.val).lastRx + s.cfg P.LINK_LOSS_TICKS 0 < s.workTick + 1 →
    ∃ t, exec (.linkLossTimeout n) s = .next t ∧
      t.peer n.val = { serial := (s.peer n.val).serial
                       wasLost := (s.peer n.val).wasLost || (s.peer n.val).state == 3 } ∧ t.tick = s.tick ∧
      t.workTick = s.workTick ∧
      ((s.peer n.val).state = 3 → t.host.cause.getLsbD causeLink = true ∧
        t.link.losses = sat32 (s.link.losses + 1) ∧
        (∀ e ∈ t.work.cells, e.1 / 8192 = n.val → e.2.own.quality = 7))) ∧
  (∀ s, s.logicRuns = true → s.committed = true → 2 ≤ (s.peer 0).state →
    (s.peer 0).lastRx + s.cfg P.LINK_LOSS_TICKS 0 < s.tick →
    (s.peer 0).lastRx + s.cfg P.LINK_LOSS_TICKS 0 < s.workTick + 1 →
    ∃ t, exec (.linkLossTimeout 0) s = .next t ∧ t.peer 0 = {} ∧ t.link.joined = false ∧ t.link.nodeId = 0 ∧
      t.link.offset = 0 ∧ t.tick = s.tick ∧ t.workTick = s.workTick) ∧
  (∀ s (n : Fin 8), (s.peer n.val).state < 2 ∨ s.tick ≤ (s.peer n.val).lastRx + s.cfg P.LINK_LOSS_TICKS 0 →
    exec (.linkLossTimeout n) s = .next s)

/-- A forced cell (R38): readers see the forced value with GOOD, CONDITIONS 0x80, the force's tick as STAMP and SOURCE
0, never STALE; the writer's own results are kept aside and enter no extreme; a release brings back the writer's
latest value, with whatever it carries. The null cell of every node and the reserved cells read as 0 and OFFLINE
(R31). A written cell older than its freshness limit reads STALE with its value, one that is not reads as it was
written, and neither read changes it (R37); one never written reads OFFLINE (log entry 31: the model's choice). The
limit of a cell that a unit writes is twice its period. -/
def Obligations.CellReads : Prop :=
  (∀ (p : Plant) (c : Content) (pw : Power) (t ref e type : Nat) (v : Val), ref % 8192 ≠ 0 →
    ¬(ref < 8192 ∧ 154 ≤ ref ∧ ref ≤ 255) →
    (p.setCell ref ((p.cell ref).force type v e)).see c pw t ref = ⟨v, e, 0, 0, 0x80#8, type⟩) ∧
  (∀ (x : Cell) (v : CellVal), x.forced.isSome = true → x.write v = { x with own := v, written := true }) ∧
  (∀ (x : Cell), x.release.forced = none ∧ x.release.own = x.own ∧ x.release.written = x.written ∧
    (x.forced.isSome = true → x.written = true → x.own.quality ≤ 2 → x.own.type ≠ 4 → x.release.extremesValid = true)) ∧
  (∀ (x : Cell) (e type : Nat) (v : Val), type ≠ 4 → x.extremesValid = false →
    (x.force type v e).min = valueF32 type v ∧ (x.force type v e).max = valueF32 type v ∧
      (x.force type v e).extremesValid = true ∧ (x.force type v e).own = x.own) ∧
  (∀ (p : Plant) (c : Content) (pw : Power) (t ref : Nat), (ref % 8192 = 0 ∨ (154 ≤ ref ∧ ref ≤ 255)) →
    p.see c pw t ref = ⟨0, 0, 0, 7, 0x40#8, 0⟩) ∧
  (∀ (p : Plant) (c : Content) (pw : Power) (t ref : Nat), ref % 8192 ≠ 0 → ¬(ref < 8192 ∧ 154 ≤ ref ∧ ref ≤ 255) →
    (p.cell ref).forced = none → (p.cell ref).written = true → ref < 8192 ∨ (p.cell ref).own.source ≠ 0 →
    let o := (p.cell ref).own
    p.see c pw t ref = (if o.stamp + freshLimit c pw ref o.source < t
      then ⟨o.value, o.stamp, o.source, Nat.max o.quality 4, o.conditions ||| 0x08#8, o.type⟩
      else ⟨o.value, o.stamp, o.source, o.quality, o.conditions, o.type⟩)) ∧
  (∀ (p : Plant) (c : Content) (pw : Power) (t ref : Nat), ref % 8192 ≠ 0 → ¬(ref < 8192 ∧ 154 ≤ ref ∧ ref ≤ 255) →
    (p.cell ref).forced = none → (p.cell ref).written = false → (p.see c pw t ref).quality = 7) ∧
  (∀ (c : Content) (pw : Power) (ref source n : Nat), ref < 8192 → source ≠ 0 → unitPeriod c pw source = some n →
    freshLimit c pw ref source = 2 * n) ∧
  (∀ (c : Content) (pw : Power) (ref : Nat), (8192 ≤ ref → freshLimit c pw ref 0 = scalarOf c P.LINK_FRESH 0) ∧
    (ref < 8192 → freshLimit c pw ref 0 = scalarOf c P.CELL_FRESH ref))

/-- Extremes of a cell (R34): a write of GOOD, CALMISMATCH or SUBST to a cell that is not forced enters them; the
first after a reset sets both, a later one moves MIN down or MAX up, and both then bound the value. With a NaN among
them the outcome is stated nowhere: it is a free value (log entry 4). Any other write leaves them. Cells of type 0x04
have none. A reset clears EXTREMES_VALID and writes EPOCH, and the next such write sets both again; MIN and MAX keep
their bits until then (log entry 4: the spec names no value for them). -/
def Obligations.Extremes : Prop :=
  (∀ (x : Cell) (v : CellVal), x.forced = none → v.type ≠ 4 → v.quality ≤ 2 → x.extremesValid = false →
    x.write v = { x with
      own := v, written := true, min := valueF32 v.type v.value, max := valueF32 v.type v.value, extremesValid := true }) ∧
  (∀ (x : Cell) (v : CellVal), x.forced = none → v.type ≠ 4 → v.quality ≤ 2 → x.extremesValid = true →
    let f := valueF32 v.type v.value
    (fNaN x.min = false → fNaN x.max = false → fNaN f = false →
      x.write v = { x with own := v, written := true, min := fmin x.min f, max := fmax x.max f }) ∧
    ∃ lo hi, x.write v = { x with own := v, written := true, min := lo, max := hi }) ∧
  (∀ a b : F32, fNaN a = false → fNaN b = false → fle (fmin a b) a = true ∧ fle (fmin a b) b = true ∧
    fle a (fmax a b) = true ∧ fle b (fmax a b) = true ∧ (fmin a b = a ∨ fmin a b = b) ∧ (fmax a b = a ∨ fmax a b = b)) ∧
  (∀ (x : Cell) (v : CellVal), x.forced ≠ none ∨ v.type = 4 ∨ 2 < v.quality →
    x.write v = { x with own := v, written := true }) ∧
  (∀ (x : Cell) e, x.resetExtremes e = { x with extremesValid := false, epoch := e % 2 ^ 32 }) ∧
  (∀ (x : Cell) e (v : CellVal), x.forced = none → v.type ≠ 4 → v.quality ≤ 2 →
    ((x.resetExtremes e).write v).min = valueF32 v.type v.value ∧ ((x.resetExtremes e).write v).max = valueF32 v.type v.value)
end

