-- ==== Sys2Proof/Laws/Bytes.lean ====
section
/-! SUPPORT. Little-endian fields and CRC-32C: lengths, what a written field reads, and that appended CRCs verify. -/

namespace Sys2Proof.Machine

@[simp] theorem length_le (k n : Nat) : (le k n).length = k := by
  induction k generalizing n with
  | zero => rfl
  | succ k ih => simp [le, ih]

/-- A field of `k` bytes reads its number modulo 256 ^ k. -/
@[simp] theorem ofLe_le (k n : Nat) : ofLe (le k n) = n % 256 ^ k := by
  induction k generalizing n with
  | zero => simp [le, ofLe, Nat.mod_one]
  | succ k ih =>
    have h : ofLe (le (k + 1) n) = n % 256 + 256 * ofLe (le k (n / 256)) := rfl
    rw [h, ih, Nat.pow_succ', Nat.mod_mul]

/-- What stands behind a prefix of the right length is read at its offset. -/
theorem field_append {a b c : List Byte} {off k : Nat} (h : a.length = off) (hb : b.length = k) :
    field (a ++ (b ++ c)) off k = ofLe b := by
  subst h hb
  simp [field, bytesAt]

theorem crc32cBit_lt {c : Nat} (h : c < 2 ^ 32) : crc32cBit c < 2 ^ 32 := by
  unfold crc32cBit
  split
  · exact Nat.xor_lt_two_pow (by omega) (by decide)
  · omega

theorem crc32cByte_lt {c : Nat} (b : Byte) (h : c < 2 ^ 32) : crc32cByte c b < 2 ^ 32 := by
  unfold crc32cByte
  iterate 8 apply crc32cBit_lt
  exact Nat.xor_lt_two_pow h (by have := b.isLt; omega)

theorem crc32c_lt (bs : List Byte) : crc32c bs < 2 ^ 32 := by
  refine Nat.xor_lt_two_pow ?_ (by decide)
  suffices ∀ c, c < 2 ^ 32 → bs.foldl crc32cByte c < 2 ^ 32 from this _ (by decide)
  induction bs with
  | nil => exact fun c h => h
  | cons b t ih => exact fun c h => ih _ (crc32cByte_lt b h)

@[simp] theorem length_withCrc (bs : List Byte) : (withCrc bs).length = bs.length + 4 := by simp [withCrc]

/-- An appended CRC-32C verifies. -/
theorem crcOkAt_withCrc (bs : List Byte) : crcOkAt (withCrc bs) bs.length = true := by
  have h := crc32c_lt bs
  have hf : field (withCrc bs) bs.length 4 = crc32c bs := by
    have := field_append (a := bs) (b := le 4 (crc32c bs)) (c := []) rfl (length_le 4 _)
    rw [List.append_nil] at this
    rw [withCrc, this, ofLe_le]
    exact Nat.mod_eq_of_lt (by simpa using h)
  rw [crcOkAt, hf, withCrc, List.take_left]
  exact beq_self_eq_true _

end Sys2Proof.Machine
end

