-- ==== Sys2Proof/Laws/Host.lean ====
section
/-! SUPPORT. What the shared operations of the host interface do: one lemma each. -/

namespace Sys2Proof.Machine

theorem opInfo_code {code : Nat} {r : OpInfo} (h : opInfo code = some r) : r.code = code := by
  have := List.find?_some h
  simpa using this

/-- A packet that the module carries out: the whole way of a command is its own meaning, the reply, and what follows. -/
theorem State.hostCommand_runs {s : State} {p : Packet} {code : Nat} {r : OpInfo} {e : Nat} (h : Runs s p code r e)
    (hf : code ≠ 0x0902) (body : Body) (after : State → State)
    (hx : (body s (hostCtx s p r e)).1.status ≠ stAuthFailed) :
    s.hostCommand p code body after =
      if (body s (hostCtx s p r e)).1.status = stOk then
        after (replied s p r e (body s (hostCtx s p r e)).1 (body s (hostCtx s p r e)).2)
      else replied s p r e (body s (hostCtx s p r e)).1 (body s (hostCtx s p r e)).2 := by
  have hc := opInfo_code h.row
  have hf' : r.code ≠ 0x0902 := by rw [hc]; exact hf
  have hl : ¬ 3 ≤ s.host.line.length := Nat.not_le.mpr h.buffer
  have hw : wantedTick r s.tick p.etv p.etick.toNat = e := by unfold wantedTick; rw [h.tick]
  have hb : s.runBody r body
      { who := .session p.session, sid := p.session, schedSid := p.session, seq := p.seq, opcode := BitVec.ofNat 16 r.code
        etick := 0, etv := p.etv, auth := p.auth && (s.keyOf p).isSome, needed := s.needsAuth (s.opClass r), data := p.data }
      s.tick p.etv p.etick.toNat = body s (hostCtx s p r e) := by
    unfold State.runBody
    rw [h.tick]
    simp only [if_neg h.calm, Nat.add_sub_cancel]
    rfl
  unfold State.hostCommand State.admitPacket
  simp only [h.listens, h.alive, Bool.not_true, Bool.false_eq_true, if_false, hl, h.length, h.row, h.fresh]
  unfold State.handle
  simp only [h.tag, h.form, hf', h.known, h.here, if_false, Bool.false_eq_true]
  unfold State.execute
  simp only [hb, hw, hx, if_false]
  rfl

/-- A command that is carried out at once. -/
theorem State.hostCommand_ok {s : State} {p : Packet} {code : Nat} {r : OpInfo} {e : Nat} (h : Runs s p code r e)
    (hf : code ≠ 0x0902) {body : Body} {after : State → State} {a : Answer} {u : State}
    (hb : body s (hostCtx s p r e) = (a, u)) (ha : a.status = stOk) :
    s.hostCommand p code body after = after (replied s p r e a u) := by
  have := State.hostCommand_runs h hf body after (by rw [hb, ha]; decide)
  rw [hb] at this
  simpa [ha] using this

/-- A command that starts a job, or is refused by its own meaning. -/
theorem State.hostCommand_other {s : State} {p : Packet} {code : Nat} {r : OpInfo} {e : Nat} (h : Runs s p code r e)
    (hf : code ≠ 0x0902) {body : Body} {after : State → State} {a : Answer} {u : State}
    (hb : body s (hostCtx s p r e) = (a, u)) (ha : a.status ≠ stOk) (hn : a.status ≠ stAuthFailed) :
    s.hostCommand p code body after = replied s p r e a u := by
  have := State.hostCommand_runs h hf body after (by rw [hb]; exact hn)
  rw [hb] at this
  simpa [ha] using this

/-- A command that waits for its effective tick. -/
theorem State.schedule_ctx {s : State} {p : Packet} {r : OpInfo} {e : Nat} (h : s.sched.length < 256) :
    s.schedule (hostCtx s p r e) = (okAns, scheduled s p r e) := by
  unfold State.schedule
  rw [if_neg (Nat.not_le.mpr h)]
  rfl

end Sys2Proof.Machine
end

