-- ==== Sys2Proof/Laws/State.lean ====
section
/-! SUPPORT. What each named update of the state leaves and what it changes, field by field. -/

namespace Sys2Proof.Machine

/-! ## modWork -/

@[simp] theorem State.modWork_pending (s : State) (f : Plant → Plant) : (s.modWork f).pending = s.pending := rfl
@[simp] theorem State.modWork_tick (s : State) (f : Plant → Plant) : (s.modWork f).tick = s.tick := rfl
@[simp] theorem State.modWork_checkpoint (s : State) (f : Plant → Plant) : (s.modWork f).checkpoint = s.checkpoint := rfl
@[simp] theorem State.modWork_fineValid (s : State) (f : Plant → Plant) : (s.modWork f).fineValid = s.fineValid := rfl
@[simp] theorem State.modWork_wallDiff (s : State) (f : Plant → Plant) : (s.modWork f).wallDiff = s.wallDiff := rfl
@[simp] theorem State.modWork_wallStale (s : State) (f : Plant → Plant) : (s.modWork f).wallStale = s.wallStale := rfl
@[simp] theorem State.modWork_vinOn (s : State) (f : Plant → Plant) : (s.modWork f).vinOn = s.vinOn := rfl
@[simp] theorem State.modWork_power (s : State) (f : Plant → Plant) : (s.modWork f).power = s.power := rfl
@[simp] theorem State.modWork_id (s : State) (f : Plant → Plant) : (s.modWork f).id = s.id := rfl
@[simp] theorem State.modWork_host (s : State) (f : Plant → Plant) : (s.modWork f).host = s.host := rfl
@[simp] theorem State.modWork_smoker (s : State) (f : Plant → Plant) : (s.modWork f).smoker = s.smoker := rfl
@[simp] theorem State.modWork_sched (s : State) (f : Plant → Plant) : (s.modWork f).sched = s.sched := rfl
@[simp] theorem State.modWork_jobs (s : State) (f : Plant → Plant) : (s.modWork f).jobs = s.jobs := rfl
@[simp] theorem State.modWork_gens (s : State) (f : Plant → Plant) : (s.modWork f).gens = s.gens := rfl
@[simp] theorem State.modWork_topNumber (s : State) (f : Plant → Plant) : (s.modWork f).topNumber = s.topNumber := rfl
@[simp] theorem State.modWork_activeGen (s : State) (f : Plant → Plant) : (s.modWork f).activeGen = s.activeGen := rfl
@[simp] theorem State.modWork_awaiting (s : State) (f : Plant → Plant) : (s.modWork f).awaiting = s.awaiting := rfl
@[simp] theorem State.modWork_pendGen (s : State) (f : Plant → Plant) : (s.modWork f).pendGen = s.pendGen := rfl
@[simp] theorem State.modWork_importBuf (s : State) (f : Plant → Plant) : (s.modWork f).importBuf = s.importBuf := rfl
@[simp] theorem State.modWork_order (s : State) (f : Plant → Plant) : (s.modWork f).order = s.order := rfl
@[simp] theorem State.modWork_prev (s : State) (f : Plant → Plant) : (s.modWork f).prev = s.prev := rfl
@[simp] theorem State.modWork_base (s : State) (f : Plant → Plant) : (s.modWork f).base = s.base := rfl
@[simp] theorem State.modWork_work (s : State) (f : Plant → Plant) : (s.modWork f).work = f s.work := rfl
@[simp] theorem State.modWork_evaluated (s : State) (f : Plant → Plant) : (s.modWork f).evaluated = s.evaluated := rfl
@[simp] theorem State.modWork_committed (s : State) (f : Plant → Plant) : (s.modWork f).committed = s.committed := rfl
@[simp] theorem State.modWork_workTick (s : State) (f : Plant → Plant) : (s.modWork f).workTick = s.workTick := rfl
@[simp] theorem State.modWork_inbufs (s : State) (f : Plant → Plant) : (s.modWork f).inbufs = s.inbufs := rfl
@[simp] theorem State.modWork_deadlineAt (s : State) (f : Plant → Plant) : (s.modWork f).deadlineAt = s.deadlineAt := rfl
@[simp] theorem State.modWork_skip (s : State) (f : Plant → Plant) : (s.modWork f).skip = s.skip := rfl
@[simp] theorem State.modWork_banks (s : State) (f : Plant → Plant) : (s.modWork f).banks = s.banks := rfl
@[simp] theorem State.modWork_fieldChans (s : State) (f : Plant → Plant) : (s.modWork f).fieldChans = s.fieldChans := rfl
@[simp] theorem State.modWork_fprobes (s : State) (f : Plant → Plant) : (s.modWork f).fprobes = s.fprobes := rfl
@[simp] theorem State.modWork_fcombs (s : State) (f : Plant → Plant) : (s.modWork f).fcombs = s.fcombs := rfl
@[simp] theorem State.modWork_fanDom (s : State) (f : Plant → Plant) : (s.modWork f).fanDom = s.fanDom := rfl
@[simp] theorem State.modWork_recorder (s : State) (f : Plant → Plant) : (s.modWork f).recorder = s.recorder := rfl
@[simp] theorem State.modWork_inrec (s : State) (f : Plant → Plant) : (s.modWork f).inrec = s.inrec := rfl
@[simp] theorem State.modWork_sram (s : State) (f : Plant → Plant) : (s.modWork f).sram = s.sram := rfl
@[simp] theorem State.modWork_upd (s : State) (f : Plant → Plant) : (s.modWork f).upd = s.upd := rfl
@[simp] theorem State.modWork_link (s : State) (f : Plant → Plant) : (s.modWork f).link = s.link := rfl
@[simp] theorem State.modWork_boot (s : State) (f : Plant → Plant) : (s.modWork f).boot = s.boot := rfl
@[simp] theorem State.modWork_hk (s : State) (f : Plant → Plant) : (s.modWork f).hk = s.hk := rfl
@[simp] theorem State.modWork_draws (s : State) (f : Plant → Plant) : (s.modWork f).draws = s.draws := rfl
@[simp] theorem State.modWork_drawsAt (s : State) (f : Plant → Plant) : (s.modWork f).drawsAt = s.drawsAt := rfl

/-! ## modPlants -/

@[simp] theorem State.modPlants_pending (s : State) (f : Plant → Plant) : (s.modPlants f).pending = s.pending := rfl
@[simp] theorem State.modPlants_tick (s : State) (f : Plant → Plant) : (s.modPlants f).tick = s.tick := rfl
@[simp] theorem State.modPlants_checkpoint (s : State) (f : Plant → Plant) : (s.modPlants f).checkpoint = s.checkpoint := rfl
@[simp] theorem State.modPlants_fineValid (s : State) (f : Plant → Plant) : (s.modPlants f).fineValid = s.fineValid := rfl
@[simp] theorem State.modPlants_wallDiff (s : State) (f : Plant → Plant) : (s.modPlants f).wallDiff = s.wallDiff := rfl
@[simp] theorem State.modPlants_wallStale (s : State) (f : Plant → Plant) : (s.modPlants f).wallStale = s.wallStale := rfl
@[simp] theorem State.modPlants_vinOn (s : State) (f : Plant → Plant) : (s.modPlants f).vinOn = s.vinOn := rfl
@[simp] theorem State.modPlants_power (s : State) (f : Plant → Plant) : (s.modPlants f).power = s.power := rfl
@[simp] theorem State.modPlants_id (s : State) (f : Plant → Plant) : (s.modPlants f).id = s.id := rfl
@[simp] theorem State.modPlants_host (s : State) (f : Plant → Plant) : (s.modPlants f).host = s.host := rfl
@[simp] theorem State.modPlants_smoker (s : State) (f : Plant → Plant) : (s.modPlants f).smoker = s.smoker := rfl
@[simp] theorem State.modPlants_sched (s : State) (f : Plant → Plant) : (s.modPlants f).sched = s.sched := rfl
@[simp] theorem State.modPlants_jobs (s : State) (f : Plant → Plant) : (s.modPlants f).jobs = s.jobs := rfl
@[simp] theorem State.modPlants_gens (s : State) (f : Plant → Plant) : (s.modPlants f).gens = s.gens := rfl
@[simp] theorem State.modPlants_topNumber (s : State) (f : Plant → Plant) : (s.modPlants f).topNumber = s.topNumber := rfl
@[simp] theorem State.modPlants_activeGen (s : State) (f : Plant → Plant) : (s.modPlants f).activeGen = s.activeGen := rfl
@[simp] theorem State.modPlants_awaiting (s : State) (f : Plant → Plant) : (s.modPlants f).awaiting = s.awaiting := rfl
@[simp] theorem State.modPlants_pendGen (s : State) (f : Plant → Plant) : (s.modPlants f).pendGen = s.pendGen := rfl
@[simp] theorem State.modPlants_importBuf (s : State) (f : Plant → Plant) : (s.modPlants f).importBuf = s.importBuf := rfl
@[simp] theorem State.modPlants_order (s : State) (f : Plant → Plant) : (s.modPlants f).order = s.order := rfl
@[simp] theorem State.modPlants_prev (s : State) (f : Plant → Plant) : (s.modPlants f).prev = s.prev := rfl
@[simp] theorem State.modPlants_base (s : State) (f : Plant → Plant) : (s.modPlants f).base = f s.base := rfl
@[simp] theorem State.modPlants_work (s : State) (f : Plant → Plant) : (s.modPlants f).work = f s.work := rfl
@[simp] theorem State.modPlants_evaluated (s : State) (f : Plant → Plant) : (s.modPlants f).evaluated = s.evaluated := rfl
@[simp] theorem State.modPlants_committed (s : State) (f : Plant → Plant) : (s.modPlants f).committed = s.committed := rfl
@[simp] theorem State.modPlants_workTick (s : State) (f : Plant → Plant) : (s.modPlants f).workTick = s.workTick := rfl
@[simp] theorem State.modPlants_inbufs (s : State) (f : Plant → Plant) : (s.modPlants f).inbufs = s.inbufs := rfl
@[simp] theorem State.modPlants_deadlineAt (s : State) (f : Plant → Plant) : (s.modPlants f).deadlineAt = s.deadlineAt := rfl
@[simp] theorem State.modPlants_skip (s : State) (f : Plant → Plant) : (s.modPlants f).skip = s.skip := rfl
@[simp] theorem State.modPlants_banks (s : State) (f : Plant → Plant) : (s.modPlants f).banks = s.banks := rfl
@[simp] theorem State.modPlants_fieldChans (s : State) (f : Plant → Plant) : (s.modPlants f).fieldChans = s.fieldChans := rfl
@[simp] theorem State.modPlants_fprobes (s : State) (f : Plant → Plant) : (s.modPlants f).fprobes = s.fprobes := rfl
@[simp] theorem State.modPlants_fcombs (s : State) (f : Plant → Plant) : (s.modPlants f).fcombs = s.fcombs := rfl
@[simp] theorem State.modPlants_fanDom (s : State) (f : Plant → Plant) : (s.modPlants f).fanDom = s.fanDom := rfl
@[simp] theorem State.modPlants_recorder (s : State) (f : Plant → Plant) : (s.modPlants f).recorder = s.recorder := rfl
@[simp] theorem State.modPlants_inrec (s : State) (f : Plant → Plant) : (s.modPlants f).inrec = s.inrec := rfl
@[simp] theorem State.modPlants_sram (s : State) (f : Plant → Plant) : (s.modPlants f).sram = s.sram := rfl
@[simp] theorem State.modPlants_upd (s : State) (f : Plant → Plant) : (s.modPlants f).upd = s.upd := rfl
@[simp] theorem State.modPlants_link (s : State) (f : Plant → Plant) : (s.modPlants f).link = s.link := rfl
@[simp] theorem State.modPlants_boot (s : State) (f : Plant → Plant) : (s.modPlants f).boot = s.boot := rfl
@[simp] theorem State.modPlants_hk (s : State) (f : Plant → Plant) : (s.modPlants f).hk = s.hk := rfl
@[simp] theorem State.modPlants_draws (s : State) (f : Plant → Plant) : (s.modPlants f).draws = s.draws := rfl
@[simp] theorem State.modPlants_drawsAt (s : State) (f : Plant → Plant) : (s.modPlants f).drawsAt = s.drawsAt := rfl

/-! ## modUnit -/

@[simp] theorem State.modUnit_pending (s : State) (n : Nat) (f : UnitRec → UnitRec) : (s.modUnit n f).pending = s.pending := rfl
@[simp] theorem State.modUnit_tick (s : State) (n : Nat) (f : UnitRec → UnitRec) : (s.modUnit n f).tick = s.tick := rfl
@[simp] theorem State.modUnit_checkpoint (s : State) (n : Nat) (f : UnitRec → UnitRec) : (s.modUnit n f).checkpoint = s.checkpoint := rfl
@[simp] theorem State.modUnit_fineValid (s : State) (n : Nat) (f : UnitRec → UnitRec) : (s.modUnit n f).fineValid = s.fineValid := rfl
@[simp] theorem State.modUnit_wallDiff (s : State) (n : Nat) (f : UnitRec → UnitRec) : (s.modUnit n f).wallDiff = s.wallDiff := rfl
@[simp] theorem State.modUnit_wallStale (s : State) (n : Nat) (f : UnitRec → UnitRec) : (s.modUnit n f).wallStale = s.wallStale := rfl
@[simp] theorem State.modUnit_vinOn (s : State) (n : Nat) (f : UnitRec → UnitRec) : (s.modUnit n f).vinOn = s.vinOn := rfl
@[simp] theorem State.modUnit_power (s : State) (n : Nat) (f : UnitRec → UnitRec) : (s.modUnit n f).power = s.power := rfl
@[simp] theorem State.modUnit_id (s : State) (n : Nat) (f : UnitRec → UnitRec) : (s.modUnit n f).id = s.id := rfl
@[simp] theorem State.modUnit_host (s : State) (n : Nat) (f : UnitRec → UnitRec) : (s.modUnit n f).host = s.host := rfl
@[simp] theorem State.modUnit_smoker (s : State) (n : Nat) (f : UnitRec → UnitRec) : (s.modUnit n f).smoker = s.smoker := rfl
@[simp] theorem State.modUnit_sched (s : State) (n : Nat) (f : UnitRec → UnitRec) : (s.modUnit n f).sched = s.sched := rfl
@[simp] theorem State.modUnit_jobs (s : State) (n : Nat) (f : UnitRec → UnitRec) : (s.modUnit n f).jobs = s.jobs := rfl
@[simp] theorem State.modUnit_gens (s : State) (n : Nat) (f : UnitRec → UnitRec) : (s.modUnit n f).gens = s.gens := rfl
@[simp] theorem State.modUnit_topNumber (s : State) (n : Nat) (f : UnitRec → UnitRec) : (s.modUnit n f).topNumber = s.topNumber := rfl
@[simp] theorem State.modUnit_activeGen (s : State) (n : Nat) (f : UnitRec → UnitRec) : (s.modUnit n f).activeGen = s.activeGen := rfl
@[simp] theorem State.modUnit_awaiting (s : State) (n : Nat) (f : UnitRec → UnitRec) : (s.modUnit n f).awaiting = s.awaiting := rfl
@[simp] theorem State.modUnit_pendGen (s : State) (n : Nat) (f : UnitRec → UnitRec) : (s.modUnit n f).pendGen = s.pendGen := rfl
@[simp] theorem State.modUnit_importBuf (s : State) (n : Nat) (f : UnitRec → UnitRec) : (s.modUnit n f).importBuf = s.importBuf := rfl
@[simp] theorem State.modUnit_order (s : State) (n : Nat) (f : UnitRec → UnitRec) : (s.modUnit n f).order = s.order := rfl
@[simp] theorem State.modUnit_prev (s : State) (n : Nat) (f : UnitRec → UnitRec) : (s.modUnit n f).prev = s.prev := rfl
@[simp] theorem State.modUnit_base (s : State) (n : Nat) (f : UnitRec → UnitRec) : (s.modUnit n f).base = s.base := rfl
@[simp] theorem State.modUnit_work (s : State) (n : Nat) (f : UnitRec → UnitRec) : (s.modUnit n f).work = s.work.modUnit n f := rfl
@[simp] theorem State.modUnit_evaluated (s : State) (n : Nat) (f : UnitRec → UnitRec) : (s.modUnit n f).evaluated = s.evaluated := rfl
@[simp] theorem State.modUnit_committed (s : State) (n : Nat) (f : UnitRec → UnitRec) : (s.modUnit n f).committed = s.committed := rfl
@[simp] theorem State.modUnit_workTick (s : State) (n : Nat) (f : UnitRec → UnitRec) : (s.modUnit n f).workTick = s.workTick := rfl
@[simp] theorem State.modUnit_inbufs (s : State) (n : Nat) (f : UnitRec → UnitRec) : (s.modUnit n f).inbufs = s.inbufs := rfl
@[simp] theorem State.modUnit_deadlineAt (s : State) (n : Nat) (f : UnitRec → UnitRec) : (s.modUnit n f).deadlineAt = s.deadlineAt := rfl
@[simp] theorem State.modUnit_skip (s : State) (n : Nat) (f : UnitRec → UnitRec) : (s.modUnit n f).skip = s.skip := rfl
@[simp] theorem State.modUnit_banks (s : State) (n : Nat) (f : UnitRec → UnitRec) : (s.modUnit n f).banks = s.banks := rfl
@[simp] theorem State.modUnit_fieldChans (s : State) (n : Nat) (f : UnitRec → UnitRec) : (s.modUnit n f).fieldChans = s.fieldChans := rfl
@[simp] theorem State.modUnit_fprobes (s : State) (n : Nat) (f : UnitRec → UnitRec) : (s.modUnit n f).fprobes = s.fprobes := rfl
@[simp] theorem State.modUnit_fcombs (s : State) (n : Nat) (f : UnitRec → UnitRec) : (s.modUnit n f).fcombs = s.fcombs := rfl
@[simp] theorem State.modUnit_fanDom (s : State) (n : Nat) (f : UnitRec → UnitRec) : (s.modUnit n f).fanDom = s.fanDom := rfl
@[simp] theorem State.modUnit_recorder (s : State) (n : Nat) (f : UnitRec → UnitRec) : (s.modUnit n f).recorder = s.recorder := rfl
@[simp] theorem State.modUnit_inrec (s : State) (n : Nat) (f : UnitRec → UnitRec) : (s.modUnit n f).inrec = s.inrec := rfl
@[simp] theorem State.modUnit_sram (s : State) (n : Nat) (f : UnitRec → UnitRec) : (s.modUnit n f).sram = s.sram := rfl
@[simp] theorem State.modUnit_upd (s : State) (n : Nat) (f : UnitRec → UnitRec) : (s.modUnit n f).upd = s.upd := rfl
@[simp] theorem State.modUnit_link (s : State) (n : Nat) (f : UnitRec → UnitRec) : (s.modUnit n f).link = s.link := rfl
@[simp] theorem State.modUnit_boot (s : State) (n : Nat) (f : UnitRec → UnitRec) : (s.modUnit n f).boot = s.boot := rfl
@[simp] theorem State.modUnit_hk (s : State) (n : Nat) (f : UnitRec → UnitRec) : (s.modUnit n f).hk = s.hk := rfl
@[simp] theorem State.modUnit_draws (s : State) (n : Nat) (f : UnitRec → UnitRec) : (s.modUnit n f).draws = s.draws := rfl
@[simp] theorem State.modUnit_drawsAt (s : State) (n : Nat) (f : UnitRec → UnitRec) : (s.modUnit n f).drawsAt = s.drawsAt := rfl

/-! ## modHost -/

@[simp] theorem State.modHost_pending (s : State) (f : HostIf → HostIf) : (s.modHost f).pending = s.pending := rfl
@[simp] theorem State.modHost_tick (s : State) (f : HostIf → HostIf) : (s.modHost f).tick = s.tick := rfl
@[simp] theorem State.modHost_checkpoint (s : State) (f : HostIf → HostIf) : (s.modHost f).checkpoint = s.checkpoint := rfl
@[simp] theorem State.modHost_fineValid (s : State) (f : HostIf → HostIf) : (s.modHost f).fineValid = s.fineValid := rfl
@[simp] theorem State.modHost_wallDiff (s : State) (f : HostIf → HostIf) : (s.modHost f).wallDiff = s.wallDiff := rfl
@[simp] theorem State.modHost_wallStale (s : State) (f : HostIf → HostIf) : (s.modHost f).wallStale = s.wallStale := rfl
@[simp] theorem State.modHost_vinOn (s : State) (f : HostIf → HostIf) : (s.modHost f).vinOn = s.vinOn := rfl
@[simp] theorem State.modHost_power (s : State) (f : HostIf → HostIf) : (s.modHost f).power = s.power := rfl
@[simp] theorem State.modHost_id (s : State) (f : HostIf → HostIf) : (s.modHost f).id = s.id := rfl
@[simp] theorem State.modHost_host (s : State) (f : HostIf → HostIf) : (s.modHost f).host = f s.host := rfl
@[simp] theorem State.modHost_smoker (s : State) (f : HostIf → HostIf) : (s.modHost f).smoker = s.smoker := rfl
@[simp] theorem State.modHost_sched (s : State) (f : HostIf → HostIf) : (s.modHost f).sched = s.sched := rfl
@[simp] theorem State.modHost_jobs (s : State) (f : HostIf → HostIf) : (s.modHost f).jobs = s.jobs := rfl
@[simp] theorem State.modHost_gens (s : State) (f : HostIf → HostIf) : (s.modHost f).gens = s.gens := rfl
@[simp] theorem State.modHost_topNumber (s : State) (f : HostIf → HostIf) : (s.modHost f).topNumber = s.topNumber := rfl
@[simp] theorem State.modHost_activeGen (s : State) (f : HostIf → HostIf) : (s.modHost f).activeGen = s.activeGen := rfl
@[simp] theorem State.modHost_awaiting (s : State) (f : HostIf → HostIf) : (s.modHost f).awaiting = s.awaiting := rfl
@[simp] theorem State.modHost_pendGen (s : State) (f : HostIf → HostIf) : (s.modHost f).pendGen = s.pendGen := rfl
@[simp] theorem State.modHost_importBuf (s : State) (f : HostIf → HostIf) : (s.modHost f).importBuf = s.importBuf := rfl
@[simp] theorem State.modHost_order (s : State) (f : HostIf → HostIf) : (s.modHost f).order = s.order := rfl
@[simp] theorem State.modHost_prev (s : State) (f : HostIf → HostIf) : (s.modHost f).prev = s.prev := rfl
@[simp] theorem State.modHost_base (s : State) (f : HostIf → HostIf) : (s.modHost f).base = s.base := rfl
@[simp] theorem State.modHost_work (s : State) (f : HostIf → HostIf) : (s.modHost f).work = s.work := rfl
@[simp] theorem State.modHost_evaluated (s : State) (f : HostIf → HostIf) : (s.modHost f).evaluated = s.evaluated := rfl
@[simp] theorem State.modHost_committed (s : State) (f : HostIf → HostIf) : (s.modHost f).committed = s.committed := rfl
@[simp] theorem State.modHost_workTick (s : State) (f : HostIf → HostIf) : (s.modHost f).workTick = s.workTick := rfl
@[simp] theorem State.modHost_inbufs (s : State) (f : HostIf → HostIf) : (s.modHost f).inbufs = s.inbufs := rfl
@[simp] theorem State.modHost_deadlineAt (s : State) (f : HostIf → HostIf) : (s.modHost f).deadlineAt = s.deadlineAt := rfl
@[simp] theorem State.modHost_skip (s : State) (f : HostIf → HostIf) : (s.modHost f).skip = s.skip := rfl
@[simp] theorem State.modHost_banks (s : State) (f : HostIf → HostIf) : (s.modHost f).banks = s.banks := rfl
@[simp] theorem State.modHost_fieldChans (s : State) (f : HostIf → HostIf) : (s.modHost f).fieldChans = s.fieldChans := rfl
@[simp] theorem State.modHost_fprobes (s : State) (f : HostIf → HostIf) : (s.modHost f).fprobes = s.fprobes := rfl
@[simp] theorem State.modHost_fcombs (s : State) (f : HostIf → HostIf) : (s.modHost f).fcombs = s.fcombs := rfl
@[simp] theorem State.modHost_fanDom (s : State) (f : HostIf → HostIf) : (s.modHost f).fanDom = s.fanDom := rfl
@[simp] theorem State.modHost_recorder (s : State) (f : HostIf → HostIf) : (s.modHost f).recorder = s.recorder := rfl
@[simp] theorem State.modHost_inrec (s : State) (f : HostIf → HostIf) : (s.modHost f).inrec = s.inrec := rfl
@[simp] theorem State.modHost_sram (s : State) (f : HostIf → HostIf) : (s.modHost f).sram = s.sram := rfl
@[simp] theorem State.modHost_upd (s : State) (f : HostIf → HostIf) : (s.modHost f).upd = s.upd := rfl
@[simp] theorem State.modHost_link (s : State) (f : HostIf → HostIf) : (s.modHost f).link = s.link := rfl
@[simp] theorem State.modHost_boot (s : State) (f : HostIf → HostIf) : (s.modHost f).boot = s.boot := rfl
@[simp] theorem State.modHost_hk (s : State) (f : HostIf → HostIf) : (s.modHost f).hk = s.hk := rfl
@[simp] theorem State.modHost_draws (s : State) (f : HostIf → HostIf) : (s.modHost f).draws = s.draws := rfl
@[simp] theorem State.modHost_drawsAt (s : State) (f : HostIf → HostIf) : (s.modHost f).drawsAt = s.drawsAt := rfl

/-! ## modBoot -/

@[simp] theorem State.modBoot_pending (s : State) (f : Boot → Boot) : (s.modBoot f).pending = s.pending := rfl
@[simp] theorem State.modBoot_tick (s : State) (f : Boot → Boot) : (s.modBoot f).tick = s.tick := rfl
@[simp] theorem State.modBoot_checkpoint (s : State) (f : Boot → Boot) : (s.modBoot f).checkpoint = s.checkpoint := rfl
@[simp] theorem State.modBoot_fineValid (s : State) (f : Boot → Boot) : (s.modBoot f).fineValid = s.fineValid := rfl
@[simp] theorem State.modBoot_wallDiff (s : State) (f : Boot → Boot) : (s.modBoot f).wallDiff = s.wallDiff := rfl
@[simp] theorem State.modBoot_wallStale (s : State) (f : Boot → Boot) : (s.modBoot f).wallStale = s.wallStale := rfl
@[simp] theorem State.modBoot_vinOn (s : State) (f : Boot → Boot) : (s.modBoot f).vinOn = s.vinOn := rfl
@[simp] theorem State.modBoot_power (s : State) (f : Boot → Boot) : (s.modBoot f).power = s.power := rfl
@[simp] theorem State.modBoot_id (s : State) (f : Boot → Boot) : (s.modBoot f).id = s.id := rfl
@[simp] theorem State.modBoot_host (s : State) (f : Boot → Boot) : (s.modBoot f).host = s.host := rfl
@[simp] theorem State.modBoot_smoker (s : State) (f : Boot → Boot) : (s.modBoot f).smoker = s.smoker := rfl
@[simp] theorem State.modBoot_sched (s : State) (f : Boot → Boot) : (s.modBoot f).sched = s.sched := rfl
@[simp] theorem State.modBoot_jobs (s : State) (f : Boot → Boot) : (s.modBoot f).jobs = s.jobs := rfl
@[simp] theorem State.modBoot_gens (s : State) (f : Boot → Boot) : (s.modBoot f).gens = s.gens := rfl
@[simp] theorem State.modBoot_topNumber (s : State) (f : Boot → Boot) : (s.modBoot f).topNumber = s.topNumber := rfl
@[simp] theorem State.modBoot_activeGen (s : State) (f : Boot → Boot) : (s.modBoot f).activeGen = s.activeGen := rfl
@[simp] theorem State.modBoot_awaiting (s : State) (f : Boot → Boot) : (s.modBoot f).awaiting = s.awaiting := rfl
@[simp] theorem State.modBoot_pendGen (s : State) (f : Boot → Boot) : (s.modBoot f).pendGen = s.pendGen := rfl
@[simp] theorem State.modBoot_importBuf (s : State) (f : Boot → Boot) : (s.modBoot f).importBuf = s.importBuf := rfl
@[simp] theorem State.modBoot_order (s : State) (f : Boot → Boot) : (s.modBoot f).order = s.order := rfl
@[simp] theorem State.modBoot_prev (s : State) (f : Boot → Boot) : (s.modBoot f).prev = s.prev := rfl
@[simp] theorem State.modBoot_base (s : State) (f : Boot → Boot) : (s.modBoot f).base = s.base := rfl
@[simp] theorem State.modBoot_work (s : State) (f : Boot → Boot) : (s.modBoot f).work = s.work := rfl
@[simp] theorem State.modBoot_evaluated (s : State) (f : Boot → Boot) : (s.modBoot f).evaluated = s.evaluated := rfl
@[simp] theorem State.modBoot_committed (s : State) (f : Boot → Boot) : (s.modBoot f).committed = s.committed := rfl
@[simp] theorem State.modBoot_workTick (s : State) (f : Boot → Boot) : (s.modBoot f).workTick = s.workTick := rfl
@[simp] theorem State.modBoot_inbufs (s : State) (f : Boot → Boot) : (s.modBoot f).inbufs = s.inbufs := rfl
@[simp] theorem State.modBoot_deadlineAt (s : State) (f : Boot → Boot) : (s.modBoot f).deadlineAt = s.deadlineAt := rfl
@[simp] theorem State.modBoot_skip (s : State) (f : Boot → Boot) : (s.modBoot f).skip = s.skip := rfl
@[simp] theorem State.modBoot_banks (s : State) (f : Boot → Boot) : (s.modBoot f).banks = s.banks := rfl
@[simp] theorem State.modBoot_fieldChans (s : State) (f : Boot → Boot) : (s.modBoot f).fieldChans = s.fieldChans := rfl
@[simp] theorem State.modBoot_fprobes (s : State) (f : Boot → Boot) : (s.modBoot f).fprobes = s.fprobes := rfl
@[simp] theorem State.modBoot_fcombs (s : State) (f : Boot → Boot) : (s.modBoot f).fcombs = s.fcombs := rfl
@[simp] theorem State.modBoot_fanDom (s : State) (f : Boot → Boot) : (s.modBoot f).fanDom = s.fanDom := rfl
@[simp] theorem State.modBoot_recorder (s : State) (f : Boot → Boot) : (s.modBoot f).recorder = s.recorder := rfl
@[simp] theorem State.modBoot_inrec (s : State) (f : Boot → Boot) : (s.modBoot f).inrec = s.inrec := rfl
@[simp] theorem State.modBoot_sram (s : State) (f : Boot → Boot) : (s.modBoot f).sram = s.sram := rfl
@[simp] theorem State.modBoot_upd (s : State) (f : Boot → Boot) : (s.modBoot f).upd = s.upd := rfl
@[simp] theorem State.modBoot_link (s : State) (f : Boot → Boot) : (s.modBoot f).link = s.link := rfl
@[simp] theorem State.modBoot_boot (s : State) (f : Boot → Boot) : (s.modBoot f).boot = f s.boot := rfl
@[simp] theorem State.modBoot_hk (s : State) (f : Boot → Boot) : (s.modBoot f).hk = s.hk := rfl
@[simp] theorem State.modBoot_draws (s : State) (f : Boot → Boot) : (s.modBoot f).draws = s.draws := rfl
@[simp] theorem State.modBoot_drawsAt (s : State) (f : Boot → Boot) : (s.modBoot f).drawsAt = s.drawsAt := rfl

/-! ## modUpd -/

@[simp] theorem State.modUpd_pending (s : State) (f : Update → Update) : (s.modUpd f).pending = s.pending := rfl
@[simp] theorem State.modUpd_tick (s : State) (f : Update → Update) : (s.modUpd f).tick = s.tick := rfl
@[simp] theorem State.modUpd_checkpoint (s : State) (f : Update → Update) : (s.modUpd f).checkpoint = s.checkpoint := rfl
@[simp] theorem State.modUpd_fineValid (s : State) (f : Update → Update) : (s.modUpd f).fineValid = s.fineValid := rfl
@[simp] theorem State.modUpd_wallDiff (s : State) (f : Update → Update) : (s.modUpd f).wallDiff = s.wallDiff := rfl
@[simp] theorem State.modUpd_wallStale (s : State) (f : Update → Update) : (s.modUpd f).wallStale = s.wallStale := rfl
@[simp] theorem State.modUpd_vinOn (s : State) (f : Update → Update) : (s.modUpd f).vinOn = s.vinOn := rfl
@[simp] theorem State.modUpd_power (s : State) (f : Update → Update) : (s.modUpd f).power = s.power := rfl
@[simp] theorem State.modUpd_id (s : State) (f : Update → Update) : (s.modUpd f).id = s.id := rfl
@[simp] theorem State.modUpd_host (s : State) (f : Update → Update) : (s.modUpd f).host = s.host := rfl
@[simp] theorem State.modUpd_smoker (s : State) (f : Update → Update) : (s.modUpd f).smoker = s.smoker := rfl
@[simp] theorem State.modUpd_sched (s : State) (f : Update → Update) : (s.modUpd f).sched = s.sched := rfl
@[simp] theorem State.modUpd_jobs (s : State) (f : Update → Update) : (s.modUpd f).jobs = s.jobs := rfl
@[simp] theorem State.modUpd_gens (s : State) (f : Update → Update) : (s.modUpd f).gens = s.gens := rfl
@[simp] theorem State.modUpd_topNumber (s : State) (f : Update → Update) : (s.modUpd f).topNumber = s.topNumber := rfl
@[simp] theorem State.modUpd_activeGen (s : State) (f : Update → Update) : (s.modUpd f).activeGen = s.activeGen := rfl
@[simp] theorem State.modUpd_awaiting (s : State) (f : Update → Update) : (s.modUpd f).awaiting = s.awaiting := rfl
@[simp] theorem State.modUpd_pendGen (s : State) (f : Update → Update) : (s.modUpd f).pendGen = s.pendGen := rfl
@[simp] theorem State.modUpd_importBuf (s : State) (f : Update → Update) : (s.modUpd f).importBuf = s.importBuf := rfl
@[simp] theorem State.modUpd_order (s : State) (f : Update → Update) : (s.modUpd f).order = s.order := rfl
@[simp] theorem State.modUpd_prev (s : State) (f : Update → Update) : (s.modUpd f).prev = s.prev := rfl
@[simp] theorem State.modUpd_base (s : State) (f : Update → Update) : (s.modUpd f).base = s.base := rfl
@[simp] theorem State.modUpd_work (s : State) (f : Update → Update) : (s.modUpd f).work = s.work := rfl
@[simp] theorem State.modUpd_evaluated (s : State) (f : Update → Update) : (s.modUpd f).evaluated = s.evaluated := rfl
@[simp] theorem State.modUpd_committed (s : State) (f : Update → Update) : (s.modUpd f).committed = s.committed := rfl
@[simp] theorem State.modUpd_workTick (s : State) (f : Update → Update) : (s.modUpd f).workTick = s.workTick := rfl
@[simp] theorem State.modUpd_inbufs (s : State) (f : Update → Update) : (s.modUpd f).inbufs = s.inbufs := rfl
@[simp] theorem State.modUpd_deadlineAt (s : State) (f : Update → Update) : (s.modUpd f).deadlineAt = s.deadlineAt := rfl
@[simp] theorem State.modUpd_skip (s : State) (f : Update → Update) : (s.modUpd f).skip = s.skip := rfl
@[simp] theorem State.modUpd_banks (s : State) (f : Update → Update) : (s.modUpd f).banks = s.banks := rfl
@[simp] theorem State.modUpd_fieldChans (s : State) (f : Update → Update) : (s.modUpd f).fieldChans = s.fieldChans := rfl
@[simp] theorem State.modUpd_fprobes (s : State) (f : Update → Update) : (s.modUpd f).fprobes = s.fprobes := rfl
@[simp] theorem State.modUpd_fcombs (s : State) (f : Update → Update) : (s.modUpd f).fcombs = s.fcombs := rfl
@[simp] theorem State.modUpd_fanDom (s : State) (f : Update → Update) : (s.modUpd f).fanDom = s.fanDom := rfl
@[simp] theorem State.modUpd_recorder (s : State) (f : Update → Update) : (s.modUpd f).recorder = s.recorder := rfl
@[simp] theorem State.modUpd_inrec (s : State) (f : Update → Update) : (s.modUpd f).inrec = s.inrec := rfl
@[simp] theorem State.modUpd_sram (s : State) (f : Update → Update) : (s.modUpd f).sram = s.sram := rfl
@[simp] theorem State.modUpd_upd (s : State) (f : Update → Update) : (s.modUpd f).upd = f s.upd := rfl
@[simp] theorem State.modUpd_link (s : State) (f : Update → Update) : (s.modUpd f).link = s.link := rfl
@[simp] theorem State.modUpd_boot (s : State) (f : Update → Update) : (s.modUpd f).boot = s.boot := rfl
@[simp] theorem State.modUpd_hk (s : State) (f : Update → Update) : (s.modUpd f).hk = s.hk := rfl
@[simp] theorem State.modUpd_draws (s : State) (f : Update → Update) : (s.modUpd f).draws = s.draws := rfl
@[simp] theorem State.modUpd_drawsAt (s : State) (f : Update → Update) : (s.modUpd f).drawsAt = s.drawsAt := rfl

/-! ## modLink -/

@[simp] theorem State.modLink_pending (s : State) (f : Link → Link) : (s.modLink f).pending = s.pending := rfl
@[simp] theorem State.modLink_tick (s : State) (f : Link → Link) : (s.modLink f).tick = s.tick := rfl
@[simp] theorem State.modLink_checkpoint (s : State) (f : Link → Link) : (s.modLink f).checkpoint = s.checkpoint := rfl
@[simp] theorem State.modLink_fineValid (s : State) (f : Link → Link) : (s.modLink f).fineValid = s.fineValid := rfl
@[simp] theorem State.modLink_wallDiff (s : State) (f : Link → Link) : (s.modLink f).wallDiff = s.wallDiff := rfl
@[simp] theorem State.modLink_wallStale (s : State) (f : Link → Link) : (s.modLink f).wallStale = s.wallStale := rfl
@[simp] theorem State.modLink_vinOn (s : State) (f : Link → Link) : (s.modLink f).vinOn = s.vinOn := rfl
@[simp] theorem State.modLink_power (s : State) (f : Link → Link) : (s.modLink f).power = s.power := rfl
@[simp] theorem State.modLink_id (s : State) (f : Link → Link) : (s.modLink f).id = s.id := rfl
@[simp] theorem State.modLink_host (s : State) (f : Link → Link) : (s.modLink f).host = s.host := rfl
@[simp] theorem State.modLink_smoker (s : State) (f : Link → Link) : (s.modLink f).smoker = s.smoker := rfl
@[simp] theorem State.modLink_sched (s : State) (f : Link → Link) : (s.modLink f).sched = s.sched := rfl
@[simp] theorem State.modLink_jobs (s : State) (f : Link → Link) : (s.modLink f).jobs = s.jobs := rfl
@[simp] theorem State.modLink_gens (s : State) (f : Link → Link) : (s.modLink f).gens = s.gens := rfl
@[simp] theorem State.modLink_topNumber (s : State) (f : Link → Link) : (s.modLink f).topNumber = s.topNumber := rfl
@[simp] theorem State.modLink_activeGen (s : State) (f : Link → Link) : (s.modLink f).activeGen = s.activeGen := rfl
@[simp] theorem State.modLink_awaiting (s : State) (f : Link → Link) : (s.modLink f).awaiting = s.awaiting := rfl
@[simp] theorem State.modLink_pendGen (s : State) (f : Link → Link) : (s.modLink f).pendGen = s.pendGen := rfl
@[simp] theorem State.modLink_importBuf (s : State) (f : Link → Link) : (s.modLink f).importBuf = s.importBuf := rfl
@[simp] theorem State.modLink_order (s : State) (f : Link → Link) : (s.modLink f).order = s.order := rfl
@[simp] theorem State.modLink_prev (s : State) (f : Link → Link) : (s.modLink f).prev = s.prev := rfl
@[simp] theorem State.modLink_base (s : State) (f : Link → Link) : (s.modLink f).base = s.base := rfl
@[simp] theorem State.modLink_work (s : State) (f : Link → Link) : (s.modLink f).work = s.work := rfl
@[simp] theorem State.modLink_evaluated (s : State) (f : Link → Link) : (s.modLink f).evaluated = s.evaluated := rfl
@[simp] theorem State.modLink_committed (s : State) (f : Link → Link) : (s.modLink f).committed = s.committed := rfl
@[simp] theorem State.modLink_workTick (s : State) (f : Link → Link) : (s.modLink f).workTick = s.workTick := rfl
@[simp] theorem State.modLink_inbufs (s : State) (f : Link → Link) : (s.modLink f).inbufs = s.inbufs := rfl
@[simp] theorem State.modLink_deadlineAt (s : State) (f : Link → Link) : (s.modLink f).deadlineAt = s.deadlineAt := rfl
@[simp] theorem State.modLink_skip (s : State) (f : Link → Link) : (s.modLink f).skip = s.skip := rfl
@[simp] theorem State.modLink_banks (s : State) (f : Link → Link) : (s.modLink f).banks = s.banks := rfl
@[simp] theorem State.modLink_fieldChans (s : State) (f : Link → Link) : (s.modLink f).fieldChans = s.fieldChans := rfl
@[simp] theorem State.modLink_fprobes (s : State) (f : Link → Link) : (s.modLink f).fprobes = s.fprobes := rfl
@[simp] theorem State.modLink_fcombs (s : State) (f : Link → Link) : (s.modLink f).fcombs = s.fcombs := rfl
@[simp] theorem State.modLink_fanDom (s : State) (f : Link → Link) : (s.modLink f).fanDom = s.fanDom := rfl
@[simp] theorem State.modLink_recorder (s : State) (f : Link → Link) : (s.modLink f).recorder = s.recorder := rfl
@[simp] theorem State.modLink_inrec (s : State) (f : Link → Link) : (s.modLink f).inrec = s.inrec := rfl
@[simp] theorem State.modLink_sram (s : State) (f : Link → Link) : (s.modLink f).sram = s.sram := rfl
@[simp] theorem State.modLink_upd (s : State) (f : Link → Link) : (s.modLink f).upd = s.upd := rfl
@[simp] theorem State.modLink_link (s : State) (f : Link → Link) : (s.modLink f).link = f s.link := rfl
@[simp] theorem State.modLink_boot (s : State) (f : Link → Link) : (s.modLink f).boot = s.boot := rfl
@[simp] theorem State.modLink_hk (s : State) (f : Link → Link) : (s.modLink f).hk = s.hk := rfl
@[simp] theorem State.modLink_draws (s : State) (f : Link → Link) : (s.modLink f).draws = s.draws := rfl
@[simp] theorem State.modLink_drawsAt (s : State) (f : Link → Link) : (s.modLink f).drawsAt = s.drawsAt := rfl

/-! ## modHk -/

@[simp] theorem State.modHk_pending (s : State) (f : Hk → Hk) : (s.modHk f).pending = s.pending := rfl
@[simp] theorem State.modHk_tick (s : State) (f : Hk → Hk) : (s.modHk f).tick = s.tick := rfl
@[simp] theorem State.modHk_checkpoint (s : State) (f : Hk → Hk) : (s.modHk f).checkpoint = s.checkpoint := rfl
@[simp] theorem State.modHk_fineValid (s : State) (f : Hk → Hk) : (s.modHk f).fineValid = s.fineValid := rfl
@[simp] theorem State.modHk_wallDiff (s : State) (f : Hk → Hk) : (s.modHk f).wallDiff = s.wallDiff := rfl
@[simp] theorem State.modHk_wallStale (s : State) (f : Hk → Hk) : (s.modHk f).wallStale = s.wallStale := rfl
@[simp] theorem State.modHk_vinOn (s : State) (f : Hk → Hk) : (s.modHk f).vinOn = s.vinOn := rfl
@[simp] theorem State.modHk_power (s : State) (f : Hk → Hk) : (s.modHk f).power = s.power := rfl
@[simp] theorem State.modHk_id (s : State) (f : Hk → Hk) : (s.modHk f).id = s.id := rfl
@[simp] theorem State.modHk_host (s : State) (f : Hk → Hk) : (s.modHk f).host = s.host := rfl
@[simp] theorem State.modHk_smoker (s : State) (f : Hk → Hk) : (s.modHk f).smoker = s.smoker := rfl
@[simp] theorem State.modHk_sched (s : State) (f : Hk → Hk) : (s.modHk f).sched = s.sched := rfl
@[simp] theorem State.modHk_jobs (s : State) (f : Hk → Hk) : (s.modHk f).jobs = s.jobs := rfl
@[simp] theorem State.modHk_gens (s : State) (f : Hk → Hk) : (s.modHk f).gens = s.gens := rfl
@[simp] theorem State.modHk_topNumber (s : State) (f : Hk → Hk) : (s.modHk f).topNumber = s.topNumber := rfl
@[simp] theorem State.modHk_activeGen (s : State) (f : Hk → Hk) : (s.modHk f).activeGen = s.activeGen := rfl
@[simp] theorem State.modHk_awaiting (s : State) (f : Hk → Hk) : (s.modHk f).awaiting = s.awaiting := rfl
@[simp] theorem State.modHk_pendGen (s : State) (f : Hk → Hk) : (s.modHk f).pendGen = s.pendGen := rfl
@[simp] theorem State.modHk_importBuf (s : State) (f : Hk → Hk) : (s.modHk f).importBuf = s.importBuf := rfl
@[simp] theorem State.modHk_order (s : State) (f : Hk → Hk) : (s.modHk f).order = s.order := rfl
@[simp] theorem State.modHk_prev (s : State) (f : Hk → Hk) : (s.modHk f).prev = s.prev := rfl
@[simp] theorem State.modHk_base (s : State) (f : Hk → Hk) : (s.modHk f).base = s.base := rfl
@[simp] theorem State.modHk_work (s : State) (f : Hk → Hk) : (s.modHk f).work = s.work := rfl
@[simp] theorem State.modHk_evaluated (s : State) (f : Hk → Hk) : (s.modHk f).evaluated = s.evaluated := rfl
@[simp] theorem State.modHk_committed (s : State) (f : Hk → Hk) : (s.modHk f).committed = s.committed := rfl
@[simp] theorem State.modHk_workTick (s : State) (f : Hk → Hk) : (s.modHk f).workTick = s.workTick := rfl
@[simp] theorem State.modHk_inbufs (s : State) (f : Hk → Hk) : (s.modHk f).inbufs = s.inbufs := rfl
@[simp] theorem State.modHk_deadlineAt (s : State) (f : Hk → Hk) : (s.modHk f).deadlineAt = s.deadlineAt := rfl
@[simp] theorem State.modHk_skip (s : State) (f : Hk → Hk) : (s.modHk f).skip = s.skip := rfl
@[simp] theorem State.modHk_banks (s : State) (f : Hk → Hk) : (s.modHk f).banks = s.banks := rfl
@[simp] theorem State.modHk_fieldChans (s : State) (f : Hk → Hk) : (s.modHk f).fieldChans = s.fieldChans := rfl
@[simp] theorem State.modHk_fprobes (s : State) (f : Hk → Hk) : (s.modHk f).fprobes = s.fprobes := rfl
@[simp] theorem State.modHk_fcombs (s : State) (f : Hk → Hk) : (s.modHk f).fcombs = s.fcombs := rfl
@[simp] theorem State.modHk_fanDom (s : State) (f : Hk → Hk) : (s.modHk f).fanDom = s.fanDom := rfl
@[simp] theorem State.modHk_recorder (s : State) (f : Hk → Hk) : (s.modHk f).recorder = s.recorder := rfl
@[simp] theorem State.modHk_inrec (s : State) (f : Hk → Hk) : (s.modHk f).inrec = s.inrec := rfl
@[simp] theorem State.modHk_sram (s : State) (f : Hk → Hk) : (s.modHk f).sram = s.sram := rfl
@[simp] theorem State.modHk_upd (s : State) (f : Hk → Hk) : (s.modHk f).upd = s.upd := rfl
@[simp] theorem State.modHk_link (s : State) (f : Hk → Hk) : (s.modHk f).link = s.link := rfl
@[simp] theorem State.modHk_boot (s : State) (f : Hk → Hk) : (s.modHk f).boot = s.boot := rfl
@[simp] theorem State.modHk_hk (s : State) (f : Hk → Hk) : (s.modHk f).hk = f s.hk := rfl
@[simp] theorem State.modHk_draws (s : State) (f : Hk → Hk) : (s.modHk f).draws = s.draws := rfl
@[simp] theorem State.modHk_drawsAt (s : State) (f : Hk → Hk) : (s.modHk f).drawsAt = s.drawsAt := rfl

/-! ## modGen -/

@[simp] theorem State.modGen_pending (s : State) (n : Nat) (f : Generation → Generation) : (s.modGen n f).pending = s.pending := rfl
@[simp] theorem State.modGen_tick (s : State) (n : Nat) (f : Generation → Generation) : (s.modGen n f).tick = s.tick := rfl
@[simp] theorem State.modGen_checkpoint (s : State) (n : Nat) (f : Generation → Generation) : (s.modGen n f).checkpoint = s.checkpoint := rfl
@[simp] theorem State.modGen_fineValid (s : State) (n : Nat) (f : Generation → Generation) : (s.modGen n f).fineValid = s.fineValid := rfl
@[simp] theorem State.modGen_wallDiff (s : State) (n : Nat) (f : Generation → Generation) : (s.modGen n f).wallDiff = s.wallDiff := rfl
@[simp] theorem State.modGen_wallStale (s : State) (n : Nat) (f : Generation → Generation) : (s.modGen n f).wallStale = s.wallStale := rfl
@[simp] theorem State.modGen_vinOn (s : State) (n : Nat) (f : Generation → Generation) : (s.modGen n f).vinOn = s.vinOn := rfl
@[simp] theorem State.modGen_power (s : State) (n : Nat) (f : Generation → Generation) : (s.modGen n f).power = s.power := rfl
@[simp] theorem State.modGen_id (s : State) (n : Nat) (f : Generation → Generation) : (s.modGen n f).id = s.id := rfl
@[simp] theorem State.modGen_host (s : State) (n : Nat) (f : Generation → Generation) : (s.modGen n f).host = s.host := rfl
@[simp] theorem State.modGen_smoker (s : State) (n : Nat) (f : Generation → Generation) : (s.modGen n f).smoker = s.smoker := rfl
@[simp] theorem State.modGen_sched (s : State) (n : Nat) (f : Generation → Generation) : (s.modGen n f).sched = s.sched := rfl
@[simp] theorem State.modGen_jobs (s : State) (n : Nat) (f : Generation → Generation) : (s.modGen n f).jobs = s.jobs := rfl
@[simp] theorem State.modGen_gens (s : State) (n : Nat) (f : Generation → Generation) : (s.modGen n f).gens = s.gens.map (fun g => if g.number = n then f g else g) := rfl
@[simp] theorem State.modGen_topNumber (s : State) (n : Nat) (f : Generation → Generation) : (s.modGen n f).topNumber = s.topNumber := rfl
@[simp] theorem State.modGen_activeGen (s : State) (n : Nat) (f : Generation → Generation) : (s.modGen n f).activeGen = s.activeGen := rfl
@[simp] theorem State.modGen_awaiting (s : State) (n : Nat) (f : Generation → Generation) : (s.modGen n f).awaiting = s.awaiting := rfl
@[simp] theorem State.modGen_pendGen (s : State) (n : Nat) (f : Generation → Generation) : (s.modGen n f).pendGen = s.pendGen := rfl
@[simp] theorem State.modGen_importBuf (s : State) (n : Nat) (f : Generation → Generation) : (s.modGen n f).importBuf = s.importBuf := rfl
@[simp] theorem State.modGen_order (s : State) (n : Nat) (f : Generation → Generation) : (s.modGen n f).order = s.order := rfl
@[simp] theorem State.modGen_prev (s : State) (n : Nat) (f : Generation → Generation) : (s.modGen n f).prev = s.prev := rfl
@[simp] theorem State.modGen_base (s : State) (n : Nat) (f : Generation → Generation) : (s.modGen n f).base = s.base := rfl
@[simp] theorem State.modGen_work (s : State) (n : Nat) (f : Generation → Generation) : (s.modGen n f).work = s.work := rfl
@[simp] theorem State.modGen_evaluated (s : State) (n : Nat) (f : Generation → Generation) : (s.modGen n f).evaluated = s.evaluated := rfl
@[simp] theorem State.modGen_committed (s : State) (n : Nat) (f : Generation → Generation) : (s.modGen n f).committed = s.committed := rfl
@[simp] theorem State.modGen_workTick (s : State) (n : Nat) (f : Generation → Generation) : (s.modGen n f).workTick = s.workTick := rfl
@[simp] theorem State.modGen_inbufs (s : State) (n : Nat) (f : Generation → Generation) : (s.modGen n f).inbufs = s.inbufs := rfl
@[simp] theorem State.modGen_deadlineAt (s : State) (n : Nat) (f : Generation → Generation) : (s.modGen n f).deadlineAt = s.deadlineAt := rfl
@[simp] theorem State.modGen_skip (s : State) (n : Nat) (f : Generation → Generation) : (s.modGen n f).skip = s.skip := rfl
@[simp] theorem State.modGen_banks (s : State) (n : Nat) (f : Generation → Generation) : (s.modGen n f).banks = s.banks := rfl
@[simp] theorem State.modGen_fieldChans (s : State) (n : Nat) (f : Generation → Generation) : (s.modGen n f).fieldChans = s.fieldChans := rfl
@[simp] theorem State.modGen_fprobes (s : State) (n : Nat) (f : Generation → Generation) : (s.modGen n f).fprobes = s.fprobes := rfl
@[simp] theorem State.modGen_fcombs (s : State) (n : Nat) (f : Generation → Generation) : (s.modGen n f).fcombs = s.fcombs := rfl
@[simp] theorem State.modGen_fanDom (s : State) (n : Nat) (f : Generation → Generation) : (s.modGen n f).fanDom = s.fanDom := rfl
@[simp] theorem State.modGen_recorder (s : State) (n : Nat) (f : Generation → Generation) : (s.modGen n f).recorder = s.recorder := rfl
@[simp] theorem State.modGen_inrec (s : State) (n : Nat) (f : Generation → Generation) : (s.modGen n f).inrec = s.inrec := rfl
@[simp] theorem State.modGen_sram (s : State) (n : Nat) (f : Generation → Generation) : (s.modGen n f).sram = s.sram := rfl
@[simp] theorem State.modGen_upd (s : State) (n : Nat) (f : Generation → Generation) : (s.modGen n f).upd = s.upd := rfl
@[simp] theorem State.modGen_link (s : State) (n : Nat) (f : Generation → Generation) : (s.modGen n f).link = s.link := rfl
@[simp] theorem State.modGen_boot (s : State) (n : Nat) (f : Generation → Generation) : (s.modGen n f).boot = s.boot := rfl
@[simp] theorem State.modGen_hk (s : State) (n : Nat) (f : Generation → Generation) : (s.modGen n f).hk = s.hk := rfl
@[simp] theorem State.modGen_draws (s : State) (n : Nat) (f : Generation → Generation) : (s.modGen n f).draws = s.draws := rfl
@[simp] theorem State.modGen_drawsAt (s : State) (n : Nat) (f : Generation → Generation) : (s.modGen n f).drawsAt = s.drawsAt := rfl

/-! ## modJob -/

@[simp] theorem State.modJob_pending (s : State) (h : Nat) (f : Job → Job) : (s.modJob h f).pending = s.pending := rfl
@[simp] theorem State.modJob_tick (s : State) (h : Nat) (f : Job → Job) : (s.modJob h f).tick = s.tick := rfl
@[simp] theorem State.modJob_checkpoint (s : State) (h : Nat) (f : Job → Job) : (s.modJob h f).checkpoint = s.checkpoint := rfl
@[simp] theorem State.modJob_fineValid (s : State) (h : Nat) (f : Job → Job) : (s.modJob h f).fineValid = s.fineValid := rfl
@[simp] theorem State.modJob_wallDiff (s : State) (h : Nat) (f : Job → Job) : (s.modJob h f).wallDiff = s.wallDiff := rfl
@[simp] theorem State.modJob_wallStale (s : State) (h : Nat) (f : Job → Job) : (s.modJob h f).wallStale = s.wallStale := rfl
@[simp] theorem State.modJob_vinOn (s : State) (h : Nat) (f : Job → Job) : (s.modJob h f).vinOn = s.vinOn := rfl
@[simp] theorem State.modJob_power (s : State) (h : Nat) (f : Job → Job) : (s.modJob h f).power = s.power := rfl
@[simp] theorem State.modJob_id (s : State) (h : Nat) (f : Job → Job) : (s.modJob h f).id = s.id := rfl
@[simp] theorem State.modJob_host (s : State) (h : Nat) (f : Job → Job) : (s.modJob h f).host = s.host := rfl
@[simp] theorem State.modJob_smoker (s : State) (h : Nat) (f : Job → Job) : (s.modJob h f).smoker = s.smoker := rfl
@[simp] theorem State.modJob_sched (s : State) (h : Nat) (f : Job → Job) : (s.modJob h f).sched = s.sched := rfl
@[simp] theorem State.modJob_jobs (s : State) (h : Nat) (f : Job → Job) : (s.modJob h f).jobs = s.jobs.map (fun j => if j.handle = h then f j else j) := rfl
@[simp] theorem State.modJob_gens (s : State) (h : Nat) (f : Job → Job) : (s.modJob h f).gens = s.gens := rfl
@[simp] theorem State.modJob_topNumber (s : State) (h : Nat) (f : Job → Job) : (s.modJob h f).topNumber = s.topNumber := rfl
@[simp] theorem State.modJob_activeGen (s : State) (h : Nat) (f : Job → Job) : (s.modJob h f).activeGen = s.activeGen := rfl
@[simp] theorem State.modJob_awaiting (s : State) (h : Nat) (f : Job → Job) : (s.modJob h f).awaiting = s.awaiting := rfl
@[simp] theorem State.modJob_pendGen (s : State) (h : Nat) (f : Job → Job) : (s.modJob h f).pendGen = s.pendGen := rfl
@[simp] theorem State.modJob_importBuf (s : State) (h : Nat) (f : Job → Job) : (s.modJob h f).importBuf = s.importBuf := rfl
@[simp] theorem State.modJob_order (s : State) (h : Nat) (f : Job → Job) : (s.modJob h f).order = s.order := rfl
@[simp] theorem State.modJob_prev (s : State) (h : Nat) (f : Job → Job) : (s.modJob h f).prev = s.prev := rfl
@[simp] theorem State.modJob_base (s : State) (h : Nat) (f : Job → Job) : (s.modJob h f).base = s.base := rfl
@[simp] theorem State.modJob_work (s : State) (h : Nat) (f : Job → Job) : (s.modJob h f).work = s.work := rfl
@[simp] theorem State.modJob_evaluated (s : State) (h : Nat) (f : Job → Job) : (s.modJob h f).evaluated = s.evaluated := rfl
@[simp] theorem State.modJob_committed (s : State) (h : Nat) (f : Job → Job) : (s.modJob h f).committed = s.committed := rfl
@[simp] theorem State.modJob_workTick (s : State) (h : Nat) (f : Job → Job) : (s.modJob h f).workTick = s.workTick := rfl
@[simp] theorem State.modJob_inbufs (s : State) (h : Nat) (f : Job → Job) : (s.modJob h f).inbufs = s.inbufs := rfl
@[simp] theorem State.modJob_deadlineAt (s : State) (h : Nat) (f : Job → Job) : (s.modJob h f).deadlineAt = s.deadlineAt := rfl
@[simp] theorem State.modJob_skip (s : State) (h : Nat) (f : Job → Job) : (s.modJob h f).skip = s.skip := rfl
@[simp] theorem State.modJob_banks (s : State) (h : Nat) (f : Job → Job) : (s.modJob h f).banks = s.banks := rfl
@[simp] theorem State.modJob_fieldChans (s : State) (h : Nat) (f : Job → Job) : (s.modJob h f).fieldChans = s.fieldChans := rfl
@[simp] theorem State.modJob_fprobes (s : State) (h : Nat) (f : Job → Job) : (s.modJob h f).fprobes = s.fprobes := rfl
@[simp] theorem State.modJob_fcombs (s : State) (h : Nat) (f : Job → Job) : (s.modJob h f).fcombs = s.fcombs := rfl
@[simp] theorem State.modJob_fanDom (s : State) (h : Nat) (f : Job → Job) : (s.modJob h f).fanDom = s.fanDom := rfl
@[simp] theorem State.modJob_recorder (s : State) (h : Nat) (f : Job → Job) : (s.modJob h f).recorder = s.recorder := rfl
@[simp] theorem State.modJob_inrec (s : State) (h : Nat) (f : Job → Job) : (s.modJob h f).inrec = s.inrec := rfl
@[simp] theorem State.modJob_sram (s : State) (h : Nat) (f : Job → Job) : (s.modJob h f).sram = s.sram := rfl
@[simp] theorem State.modJob_upd (s : State) (h : Nat) (f : Job → Job) : (s.modJob h f).upd = s.upd := rfl
@[simp] theorem State.modJob_link (s : State) (h : Nat) (f : Job → Job) : (s.modJob h f).link = s.link := rfl
@[simp] theorem State.modJob_boot (s : State) (h : Nat) (f : Job → Job) : (s.modJob h f).boot = s.boot := rfl
@[simp] theorem State.modJob_hk (s : State) (h : Nat) (f : Job → Job) : (s.modJob h f).hk = s.hk := rfl
@[simp] theorem State.modJob_draws (s : State) (h : Nat) (f : Job → Job) : (s.modJob h f).draws = s.draws := rfl
@[simp] theorem State.modJob_drawsAt (s : State) (h : Nat) (f : Job → Job) : (s.modJob h f).drawsAt = s.drawsAt := rfl

/-! ## modSession -/

@[simp] theorem State.modSession_pending (s : State) (id : BitVec 16) (f : Session → Session) : (s.modSession id f).pending = s.pending := rfl
@[simp] theorem State.modSession_tick (s : State) (id : BitVec 16) (f : Session → Session) : (s.modSession id f).tick = s.tick := rfl
@[simp] theorem State.modSession_checkpoint (s : State) (id : BitVec 16) (f : Session → Session) : (s.modSession id f).checkpoint = s.checkpoint := rfl
@[simp] theorem State.modSession_fineValid (s : State) (id : BitVec 16) (f : Session → Session) : (s.modSession id f).fineValid = s.fineValid := rfl
@[simp] theorem State.modSession_wallDiff (s : State) (id : BitVec 16) (f : Session → Session) : (s.modSession id f).wallDiff = s.wallDiff := rfl
@[simp] theorem State.modSession_wallStale (s : State) (id : BitVec 16) (f : Session → Session) : (s.modSession id f).wallStale = s.wallStale := rfl
@[simp] theorem State.modSession_vinOn (s : State) (id : BitVec 16) (f : Session → Session) : (s.modSession id f).vinOn = s.vinOn := rfl
@[simp] theorem State.modSession_power (s : State) (id : BitVec 16) (f : Session → Session) : (s.modSession id f).power = s.power := rfl
@[simp] theorem State.modSession_id (s : State) (id : BitVec 16) (f : Session → Session) : (s.modSession id f).id = s.id := rfl
@[simp] theorem State.modSession_smoker (s : State) (id : BitVec 16) (f : Session → Session) : (s.modSession id f).smoker = s.smoker := rfl
@[simp] theorem State.modSession_sched (s : State) (id : BitVec 16) (f : Session → Session) : (s.modSession id f).sched = s.sched := rfl
@[simp] theorem State.modSession_jobs (s : State) (id : BitVec 16) (f : Session → Session) : (s.modSession id f).jobs = s.jobs := rfl
@[simp] theorem State.modSession_gens (s : State) (id : BitVec 16) (f : Session → Session) : (s.modSession id f).gens = s.gens := rfl
@[simp] theorem State.modSession_topNumber (s : State) (id : BitVec 16) (f : Session → Session) : (s.modSession id f).topNumber = s.topNumber := rfl
@[simp] theorem State.modSession_activeGen (s : State) (id : BitVec 16) (f : Session → Session) : (s.modSession id f).activeGen = s.activeGen := rfl
@[simp] theorem State.modSession_awaiting (s : State) (id : BitVec 16) (f : Session → Session) : (s.modSession id f).awaiting = s.awaiting := rfl
@[simp] theorem State.modSession_pendGen (s : State) (id : BitVec 16) (f : Session → Session) : (s.modSession id f).pendGen = s.pendGen := rfl
@[simp] theorem State.modSession_importBuf (s : State) (id : BitVec 16) (f : Session → Session) : (s.modSession id f).importBuf = s.importBuf := rfl
@[simp] theorem State.modSession_order (s : State) (id : BitVec 16) (f : Session → Session) : (s.modSession id f).order = s.order := rfl
@[simp] theorem State.modSession_prev (s : State) (id : BitVec 16) (f : Session → Session) : (s.modSession id f).prev = s.prev := rfl
@[simp] theorem State.modSession_base (s : State) (id : BitVec 16) (f : Session → Session) : (s.modSession id f).base = s.base := rfl
@[simp] theorem State.modSession_work (s : State) (id : BitVec 16) (f : Session → Session) : (s.modSession id f).work = s.work := rfl
@[simp] theorem State.modSession_evaluated (s : State) (id : BitVec 16) (f : Session → Session) : (s.modSession id f).evaluated = s.evaluated := rfl
@[simp] theorem State.modSession_committed (s : State) (id : BitVec 16) (f : Session → Session) : (s.modSession id f).committed = s.committed := rfl
@[simp] theorem State.modSession_workTick (s : State) (id : BitVec 16) (f : Session → Session) : (s.modSession id f).workTick = s.workTick := rfl
@[simp] theorem State.modSession_inbufs (s : State) (id : BitVec 16) (f : Session → Session) : (s.modSession id f).inbufs = s.inbufs := rfl
@[simp] theorem State.modSession_deadlineAt (s : State) (id : BitVec 16) (f : Session → Session) : (s.modSession id f).deadlineAt = s.deadlineAt := rfl
@[simp] theorem State.modSession_skip (s : State) (id : BitVec 16) (f : Session → Session) : (s.modSession id f).skip = s.skip := rfl
@[simp] theorem State.modSession_banks (s : State) (id : BitVec 16) (f : Session → Session) : (s.modSession id f).banks = s.banks := rfl
@[simp] theorem State.modSession_fieldChans (s : State) (id : BitVec 16) (f : Session → Session) : (s.modSession id f).fieldChans = s.fieldChans := rfl
@[simp] theorem State.modSession_fprobes (s : State) (id : BitVec 16) (f : Session → Session) : (s.modSession id f).fprobes = s.fprobes := rfl
@[simp] theorem State.modSession_fcombs (s : State) (id : BitVec 16) (f : Session → Session) : (s.modSession id f).fcombs = s.fcombs := rfl
@[simp] theorem State.modSession_fanDom (s : State) (id : BitVec 16) (f : Session → Session) : (s.modSession id f).fanDom = s.fanDom := rfl
@[simp] theorem State.modSession_recorder (s : State) (id : BitVec 16) (f : Session → Session) : (s.modSession id f).recorder = s.recorder := rfl
@[simp] theorem State.modSession_inrec (s : State) (id : BitVec 16) (f : Session → Session) : (s.modSession id f).inrec = s.inrec := rfl
@[simp] theorem State.modSession_sram (s : State) (id : BitVec 16) (f : Session → Session) : (s.modSession id f).sram = s.sram := rfl
@[simp] theorem State.modSession_upd (s : State) (id : BitVec 16) (f : Session → Session) : (s.modSession id f).upd = s.upd := rfl
@[simp] theorem State.modSession_link (s : State) (id : BitVec 16) (f : Session → Session) : (s.modSession id f).link = s.link := rfl
@[simp] theorem State.modSession_boot (s : State) (id : BitVec 16) (f : Session → Session) : (s.modSession id f).boot = s.boot := rfl
@[simp] theorem State.modSession_hk (s : State) (id : BitVec 16) (f : Session → Session) : (s.modSession id f).hk = s.hk := rfl
@[simp] theorem State.modSession_draws (s : State) (id : BitVec 16) (f : Session → Session) : (s.modSession id f).draws = s.draws := rfl
@[simp] theorem State.modSession_drawsAt (s : State) (id : BitVec 16) (f : Session → Session) : (s.modSession id f).drawsAt = s.drawsAt := rfl

/-! ## setBank -/

@[simp] theorem State.setBank_pending (s : State) (n : Nat) (x : Bank) : (s.setBank n x).pending = s.pending := rfl
@[simp] theorem State.setBank_tick (s : State) (n : Nat) (x : Bank) : (s.setBank n x).tick = s.tick := rfl
@[simp] theorem State.setBank_checkpoint (s : State) (n : Nat) (x : Bank) : (s.setBank n x).checkpoint = s.checkpoint := rfl
@[simp] theorem State.setBank_fineValid (s : State) (n : Nat) (x : Bank) : (s.setBank n x).fineValid = s.fineValid := rfl
@[simp] theorem State.setBank_wallDiff (s : State) (n : Nat) (x : Bank) : (s.setBank n x).wallDiff = s.wallDiff := rfl
@[simp] theorem State.setBank_wallStale (s : State) (n : Nat) (x : Bank) : (s.setBank n x).wallStale = s.wallStale := rfl
@[simp] theorem State.setBank_vinOn (s : State) (n : Nat) (x : Bank) : (s.setBank n x).vinOn = s.vinOn := rfl
@[simp] theorem State.setBank_power (s : State) (n : Nat) (x : Bank) : (s.setBank n x).power = s.power := rfl
@[simp] theorem State.setBank_id (s : State) (n : Nat) (x : Bank) : (s.setBank n x).id = s.id := rfl
@[simp] theorem State.setBank_host (s : State) (n : Nat) (x : Bank) : (s.setBank n x).host = s.host := rfl
@[simp] theorem State.setBank_smoker (s : State) (n : Nat) (x : Bank) : (s.setBank n x).smoker = s.smoker := rfl
@[simp] theorem State.setBank_sched (s : State) (n : Nat) (x : Bank) : (s.setBank n x).sched = s.sched := rfl
@[simp] theorem State.setBank_jobs (s : State) (n : Nat) (x : Bank) : (s.setBank n x).jobs = s.jobs := rfl
@[simp] theorem State.setBank_gens (s : State) (n : Nat) (x : Bank) : (s.setBank n x).gens = s.gens := rfl
@[simp] theorem State.setBank_topNumber (s : State) (n : Nat) (x : Bank) : (s.setBank n x).topNumber = s.topNumber := rfl
@[simp] theorem State.setBank_activeGen (s : State) (n : Nat) (x : Bank) : (s.setBank n x).activeGen = s.activeGen := rfl
@[simp] theorem State.setBank_awaiting (s : State) (n : Nat) (x : Bank) : (s.setBank n x).awaiting = s.awaiting := rfl
@[simp] theorem State.setBank_pendGen (s : State) (n : Nat) (x : Bank) : (s.setBank n x).pendGen = s.pendGen := rfl
@[simp] theorem State.setBank_importBuf (s : State) (n : Nat) (x : Bank) : (s.setBank n x).importBuf = s.importBuf := rfl
@[simp] theorem State.setBank_order (s : State) (n : Nat) (x : Bank) : (s.setBank n x).order = s.order := rfl
@[simp] theorem State.setBank_prev (s : State) (n : Nat) (x : Bank) : (s.setBank n x).prev = s.prev := rfl
@[simp] theorem State.setBank_base (s : State) (n : Nat) (x : Bank) : (s.setBank n x).base = s.base := rfl
@[simp] theorem State.setBank_work (s : State) (n : Nat) (x : Bank) : (s.setBank n x).work = s.work := rfl
@[simp] theorem State.setBank_evaluated (s : State) (n : Nat) (x : Bank) : (s.setBank n x).evaluated = s.evaluated := rfl
@[simp] theorem State.setBank_committed (s : State) (n : Nat) (x : Bank) : (s.setBank n x).committed = s.committed := rfl
@[simp] theorem State.setBank_workTick (s : State) (n : Nat) (x : Bank) : (s.setBank n x).workTick = s.workTick := rfl
@[simp] theorem State.setBank_inbufs (s : State) (n : Nat) (x : Bank) : (s.setBank n x).inbufs = s.inbufs := rfl
@[simp] theorem State.setBank_deadlineAt (s : State) (n : Nat) (x : Bank) : (s.setBank n x).deadlineAt = s.deadlineAt := rfl
@[simp] theorem State.setBank_skip (s : State) (n : Nat) (x : Bank) : (s.setBank n x).skip = s.skip := rfl
@[simp] theorem State.setBank_banks (s : State) (n : Nat) (x : Bank) : (s.setBank n x).banks = Tab.put {} s.banks n x := rfl
@[simp] theorem State.setBank_fieldChans (s : State) (n : Nat) (x : Bank) : (s.setBank n x).fieldChans = s.fieldChans := rfl
@[simp] theorem State.setBank_fprobes (s : State) (n : Nat) (x : Bank) : (s.setBank n x).fprobes = s.fprobes := rfl
@[simp] theorem State.setBank_fcombs (s : State) (n : Nat) (x : Bank) : (s.setBank n x).fcombs = s.fcombs := rfl
@[simp] theorem State.setBank_fanDom (s : State) (n : Nat) (x : Bank) : (s.setBank n x).fanDom = s.fanDom := rfl
@[simp] theorem State.setBank_recorder (s : State) (n : Nat) (x : Bank) : (s.setBank n x).recorder = s.recorder := rfl
@[simp] theorem State.setBank_inrec (s : State) (n : Nat) (x : Bank) : (s.setBank n x).inrec = s.inrec := rfl
@[simp] theorem State.setBank_sram (s : State) (n : Nat) (x : Bank) : (s.setBank n x).sram = s.sram := rfl
@[simp] theorem State.setBank_upd (s : State) (n : Nat) (x : Bank) : (s.setBank n x).upd = s.upd := rfl
@[simp] theorem State.setBank_link (s : State) (n : Nat) (x : Bank) : (s.setBank n x).link = s.link := rfl
@[simp] theorem State.setBank_boot (s : State) (n : Nat) (x : Bank) : (s.setBank n x).boot = s.boot := rfl
@[simp] theorem State.setBank_hk (s : State) (n : Nat) (x : Bank) : (s.setBank n x).hk = s.hk := rfl
@[simp] theorem State.setBank_draws (s : State) (n : Nat) (x : Bank) : (s.setBank n x).draws = s.draws := rfl
@[simp] theorem State.setBank_drawsAt (s : State) (n : Nat) (x : Bank) : (s.setBank n x).drawsAt = s.drawsAt := rfl

/-! ## setFch -/

@[simp] theorem State.setFch_pending (s : State) (n : Nat) (x : FieldChan) : (s.setFch n x).pending = s.pending := rfl
@[simp] theorem State.setFch_tick (s : State) (n : Nat) (x : FieldChan) : (s.setFch n x).tick = s.tick := rfl
@[simp] theorem State.setFch_checkpoint (s : State) (n : Nat) (x : FieldChan) : (s.setFch n x).checkpoint = s.checkpoint := rfl
@[simp] theorem State.setFch_fineValid (s : State) (n : Nat) (x : FieldChan) : (s.setFch n x).fineValid = s.fineValid := rfl
@[simp] theorem State.setFch_wallDiff (s : State) (n : Nat) (x : FieldChan) : (s.setFch n x).wallDiff = s.wallDiff := rfl
@[simp] theorem State.setFch_wallStale (s : State) (n : Nat) (x : FieldChan) : (s.setFch n x).wallStale = s.wallStale := rfl
@[simp] theorem State.setFch_vinOn (s : State) (n : Nat) (x : FieldChan) : (s.setFch n x).vinOn = s.vinOn := rfl
@[simp] theorem State.setFch_power (s : State) (n : Nat) (x : FieldChan) : (s.setFch n x).power = s.power := rfl
@[simp] theorem State.setFch_id (s : State) (n : Nat) (x : FieldChan) : (s.setFch n x).id = s.id := rfl
@[simp] theorem State.setFch_host (s : State) (n : Nat) (x : FieldChan) : (s.setFch n x).host = s.host := rfl
@[simp] theorem State.setFch_smoker (s : State) (n : Nat) (x : FieldChan) : (s.setFch n x).smoker = s.smoker := rfl
@[simp] theorem State.setFch_sched (s : State) (n : Nat) (x : FieldChan) : (s.setFch n x).sched = s.sched := rfl
@[simp] theorem State.setFch_jobs (s : State) (n : Nat) (x : FieldChan) : (s.setFch n x).jobs = s.jobs := rfl
@[simp] theorem State.setFch_gens (s : State) (n : Nat) (x : FieldChan) : (s.setFch n x).gens = s.gens := rfl
@[simp] theorem State.setFch_topNumber (s : State) (n : Nat) (x : FieldChan) : (s.setFch n x).topNumber = s.topNumber := rfl
@[simp] theorem State.setFch_activeGen (s : State) (n : Nat) (x : FieldChan) : (s.setFch n x).activeGen = s.activeGen := rfl
@[simp] theorem State.setFch_awaiting (s : State) (n : Nat) (x : FieldChan) : (s.setFch n x).awaiting = s.awaiting := rfl
@[simp] theorem State.setFch_pendGen (s : State) (n : Nat) (x : FieldChan) : (s.setFch n x).pendGen = s.pendGen := rfl
@[simp] theorem State.setFch_importBuf (s : State) (n : Nat) (x : FieldChan) : (s.setFch n x).importBuf = s.importBuf := rfl
@[simp] theorem State.setFch_order (s : State) (n : Nat) (x : FieldChan) : (s.setFch n x).order = s.order := rfl
@[simp] theorem State.setFch_prev (s : State) (n : Nat) (x : FieldChan) : (s.setFch n x).prev = s.prev := rfl
@[simp] theorem State.setFch_base (s : State) (n : Nat) (x : FieldChan) : (s.setFch n x).base = s.base := rfl
@[simp] theorem State.setFch_work (s : State) (n : Nat) (x : FieldChan) : (s.setFch n x).work = s.work := rfl
@[simp] theorem State.setFch_evaluated (s : State) (n : Nat) (x : FieldChan) : (s.setFch n x).evaluated = s.evaluated := rfl
@[simp] theorem State.setFch_committed (s : State) (n : Nat) (x : FieldChan) : (s.setFch n x).committed = s.committed := rfl
@[simp] theorem State.setFch_workTick (s : State) (n : Nat) (x : FieldChan) : (s.setFch n x).workTick = s.workTick := rfl
@[simp] theorem State.setFch_inbufs (s : State) (n : Nat) (x : FieldChan) : (s.setFch n x).inbufs = s.inbufs := rfl
@[simp] theorem State.setFch_deadlineAt (s : State) (n : Nat) (x : FieldChan) : (s.setFch n x).deadlineAt = s.deadlineAt := rfl
@[simp] theorem State.setFch_skip (s : State) (n : Nat) (x : FieldChan) : (s.setFch n x).skip = s.skip := rfl
@[simp] theorem State.setFch_banks (s : State) (n : Nat) (x : FieldChan) : (s.setFch n x).banks = s.banks := rfl
@[simp] theorem State.setFch_fieldChans (s : State) (n : Nat) (x : FieldChan) : (s.setFch n x).fieldChans = Tab.put {} s.fieldChans n x := rfl
@[simp] theorem State.setFch_fprobes (s : State) (n : Nat) (x : FieldChan) : (s.setFch n x).fprobes = s.fprobes := rfl
@[simp] theorem State.setFch_fcombs (s : State) (n : Nat) (x : FieldChan) : (s.setFch n x).fcombs = s.fcombs := rfl
@[simp] theorem State.setFch_fanDom (s : State) (n : Nat) (x : FieldChan) : (s.setFch n x).fanDom = s.fanDom := rfl
@[simp] theorem State.setFch_recorder (s : State) (n : Nat) (x : FieldChan) : (s.setFch n x).recorder = s.recorder := rfl
@[simp] theorem State.setFch_inrec (s : State) (n : Nat) (x : FieldChan) : (s.setFch n x).inrec = s.inrec := rfl
@[simp] theorem State.setFch_sram (s : State) (n : Nat) (x : FieldChan) : (s.setFch n x).sram = s.sram := rfl
@[simp] theorem State.setFch_upd (s : State) (n : Nat) (x : FieldChan) : (s.setFch n x).upd = s.upd := rfl
@[simp] theorem State.setFch_link (s : State) (n : Nat) (x : FieldChan) : (s.setFch n x).link = s.link := rfl
@[simp] theorem State.setFch_boot (s : State) (n : Nat) (x : FieldChan) : (s.setFch n x).boot = s.boot := rfl
@[simp] theorem State.setFch_hk (s : State) (n : Nat) (x : FieldChan) : (s.setFch n x).hk = s.hk := rfl
@[simp] theorem State.setFch_draws (s : State) (n : Nat) (x : FieldChan) : (s.setFch n x).draws = s.draws := rfl
@[simp] theorem State.setFch_drawsAt (s : State) (n : Nat) (x : FieldChan) : (s.setFch n x).drawsAt = s.drawsAt := rfl

/-! ## setFprobe -/

@[simp] theorem State.setFprobe_pending (s : State) (n : Nat) (x : FieldProbe) : (s.setFprobe n x).pending = s.pending := rfl
@[simp] theorem State.setFprobe_tick (s : State) (n : Nat) (x : FieldProbe) : (s.setFprobe n x).tick = s.tick := rfl
@[simp] theorem State.setFprobe_checkpoint (s : State) (n : Nat) (x : FieldProbe) : (s.setFprobe n x).checkpoint = s.checkpoint := rfl
@[simp] theorem State.setFprobe_fineValid (s : State) (n : Nat) (x : FieldProbe) : (s.setFprobe n x).fineValid = s.fineValid := rfl
@[simp] theorem State.setFprobe_wallDiff (s : State) (n : Nat) (x : FieldProbe) : (s.setFprobe n x).wallDiff = s.wallDiff := rfl
@[simp] theorem State.setFprobe_wallStale (s : State) (n : Nat) (x : FieldProbe) : (s.setFprobe n x).wallStale = s.wallStale := rfl
@[simp] theorem State.setFprobe_vinOn (s : State) (n : Nat) (x : FieldProbe) : (s.setFprobe n x).vinOn = s.vinOn := rfl
@[simp] theorem State.setFprobe_power (s : State) (n : Nat) (x : FieldProbe) : (s.setFprobe n x).power = s.power := rfl
@[simp] theorem State.setFprobe_id (s : State) (n : Nat) (x : FieldProbe) : (s.setFprobe n x).id = s.id := rfl
@[simp] theorem State.setFprobe_host (s : State) (n : Nat) (x : FieldProbe) : (s.setFprobe n x).host = s.host := rfl
@[simp] theorem State.setFprobe_smoker (s : State) (n : Nat) (x : FieldProbe) : (s.setFprobe n x).smoker = s.smoker := rfl
@[simp] theorem State.setFprobe_sched (s : State) (n : Nat) (x : FieldProbe) : (s.setFprobe n x).sched = s.sched := rfl
@[simp] theorem State.setFprobe_jobs (s : State) (n : Nat) (x : FieldProbe) : (s.setFprobe n x).jobs = s.jobs := rfl
@[simp] theorem State.setFprobe_gens (s : State) (n : Nat) (x : FieldProbe) : (s.setFprobe n x).gens = s.gens := rfl
@[simp] theorem State.setFprobe_topNumber (s : State) (n : Nat) (x : FieldProbe) : (s.setFprobe n x).topNumber = s.topNumber := rfl
@[simp] theorem State.setFprobe_activeGen (s : State) (n : Nat) (x : FieldProbe) : (s.setFprobe n x).activeGen = s.activeGen := rfl
@[simp] theorem State.setFprobe_awaiting (s : State) (n : Nat) (x : FieldProbe) : (s.setFprobe n x).awaiting = s.awaiting := rfl
@[simp] theorem State.setFprobe_pendGen (s : State) (n : Nat) (x : FieldProbe) : (s.setFprobe n x).pendGen = s.pendGen := rfl
@[simp] theorem State.setFprobe_importBuf (s : State) (n : Nat) (x : FieldProbe) : (s.setFprobe n x).importBuf = s.importBuf := rfl
@[simp] theorem State.setFprobe_order (s : State) (n : Nat) (x : FieldProbe) : (s.setFprobe n x).order = s.order := rfl
@[simp] theorem State.setFprobe_prev (s : State) (n : Nat) (x : FieldProbe) : (s.setFprobe n x).prev = s.prev := rfl
@[simp] theorem State.setFprobe_base (s : State) (n : Nat) (x : FieldProbe) : (s.setFprobe n x).base = s.base := rfl
@[simp] theorem State.setFprobe_work (s : State) (n : Nat) (x : FieldProbe) : (s.setFprobe n x).work = s.work := rfl
@[simp] theorem State.setFprobe_evaluated (s : State) (n : Nat) (x : FieldProbe) : (s.setFprobe n x).evaluated = s.evaluated := rfl
@[simp] theorem State.setFprobe_committed (s : State) (n : Nat) (x : FieldProbe) : (s.setFprobe n x).committed = s.committed := rfl
@[simp] theorem State.setFprobe_workTick (s : State) (n : Nat) (x : FieldProbe) : (s.setFprobe n x).workTick = s.workTick := rfl
@[simp] theorem State.setFprobe_inbufs (s : State) (n : Nat) (x : FieldProbe) : (s.setFprobe n x).inbufs = s.inbufs := rfl
@[simp] theorem State.setFprobe_deadlineAt (s : State) (n : Nat) (x : FieldProbe) : (s.setFprobe n x).deadlineAt = s.deadlineAt := rfl
@[simp] theorem State.setFprobe_skip (s : State) (n : Nat) (x : FieldProbe) : (s.setFprobe n x).skip = s.skip := rfl
@[simp] theorem State.setFprobe_banks (s : State) (n : Nat) (x : FieldProbe) : (s.setFprobe n x).banks = s.banks := rfl
@[simp] theorem State.setFprobe_fieldChans (s : State) (n : Nat) (x : FieldProbe) : (s.setFprobe n x).fieldChans = s.fieldChans := rfl
@[simp] theorem State.setFprobe_fprobes (s : State) (n : Nat) (x : FieldProbe) : (s.setFprobe n x).fprobes = Tab.put {} s.fprobes n x := rfl
@[simp] theorem State.setFprobe_fcombs (s : State) (n : Nat) (x : FieldProbe) : (s.setFprobe n x).fcombs = s.fcombs := rfl
@[simp] theorem State.setFprobe_fanDom (s : State) (n : Nat) (x : FieldProbe) : (s.setFprobe n x).fanDom = s.fanDom := rfl
@[simp] theorem State.setFprobe_recorder (s : State) (n : Nat) (x : FieldProbe) : (s.setFprobe n x).recorder = s.recorder := rfl
@[simp] theorem State.setFprobe_inrec (s : State) (n : Nat) (x : FieldProbe) : (s.setFprobe n x).inrec = s.inrec := rfl
@[simp] theorem State.setFprobe_sram (s : State) (n : Nat) (x : FieldProbe) : (s.setFprobe n x).sram = s.sram := rfl
@[simp] theorem State.setFprobe_upd (s : State) (n : Nat) (x : FieldProbe) : (s.setFprobe n x).upd = s.upd := rfl
@[simp] theorem State.setFprobe_link (s : State) (n : Nat) (x : FieldProbe) : (s.setFprobe n x).link = s.link := rfl
@[simp] theorem State.setFprobe_boot (s : State) (n : Nat) (x : FieldProbe) : (s.setFprobe n x).boot = s.boot := rfl
@[simp] theorem State.setFprobe_hk (s : State) (n : Nat) (x : FieldProbe) : (s.setFprobe n x).hk = s.hk := rfl
@[simp] theorem State.setFprobe_draws (s : State) (n : Nat) (x : FieldProbe) : (s.setFprobe n x).draws = s.draws := rfl
@[simp] theorem State.setFprobe_drawsAt (s : State) (n : Nat) (x : FieldProbe) : (s.setFprobe n x).drawsAt = s.drawsAt := rfl

/-! ## setFcomb -/

@[simp] theorem State.setFcomb_pending (s : State) (n : Nat) (x : FieldComb) : (s.setFcomb n x).pending = s.pending := rfl
@[simp] theorem State.setFcomb_tick (s : State) (n : Nat) (x : FieldComb) : (s.setFcomb n x).tick = s.tick := rfl
@[simp] theorem State.setFcomb_checkpoint (s : State) (n : Nat) (x : FieldComb) : (s.setFcomb n x).checkpoint = s.checkpoint := rfl
@[simp] theorem State.setFcomb_fineValid (s : State) (n : Nat) (x : FieldComb) : (s.setFcomb n x).fineValid = s.fineValid := rfl
@[simp] theorem State.setFcomb_wallDiff (s : State) (n : Nat) (x : FieldComb) : (s.setFcomb n x).wallDiff = s.wallDiff := rfl
@[simp] theorem State.setFcomb_wallStale (s : State) (n : Nat) (x : FieldComb) : (s.setFcomb n x).wallStale = s.wallStale := rfl
@[simp] theorem State.setFcomb_vinOn (s : State) (n : Nat) (x : FieldComb) : (s.setFcomb n x).vinOn = s.vinOn := rfl
@[simp] theorem State.setFcomb_power (s : State) (n : Nat) (x : FieldComb) : (s.setFcomb n x).power = s.power := rfl
@[simp] theorem State.setFcomb_id (s : State) (n : Nat) (x : FieldComb) : (s.setFcomb n x).id = s.id := rfl
@[simp] theorem State.setFcomb_host (s : State) (n : Nat) (x : FieldComb) : (s.setFcomb n x).host = s.host := rfl
@[simp] theorem State.setFcomb_smoker (s : State) (n : Nat) (x : FieldComb) : (s.setFcomb n x).smoker = s.smoker := rfl
@[simp] theorem State.setFcomb_sched (s : State) (n : Nat) (x : FieldComb) : (s.setFcomb n x).sched = s.sched := rfl
@[simp] theorem State.setFcomb_jobs (s : State) (n : Nat) (x : FieldComb) : (s.setFcomb n x).jobs = s.jobs := rfl
@[simp] theorem State.setFcomb_gens (s : State) (n : Nat) (x : FieldComb) : (s.setFcomb n x).gens = s.gens := rfl
@[simp] theorem State.setFcomb_topNumber (s : State) (n : Nat) (x : FieldComb) : (s.setFcomb n x).topNumber = s.topNumber := rfl
@[simp] theorem State.setFcomb_activeGen (s : State) (n : Nat) (x : FieldComb) : (s.setFcomb n x).activeGen = s.activeGen := rfl
@[simp] theorem State.setFcomb_awaiting (s : State) (n : Nat) (x : FieldComb) : (s.setFcomb n x).awaiting = s.awaiting := rfl
@[simp] theorem State.setFcomb_pendGen (s : State) (n : Nat) (x : FieldComb) : (s.setFcomb n x).pendGen = s.pendGen := rfl
@[simp] theorem State.setFcomb_importBuf (s : State) (n : Nat) (x : FieldComb) : (s.setFcomb n x).importBuf = s.importBuf := rfl
@[simp] theorem State.setFcomb_order (s : State) (n : Nat) (x : FieldComb) : (s.setFcomb n x).order = s.order := rfl
@[simp] theorem State.setFcomb_prev (s : State) (n : Nat) (x : FieldComb) : (s.setFcomb n x).prev = s.prev := rfl
@[simp] theorem State.setFcomb_base (s : State) (n : Nat) (x : FieldComb) : (s.setFcomb n x).base = s.base := rfl
@[simp] theorem State.setFcomb_work (s : State) (n : Nat) (x : FieldComb) : (s.setFcomb n x).work = s.work := rfl
@[simp] theorem State.setFcomb_evaluated (s : State) (n : Nat) (x : FieldComb) : (s.setFcomb n x).evaluated = s.evaluated := rfl
@[simp] theorem State.setFcomb_committed (s : State) (n : Nat) (x : FieldComb) : (s.setFcomb n x).committed = s.committed := rfl
@[simp] theorem State.setFcomb_workTick (s : State) (n : Nat) (x : FieldComb) : (s.setFcomb n x).workTick = s.workTick := rfl
@[simp] theorem State.setFcomb_inbufs (s : State) (n : Nat) (x : FieldComb) : (s.setFcomb n x).inbufs = s.inbufs := rfl
@[simp] theorem State.setFcomb_deadlineAt (s : State) (n : Nat) (x : FieldComb) : (s.setFcomb n x).deadlineAt = s.deadlineAt := rfl
@[simp] theorem State.setFcomb_skip (s : State) (n : Nat) (x : FieldComb) : (s.setFcomb n x).skip = s.skip := rfl
@[simp] theorem State.setFcomb_banks (s : State) (n : Nat) (x : FieldComb) : (s.setFcomb n x).banks = s.banks := rfl
@[simp] theorem State.setFcomb_fieldChans (s : State) (n : Nat) (x : FieldComb) : (s.setFcomb n x).fieldChans = s.fieldChans := rfl
@[simp] theorem State.setFcomb_fprobes (s : State) (n : Nat) (x : FieldComb) : (s.setFcomb n x).fprobes = s.fprobes := rfl
@[simp] theorem State.setFcomb_fcombs (s : State) (n : Nat) (x : FieldComb) : (s.setFcomb n x).fcombs = Tab.put {} s.fcombs n x := rfl
@[simp] theorem State.setFcomb_fanDom (s : State) (n : Nat) (x : FieldComb) : (s.setFcomb n x).fanDom = s.fanDom := rfl
@[simp] theorem State.setFcomb_recorder (s : State) (n : Nat) (x : FieldComb) : (s.setFcomb n x).recorder = s.recorder := rfl
@[simp] theorem State.setFcomb_inrec (s : State) (n : Nat) (x : FieldComb) : (s.setFcomb n x).inrec = s.inrec := rfl
@[simp] theorem State.setFcomb_sram (s : State) (n : Nat) (x : FieldComb) : (s.setFcomb n x).sram = s.sram := rfl
@[simp] theorem State.setFcomb_upd (s : State) (n : Nat) (x : FieldComb) : (s.setFcomb n x).upd = s.upd := rfl
@[simp] theorem State.setFcomb_link (s : State) (n : Nat) (x : FieldComb) : (s.setFcomb n x).link = s.link := rfl
@[simp] theorem State.setFcomb_boot (s : State) (n : Nat) (x : FieldComb) : (s.setFcomb n x).boot = s.boot := rfl
@[simp] theorem State.setFcomb_hk (s : State) (n : Nat) (x : FieldComb) : (s.setFcomb n x).hk = s.hk := rfl
@[simp] theorem State.setFcomb_draws (s : State) (n : Nat) (x : FieldComb) : (s.setFcomb n x).draws = s.draws := rfl
@[simp] theorem State.setFcomb_drawsAt (s : State) (n : Nat) (x : FieldComb) : (s.setFcomb n x).drawsAt = s.drawsAt := rfl

/-! ## setInputs -/

@[simp] theorem State.setInputs_pending (s : State) (t : Nat) (x : InBuf) : (s.setInputs t x).pending = s.pending := rfl
@[simp] theorem State.setInputs_tick (s : State) (t : Nat) (x : InBuf) : (s.setInputs t x).tick = s.tick := rfl
@[simp] theorem State.setInputs_checkpoint (s : State) (t : Nat) (x : InBuf) : (s.setInputs t x).checkpoint = s.checkpoint := rfl
@[simp] theorem State.setInputs_fineValid (s : State) (t : Nat) (x : InBuf) : (s.setInputs t x).fineValid = s.fineValid := rfl
@[simp] theorem State.setInputs_wallDiff (s : State) (t : Nat) (x : InBuf) : (s.setInputs t x).wallDiff = s.wallDiff := rfl
@[simp] theorem State.setInputs_wallStale (s : State) (t : Nat) (x : InBuf) : (s.setInputs t x).wallStale = s.wallStale := rfl
@[simp] theorem State.setInputs_vinOn (s : State) (t : Nat) (x : InBuf) : (s.setInputs t x).vinOn = s.vinOn := rfl
@[simp] theorem State.setInputs_power (s : State) (t : Nat) (x : InBuf) : (s.setInputs t x).power = s.power := rfl
@[simp] theorem State.setInputs_id (s : State) (t : Nat) (x : InBuf) : (s.setInputs t x).id = s.id := rfl
@[simp] theorem State.setInputs_host (s : State) (t : Nat) (x : InBuf) : (s.setInputs t x).host = s.host := rfl
@[simp] theorem State.setInputs_smoker (s : State) (t : Nat) (x : InBuf) : (s.setInputs t x).smoker = s.smoker := rfl
@[simp] theorem State.setInputs_sched (s : State) (t : Nat) (x : InBuf) : (s.setInputs t x).sched = s.sched := rfl
@[simp] theorem State.setInputs_jobs (s : State) (t : Nat) (x : InBuf) : (s.setInputs t x).jobs = s.jobs := rfl
@[simp] theorem State.setInputs_gens (s : State) (t : Nat) (x : InBuf) : (s.setInputs t x).gens = s.gens := rfl
@[simp] theorem State.setInputs_topNumber (s : State) (t : Nat) (x : InBuf) : (s.setInputs t x).topNumber = s.topNumber := rfl
@[simp] theorem State.setInputs_activeGen (s : State) (t : Nat) (x : InBuf) : (s.setInputs t x).activeGen = s.activeGen := rfl
@[simp] theorem State.setInputs_awaiting (s : State) (t : Nat) (x : InBuf) : (s.setInputs t x).awaiting = s.awaiting := rfl
@[simp] theorem State.setInputs_pendGen (s : State) (t : Nat) (x : InBuf) : (s.setInputs t x).pendGen = s.pendGen := rfl
@[simp] theorem State.setInputs_importBuf (s : State) (t : Nat) (x : InBuf) : (s.setInputs t x).importBuf = s.importBuf := rfl
@[simp] theorem State.setInputs_order (s : State) (t : Nat) (x : InBuf) : (s.setInputs t x).order = s.order := rfl
@[simp] theorem State.setInputs_prev (s : State) (t : Nat) (x : InBuf) : (s.setInputs t x).prev = s.prev := rfl
@[simp] theorem State.setInputs_base (s : State) (t : Nat) (x : InBuf) : (s.setInputs t x).base = s.base := rfl
@[simp] theorem State.setInputs_work (s : State) (t : Nat) (x : InBuf) : (s.setInputs t x).work = s.work := rfl
@[simp] theorem State.setInputs_evaluated (s : State) (t : Nat) (x : InBuf) : (s.setInputs t x).evaluated = s.evaluated := rfl
@[simp] theorem State.setInputs_committed (s : State) (t : Nat) (x : InBuf) : (s.setInputs t x).committed = s.committed := rfl
@[simp] theorem State.setInputs_workTick (s : State) (t : Nat) (x : InBuf) : (s.setInputs t x).workTick = s.workTick := rfl
@[simp] theorem State.setInputs_inbufs (s : State) (t : Nat) (x : InBuf) : (s.setInputs t x).inbufs = Tab.put {} s.inbufs t x := rfl
@[simp] theorem State.setInputs_deadlineAt (s : State) (t : Nat) (x : InBuf) : (s.setInputs t x).deadlineAt = s.deadlineAt := rfl
@[simp] theorem State.setInputs_skip (s : State) (t : Nat) (x : InBuf) : (s.setInputs t x).skip = s.skip := rfl
@[simp] theorem State.setInputs_banks (s : State) (t : Nat) (x : InBuf) : (s.setInputs t x).banks = s.banks := rfl
@[simp] theorem State.setInputs_fieldChans (s : State) (t : Nat) (x : InBuf) : (s.setInputs t x).fieldChans = s.fieldChans := rfl
@[simp] theorem State.setInputs_fprobes (s : State) (t : Nat) (x : InBuf) : (s.setInputs t x).fprobes = s.fprobes := rfl
@[simp] theorem State.setInputs_fcombs (s : State) (t : Nat) (x : InBuf) : (s.setInputs t x).fcombs = s.fcombs := rfl
@[simp] theorem State.setInputs_fanDom (s : State) (t : Nat) (x : InBuf) : (s.setInputs t x).fanDom = s.fanDom := rfl
@[simp] theorem State.setInputs_recorder (s : State) (t : Nat) (x : InBuf) : (s.setInputs t x).recorder = s.recorder := rfl
@[simp] theorem State.setInputs_inrec (s : State) (t : Nat) (x : InBuf) : (s.setInputs t x).inrec = s.inrec := rfl
@[simp] theorem State.setInputs_sram (s : State) (t : Nat) (x : InBuf) : (s.setInputs t x).sram = s.sram := rfl
@[simp] theorem State.setInputs_upd (s : State) (t : Nat) (x : InBuf) : (s.setInputs t x).upd = s.upd := rfl
@[simp] theorem State.setInputs_link (s : State) (t : Nat) (x : InBuf) : (s.setInputs t x).link = s.link := rfl
@[simp] theorem State.setInputs_boot (s : State) (t : Nat) (x : InBuf) : (s.setInputs t x).boot = s.boot := rfl
@[simp] theorem State.setInputs_hk (s : State) (t : Nat) (x : InBuf) : (s.setInputs t x).hk = s.hk := rfl
@[simp] theorem State.setInputs_draws (s : State) (t : Nat) (x : InBuf) : (s.setInputs t x).draws = s.draws := rfl
@[simp] theorem State.setInputs_drawsAt (s : State) (t : Nat) (x : InBuf) : (s.setInputs t x).drawsAt = s.drawsAt := rfl

/-! ## raise -/

@[simp] theorem State.raise_pending (s : State) (c h k d : Nat) : (s.raise c h k d).pending = s.pending := rfl
@[simp] theorem State.raise_tick (s : State) (c h k d : Nat) : (s.raise c h k d).tick = s.tick := rfl
@[simp] theorem State.raise_checkpoint (s : State) (c h k d : Nat) : (s.raise c h k d).checkpoint = s.checkpoint := rfl
@[simp] theorem State.raise_fineValid (s : State) (c h k d : Nat) : (s.raise c h k d).fineValid = s.fineValid := rfl
@[simp] theorem State.raise_wallDiff (s : State) (c h k d : Nat) : (s.raise c h k d).wallDiff = s.wallDiff := rfl
@[simp] theorem State.raise_wallStale (s : State) (c h k d : Nat) : (s.raise c h k d).wallStale = s.wallStale := rfl
@[simp] theorem State.raise_vinOn (s : State) (c h k d : Nat) : (s.raise c h k d).vinOn = s.vinOn := rfl
@[simp] theorem State.raise_power (s : State) (c h k d : Nat) : (s.raise c h k d).power = s.power := rfl
@[simp] theorem State.raise_id (s : State) (c h k d : Nat) : (s.raise c h k d).id = s.id := rfl
@[simp] theorem State.raise_smoker (s : State) (c h k d : Nat) : (s.raise c h k d).smoker = s.smoker := rfl
@[simp] theorem State.raise_sched (s : State) (c h k d : Nat) : (s.raise c h k d).sched = s.sched := rfl
@[simp] theorem State.raise_jobs (s : State) (c h k d : Nat) : (s.raise c h k d).jobs = s.jobs := rfl
@[simp] theorem State.raise_gens (s : State) (c h k d : Nat) : (s.raise c h k d).gens = s.gens := rfl
@[simp] theorem State.raise_topNumber (s : State) (c h k d : Nat) : (s.raise c h k d).topNumber = s.topNumber := rfl
@[simp] theorem State.raise_activeGen (s : State) (c h k d : Nat) : (s.raise c h k d).activeGen = s.activeGen := rfl
@[simp] theorem State.raise_awaiting (s : State) (c h k d : Nat) : (s.raise c h k d).awaiting = s.awaiting := rfl
@[simp] theorem State.raise_pendGen (s : State) (c h k d : Nat) : (s.raise c h k d).pendGen = s.pendGen := rfl
@[simp] theorem State.raise_importBuf (s : State) (c h k d : Nat) : (s.raise c h k d).importBuf = s.importBuf := rfl
@[simp] theorem State.raise_order (s : State) (c h k d : Nat) : (s.raise c h k d).order = s.order := rfl
@[simp] theorem State.raise_prev (s : State) (c h k d : Nat) : (s.raise c h k d).prev = s.prev := rfl
@[simp] theorem State.raise_base (s : State) (c h k d : Nat) : (s.raise c h k d).base = s.base := rfl
@[simp] theorem State.raise_work (s : State) (c h k d : Nat) : (s.raise c h k d).work = s.work := rfl
@[simp] theorem State.raise_evaluated (s : State) (c h k d : Nat) : (s.raise c h k d).evaluated = s.evaluated := rfl
@[simp] theorem State.raise_committed (s : State) (c h k d : Nat) : (s.raise c h k d).committed = s.committed := rfl
@[simp] theorem State.raise_workTick (s : State) (c h k d : Nat) : (s.raise c h k d).workTick = s.workTick := rfl
@[simp] theorem State.raise_inbufs (s : State) (c h k d : Nat) : (s.raise c h k d).inbufs = s.inbufs := rfl
@[simp] theorem State.raise_deadlineAt (s : State) (c h k d : Nat) : (s.raise c h k d).deadlineAt = s.deadlineAt := rfl
@[simp] theorem State.raise_skip (s : State) (c h k d : Nat) : (s.raise c h k d).skip = s.skip := rfl
@[simp] theorem State.raise_banks (s : State) (c h k d : Nat) : (s.raise c h k d).banks = s.banks := rfl
@[simp] theorem State.raise_fieldChans (s : State) (c h k d : Nat) : (s.raise c h k d).fieldChans = s.fieldChans := rfl
@[simp] theorem State.raise_fprobes (s : State) (c h k d : Nat) : (s.raise c h k d).fprobes = s.fprobes := rfl
@[simp] theorem State.raise_fcombs (s : State) (c h k d : Nat) : (s.raise c h k d).fcombs = s.fcombs := rfl
@[simp] theorem State.raise_fanDom (s : State) (c h k d : Nat) : (s.raise c h k d).fanDom = s.fanDom := rfl
@[simp] theorem State.raise_recorder (s : State) (c h k d : Nat) : (s.raise c h k d).recorder = s.recorder := rfl
@[simp] theorem State.raise_inrec (s : State) (c h k d : Nat) : (s.raise c h k d).inrec = s.inrec := rfl
@[simp] theorem State.raise_sram (s : State) (c h k d : Nat) : (s.raise c h k d).sram = s.sram := rfl
@[simp] theorem State.raise_upd (s : State) (c h k d : Nat) : (s.raise c h k d).upd = s.upd := rfl
@[simp] theorem State.raise_link (s : State) (c h k d : Nat) : (s.raise c h k d).link = s.link := rfl
@[simp] theorem State.raise_boot (s : State) (c h k d : Nat) : (s.raise c h k d).boot = s.boot := rfl
@[simp] theorem State.raise_hk (s : State) (c h k d : Nat) : (s.raise c h k d).hk = s.hk := rfl
@[simp] theorem State.raise_draws (s : State) (c h k d : Nat) : (s.raise c h k d).draws = s.draws := rfl
@[simp] theorem State.raise_drawsAt (s : State) (c h k d : Nat) : (s.raise c h k d).drawsAt = s.drawsAt := rfl

/-! ## note -/

@[simp] theorem State.note_pending (s : State) (t r : Nat) (b : List Byte) : (s.note t r b).pending = s.pending := rfl
@[simp] theorem State.note_tick (s : State) (t r : Nat) (b : List Byte) : (s.note t r b).tick = s.tick := rfl
@[simp] theorem State.note_checkpoint (s : State) (t r : Nat) (b : List Byte) : (s.note t r b).checkpoint = s.checkpoint := rfl
@[simp] theorem State.note_fineValid (s : State) (t r : Nat) (b : List Byte) : (s.note t r b).fineValid = s.fineValid := rfl
@[simp] theorem State.note_wallDiff (s : State) (t r : Nat) (b : List Byte) : (s.note t r b).wallDiff = s.wallDiff := rfl
@[simp] theorem State.note_wallStale (s : State) (t r : Nat) (b : List Byte) : (s.note t r b).wallStale = s.wallStale := rfl
@[simp] theorem State.note_vinOn (s : State) (t r : Nat) (b : List Byte) : (s.note t r b).vinOn = s.vinOn := rfl
@[simp] theorem State.note_power (s : State) (t r : Nat) (b : List Byte) : (s.note t r b).power = s.power := rfl
@[simp] theorem State.note_id (s : State) (t r : Nat) (b : List Byte) : (s.note t r b).id = s.id := rfl
@[simp] theorem State.note_host (s : State) (t r : Nat) (b : List Byte) : (s.note t r b).host = s.host := rfl
@[simp] theorem State.note_smoker (s : State) (t r : Nat) (b : List Byte) : (s.note t r b).smoker = s.smoker := rfl
@[simp] theorem State.note_sched (s : State) (t r : Nat) (b : List Byte) : (s.note t r b).sched = s.sched := rfl
@[simp] theorem State.note_jobs (s : State) (t r : Nat) (b : List Byte) : (s.note t r b).jobs = s.jobs := rfl
@[simp] theorem State.note_gens (s : State) (t r : Nat) (b : List Byte) : (s.note t r b).gens = s.gens := rfl
@[simp] theorem State.note_topNumber (s : State) (t r : Nat) (b : List Byte) : (s.note t r b).topNumber = s.topNumber := rfl
@[simp] theorem State.note_activeGen (s : State) (t r : Nat) (b : List Byte) : (s.note t r b).activeGen = s.activeGen := rfl
@[simp] theorem State.note_awaiting (s : State) (t r : Nat) (b : List Byte) : (s.note t r b).awaiting = s.awaiting := rfl
@[simp] theorem State.note_pendGen (s : State) (t r : Nat) (b : List Byte) : (s.note t r b).pendGen = s.pendGen := rfl
@[simp] theorem State.note_importBuf (s : State) (t r : Nat) (b : List Byte) : (s.note t r b).importBuf = s.importBuf := rfl
@[simp] theorem State.note_order (s : State) (t r : Nat) (b : List Byte) : (s.note t r b).order = s.order := rfl
@[simp] theorem State.note_prev (s : State) (t r : Nat) (b : List Byte) : (s.note t r b).prev = s.prev := rfl
@[simp] theorem State.note_base (s : State) (t r : Nat) (b : List Byte) : (s.note t r b).base = s.base := rfl
@[simp] theorem State.note_work (s : State) (t r : Nat) (b : List Byte) : (s.note t r b).work = s.work := rfl
@[simp] theorem State.note_evaluated (s : State) (t r : Nat) (b : List Byte) : (s.note t r b).evaluated = s.evaluated := rfl
@[simp] theorem State.note_committed (s : State) (t r : Nat) (b : List Byte) : (s.note t r b).committed = s.committed := rfl
@[simp] theorem State.note_workTick (s : State) (t r : Nat) (b : List Byte) : (s.note t r b).workTick = s.workTick := rfl
@[simp] theorem State.note_inbufs (s : State) (t r : Nat) (b : List Byte) : (s.note t r b).inbufs = s.inbufs := rfl
@[simp] theorem State.note_deadlineAt (s : State) (t r : Nat) (b : List Byte) : (s.note t r b).deadlineAt = s.deadlineAt := rfl
@[simp] theorem State.note_skip (s : State) (t r : Nat) (b : List Byte) : (s.note t r b).skip = s.skip := rfl
@[simp] theorem State.note_banks (s : State) (t r : Nat) (b : List Byte) : (s.note t r b).banks = s.banks := rfl
@[simp] theorem State.note_fieldChans (s : State) (t r : Nat) (b : List Byte) : (s.note t r b).fieldChans = s.fieldChans := rfl
@[simp] theorem State.note_fprobes (s : State) (t r : Nat) (b : List Byte) : (s.note t r b).fprobes = s.fprobes := rfl
@[simp] theorem State.note_fcombs (s : State) (t r : Nat) (b : List Byte) : (s.note t r b).fcombs = s.fcombs := rfl
@[simp] theorem State.note_fanDom (s : State) (t r : Nat) (b : List Byte) : (s.note t r b).fanDom = s.fanDom := rfl
@[simp] theorem State.note_recorder (s : State) (t r : Nat) (b : List Byte) : (s.note t r b).recorder = s.recorder := rfl
@[simp] theorem State.note_sram (s : State) (t r : Nat) (b : List Byte) : (s.note t r b).sram = s.sram := rfl
@[simp] theorem State.note_upd (s : State) (t r : Nat) (b : List Byte) : (s.note t r b).upd = s.upd := rfl
@[simp] theorem State.note_link (s : State) (t r : Nat) (b : List Byte) : (s.note t r b).link = s.link := rfl
@[simp] theorem State.note_boot (s : State) (t r : Nat) (b : List Byte) : (s.note t r b).boot = s.boot := rfl
@[simp] theorem State.note_hk (s : State) (t r : Nat) (b : List Byte) : (s.note t r b).hk = s.hk := rfl
@[simp] theorem State.note_draws (s : State) (t r : Nat) (b : List Byte) : (s.note t r b).draws = s.draws := rfl
@[simp] theorem State.note_drawsAt (s : State) (t r : Nat) (b : List Byte) : (s.note t r b).drawsAt = s.drawsAt := rfl

end Sys2Proof.Machine
end

