-- ==== Sys2Proof/Laws/Tab.lean ====
section
/-! SUPPORT. What reading and writing a sparse table do: a read after a write, other keys, and the canonical form. -/

namespace Sys2Proof.Machine

theorem Tab.get_insert {α : Type} (d : α) (t : Tab α) (j i : Nat) (v : α) :
    Tab.get d (Tab.insert t j v) i = if j = i then v else Tab.get d t i := by
  induction t with
  | nil => simp only [Tab.insert, Tab.get]; grind
  | cons e t ih =>
    obtain ⟨k, w⟩ := e
    simp only [Tab.insert]
    split
    · simp only [Tab.get]; grind
    · split
      · subst_vars; simp only [Tab.get]; grind
      · simp only [Tab.get, ih]; grind

theorem Tab.get_erase {α : Type} (d : α) (t : Tab α) (j i : Nat) :
    Tab.get d (Tab.erase t j) i = if j = i then d else Tab.get d t i := by
  induction t with
  | nil => simp [Tab.erase, Tab.get]
  | cons e t ih =>
    obtain ⟨k, w⟩ := e
    simp only [Tab.erase]
    split
    · subst_vars; rw [ih]; simp only [Tab.get]; grind
    · simp only [Tab.get, ih]; grind

/-- A read after a write gives the value written; every other key reads as before. -/
@[simp] theorem Tab.get_put {α : Type} [DecidableEq α] (d : α) (t : Tab α) (j i : Nat) (v : α) :
    Tab.get d (Tab.put d t j v) i = if j = i then v else Tab.get d t i := by
  unfold Tab.put
  split
  · subst_vars; exact Tab.get_erase _ _ _ _
  · exact Tab.get_insert _ _ _ _ _

theorem Tab.mem_insert {α : Type} (t : Tab α) (j : Nat) (v : α) (e : Nat × α) (h : e ∈ Tab.insert t j v) :
    e = (j, v) ∨ e ∈ t := by
  induction t with
  | nil => simpa [Tab.insert] using h
  | cons a t ih =>
    obtain ⟨k, w⟩ := a
    simp only [Tab.insert] at h
    split at h <;> grind

theorem Tab.mem_erase {α : Type} (t : Tab α) (j : Nat) (e : Nat × α) (h : e ∈ Tab.erase t j) : e ∈ t := by
  induction t with
  | nil => exact h
  | cons a t ih =>
    obtain ⟨k, w⟩ := a
    simp only [Tab.erase] at h
    split at h <;> grind

/-- The canonical form is kept by a write. -/
theorem Tab.wf_put {α : Type} [DecidableEq α] {d : α} {t : Tab α} (h : t.wf d) (j : Nat) (v : α) :
    (Tab.put d t j v).wf d := by
  obtain ⟨hs, hd⟩ := h
  unfold Tab.put
  split
  · refine ⟨?_, fun e he => hd e (Tab.mem_erase _ _ _ he)⟩
    induction t with
    | nil => exact hs
    | cons a t ih =>
      obtain ⟨k, w⟩ := a
      simp only [List.pairwise_cons] at hs
      simp only [Tab.erase]
      have ht := ih hs.2 (fun e he => hd e (by simp [he]))
      split
      · exact ht
      · exact List.pairwise_cons.mpr ⟨fun e he => hs.1 e (Tab.mem_erase _ _ _ he), ht⟩
  · rename_i hv
    refine ⟨?_, fun e he => ?_⟩
    · induction t with
      | nil => simp [Tab.insert]
      | cons a t ih =>
        obtain ⟨k, w⟩ := a
        have hs' := hs
        simp only [List.pairwise_cons] at hs'
        have ht := ih hs'.2 (fun e he => hd e (by simp [he]))
        simp only [Tab.insert]
        split
        · rename_i hjk
          refine List.pairwise_cons.mpr ⟨fun e he => ?_, hs⟩
          rcases List.mem_cons.mp he with rfl | he
          · exact hjk
          · exact Nat.lt_trans hjk (hs'.1 e he)
        · split
          · subst_vars; exact List.pairwise_cons.mpr ⟨hs'.1, hs'.2⟩
          · refine List.pairwise_cons.mpr ⟨fun e he => ?_, ht⟩
            rcases Tab.mem_insert _ _ _ _ he with rfl | he
            · show k < j; omega
            · exact hs'.1 e he
    · rcases Tab.mem_insert _ _ _ _ he with rfl | he
      · exact hv
      · exact hd e he

/-! ## The tables of the state -/

@[simp] theorem Plant.unit_modUnit (p : Plant) (a b : Nat) (f : UnitRec → UnitRec) :
    (p.modUnit a f).unit b = if a = b then f (p.unit a) else p.unit b := Tab.get_put _ _ _ _ _
@[simp] theorem Plant.cell_setCell (p : Plant) (a b : Nat) (c : Cell) :
    (p.setCell a c).cell b = if a = b then c else p.cell b := Tab.get_put _ _ _ _ _
@[simp] theorem Plant.chan_setChan (p : Plant) (a b : Nat) (x : ChanState) :
    (p.setChan a x).chan b = if a = b then x else p.chan b := Tab.get_put _ _ _ _ _
@[simp] theorem Plant.loop_setLoop (p : Plant) (a b : Nat) (x : LoopState) :
    (p.setLoop a x).loop b = if a = b then x else p.loop b := Tab.get_put _ _ _ _ _
@[simp] theorem Plant.prof_setProf (p : Plant) (a b : Nat) (x : ProfState) :
    (p.setProf a x).prof b = if a = b then x else p.prof b := Tab.get_put _ _ _ _ _
@[simp] theorem Plant.churn_setChurn (p : Plant) (a b : Nat) (x : ChurnState) :
    (p.setChurn a x).churn b = if a = b then x else p.churn b := Tab.get_put _ _ _ _ _
@[simp] theorem Plant.probe_setProbe (p : Plant) (a b : Nat) (x : ProbeState) :
    (p.setProbe a x).probe b = if a = b then x else p.probe b := Tab.get_put _ _ _ _ _
@[simp] theorem Plant.comb_setComb (p : Plant) (a b : Nat) (x : CombState) :
    (p.setComb a x).comb b = if a = b then x else p.comb b := Tab.get_put _ _ _ _ _
@[simp] theorem Plant.prog_setProg (p : Plant) (a b : Nat) (x : ProgState) :
    (p.setProg a x).prog b = if a = b then x else p.prog b := Tab.get_put _ _ _ _ _
@[simp] theorem Plant.chain_setChain (p : Plant) (a b : Nat) (x : ChainState) :
    (p.setChain a x).chain b = if a = b then x else p.chain b := Tab.get_put _ _ _ _ _
@[simp] theorem Plant.observer_setObs (p : Plant) (a b : Nat) (x : ObsState) :
    (p.setObs a x).observer b = if a = b then x else p.observer b := Tab.get_put _ _ _ _ _
@[simp] theorem Plant.fan_setFan (p : Plant) (a b : Nat) (x : FanState) :
    (p.setFan a x).fan b = if a = b then x else p.fan b := Tab.get_put _ _ _ _ _
@[simp] theorem Plant.bin_setBin (p : Plant) (a b : Nat) (x : BinState) :
    (p.setBin a x).bin b = if a = b then x else p.bin b := Tab.get_put _ _ _ _ _
@[simp] theorem State.bank_setBank (s : State) (a b : Nat) (x : Bank) :
    (s.setBank a x).bank b = if a = b then x else s.bank b := Tab.get_put _ _ _ _ _
@[simp] theorem State.fch_setFch (s : State) (a b : Nat) (x : FieldChan) :
    (s.setFch a x).fch b = if a = b then x else s.fch b := Tab.get_put _ _ _ _ _
@[simp] theorem State.fprobe_setFprobe (s : State) (a b : Nat) (x : FieldProbe) :
    (s.setFprobe a x).fprobe b = if a = b then x else s.fprobe b := Tab.get_put _ _ _ _ _
@[simp] theorem State.fcomb_setFcomb (s : State) (a b : Nat) (x : FieldComb) :
    (s.setFcomb a x).fcomb b = if a = b then x else s.fcomb b := Tab.get_put _ _ _ _ _
@[simp] theorem State.inputs_setInputs (s : State) (a b : Nat) (x : InBuf) :
    (s.setInputs a x).inputs b = if a = b then x else s.inputs b := Tab.get_put _ _ _ _ _

end Sys2Proof.Machine
end

