-- ==== Sys2Proof/Tests/Slice0.lean ====
section
/-! SUPPORT. The model's own tests: ill-formed terms that WellFormed refuses, values that the spec itself gives, one step of
a few commands, and for every obligation with hypotheses a state and operands that meet them. -/

namespace Sys2Proof.Tests

set_option Elab.async false

open Sys2Proof Sys2Proof.Machine

/-! ## Small states and packets -/

/-- A packet of session 7 with data `d`. -/
def pk (d : List Byte) : Packet := ⟨1, 0, 1, 7, 0, d⟩

/-- The key of the session where one is needed. -/
def key : List Byte := List.replicate 16 0x55

/-- A packet with AUTH and the tag of `key`. -/
def pkAuth (opcode : BitVec 16) (d : List Byte) : Packet :=
  let p : Packet := ⟨1, 0x20, 1, 7, 0, d ++ List.replicate 16 0⟩
  { p with payload := d ++ cmac key (p.signed opcode) }

/-- An open session with ID 7. -/
def session7 : Session := ⟨7, List.replicate 16 0, 600, 1, 0, 0, none, false, none, none⟩

/-- Right after reset, with session 7 open. -/
def w0 : State := { State.reset with host := { State.reset.host with sessions := [session7] } }

/-- The base point of P-256 as a public key. -/
def basePoint : List Byte := be 32 p256G.1 ++ be 32 p256G.2

/-- An OEM key installed, and session 7 authorised. -/
def wAuth : State := { w0 with
  id := { w0.id with oemKey := some basePoint }
  host := { w0.host with sessions := [{ session7 with key := some key }] } }

/-- A state with another active content. -/
def cfgd (c : Content) (s : State) : State := { s with gens := [⟨1, 0, .active, 0, 1, 1, 0, 0, c, none⟩] }

/-- A scalar of a content. -/
def sc (id i v : Nat) : Nat × Nat × PVal := (id, i, .scalar (BitVec.ofNat 64 v))

/-- A unit header. -/
def hd (slot : Nat) : Nat × Nat × PVal := (P.UNIT_HEADER, slot, .block [BitVec.ofNat 8 (slotKind slot), 0, 0, 0])

/-- A unit in a state. -/
def stU (slot : Nat) (st : UState) (s : State) : State := s.modPlants (·.modUnit slot (fun u => { u with st := st }))

/-- The row of an opcode. -/
def row (code : Nat) : OpInfo := (opInfo code).getD ⟨0, .n, false, false⟩

/-- A link peer in a state, and the two ports up. -/
def peered (n : Nat) (p : Peer) (s : State) : State :=
  { s with link := { s.link with peers := [(n, p)], ports := [{ up := true }, { up := true }] } }

/-- A queen. -/
def queenC : Content := [hd 981, hd 982, sc P.LINK_ROLE 0 1]

/-- A queen or forager whose ports run. -/
def linked (c : Content) (s : State) : State := stU 981 .active (stU 982 .active (cfgd c s))

/-- A queen with node 1 in a state. -/
def queenAt (st : Nat) : State := peered 1 { state := st } (linked queenC w0)

/-- A forager whose queen is in a state. -/
def foragerAt (st : Nat) : State := peered 0 { state := st } (linked [hd 981, hd 982] w0)

/-- One channel unit in a mode, ACTIVE, its bank refreshed and armed. -/
def chanAt (ch mode : Nat) (more : Content) : State :=
  let s := stU (chanSlot ch) .active (cfgd (hd (chanSlot ch) :: sc P.CH_MODE ch mode :: more) w0)
  s.setBank (ch / 8) { s.bank (ch / 8) with guardArmed := true, uvlo := false, vfldLow := false }

/-- A running job of session 7. -/
def jobOf (opcode : BitVec 16) (st : JobState) (args : List Byte) : Job :=
  { handle := 1, session := some 7, opcode := opcode, state := st, progress := 0, status := 0, detail := 0, etick := none
    wanted := 0, wantedSet := false, args := args, out := [], data := [], pauseDue := false, cancelDue := false
    started := 0 }

/-- A state with one job. -/
def jobbed (j : Job) (s : State) : State := { s with jobs := [j] }

/-- A command that waits for tick 1. -/
def waiting (opcode : BitVec 16) (d : List Byte) : Sched := ⟨1, 7, 1, opcode, d, false⟩

/-- The conditions of `Runs` as a computation. -/
def runsB (s : State) (p : Packet) (code : Nat) (r : OpInfo) (e : Nat) : Bool :=
  opInfo code == some r && s.hostListens && s.host.alive && decide (s.host.line.length < 3) &&
    !(s.host.uart && !uartLength p.payload.length p.auth) &&
    decide (s.arrival p (r.cls != .n) = .accepted) && !s.tagFails p (BitVec.ofNat 16 r.code) &&
    decide (s.formBars r p.etv (p.auth && (s.keyOf p).isSome) p.data = none) &&
    decide (badHandle r.code p.data = none) &&
    (match foreignNode r.code p.data with | .ok none => true | _ => false) &&
    (match (if r.et then effectiveTick s.tick p.etv p.etick.toNat else .ok s.tick) with | .ok x => x == e | _ => false) &&
    !(r.calm && s.smoker.calmed)

/-- The computation decides `Runs`. -/
theorem runs_of {s : State} {p : Packet} {code : Nat} {r : OpInfo} {e : Nat} (h : runsB s p code r e = true) :
    Runs s p code r e := by
  simp only [runsB, Bool.and_eq_true, beq_iff_eq, decide_eq_true_eq, Bool.not_eq_true', Bool.and_eq_false_iff] at h
  obtain ⟨⟨⟨⟨⟨⟨⟨⟨⟨⟨⟨h1, h2⟩, h3⟩, h4⟩, hu⟩, h5⟩, h6⟩, h7⟩, hb⟩, h8⟩, h9⟩, h10⟩ := h
  refine ⟨h1, h2, h3, h4, ?_, h5, h6, h7, hb, ?_, ?_, ?_⟩
  · cases hx : s.host.uart <;> simp_all
  · split at h8
    · assumption
    · cases h8
  · split at h9
    · simp_all
    · cases h9
  · rintro ⟨a, b⟩
    simp_all

/-- The state after a command. -/
def after (c : Instr) (s : State) : State :=
  match exec c s with
  | .next t => t
  | _ => s

/-! ## States and operands of the witnesses -/

/-- A loop unit, in MANUAL. -/
def wLoop : State := stU 129 .manual (cfgd [hd 129] w0)
/-- A channel unit. -/
def wChan : State := chanAt 0 1 []
/-- A host-written cell of type 2, cell 256. -/
def wCell : State := cfgd [sc P.CELL_HOST 256 1, sc P.CELL_HOST_TYPE 256 2] w0
/-- HOST_IRQ_MASK written with 0x3FFF. -/
def maskWrite : List Byte := [1, 0x10, 0, 0, 0, 2, 0, 0xFF, 0x3F, 0, 0, 0, 0, 0, 0]
/-- It as a checked entry. -/
def maskEntry : WriteEntry := ⟨⟨⟨P.HOST_IRQ_MASK, .u32, .nat 0 0x7FFF, .rw, .tick, .single, 0x3FFF⟩, some 0, false⟩, 0, 0x3FFF⟩
/-- LINK_NODES as the target of an access. -/
def nodesTarget : Target := ⟨⟨P.LINK_NODES, .block 112, .any, .rw, .commit, .single, 0⟩, some 0, false⟩
/-- Session 7 holds a pending generation. -/
def wPend : State := { w0 with pendGen := some ⟨7, 1, []⟩ }
/-- A probe unit and a comb line unit. -/
def wLine : State := cfgd [hd 481, hd 545] w0
/-- A command that waits for tick 2. -/
def waiting2 : Sched := { waiting 0x000B [] with at_ := 2 }
/-- A state with it. -/
def wSched : State := { w0 with sched := [waiting2] }
/-- An update session in a state, for one block. -/
def wUpd (st : UpdState) : State := { w0 with upd := { w0.upd with state := st, owner := .session 7, manifest := List.replicate 20 0 ++ [1, 0] } }
/-- The first block of an image, with its CRC. -/
def block0 : List Byte := withCrc (List.replicate 4092 0)
/-- A whole PING of session 7 for node 1, inside NODE_FORWARD. -/
def forwarded : List Byte := [1, 0, 0, 0] ++ commandPacket 0 7 1 1 0 []
/-- A reply that waits. -/
def reply0 : Reply := makeReply 7 1 1 none none okAns
/-- A state in which it waits. -/
def wReply : State := { w0 with host := { w0.host with replies := [reply0] } }
/-- Cell 256 written. -/
def wWritten : State := wCell.modPlants (fun p => p.setCell 256 ((p.cell 256).write ⟨5, 0, 0, 0, 0, 2⟩))
/-- Session 7 with a cached reply. -/
def cached7 : Session := { session7 with expect := 2, lastSeq := 1, cached := some reply0 }
/-- A state with it. -/
def wCached : State := { w0 with host := { w0.host with sessions := [cached7] } }
/-- Bank 15 powered, with or without its conditions. -/
def wBank (low : Bool) : State := w0.setBank 15 { w0.bank 15 with uvlo := low, vfldLow := low }
/-- The fan domain powered. -/
def wFanDom (uv : Bool) : State := { w0 with fanDom := { w0.fanDom with powered := true, guardArmed := true, uvlo := uv } }
/-- Without power. -/
def wOff : State := w0.vinFail
/-- What a start finds when nothing fails. -/
def goodReport : BootReport := { journalOk := true, otpOk := true, slotOk := true, otherSlotOk := true, pagesFailed := [], oemKeyOk := true, checkpointOk := true, crystalOk := true, selfTestsOk := true, gensBad := [], handoverOk := true, uartSelected := false, banksFailed := [], fansFailed := [], linksFailed := [], combsFailed := [], banksUvlo := [], banksLow := [], supplies := [] }
/-- A start with cause 1 is due. -/
def wStart : State := { w0 with host := { w0.host with alive := false }, boot := { w0.boot with startDue := some 1 } }
/-- In the middle of a tick: evaluated or not, not committed. -/
def midTick (ev : Bool) : State := { w0 with tick := 1, workTick := 1, evaluated := ev, committed := false }
/-- Generation 2. -/
def gen2 : Generation := ⟨2, 1, .awaiting, 0, 1, 1, 0, 0, [], none⟩
/-- It awaits tick 1. -/
def await2 : Awaiting := ⟨2, 1, false⟩
/-- Fan port 7 in a phase. -/
def wFan (f : FanState) : State := w0.modPlants (·.setFan 7 f)
/-- Program 3 running, in a step that has lasted its timeout of 257 minutes. -/
def wProg : State := { stU 612 .auto (cfgd [hd 612, (P.PRG_TABLE, 3, .block (List.replicate 2048 1))] w0) with workTick := 257 * 61440 }
/-- Chain 31 with two members, their proving time 5 s and motion time 3 s. -/
def chainC : Content := [hd 644, sc P.CHAIN_COUNT 31 2, (P.CHAIN_MEMBERS, 31, .block (List.replicate 512 0))]
/-- Its first member as given, the second as given. -/
def wChain (a b : MemberState) (flow : Bool) : State := (cfgd chainC w0).modPlants (·.setChain 31 { members := [(0, a), (1, b)], stoppingFlow := flow })
/-- A member whose times are 0. -/
def member0 : ChainMember := ⟨0, 0, 0, 0, 0, 0, 0⟩
/-- Bin 63 ACTIVE. -/
def wBin (b : BinState) : State := (stU 724 .active (cfgd [hd 724] { w0 with workTick := 100000000 })).modPlants (·.setBin 63 b)
/-- Bank 15 with its guard armed, tripped or not. -/
def wGuard (trip : Bool) (up : Nat) : State := w0.setBank 15 { w0.bank 15 with guardArmed := true, guardTripped := trip, goodUp := up }
/-- An empty uplink frame. -/
def uplink0 (ok : Bool) : Uplink := { intact := ok, onTime := true, selfCheck := true, barrier := true, meas := [], fans := [], vfld := 24000 }
/-- Bank 15 in a state. -/
def wBankSt (st : BankSt) (n : Nat) : State := w0.setBank 15 { w0.bank 15 with state := st, restarts := n }
/-- Probe 0 on channels 0 and 1 with one complete set, in RUN. -/
def wProbe (run : Option SweepRun) : State := (stU 1 .active (stU 2 .active (stU 481 .active (cfgd [hd 1, hd 2, hd 481, sc P.PROBE_CHANNEL 0 0] { w0 with power := .run })))).setFprobe 0 { sets := [(0, { flags := 7, amplitude := 2, points := (planOf (blockDefault P.PROBE_PLAN)).map (fun f => ⟨f, 0, 0, 0, 0, 0⟩) })], run := run }
/-- Line 63 on channel 0, both ACTIVE, in RUN. -/
def wComb (run : Option RoundRun) : State := let s := stU 608 .active (stU 1 .active (cfgd [hd 1, hd 608, sc P.COMB_CHANNEL 63 0] { w0 with power := .run })); s.setFcomb 63 { run := run }
/-- One staged block of an image of `n`. -/
def wStaged (n : Byte) : State := { w0 with upd := { (wUpd .receiving).upd with manifest := List.replicate 20 0 ++ [n, 0], staged := [(0, [])] } }
/-- A standalone module whose ports run. -/
def wPorts : State := foragerAt 0
/-- A HELLO. -/
def hello1 : HelloMsg := ⟨List.replicate 16 0x31, [], [], 0, [], [], 0⟩
/-- A queen that lists its serial number as node 1. -/
def wQueen (st : Nat) : State := peered 1 { state := st } (linked ((P.LINK_NODES, 0, .block (List.replicate 16 0x31 ++ List.replicate 96 0)) :: queenC) w0)
/-- A CHALLENGE of any queen. -/
def challenge1 : ChallengeMsg := ⟨State.reset.id.serial, 1, [], [], [], [], List.replicate 16 0, []⟩
/-- A node that has been challenged: its key, what its PROOF signs, and a signature with r = s = the hash (Q = 2G, R = 3G). -/
def peer1 : Peer := { state := 1, serial := List.replicate 16 0x31, pub := ecPublic 2, proofHash := (ecPublic 3).take 32 }
/-- Its PROOF. -/
def proof1 : ProofMsg := ⟨List.replicate 16 0x31, (ecPublic 3).take 32 ++ (ecPublic 3).take 32⟩
/-- A forager in a stage of its alignment with an exchange under way. -/
def wAlign (a g : Nat) : State := let m := peered 0 { state := 2, align := a } wPorts; { m with link := { m.link with syncSent := some 0, goodSync := g } }
/-- An entry of CELLS. -/
def entry1 : CellEntry := { index := 300, value := 5, stamp := 0, quality := 0, conditions := 0, type := 0 }
/-- A forwarded PING. -/
def command1 : ForwardedCmd := ⟨7, 1, false, 1, pk []⟩
/-- A command that waits for node 1. -/
def held1 : Held := { session := 7, seq := 1, opcode := 1, node := 1, deadline := 0 }
/-- A queen on UART that waits for it. -/
def wHeld : State := let m := queenAt 3; { m with host := { m.host with uart := true, line := [held1] } }
/-- Site 5 measured. -/
def wSite : State := { w0 with hk := { w0.hk with sites := List.replicate 6 (some 0x41A00000#32) } }
/-- The event queue at 255 records. -/
def wFull (o : Bool) : State := { w0 with host := { w0.host with events := List.replicate 255 ⟨0, 1, 0, 0, 0⟩, overflowed := o } }

/-- The conditions of `FallsDue` as a computation. -/
def fallsB (s : State) (x : Sched) : Bool :=
  s.logicRuns && s.committed && decide ((dueCommands s.sched (s.workTick + 1)).head? = some x) && !s.calmsAt (s.workTick + 1) &&
    decide (s.smoker.due = none) && !s.calmDrops x

/-- The computation decides `FallsDue`. -/
theorem falls_of {s : State} {x : Sched} (h : fallsB s x = true) : FallsDue s x := by
  simp only [fallsB, Bool.and_eq_true, decide_eq_true_eq, Bool.not_eq_true'] at h
  exact ⟨h.1.1.1.1.1, h.1.1.1.1.2, h.1.1.1.2, h.1.1.2, h.1.2, h.2⟩

/-- A module on UART. -/
def wUart : State := { w0 with host := { w0.host with uart := true } }
/-- HOST_IRQ_MASK as the target of an access. -/
def maskTarget : Target := maskEntry.target
/-- A running read with two parts left. -/
def jobParts : Job := { jobOf 0x0602 .running [] with out := [[1], [2]] }
/-- A running read that is to be cancelled, and one that is to pause. -/
def jobCancel0 : Job := { jobOf 0x0602 .running [] with cancelDue := true }
/-- It is to pause. -/
def jobPause0 : Job := { jobOf 0x0602 .running [] with pauseDue := true }
/-- A queued job of a class before a read. -/
def jobSecond : Job := { jobOf 0x0402 .queued [] with handle := 2 }
/-- Both. -/
def wTwoJobs : State := { w0 with jobs := [jobOf 0x0602 .running [], jobSecond] }
/-- The recorder frozen since tick 0, at tick `t`. -/
def wFrozen (t : Nat) : State := { w0 with tick := t, recorder := { w0.recorder with frozen := true } }
/-- A summary. -/
def sum0 : Summary := ⟨0, true, [], false, none⟩
/-- It waits to be written. -/
def wHeldSum : State := { w0 with recorder := { w0.recorder with queue := [sum0] } }
/-- In the middle of a tick, a summary with a cause to be cut. -/
def wOpenSum (cause : BitVec 8) : State :=
  { midTick true with work := { (midTick true).work with recAcc := { opened := true, tStart := 1, causes := cause } } }
/-- No free page. -/
def wNoPage : State := { w0 with sram := { w0.sram with map := [List.range 2048] } }
/-- An open segment. -/
def wRec : State := { w0 with inrec := { w0.inrec with open_ := true } }
/-- A record is wanted of the root hive, in RUN. -/
def wRecWanted : State := { cfgd [sc P.INREC_MODE 0 1, sc P.INREC_SCOPE 0 0] w0 with power := .run, inrec := { w0.inrec with scope := 0 } }
/-- A remote cell due at once. -/
def remote1 : RemoteEntry := ⟨8492, 1, entry1⟩
/-- It waits. -/
def wRemote : State := { w0 with link := { w0.link with remote := [remote1] } }
/-- A channel unit with a state of its input path. -/
def wChanAt (ch mode : Nat) (more : Content) (c : ChanState) : State := (chanAt ch mode more).modPlants (·.setChan ch c)
/-- A program whose condition has been unusable since tick 0. -/
def wProgLost : State :=
  { stU 612 .auto (cfgd [hd 612, sc P.PRG_LOSS_TIME 3 1] w0) with
    workTick := 1024, work := (stU 612 .auto (cfgd [hd 612] w0)).work.setProg 3 { condUnusable := true, unusableSince := some 0 } }
/-- A sweep in flight. -/
def run0 : SweepRun := ⟨0, some 0, false, 0, 0, [], false, false, false⟩
/-- A round in flight on a line without nodes. -/
def round0 : RoundRun := { t0 := 0, start := true, missed := false, lowFeed := false, noHeadroom := false, enumerating := false }
/-- Its record when nothing is found. -/
def record0 : RoundRec := { missed := false, start := true }
/-- Channel 127 as DI, its record of window 0 latched. -/
def wLatched : State :=
  let m := chanAt 127 1 []
  { m.setFch 127 { m.fch 127 with latched := some (0, ⟨0, 0, 0⟩) } with tick := 1, workTick := 1, evaluated := false, committed := false }
/-- Its measurements in a frame. -/
def measDi : ChanMeas := ⟨127, [], 0, 0⟩
/-- The frame. -/
def uplinkDi : Uplink := { uplink0 true with meas := [measDi] }
/-- The pending generation of `wPend`. -/
def pend0 : Pending := ⟨7, 1, []⟩
/-- One with a unit whose parent is no hive. -/
def badPend : Pending := ⟨7, 1, [(P.UNIT_HEADER, 129, .block [BitVec.ofNat 8 (slotKind 129), 0, 1, 0])]⟩
/-- A state with it. -/
def wBadPend : State := { w0 with pendGen := some badPend }
/-- What its validation finds. -/
def badFault : CfgFault := (wBadPend.validate (dropVacant badPend.content)).getD ⟨0, 0, 0, 0⟩
/-- Line 63 stopped on channel 0 that is ACTIVE, after an enumeration job. -/
def wEnum : State := stU 1 .active (cfgd [hd 1, hd 608, sc P.COMB_CHANNEL 63 0] w0)
/-- An update that is to be activated at tick 1. -/
def wActAt : State := { wUpd .verified with upd := { (wUpd .verified).upd with activateAt := some 1 } }
/-- A forager that has answered `command1`. -/
def wKept : State := after (.xistaCommand command1) (foragerAt 3)
/-- What it keeps. -/
def kept1 : List Byte := (wKept.keptReply command1).getD []
/-- A node's answer to `held1`. -/
def freply1 : ForwardedReply := ⟨7, 1, 0, 0, 0, none, [], []⟩
/-- A resistance channel at the start of its first period, its excitation still off. -/
def wExc : State := { chanAt 120 9 [] with power := .run, evaluated := false, committed := false }
/-- A forager that has joined. -/
def wJoined : State := { foragerAt 3 with link := { (foragerAt 3).link with joined := true } }
/-- Node 7 in the tick of its exchange. -/
def wNode7 : State := { foragerAt 2 with link := { (foragerAt 2).link with nodeId := 7, offset := 56 } }
/-- A forager that is to lengthen a tick. -/
def wLong : State := { foragerAt 2 with link := { (foragerAt 2).link with lengthen := some 5 } }
/-- A queen whose feed has reached its smoker. -/
def wFeed : State := { queenAt 3 with link := { (queenAt 3).link with feedDue := true } }
/-- IRQ_CAUSE as the target of a read. -/
def readTarget : Target :=
  match w0.resolve 0x0012 0 with
  | .found t => t
  | _ => nodesTarget
/-- A calibration of channel 0 that collects. -/
def calJob : Job := jobOf 0x0503 .running [1, 0, 0, 0, 0, 0, 0, 0, 16, 0, 0, 0]
/-- It runs. -/
def wCal : State :=
  jobbed calJob ((chanAt 0 5 []).modPlants (fun p => p.setCell 1 ((p.cell 1).write ⟨0, 0, 1, 0, 0, 3⟩)))
/-- Six sites, the first 20 degrees above the others for the third time. -/
def hkDev : Hk := { w0.hk with sites := some 0x42200000#32 :: List.replicate 5 (some 0x41A00000#32), devRun := [2, 0, 0, 0, 0, 0] }


/-! ## Ill-formed terms that WellFormed refuses, one for each check -/

/-- A list of `n` zeros. -/
def zeros (n : Nat) : List Byte := List.replicate n 0

theorem test_wf_packet : (Instr.ping (pk [])).wf = true ∧ Packet.wf (pk (zeros 3)) = true := by decide +kernel
theorem test_wf_packetTooLong (p : Packet) (h : p.payload.length = 65536) : (Instr.ping p).wf = false := by
  simp [Instr.wf, Instr.packet, Packet.wf, h]
theorem test_wf_badOpcode (c : BitVec 16) (p : Packet) (h : p.payload.length = 65536) : (Instr.badOpcode c p).wf = false := by
  simp [Instr.wf, Instr.packet, Packet.wf, h]
theorem test_wf_jobHandle : (Instr.cfgValidationDone 0).wf = false ∧ (Instr.cfgValidationDone 65536).wf = false ∧
    (Instr.updVerifyDone 0).wf = false ∧ (Instr.jobEnd 0 .done).wf = false ∧ (Instr.probeCalDone 0 []).wf = false := by decide
theorem test_wf_calRunDone : (Instr.calRunDone 0 0 0).wf = false := by decide
theorem test_wf_combEnumerateDone : (Instr.combEnumerateDone 0 0 []).wf = false ∧
    (Instr.combEnumerateDone 1 0 [List.replicate 57 ⟨0, 0⟩]).wf = false ∧
    (Instr.combEnumerateDone 1 0 [[⟨16777216, 0⟩]]).wf = false ∧ (Instr.combEnumerateDone 1 0 [[⟨0, 16777216⟩]]).wf = false := by
  decide +kernel
theorem test_wf_jobCheckpoint : (Instr.jobCheckpoint 0 0).wf = false ∧ (Instr.jobCheckpoint 1 1001).wf = false := by decide
theorem test_wf_report : BootReport.wf goodReport = true ∧ BootReport.wf { goodReport with pagesFailed := [2048] } = false ∧
    BootReport.wf { goodReport with banksFailed := [16] } = false ∧ BootReport.wf { goodReport with fansFailed := [8] } = false ∧
    BootReport.wf { goodReport with linksFailed := [2] } = false ∧
    BootReport.wf { goodReport with combsFailed := [64] } = false ∧
    BootReport.wf { goodReport with supplies := [(17, 0)] } = false ∧
    BootReport.wf { goodReport with supplies := [(0, 65536)] } = false := by decide
theorem test_wf_withReport : (Instr.activationPause (2 ^ 48) goodReport).wf = false ∧
    (Instr.activationPause 0 { goodReport with fansFailed := [8] }).wf = false ∧
    (Instr.tickRedo ⟨none, { goodReport with fansFailed := [8] }⟩).wf = false ∧
    (Instr.lagRestart { goodReport with fansFailed := [8] }).wf = false ∧
    (Instr.bootStart .lag { goodReport with fansFailed := [8] }).wf = false ∧
    (Instr.eccUncorrectableCommitted ⟨none, .system { goodReport with fansFailed := [8] }⟩).wf = false := by decide
theorem test_wf_loadClass : (Instr.loadClassUpdate 0 (List.replicate 1025 0)).wf = false ∧
    (Instr.loadClassUpdate 0 [2 ^ 32]).wf = false := by decide +kernel
theorem test_wf_eccSummary : (Instr.eccUncorrectableCommitted ⟨none, .heldSummary (2 ^ 32)⟩).wf = false ∧
    (Instr.eccUncorrectableCommitted ⟨none, .flashSummary true (2 ^ 32)⟩).wf = false := by decide
theorem test_wf_millivolts : (Instr.vinPowerOn 65536 false).wf = false ∧ (Instr.vinThresholdCrossing .lowSet 65536).wf = false ∧
    (Instr.vfldUvloEntry 0 65536).wf = false ∧ (Instr.vfldUvloReturn 0 65536).wf = false ∧
    (Instr.vfldLowSet 0 65536).wf = false ∧ (Instr.vfldLowClear 0 65536).wf = false ∧
    (Instr.vfanCrossing .lowSet 65536).wf = false := by decide
theorem test_wf_bankReport : (Instr.bankInService 0 ⟨[(128, 0)], [], [], true, 0⟩).wf = false ∧
    (Instr.bankInService 0 ⟨[], [(128, 0)], [], true, 0⟩).wf = false ∧ (Instr.bankInService 0 ⟨[], [], [(64, 0)], true, 0⟩).wf = false ∧
    (Instr.bankInService 0 ⟨[], [], [(0, 4)], true, 0⟩).wf = false ∧ (Instr.bankInService 0 ⟨[], [], [], true, 65536⟩).wf = false := by
  decide
theorem test_wf_uplink : (Instr.bankUplinkFrame 0 { uplink0 true with vfld := 65536 }).wf = false ∧
    ChanMeas.wf ⟨128, [], 0, 0⟩ = false ∧ Conv.wf ⟨8388608, 0, 0⟩ = false ∧ Conv.wf ⟨0, -8388609, 0⟩ = false := by decide
theorem test_wf_fanMeas : FanMeas.wf ⟨8, 0, 0, 0, 0, false, false⟩ = false ∧ FanMeas.wf ⟨0, 256, 0, 0, 0, false, false⟩ = false ∧
    FanMeas.wf ⟨0, 0, 65536, 0, 0, false, false⟩ = false ∧ FanMeas.wf ⟨0, 0, 0, 65536, 0, false, false⟩ = false ∧
    FanMeas.wf ⟨0, 0, 0, 0, 65536, false, false⟩ = false ∧
    (Instr.bankUplinkFrame 16 { uplink0 true with fans := [⟨8, 0, 0, 0, 0, false, false⟩] }).wf = false := by decide
theorem test_wf_edge : (Instr.diEdgeAccepted 0 true 65536).wf = false := by decide
theorem test_wf_round : (Instr.combRoundRecord 0 ⟨true, List.replicate 48 [], ⟨0, 0⟩⟩).wf = true ∧
    (Instr.combRoundRecord 0 ⟨true, List.replicate 49 [], ⟨0, 0⟩⟩).wf = false ∧
    (Instr.combRoundRecord 0 ⟨true, [List.replicate 65 ⟨0, 0⟩], ⟨0, 0⟩⟩).wf = false ∧
    (Instr.combRoundRecord 0 ⟨true, [[⟨16777216, 0⟩]], ⟨0, 0⟩⟩).wf = false ∧
    (Instr.combRoundRecord 0 ⟨true, [], ⟨0, 16777216⟩⟩).wf = false := by decide +kernel
theorem test_wf_hkRound : (Instr.housekeepingRound ⟨[], 0, List.replicate 16 0, 0⟩).wf = false ∧
    (Instr.housekeepingRound ⟨List.replicate 6 none, 0, [], 0⟩).wf = false := by decide
/-- A HELLO with fields of the right lengths. -/
def helloOk : HelloMsg := ⟨zeros 16, zeros 16, zeros 64, 0, zeros 32, [], 0⟩
theorem test_wf_hello : HelloMsg.wf helloOk = true ∧ (Instr.hello 0 { helloOk with serial := [] }).wf = false ∧
    HelloMsg.wf { helloOk with nonce := [] } = false ∧ HelloMsg.wf { helloOk with key := [] } = false ∧
    HelloMsg.wf { helloOk with oemHash := [] } = false ∧ HelloMsg.wf { helloOk with role := 256 } = false := by decide +kernel
/-- A CHALLENGE with fields of the right lengths. -/
def challengeOk : ChallengeMsg := ⟨zeros 16, 1, zeros 16, zeros 64, zeros 32, [], zeros 16, zeros 64⟩
theorem test_wf_challenge : ChallengeMsg.wf challengeOk = true ∧ (Instr.challenge 0 { challengeOk with target := [] }).wf = false ∧
    ChallengeMsg.wf { challengeOk with nonce := [] } = false ∧ ChallengeMsg.wf { challengeOk with key := [] } = false ∧
    ChallengeMsg.wf { challengeOk with oemHash := [] } = false ∧ ChallengeMsg.wf { challengeOk with signature := [] } = false ∧
    ChallengeMsg.wf { challengeOk with node := 256 } = false := by decide +kernel
theorem test_wf_certs (m : HelloMsg) (c : ChallengeMsg) (h : m.certs.length = 65536) (hc : c.certs.length = 65536) :
    HelloMsg.wf m = false ∧ ChallengeMsg.wf c = false := by simp [HelloMsg.wf, ChallengeMsg.wf, fits, h, hc]
theorem test_wf_proof : (Instr.proof 0 ⟨[], zeros 64⟩).wf = false ∧ (Instr.proof 0 ⟨zeros 16, []⟩).wf = false := by decide +kernel
theorem test_wf_admission : (Instr.admission 0 (2 ^ 48) 0).wf = false ∧ (Instr.admission 0 0 65536).wf = false := by decide
theorem test_wf_refuse : (Instr.refuse 0 [] 0).wf = false ∧ (Instr.refuse 0 (zeros 16) 256).wf = false := by decide
theorem test_wf_sync : (Instr.syncReq 1 65536 0).wf = false ∧ (Instr.syncReq 1 0 65536).wf = false := by decide
theorem test_wf_subscribe : (Instr.subscribe (2 ^ 48) []).wf = false := by decide
theorem test_wf_subscribeLong (l : List (Fin 8192)) (h : l.length = 65536) : (Instr.subscribe 0 l).wf = false := by
  simp [Instr.wf, Instr.packet, Instr.operandsOk, fits, h]
theorem test_wf_cells : (Instr.cells 1 [{ entry1 with index := 8192 }]).wf = false ∧
    (Instr.cells 1 [{ entry1 with stamp := 2 ^ 48 }]).wf = false ∧ (Instr.cells 1 [{ entry1 with quality := 256 }]).wf = false ∧
    (Instr.cells 1 [{ entry1 with type := 256 }]).wf = false := by decide
theorem test_wf_xistaCommand (m : ForwardedCmd) (h : m.packet.payload.length = 65536) : (Instr.xistaCommand m).wf = false := by
  simp [Instr.wf, Instr.packet, Instr.operandsOk, Packet.wf, h]
theorem test_wf_leave : (Instr.leave 1 256).wf = false := by decide

/-! ## Values that the spec or the standard it names gives -/

/-- R58. -/
theorem test_crc32c : crc32c (ascii "123456789") = 0xE3069283 := by decide +kernel
/-- R243. -/
theorem test_crc8 : crc8 (ascii "123456789") = 0xDF := by decide +kernel
/-- FIPS 180-4, the standard of R65's SHA-256: the digest of "abc" begins ba7816bf. -/
theorem test_sha256 : (sha256 (ascii "abc")).take 4 = [0xba, 0x78, 0x16, 0xbf] := by decide +kernel
/-- RFC 4493, named by R66: the tag of the empty message under its example key begins bb1d6929. -/
theorem test_cmac : (cmac [0x2b, 0x7e, 0x15, 0x16, 0x28, 0xae, 0xd2, 0xa6, 0xab, 0xf7, 0x15, 0x88, 0x09, 0xcf, 0x4f, 0x3c] []).take 4 =
    [0xbb, 0x1d, 0x69, 0x29] := by decide +kernel
/-- R68: ETICK 5 in a tick whose low 32 bits are near their wrap means the tick after the wrap. -/
theorem test_etick_wraps : effectiveTick 0xFFFFFFF0 true 5 = .ok 0x100000005 := by decide
/-- R68: the next tick is too late. -/
theorem test_etick_late : effectiveTick 100 true 101 = .error stTooLate := by decide
/-- R197: a class that has risen at 2.5 A holds at 2.3 A and falls below it. -/
theorem test_loadClass : loadClassOf 1 (loadSumOf 25) = 2 ∧ loadClassOf 2 (loadSumOf 23) = 2 ∧
    loadClassOf 2 (loadSumOf 23 - 1) = 1 := by decide +kernel

/-! ## One step of a few commands -/

/-- R71, Table 02-9: PING with its echo, STATUS OK. -/
theorem test_ping : ((after (.ping (pk [1, 2])) w0).host.replies.map (fun r => (r.status, r.data))) = [(0, [1, 2])] := by
  decide +kernel
/-- R83: a reply waits, so bit 0 is set beside the start's 0x00000C00. -/
theorem test_replyReady : (after (.ping (pk [])) w0).host.cause = 0x00000C01 := by decide +kernel
/-- R61: a second packet with the same SEQUENCE is a repetition; 3 is out of sequence and expects 2. -/
theorem test_sequence : ((after (.ping { pk [] with seq := 3 }) (after (.ping (pk [])) w0)).host.replies.map
    (fun r => (r.status, r.detail))) = [(0, 0), (0x17, 2)] := by decide +kernel
/-- R64: LOCK from a session that is not authorised. -/
theorem test_lock_refused : ((after (.lock (pk [])) w0).host.replies.map (·.status)) = [0x19] := by decide +kernel
/-- R67: LOCK from an authorised one. -/
theorem test_lock : (after (.lock (pkAuth 0x0007 [])) wAuth).id.locked = true := by decide +kernel
/-- R78: READ_EVENTS returns the two records of the start, 4 + 32 bytes, and empties the queue. -/
theorem test_readEvents : ((after (.readEvents (pk [255])) w0).host.replies.map (·.data.length)) = [36] ∧
    (after (.readEvents (pk [255])) w0).host.events = [] := by decide +kernel
/-- R88: one tick. -/
theorem test_tick : (after .tickBoundary w0).tick = 1 := by decide +kernel
/-- R426, R89: VIN fails and returns: 131,072 ticks after the checkpoint. -/
theorem test_powerCycle : (after (.vinPowerOn 16600 false) (after .vinPowerFail { w0 with tick := 77 })).tick = 131149 := by
  decide +kernel
/-- R154: an accepted edge changes the level and counts. -/
theorem test_edge : ((after (.diEdgeAccepted 127 true 9) (chanAt 127 1 [])).fch 127).edges = 1 := by decide +kernel
/-- R135: a guard trips once. -/
theorem test_guard : ((after (.bankGuardExpiry 15) (after (.bankGuardExpiry 15) (wGuard false 0))).bank 15).guardTrips = 1 := by
  decide +kernel
/-- R347: a PROOF that verifies admits the node. -/
theorem test_proof : ((after (.proof 0 proof1) (peered 1 peer1 (linked queenC w0))).peer 1).state = 2 := by decide +kernel
/-- R356: a forager answers a forwarded PING. -/
theorem test_forwarded : (after (.xistaCommand command1) (foragerAt 3)).link.replies.length = 1 := by decide +kernel


/-! ## For every clause with hypotheses, a state and operands that meet them -/

theorem wit_StepRunsFront_1 : ({ w0 with pending := [.hostWake] }).pending = (.hostWake) :: ([] : List Instr) :=
  by decide +kernel

theorem wit_StepRunsFront_2 : (State.reset).pending = [] := by decide +kernel

theorem wit_TickNeverGoesBack_2 : ({ w0 with tick := 65535 }).vinOn = true ∧
    (({ w0 with tick := 65535 }).tick + 1) % 65536 = 0 := by decide +kernel

theorem wit_TickNeverGoesBack_3 : w0.vinOn = true ∧ 16600 ≤ 16600 := by decide +kernel

theorem wit_TickNeverGoesBack_4 : ({ w0 with vinOn := false }).vinOn = false := by decide +kernel

theorem wit_PlainReadsAnswer_1 : Runs w0 (pk (List.replicate 64 0xAA)) 0x0001 (row 0x0001) 0 ∧
    (pk (List.replicate 64 0xAA)).data.length ≤ 64 := ⟨runs_of (by decide +kernel), by decide +kernel⟩

theorem wit_PlainReadsAnswer_2 : Runs w0 (pk []) 0x0002 (row 0x0002) 0 ∧ (pk []).data = [] :=
  ⟨runs_of (by decide +kernel), by decide +kernel⟩

theorem wit_PlainReadsAnswer_3 : Runs w0 (pk []) 0x000F (row 0x000F) 0 ∧ (pk []).data = [] :=
  ⟨runs_of (by decide +kernel), by decide +kernel⟩

theorem wit_PlainReadsAnswer_4 : Runs w0 (pk []) 0x000C (row 0x000C) 0 ∧ (pk []).data = [] :=
  ⟨runs_of (by decide +kernel), by decide +kernel⟩

theorem wit_PlainReadsAnswer_5 : Runs w0 (pk [0xFF, 0, 0, 0]) 0x000D (row 0x000D) 0 ∧
    (pk [0xFF, 0, 0, 0]).data.length = 4 := ⟨runs_of (by decide +kernel), by decide +kernel⟩

theorem wit_EventQueue_1 : 14 < 15 := by decide +kernel

theorem wit_EventQueue_2 : w0.host.events.length < 255 := by decide +kernel

theorem wit_EventQueue_3 : (wFull false).host.events.length = 255 ∧ (wFull false).host.overflowed = false :=
  by decide +kernel

theorem wit_EventQueue_4 : 255 ≤ (wFull true).host.events.length ∧ (wFull true).host.overflowed = true :=
  by decide +kernel

theorem wit_EventQueue_5 : Runs w0 (pk [255]) 0x000E (row 0x000E) 0 ∧ (pk [255]).data.length = 1 :=
  ⟨runs_of (by decide +kernel), by decide +kernel⟩

theorem wit_SessionsOpenAndClose_1 : Runs w0 (pk (List.replicate 16 0x41 ++ [0x10, 0x0E])) 0x0003 (row 0x0003) 0 ∧
    (pk (List.replicate 16 0x41 ++ [0x10, 0x0E])).data.length = 18 ∧ w0.host.sessions.length < 4 ∧
    w0.sched.length ≤ 256 ∧
    (field (pk (List.replicate 16 0x41 ++ [0x10, 0x0E])).data 16 2 = 0 ∨ (10 ≤ field (pk (List.replicate 16 0x41 ++ [0x10, 0x0E])).data 16 2 ∧ field (pk (List.replicate 16 0x41 ++ [0x10, 0x0E])).data 16 2 ≤ 3600)) :=
  ⟨runs_of (by decide +kernel), by decide +kernel⟩

theorem wit_SessionsOpenAndClose_1b : Runs w0 (pk (List.replicate 18 0)) 0x0003 (row 0x0003) 0 ∧
    (pk (List.replicate 18 0)).data.length = 18 ∧ w0.host.sessions.length < 4 ∧ w0.sched.length ≤ 256 ∧
    (field (pk (List.replicate 18 0)).data 16 2 = 0 ∨ (10 ≤ field (pk (List.replicate 18 0)).data 16 2 ∧ field (pk (List.replicate 18 0)).data 16 2 ≤ 3600)) :=
  ⟨runs_of (by decide +kernel), by decide +kernel⟩

theorem wit_SessionsOpenAndClose_2 : Runs w0 (pk []) 0x0004 (row 0x0004) 0 ∧ (pk []).data = [] :=
  ⟨runs_of (by decide +kernel), by decide +kernel⟩

theorem wit_AuthorisationAndLock_1 : Runs w0 (pk []) 0x0005 (row 0x0005) 0 ∧ (pk []).data = [] :=
  ⟨runs_of (by decide +kernel), by decide +kernel⟩

theorem wit_AuthorisationAndLock_2 : Runs w0 (pk (List.replicate 128 1)) 0x0006 (row 0x0006) 0 ∧
    (pk (List.replicate 128 1)).data.length = 128 ∧ w0.host.barUntil = none :=
  ⟨runs_of (by decide +kernel), by decide +kernel⟩

theorem wit_AuthorisationAndLock_3 : Runs wAuth (pkAuth 0x0007 []) 0x0007 (row 0x0007) 0 ∧
    (pkAuth 0x0007 []).data = [] ∧ wAuth.id.oemKey.isSome := ⟨runs_of (by decide +kernel), by decide +kernel⟩

theorem wit_AuthorisationAndLock_4 : Runs wAuth (pkAuth 0x0008 []) 0x0008 (row 0x0008) 0 ∧
    (pkAuth 0x0008 []).data = [] ∧ wAuth.id.oemKey.isSome := ⟨runs_of (by decide +kernel), by decide +kernel⟩

theorem wit_RateFeedRestart_1 : Runs wUart (pk [0x00, 0xC2, 0x01, 0x00]) 0x0009 (row 0x0009) 0 ∧
    (pk [0x00, 0xC2, 0x01, 0x00]).data.length = 4 ∧ field (pk [0x00, 0xC2, 0x01, 0x00]).data 0 4 ∈ baudRates ∧
    wUart.host.line = [] := ⟨runs_of (by decide +kernel), by decide +kernel⟩

theorem wit_RateFeedRestart_2 :
    Runs ({ wUart with host := { wUart.host with line := [held1] } }) (pk [0x00, 0xC2, 0x01, 0x00]) 0x0009 (row 0x0009) 0 ∧
    (pk [0x00, 0xC2, 0x01, 0x00]).data.length = 4 ∧ field (pk [0x00, 0xC2, 0x01, 0x00]).data 0 4 ∈ baudRates ∧
    ({ wUart with host := { wUart.host with line := [held1] } }).host.line ≠ [] :=
  ⟨runs_of (by decide +kernel), by decide +kernel⟩

theorem wit_RateFeedRestart_3 : Runs w0 (pk []) 0x000A (row 0x000A) 0 ∧ (pk []).data = [] :=
  ⟨runs_of (by decide +kernel), by decide +kernel⟩

theorem wit_RateFeedRestart_4 : Runs w0 (pk []) 0x0012 (row 0x0012) 0 ∧ (pk []).data = [] ∧ w0.hk.shutdown = false ∧
    w0.upd.fallbackDue = false := ⟨runs_of (by decide +kernel), by decide +kernel⟩

theorem wit_EffectiveTicks_3 : 1 < 2 ^ 32 ∧ (5 : Int) - 2 ^ 31 ≤ (1 : Int) ∧ (1 : Int) ≤ 5 + 2 ^ 31 - 1 ∧
    (1 : Int) % 2 ^ 32 = 1 := by decide +kernel

theorem wit_EffectiveTicks_3b : 5 < 2 ^ 32 ∧ (4294967290 : Int) - 2 ^ 31 ≤ (4294967301 : Int) ∧
    (4294967301 : Int) ≤ 4294967290 + 2 ^ 31 - 1 ∧ (4294967301 : Int) % 2 ^ 32 = 5 := by decide +kernel

theorem wit_EffectiveTicks_3c : 1073741825 < 2 ^ 32 ∧ (0 : Int) - 2 ^ 31 ≤ (1073741825 : Int) ∧
    (1073741825 : Int) ≤ 0 + 2 ^ 31 - 1 ∧ (1073741825 : Int) % 2 ^ 32 = 1073741825 := by decide +kernel

theorem wit_EffectiveTicks_4 : 4294967295 < 2 ^ 32 := by decide +kernel

theorem wit_EffectiveTicks_5 : (row 0x000B).et = true ∧ effectiveTick w0.tick true 1 = .error stTooLate :=
  by decide +kernel

theorem wit_EffectiveTicks_5b : (row 0x000B).et = true ∧ effectiveTick w0.tick true 1073741825 = .error stTooFar :=
  by decide +kernel

theorem wit_EffectiveTicks_6 : (row 0x000B).et = true ∧ effectiveTick w0.tick false 0 = .ok 2 ∧
    ((row 0x000B).calm && w0.smoker.calmed) = false := by decide +kernel

theorem wit_EffectiveTicks_6b : (row 0x000B).et = true ∧ effectiveTick w0.tick true 1073741824 = .ok 1073741824 ∧
    ((row 0x000B).calm && w0.smoker.calmed) = false := by decide +kernel

theorem wit_EffectiveTicks_7 : (row 0x0001).et = false ∧ w0.stateBars (row 0x0001).code = none ∧
    ([] : List Byte).length ≤ 4096 ∧ ((row 0x0001).code ≠ 0x0009 ∨ w0.host.uart = true) := by decide +kernel

theorem wit_CommandsScheduled_1 : Runs w0 (pk []) 0x000B (row 0x000B) 2 ∧ (pk []).data = [] ∧ w0.sched.length < 256 :=
  ⟨runs_of (by decide +kernel), by decide +kernel⟩

theorem wit_CommandsScheduled_2 : Runs w0 (pk (List.replicate 8 0)) 0x0010 (row 0x0010) 2 ∧
    (pk (List.replicate 8 0)).data.length = 8 ∧ w0.sched.length < 256 :=
  ⟨runs_of (by decide +kernel), by decide +kernel⟩

theorem wit_CommandsScheduled_3 : Runs w0 (pk [3]) 0x0011 (row 0x0011) 2 ∧ (pk [3]).data.length = 1 ∧
    field (pk [3]).data 0 1 ≤ 3 ∧ w0.sched.length < 256 ∧ (2 ≤ field (pk [3]).data 0 1 → w0.smoker.calmed = false) ∧
    (field (pk [3]).data 0 1 = 0 → w0.dormantBarred = false) := ⟨runs_of (by decide +kernel), by decide +kernel⟩

theorem wit_CommandsScheduled_3b : Runs w0 (pk [0]) 0x0011 (row 0x0011) 2 ∧ (pk [0]).data.length = 1 ∧
    field (pk [0]).data 0 1 ≤ 3 ∧ w0.sched.length < 256 ∧ (2 ≤ field (pk [0]).data 0 1 → w0.smoker.calmed = false) ∧
    (field (pk [0]).data 0 1 = 0 → w0.dormantBarred = false) := ⟨runs_of (by decide +kernel), by decide +kernel⟩

theorem wit_CommandsScheduled_4 : Runs wLoop (pk [129, 0]) 0x0202 (row 0x0202) 2 ∧ (pk [129, 0]).data.length = 2 ∧
    wLoop.goodHandle (field (pk [129, 0]).data 0 2) = true ∧ barStart wLoop (field (pk [129, 0]).data 0 2) = none ∧
    wLoop.sched.length < 256 := ⟨runs_of (by decide +kernel), by decide +kernel⟩

theorem wit_CommandsScheduled_4b : Runs wLoop (pk [0, 0]) 0x0202 (row 0x0202) 2 ∧ (pk [0, 0]).data.length = 2 ∧
    wLoop.goodHandle (field (pk [0, 0]).data 0 2) = true ∧ barStart wLoop (field (pk [0, 0]).data 0 2) = none ∧
    wLoop.sched.length < 256 := ⟨runs_of (by decide +kernel), by decide +kernel⟩

theorem wit_CommandsScheduled_5 : Runs wLoop (pk [129, 0]) 0x0203 (row 0x0203) 2 ∧ (pk [129, 0]).data.length = 2 ∧
    wLoop.goodHandle (field (pk [129, 0]).data 0 2) = true ∧ field (pk [129, 0]).data 0 2 ≠ hkSlot ∧
    wLoop.sched.length < 256 := ⟨runs_of (by decide +kernel), by decide +kernel⟩

theorem wit_CommandsScheduled_6 : Runs wLoop (pk [129, 0]) 0x0204 (row 0x0204) 2 ∧ (pk [129, 0]).data.length = 2 ∧
    wLoop.goodHandle (field (pk [129, 0]).data 0 2) = true ∧
    modeSlot wLoop.content (field (pk [129, 0]).data 0 2) = true ∧ wLoop.sched.length < 256 :=
  ⟨runs_of (by decide +kernel), by decide +kernel⟩

theorem wit_CommandsScheduled_7 : Runs wLoop (pk [129, 0]) 0x0205 (row 0x0205) 2 ∧ (pk [129, 0]).data.length = 2 ∧
    wLoop.goodHandle (field (pk [129, 0]).data 0 2) = true ∧
    modeSlot wLoop.content (field (pk [129, 0]).data 0 2) = true ∧ wLoop.sched.length < 256 :=
  ⟨runs_of (by decide +kernel), by decide +kernel⟩

theorem wit_CommandsScheduled_8 : Runs wLoop (pk [129, 0]) 0x0206 (row 0x0206) 2 ∧ (pk [129, 0]).data.length = 2 ∧
    wLoop.goodHandle (field (pk [129, 0]).data 0 2) = true ∧ field (pk [129, 0]).data 0 2 ≠ hkSlot ∧
    wLoop.sched.length < 256 := ⟨runs_of (by decide +kernel), by decide +kernel⟩

theorem wit_CommandsScheduled_9 : Runs wLoop (pk [129, 0, 0, 0, 0x80, 0x3F, 0, 0, 0, 0]) 0x0207 (row 0x0207) 2 ∧
    (pk [129, 0, 0, 0, 0x80, 0x3F, 0, 0, 0, 0]).data.length = 10 ∧
    wLoop.goodHandle (field (pk [129, 0, 0, 0, 0x80, 0x3F, 0, 0, 0, 0]).data 0 2) = true ∧
    modeSlot wLoop.content (field (pk [129, 0, 0, 0, 0x80, 0x3F, 0, 0, 0, 0]).data 0 2) = true ∧
    modeTarget wLoop.content 257 (field (pk [129, 0, 0, 0, 0x80, 0x3F, 0, 0, 0, 0]).data 0 2) = some 129 ∧
    hasMode (slotKind 129) = true ∧ slotKind 129 ≠ 0x09 ∧
    firstSet (pk [129, 0, 0, 0, 0x80, 0x3F, 0, 0, 0, 0]).data 6 4 = none ∧
    fFinite (BitVec.ofNat 32 (field (pk [129, 0, 0, 0, 0x80, 0x3F, 0, 0, 0, 0]).data 2 4)) = true ∧
    (wLoop.view.unit 129).st = .manual ∧ wLoop.sched.length < 256 := ⟨runs_of (by decide +kernel), by decide +kernel⟩

theorem wit_CommandsScheduled_10 : Runs wChan (pk [1, 0, 1]) 0x0208 (row 0x0208) 2 ∧ (pk [1, 0, 1]).data.length = 3 ∧
    wChan.goodHandle (field (pk [1, 0, 1]).data 0 2) = true ∧ slotKind (field (pk [1, 0, 1]).data 0 2) = 0x03 ∧
    field (pk [1, 0, 1]).data 2 1 ≤ 1 ∧ wChan.sched.length < 256 := ⟨runs_of (by decide +kernel), by decide +kernel⟩

theorem wit_CommandsScheduled_11 : Runs wCell (pk [1, 0, 1, 2, 0, 5, 0, 0, 0, 0, 0, 0, 0]) 0x0302 (row 0x0302) 2 ∧
    1 ≠ 0 ∧ 1 < 256 ∧ field (pk [1, 0, 1, 2, 0, 5, 0, 0, 0, 0, 0, 0, 0]).data 0 1 = 1 ∧
    (pk [1, 0, 1, 2, 0, 5, 0, 0, 0, 0, 0, 0, 0]).data.length = 1 + 12 * 1 ∧
    (List.range 1).findSome? (wCell.checkCell (hostCells wCell.content) (pk [1, 0, 1, 2, 0, 5, 0, 0, 0, 0, 0, 0, 0]).data) = none ∧
    wCell.sched.length < 256 := ⟨runs_of (by decide +kernel), by decide +kernel⟩

theorem wit_CommandsScheduled_12 : Runs wCell (pk [0, 1, 2, 5, 0, 0, 0, 0, 0, 0, 0]) 0x0303 (row 0x0303) 2 ∧
    (pk [0, 1, 2, 5, 0, 0, 0, 0, 0, 0, 0]).data.length = 11 ∧
    wCell.written (field (pk [0, 1, 2, 5, 0, 0, 0, 0, 0, 0, 0]).data 0 2) = true ∧
    field (pk [0, 1, 2, 5, 0, 0, 0, 0, 0, 0, 0]).data 2 1 ≤ 4 ∧
    firstSet (pk [0, 1, 2, 5, 0, 0, 0, 0, 0, 0, 0]).data (3 + usedBytes (field (pk [0, 1, 2, 5, 0, 0, 0, 0, 0, 0, 0]).data 2 1)) (8 - usedBytes (field (pk [0, 1, 2, 5, 0, 0, 0, 0, 0, 0, 0]).data 2 1)) = none ∧
    wCell.sched.length < 256 := ⟨runs_of (by decide +kernel), by decide +kernel⟩

theorem wit_CommandsScheduled_13 : Runs wCell (pk [0, 1]) 0x0304 (row 0x0304) 2 ∧ (pk [0, 1]).data.length = 2 ∧
    wCell.written (field (pk [0, 1]).data 0 2) = true ∧ wCell.sched.length < 256 :=
  ⟨runs_of (by decide +kernel), by decide +kernel⟩

theorem wit_CommandsScheduled_14 : Runs wCell (pk [1, 0, 1]) 0x0305 (row 0x0305) 2 ∧ IsList 255 (pk [1, 0, 1]).data ∧
    (∀ x ∈ listOf (pk [1, 0, 1]).data, wCell.written x = true) ∧ wCell.sched.length < 256 :=
  ⟨runs_of (by decide +kernel), by decide +kernel⟩

theorem wit_CommandsScheduled_15 : Runs w0 (pk []) 0x0604 (row 0x0604) 2 ∧ (pk []).data = [] ∧ w0.sched.length < 256 :=
  ⟨runs_of (by decide +kernel), by decide +kernel⟩

theorem wit_Refusals_1 : wCached.hostListens = true ∧ wCached.host.alive = true ∧ wCached.host.line.length < 3 ∧
    (pk []).version = 1#8 ∧ (pk []).flags = 0#8 ∧ (wCached.host.uart = true → (pk []).payload.length ≤ 4096) ∧
    (pk []).session ≠ 0#16 ∧ wCached.session (pk []).session = some cached7 ∧ (pk []).seq = cached7.lastSeq ∧
    (pk []).seq ≠ cached7.expect ∧ cached7.awaits = false ∧ cached7.cached = some reply0 := by decide +kernel

theorem wit_Refusals_2 : wCached.hostListens = true ∧ wCached.host.alive = true ∧ wCached.host.line.length < 3 ∧
    ({ pk [] with seq := 9 }).version = 1#8 ∧ ({ pk [] with seq := 9 }).flags = 0#8 ∧
    (wCached.host.uart = true → ({ pk [] with seq := 9 }).payload.length ≤ 4096) ∧
    ({ pk [] with seq := 9 }).session ≠ 0#16 ∧ wCached.session ({ pk [] with seq := 9 }).session = some cached7 ∧
    ({ pk [] with seq := 9 }).seq ≠ cached7.lastSeq ∧ ({ pk [] with seq := 9 }).seq ≠ cached7.expect :=
  by decide +kernel

theorem wit_Refusals_3 : w0.hostListens = true ∧ w0.host.alive = true ∧ w0.host.line.length < 3 ∧ (pk []).flags = 0#8 ∧
    (pk []).payload.length ≤ 4096 ∧ w0.hk.shutdown = false ∧ w0.boot.hold = false ∧
    w0.arrival (pk []) true = .accepted := by decide +kernel

theorem wit_Refusals_4 : ({ wLoop with smoker := { w0.smoker with calmed := true } }).hostListens = true ∧
    ({ wLoop with smoker := { w0.smoker with calmed := true } }).host.alive = true ∧
    ({ wLoop with smoker := { w0.smoker with calmed := true } }).host.line.length < 3 ∧ (pk [129, 0]).flags = 0#8 ∧
    (pk [129, 0]).payload.length = 2 ∧ field (pk [129, 0]).payload 0 2 < 1024 ∧
    ({ wLoop with smoker := { w0.smoker with calmed := true } }).hk.shutdown = false ∧
    ({ wLoop with smoker := { w0.smoker with calmed := true } }).boot.hold = false ∧
    ({ wLoop with smoker := { w0.smoker with calmed := true } }).arrival (pk [129, 0]) true = .accepted ∧
    ({ wLoop with smoker := { w0.smoker with calmed := true } }).id.locked = false ∧
    ({ wLoop with smoker := { w0.smoker with calmed := true } }).smoker.calmed = true := by decide +kernel

theorem wit_UnknownOpcode_1 : opInfo (0xFFFF#16).toNat = none ∧ w0.hostListens = true ∧ w0.host.alive = true ∧
    w0.host.line.length < 3 ∧ (pk []).flags = 0 ∧ (w0.host.uart = true → (pk []).payload.length ≤ 4096) ∧
    w0.arrival (pk []) true = .accepted := by decide +kernel

theorem wit_UnitReads_1 : Runs wLoop (pk [1, 129, 0]) 0x0201 (row 0x0201) 0 ∧ IsList 255 (pk [1, 129, 0]).data ∧
    (∀ h ∈ listOf (pk [1, 129, 0]).data, wLoop.slotExists h = true) := ⟨runs_of (by decide +kernel), by decide +kernel⟩

theorem wit_UnitReads_2 : Runs w0 (pk [0, 0]) 0x0209 (row 0x0209) 0 ∧ (pk [0, 0]).data.length = 2 ∧
    field (pk [0, 0]).data 0 2 ≤ 1023 := ⟨runs_of (by decide +kernel), by decide +kernel⟩

theorem wit_UnitReads_2b : Runs w0 (pk [0xFF, 3]) 0x0209 (row 0x0209) 0 ∧ (pk [0xFF, 3]).data.length = 2 ∧
    field (pk [0xFF, 3]).data 0 2 ≤ 1023 := ⟨runs_of (by decide +kernel), by decide +kernel⟩

theorem wit_UnitReads_3 : Runs w0 (pk [1, 0xFF, 0x1F]) 0x0301 (row 0x0301) 0 ∧ IsList 127 (pk [1, 0xFF, 0x1F]).data ∧
    (∀ x ∈ listOf (pk [1, 0xFF, 0x1F]).data, x < 8192) := ⟨runs_of (by decide +kernel), by decide +kernel⟩

theorem wit_UnitReads_4 : Runs w0 (pk [0x01, 0x0B, 0, 0, 0, 0, 0, 0, 16, 0]) 0x0103 (row 0x0103) 0 ∧
    (pk [0x01, 0x0B, 0, 0, 0, 0, 0, 0, 16, 0]).data.length = 10 ∧
    field (pk [0x01, 0x0B, 0, 0, 0, 0, 0, 0, 16, 0]).data 8 2 ≠ 0 ∧
    w0.blockTarget (field (pk [0x01, 0x0B, 0, 0, 0, 0, 0, 0, 16, 0]).data 0 2) (field (pk [0x01, 0x0B, 0, 0, 0, 0, 0, 0, 16, 0]).data 2 2) (field (pk [0x01, 0x0B, 0, 0, 0, 0, 0, 0, 16, 0]).data 4 4) (field (pk [0x01, 0x0B, 0, 0, 0, 0, 0, 0, 16, 0]).data 8 2) = .ok nodesTarget :=
  ⟨runs_of (by decide +kernel), by decide +kernel⟩

theorem wit_UnitReads_6 : maskTarget.inst = some 0 ∧ maskTarget.info.acc = .rw ∧ maskTarget.info.eff = .tick :=
  by decide +kernel

theorem wit_UnitReads_7 : nodesTarget.inst = some 0 ∧ nodesTarget.info.acc = .rw ∧ nodesTarget.info.eff = .commit :=
  by decide +kernel

theorem wit_StatusWords_1 : (headerOf w0.content 5).kind = 0 := by decide +kernel

theorem wit_StatusWords_2 : (headerOf wLoop.content 129).kind ≠ 0 := by decide +kernel

theorem wit_UnitTransitions_1 : 129 ≠ hkSlot := by decide +kernel

theorem wit_ParameterWrites_1 : Runs w0 (pk maskWrite) 0x0102 (row 0x0102) 2 ∧ 0 < 1 ∧ 1 < 256 ∧
    (pk maskWrite).data.headD 0 = BitVec.ofNat 8 1 ∧ (pk maskWrite).data.length = 1 + 14 * 1 ∧
    w0.checkWrites (hostCtx w0 (pk maskWrite) (row 0x0102) 2) (List.range 1) = .ok [maskEntry] ∧
    w0.sched.length < 256 := ⟨runs_of (by decide +kernel), by decide +kernel⟩

theorem wit_ParameterWrites_2 :
    Runs wPend (pk ([1, 0x0B, 0, 0, 0, 0, 0, 0] ++ List.replicate 112 0x31)) 0x0104 (row 0x0104) 2 ∧
    8 ≤ (pk ([1, 0x0B, 0, 0, 0, 0, 0, 0] ++ List.replicate 112 0x31)).data.length ∧
    wPend.blockTarget (field (pk ([1, 0x0B, 0, 0, 0, 0, 0, 0] ++ List.replicate 112 0x31)).data 0 2) (field (pk ([1, 0x0B, 0, 0, 0, 0, 0, 0] ++ List.replicate 112 0x31)).data 2 2) (field (pk ([1, 0x0B, 0, 0, 0, 0, 0, 0] ++ List.replicate 112 0x31)).data 4 4) ((pk ([1, 0x0B, 0, 0, 0, 0, 0, 0] ++ List.replicate 112 0x31)).data.length - 8) = .ok nodesTarget ∧
    nodesTarget.inst = some 0 ∧ readOnly nodesTarget.info 0 = false ∧
    wPend.holdsPending (pk ([1, 0x0B, 0, 0, 0, 0, 0, 0] ++ List.replicate 112 0x31)).session = true ∧
    let now := overlay (wPend.readBlock (hostCtx wPend (pk ([1, 0x0B, 0, 0, 0, 0, 0, 0] ++ List.replicate 112 0x31)) (row 0x0104) 2) nodesTarget) (field (pk ([1, 0x0B, 0, 0, 0, 0, 0, 0] ++ List.replicate 112 0x31)).data 4 4) ((pk ([1, 0x0B, 0, 0, 0, 0, 0, 0] ++ List.replicate 112 0x31)).data.drop 8)
    (nodesTarget.info.id = P.UNIT_HEADER → field now 0 1 = 0 ∨ field now 0 1 = slotKind 0) :=
  ⟨runs_of (by decide +kernel), by decide +kernel⟩

theorem wit_PendingGeneration_1 : Runs w0 (pk []) 0x0401 (row 0x0401) 0 ∧ (pk []).data = [] ∧
    (∀ g, w0.pendGen = some g → g.holder = (pk []).session) := ⟨runs_of (by decide +kernel), by decide +kernel⟩

theorem wit_PendingGeneration_2 : Runs w0 (pk []) 0x0405 (row 0x0405) 0 ∧ (pk []).data = [] :=
  ⟨runs_of (by decide +kernel), by decide +kernel⟩

theorem wit_PendingGeneration_3 : Runs w0 (pk []) 0x0404 (row 0x0404) 0 ∧ (pk []).data = [] :=
  ⟨runs_of (by decide +kernel), by decide +kernel⟩

theorem wit_JobsAreCreated_1 : Runs wPend (pk []) 0x0402 (row 0x0402) 2 ∧ (pk []).data = [] ∧
    wPend.holdsPending (pk []).session = true ∧ wPend.jobs.length < 8 :=
  ⟨runs_of (by decide +kernel), by decide +kernel⟩

theorem wit_JobsAreCreated_2 : Runs w0 (pk []) 0x0403 (row 0x0403) 2 ∧ (pk []).data = [] ∧ w0.jobs.length < 8 :=
  ⟨runs_of (by decide +kernel), by decide +kernel⟩

theorem wit_JobsAreCreated_3 : Runs wAuth (pkAuth 0x0406 (List.replicate 16 0)) 0x0406 (row 0x0406) 0 ∧
    (pkAuth 0x0406 (List.replicate 16 0)).data.length = 16 ∧ wAuth.jobs.length < 8 :=
  ⟨runs_of (by decide +kernel), by decide +kernel⟩

theorem wit_JobsAreCreated_4 : Runs wAuth (pkAuth 0x0407 (List.replicate 8 0)) 0x0407 (row 0x0407) 0 ∧
    8 ≤ (pkAuth 0x0407 (List.replicate 8 0)).data.length ∧ field (pkAuth 0x0407 (List.replicate 8 0)).data 0 1 ≤ 3 ∧
    firstSet (pkAuth 0x0407 (List.replicate 8 0)).data 1 3 = none ∧
    field (pkAuth 0x0407 (List.replicate 8 0)).data 4 4 + ((pkAuth 0x0407 (List.replicate 8 0)).data.length - 8) ≤ bundleMax ∧
    wAuth.jobs.length < 8 := ⟨runs_of (by decide +kernel), by decide +kernel⟩

theorem wit_JobsAreCreated_5 : Runs wChan (pk [1, 0, 0, 0, 0, 0, 0x80, 0x3F, 16, 0, 0, 0]) 0x0503 (row 0x0503) 0 ∧
    (pk [1, 0, 0, 0, 0, 0, 0x80, 0x3F, 16, 0, 0, 0]).data.length = 12 ∧
    wChan.goodHandle (field (pk [1, 0, 0, 0, 0, 0, 0x80, 0x3F, 16, 0, 0, 0]).data 0 2) = true ∧
    slotKind (field (pk [1, 0, 0, 0, 0, 0, 0x80, 0x3F, 16, 0, 0, 0]).data 0 2) = 0x03 ∧
    firstSet (pk [1, 0, 0, 0, 0, 0, 0x80, 0x3F, 16, 0, 0, 0]).data 10 2 = none ∧
    field (pk [1, 0, 0, 0, 0, 0, 0x80, 0x3F, 16, 0, 0, 0]).data 2 1 ≤ 2 ∧
    field (pk [1, 0, 0, 0, 0, 0, 0x80, 0x3F, 16, 0, 0, 0]).data 3 1 ≤ 2 ∧
    fFinite (BitVec.ofNat 32 (field (pk [1, 0, 0, 0, 0, 0, 0x80, 0x3F, 16, 0, 0, 0]).data 4 4)) = true ∧
    16 ≤ field (pk [1, 0, 0, 0, 0, 0, 0x80, 0x3F, 16, 0, 0, 0]).data 8 2 ∧
    field (pk [1, 0, 0, 0, 0, 0, 0x80, 0x3F, 16, 0, 0, 0]).data 8 2 ≤ 16384 ∧ wChan.jobs.length < 8 :=
  ⟨runs_of (by decide +kernel), by decide +kernel⟩

theorem wit_JobsAreCreated_5b : Runs wChan (pk [1, 0, 2, 2, 0, 0, 0x80, 0x3F, 0, 0x40, 0, 0]) 0x0503 (row 0x0503) 0 ∧
    (pk [1, 0, 2, 2, 0, 0, 0x80, 0x3F, 0, 0x40, 0, 0]).data.length = 12 ∧
    wChan.goodHandle (field (pk [1, 0, 2, 2, 0, 0, 0x80, 0x3F, 0, 0x40, 0, 0]).data 0 2) = true ∧
    slotKind (field (pk [1, 0, 2, 2, 0, 0, 0x80, 0x3F, 0, 0x40, 0, 0]).data 0 2) = 0x03 ∧
    firstSet (pk [1, 0, 2, 2, 0, 0, 0x80, 0x3F, 0, 0x40, 0, 0]).data 10 2 = none ∧
    field (pk [1, 0, 2, 2, 0, 0, 0x80, 0x3F, 0, 0x40, 0, 0]).data 2 1 ≤ 2 ∧
    field (pk [1, 0, 2, 2, 0, 0, 0x80, 0x3F, 0, 0x40, 0, 0]).data 3 1 ≤ 2 ∧
    fFinite (BitVec.ofNat 32 (field (pk [1, 0, 2, 2, 0, 0, 0x80, 0x3F, 0, 0x40, 0, 0]).data 4 4)) = true ∧
    16 ≤ field (pk [1, 0, 2, 2, 0, 0, 0x80, 0x3F, 0, 0x40, 0, 0]).data 8 2 ∧
    field (pk [1, 0, 2, 2, 0, 0, 0x80, 0x3F, 0, 0x40, 0, 0]).data 8 2 ≤ 16384 ∧ wChan.jobs.length < 8 :=
  ⟨runs_of (by decide +kernel), by decide +kernel⟩

theorem wit_JobsAreCreated_6 : Runs wLine (pk [0xE1, 1, 3, 64, 0, 0, 0, 0]) 0x0504 (row 0x0504) 0 ∧
    (pk [0xE1, 1, 3, 64, 0, 0, 0, 0]).data.length = 8 ∧
    wLine.goodHandle (field (pk [0xE1, 1, 3, 64, 0, 0, 0, 0]).data 0 2) = true ∧
    slotKind (field (pk [0xE1, 1, 3, 64, 0, 0, 0, 0]).data 0 2) = 0x07 ∧
    firstSet (pk [0xE1, 1, 3, 64, 0, 0, 0, 0]).data 4 4 = none ∧ field (pk [0xE1, 1, 3, 64, 0, 0, 0, 0]).data 2 1 ≤ 3 ∧
    1 ≤ field (pk [0xE1, 1, 3, 64, 0, 0, 0, 0]).data 3 1 ∧ field (pk [0xE1, 1, 3, 64, 0, 0, 0, 0]).data 3 1 ≤ 64 ∧
    wLine.jobs.length < 8 := ⟨runs_of (by decide +kernel), by decide +kernel⟩

theorem wit_JobsAreCreated_7 : Runs wLine (pk [0x21, 2, 0, 0]) 0x0505 (row 0x0505) 0 ∧
    (pk [0x21, 2, 0, 0]).data.length = 4 ∧ wLine.goodHandle (field (pk [0x21, 2, 0, 0]).data 0 2) = true ∧
    slotKind (field (pk [0x21, 2, 0, 0]).data 0 2) = 0x08 ∧ firstSet (pk [0x21, 2, 0, 0]).data 2 2 = none ∧
    wLine.jobs.length < 8 := ⟨runs_of (by decide +kernel), by decide +kernel⟩

theorem wit_JobsAreCreated_8 : Runs w0 (pk [2, 0, 0, 0, 0, 0, 0, 0, 0, 0x20, 0, 0]) 0x0602 (row 0x0602) 0 ∧
    (pk [2, 0, 0, 0, 0, 0, 0, 0, 0, 0x20, 0, 0]).data.length = 12 ∧
    firstSet (pk [2, 0, 0, 0, 0, 0, 0, 0, 0, 0x20, 0, 0]).data 1 3 = none ∧
    firstSet (pk [2, 0, 0, 0, 0, 0, 0, 0, 0, 0x20, 0, 0]).data 10 2 = none ∧
    field (pk [2, 0, 0, 0, 0, 0, 0, 0, 0, 0x20, 0, 0]).data 0 1 ≤ 2 ∧
    1 ≤ field (pk [2, 0, 0, 0, 0, 0, 0, 0, 0, 0x20, 0, 0]).data 8 2 ∧
    field (pk [2, 0, 0, 0, 0, 0, 0, 0, 0, 0x20, 0, 0]).data 8 2 ≤ 8192 ∧ w0.jobs.length < 8 :=
  ⟨runs_of (by decide +kernel), by decide +kernel⟩

theorem wit_JobsAreCreated_9 : Runs w0 (pk (List.replicate 8 0)) 0x0701 (row 0x0701) 0 ∧
    8 ≤ (pk (List.replicate 8 0)).data.length ∧ field (pk (List.replicate 8 0)).data 0 1 ≤ 3 ∧
    firstSet (pk (List.replicate 8 0)).data 1 3 = none ∧
    field (pk (List.replicate 8 0)).data 4 4 + ((pk (List.replicate 8 0)).data.length - 8) ≤ replayMax ∧
    w0.jobs.length < 8 := ⟨runs_of (by decide +kernel), by decide +kernel⟩

theorem wit_JobsAreCreated_10 : Runs w0 (pk [1, 0, 0, 0]) 0x0702 (row 0x0702) 0 ∧ (pk [1, 0, 0, 0]).data.length = 4 ∧
    field (pk [1, 0, 0, 0]).data 0 1 ≤ 1 ∧ firstSet (pk [1, 0, 0, 0]).data 1 3 = none ∧ w0.jobs.length < 8 :=
  ⟨runs_of (by decide +kernel), by decide +kernel⟩

theorem wit_JobsAreCreated_11 : Runs w0 (pk (List.replicate 10 0)) 0x0704 (row 0x0704) 0 ∧
    (pk (List.replicate 10 0)).data.length = 10 ∧ w0.jobs.length < 8 := ⟨runs_of (by decide +kernel), by decide +kernel⟩

theorem wit_JobControl_1 : Runs (jobbed (jobOf 0x0602 .done []) w0) (pk [1, 0]) 0x0A01 (row 0x0A01) 0 ∧
    (pk [1, 0]).data.length = 2 ∧
    (jobbed (jobOf 0x0602 .done []) w0).job (field (pk [1, 0]).data 0 2) = some (jobOf 0x0602 .done []) ∧
    (jobOf 0x0602 .done []).session = some (pk [1, 0]).session ∧ (jobOf 0x0602 .done []).state.ended = true :=
  ⟨runs_of (by decide +kernel), by decide +kernel⟩

theorem wit_JobControl_2 : Runs (jobbed jobParts w0) (pk [1, 0]) 0x0A01 (row 0x0A01) 0 ∧ (pk [1, 0]).data.length = 2 ∧
    (jobbed jobParts w0).job (field (pk [1, 0]).data 0 2) = some jobParts ∧
    jobParts.session = some (pk [1, 0]).session ∧ jobParts.state = .running ∧ jobParts.reads = true ∧
    jobParts.out = ([1] : List Byte) :: ([2] : List Byte) :: ([] : List (List Byte)) :=
  ⟨runs_of (by decide +kernel), by decide +kernel⟩

theorem wit_JobControl_3 : Runs (jobbed (jobOf 0x0602 .running []) w0) (pk [1, 0]) 0x0A01 (row 0x0A01) 0 ∧
    (pk [1, 0]).data.length = 2 ∧
    (jobbed (jobOf 0x0602 .running []) w0).job (field (pk [1, 0]).data 0 2) = some (jobOf 0x0602 .running []) ∧
    (jobOf 0x0602 .running []).session = some (pk [1, 0]).session ∧ (jobOf 0x0602 .running []).state.ended = false ∧
    ((jobOf 0x0602 .running []).state ≠ .running ∨ (jobOf 0x0602 .running []).reads = false ∨ (jobOf 0x0602 .running []).out.length < 2) :=
  ⟨runs_of (by decide +kernel), by decide +kernel⟩

theorem wit_JobControl_3b : Runs (jobbed (jobOf 0x0402 .queued []) w0) (pk [1, 0]) 0x0A01 (row 0x0A01) 0 ∧
    (pk [1, 0]).data.length = 2 ∧
    (jobbed (jobOf 0x0402 .queued []) w0).job (field (pk [1, 0]).data 0 2) = some (jobOf 0x0402 .queued []) ∧
    (jobOf 0x0402 .queued []).session = some (pk [1, 0]).session ∧ (jobOf 0x0402 .queued []).state.ended = false ∧
    ((jobOf 0x0402 .queued []).state ≠ .running ∨ (jobOf 0x0402 .queued []).reads = false ∨ (jobOf 0x0402 .queued []).out.length < 2) :=
  ⟨runs_of (by decide +kernel), by decide +kernel⟩

theorem wit_JobControl_4 : Runs (jobbed (jobOf 0x0602 .running []) w0) (pk [1, 0]) 0x0A02 (row 0x0A02) 0 ∧
    (pk [1, 0]).data.length = 2 ∧
    (jobbed (jobOf 0x0602 .running []) w0).job (field (pk [1, 0]).data 0 2) = some (jobOf 0x0602 .running []) ∧
    (jobOf 0x0602 .running []).session = some (pk [1, 0]).session ∧ (jobOf 0x0602 .running []).state = .running ∧
    (jobOf 0x0602 .running []).fixed = false := ⟨runs_of (by decide +kernel), by decide +kernel⟩

theorem wit_JobControl_5 : Runs (jobbed (jobOf 0x0803 .queued []) (wUpd .verifying)) (pk [1, 0]) 0x0A02 (row 0x0A02) 0 ∧
    (pk [1, 0]).data.length = 2 ∧
    (jobbed (jobOf 0x0803 .queued []) (wUpd .verifying)).job (field (pk [1, 0]).data 0 2) = some (jobOf 0x0803 .queued []) ∧
    (jobOf 0x0803 .queued []).session = some (pk [1, 0]).session ∧ (jobOf 0x0803 .queued []).state = .queued ∧
    (jobOf 0x0803 .queued []).fixed = false := ⟨runs_of (by decide +kernel), by decide +kernel⟩

theorem wit_JobControl_6 : Runs (jobbed (jobOf 0x0602 .paused []) w0) (pk [1, 0]) 0x0A03 (row 0x0A03) 0 ∧
    (pk [1, 0]).data.length = 2 ∧
    (jobbed (jobOf 0x0602 .paused []) w0).job (field (pk [1, 0]).data 0 2) = some (jobOf 0x0602 .paused []) ∧
    (jobOf 0x0602 .paused []).session = some (pk [1, 0]).session ∧ (jobOf 0x0602 .paused []).state = .paused :=
  ⟨runs_of (by decide +kernel), by decide +kernel⟩

theorem wit_JobControl_7 : Runs (jobbed (jobOf 0x0602 .running []) w0) (pk [1, 0]) 0x0A04 (row 0x0A04) 0 ∧
    (pk [1, 0]).data.length = 2 ∧
    (jobbed (jobOf 0x0602 .running []) w0).job (field (pk [1, 0]).data 0 2) = some (jobOf 0x0602 .running []) ∧
    (jobOf 0x0602 .running []).session = some (pk [1, 0]).session ∧ (jobOf 0x0602 .running []).state.ended = false ∧
    (jobOf 0x0602 .running []).fixed = false := ⟨runs_of (by decide +kernel), by decide +kernel⟩

theorem wit_JobControl_8 : Runs wSched (pk [7, 0, 1, 0]) 0x0A05 (row 0x0A05) 0 ∧ (pk [7, 0, 1, 0]).data.length = 4 ∧
    wSched.sched.find? (fun waiting2 => waiting2.session.toNat == field (pk [7, 0, 1, 0]).data 0 2 && waiting2.seq.toNat == field (pk [7, 0, 1, 0]).data 2 2) = some waiting2 ∧
    (waiting2.auth = true → (pk [7, 0, 1, 0]).auth = true ∧ (wSched.keyOf (pk [7, 0, 1, 0])).isSome = true) ∧
    wSched.tick + 2 ≤ waiting2.at_ := ⟨runs_of (by decide +kernel), by decide +kernel⟩

theorem wit_FieldReads_1 : Runs w0 (pk [15]) 0x0501 (row 0x0501) 0 ∧ (pk [15]).data.length = 1 ∧
    field (pk [15]).data 0 1 < w0.bankCount := ⟨runs_of (by decide +kernel), by decide +kernel⟩

theorem wit_FieldReads_3 : Runs w0 (pk [15, 255]) 0x0502 (row 0x0502) 0 ∧ (pk [15, 255]).data.length = 2 ∧
    field (pk [15, 255]).data 0 1 < w0.bankCount ∧ field (pk [15, 255]).data 1 1 ≠ 0 :=
  ⟨runs_of (by decide +kernel), by decide +kernel⟩

theorem wit_FieldReads_4 : Runs wLine (pk [0x21, 2, 0, 0]) 0x0506 (row 0x0506) 0 ∧
    (pk [0x21, 2, 0, 0]).data.length = 4 ∧ wLine.goodHandle (field (pk [0x21, 2, 0, 0]).data 0 2) = true ∧
    slotKind (field (pk [0x21, 2, 0, 0]).data 0 2) = 0x08 ∧ firstSet (pk [0x21, 2, 0, 0]).data 3 1 = none ∧
    field (pk [0x21, 2, 0, 0]).data 2 1 ≤ 1 := ⟨runs_of (by decide +kernel), by decide +kernel⟩

theorem wit_FieldReads_4b : Runs wLine (pk [0x21, 2, 1, 0]) 0x0506 (row 0x0506) 0 ∧
    (pk [0x21, 2, 1, 0]).data.length = 4 ∧ wLine.goodHandle (field (pk [0x21, 2, 1, 0]).data 0 2) = true ∧
    slotKind (field (pk [0x21, 2, 1, 0]).data 0 2) = 0x08 ∧ firstSet (pk [0x21, 2, 1, 0]).data 3 1 = none ∧
    field (pk [0x21, 2, 1, 0]).data 2 1 ≤ 1 := ⟨runs_of (by decide +kernel), by decide +kernel⟩

theorem wit_RecorderCommands_1 : Runs w0 (pk []) 0x0601 (row 0x0601) 0 ∧ (pk []).data = [] :=
  ⟨runs_of (by decide +kernel), by decide +kernel⟩

theorem wit_RecorderCommands_2 : Runs w0 (pk []) 0x0603 (row 0x0603) 0 ∧ (pk []).data = [] :=
  ⟨runs_of (by decide +kernel), by decide +kernel⟩

theorem wit_RecorderCommands_3 : Runs w0 (pk []) 0x0605 (row 0x0605) 0 ∧ (pk []).data = [] :=
  ⟨runs_of (by decide +kernel), by decide +kernel⟩

theorem wit_RecorderCommands_4 : Runs w0 (pk []) 0x0703 (row 0x0703) 0 ∧ (pk []).data = [] :=
  ⟨runs_of (by decide +kernel), by decide +kernel⟩

theorem wit_RecorderCommands_5 : (wFrozen 614400).recorder.frozen = true ∧
    ((wFrozen 614400).recorder.frozenAt + 614400 ≤ (wFrozen 614400).tick ∨ 64 ≤ (wFrozen 614400).recorder.queue.length) :=
  by decide +kernel

theorem wit_RecorderCommands_6 :
    (¬((wFrozen 614399).recorder.frozen = true ∧ ((wFrozen 614399).recorder.frozenAt + 614400 ≤ (wFrozen 614399).tick ∨ 64 ≤ (wFrozen 614399).recorder.queue.length))) :=
  by decide +kernel

theorem wit_RecorderCommands_8 : wHeldSum.recorder.queue = sum0 :: ([] : List Summary) ∧
    wHeldSum.recorder.frozen = false ∧ wHeldSum.committed = true ∧ sum0.foundOnly = false ∧
    wHeldSum.recorder.rolling.length < wHeldSum.recorder.rollCap := by decide +kernel

theorem wit_RecorderCommands_9 : (wFrozen 0).recorder.frozen = true ∧ (wFrozen 0).committed = true := by decide +kernel

theorem wit_UpdateCommands_1 : Runs w0 (pk []) 0x0801 (row 0x0801) 0 ∧ w0.upd.state = .idle :=
  ⟨runs_of (by decide +kernel), by decide +kernel⟩

theorem wit_UpdateCommands_3 : Runs (wUpd .received) (pk []) 0x0803 (row 0x0803) 0 ∧ (pk []).data = [] ∧
    (wUpd .received).updForeign (.session (pk []).session) = false ∧ (wUpd .received).upd.state = .received ∧
    (wUpd .received).jobs.length < 8 := ⟨runs_of (by decide +kernel), by decide +kernel⟩

theorem wit_UpdateCommands_4 : Runs (wUpd .verified) (pk []) 0x0804 (row 0x0804) 0 ∧ (pk []).data = [] ∧
    (wUpd .verified).updForeign (.session (pk []).session) = false ∧ (wUpd .verified).upd.state = .verified ∧
    (wUpd .verified).awaiting = none := ⟨runs_of (by decide +kernel), by decide +kernel⟩

theorem wit_UpdateCommands_5 : Runs (wUpd .trial) (pk []) 0x0805 (row 0x0805) 0 ∧ (pk []).data = [] ∧
    (wUpd .trial).updForeign (.session (pk []).session) = false ∧ (wUpd .trial).upd.state = .trial :=
  ⟨runs_of (by decide +kernel), by decide +kernel⟩

theorem wit_UpdateCommands_6 : Runs (wUpd .receiving) (pk []) 0x0806 (row 0x0806) 0 ∧ (pk []).data = [] ∧
    (wUpd .receiving).updForeign (.session (pk []).session) = false ∧
    ((wUpd .receiving).upd.state = .receiving ∨ (wUpd .receiving).upd.state = .received ∨ (wUpd .receiving).upd.state = .verified ∨ (wUpd .receiving).upd.state = .failed) :=
  ⟨runs_of (by decide +kernel), by decide +kernel⟩

theorem wit_UpdateCommands_6b : Runs (wUpd .failed) (pk []) 0x0806 (row 0x0806) 0 ∧ (pk []).data = [] ∧
    (wUpd .failed).updForeign (.session (pk []).session) = false ∧
    ((wUpd .failed).upd.state = .receiving ∨ (wUpd .failed).upd.state = .received ∨ (wUpd .failed).upd.state = .verified ∨ (wUpd .failed).upd.state = .failed) :=
  ⟨runs_of (by decide +kernel), by decide +kernel⟩

theorem wit_UpdateCommands_7 : Runs (wUpd .verifying) (pk []) 0x0806 (row 0x0806) 0 ∧ (pk []).data = [] ∧
    (wUpd .verifying).updForeign (.session (pk []).session) = false ∧ (wUpd .verifying).upd.state = .verifying :=
  ⟨runs_of (by decide +kernel), by decide +kernel⟩

theorem wit_UpdateCommands_8 : Runs (wUpd .trial) (pk []) 0x0806 (row 0x0806) 0 ∧ (pk []).data = [] ∧
    (wUpd .trial).updForeign (.session (pk []).session) = false ∧ (wUpd .trial).upd.state = .trial :=
  ⟨runs_of (by decide +kernel), by decide +kernel⟩

theorem wit_UpdateCommands_10 : Runs w0 (pk []) 0x0807 (row 0x0807) 0 ∧ (pk []).data = [] :=
  ⟨runs_of (by decide +kernel), by decide +kernel⟩

theorem wit_IdentityCommands_1 : Runs w0 (pk [0, 0, 0, 0]) 0x0808 (row 0x0808) 0 ∧ (pk [0, 0, 0, 0]).data.length = 4 ∧
    firstSet (pk [0, 0, 0, 0]).data 1 3 = none ∧ field (pk [0, 0, 0, 0]).data 0 1 ≤ 3 :=
  ⟨runs_of (by decide +kernel), by decide +kernel⟩

theorem wit_IdentityCommands_1b : Runs w0 (pk [3, 0, 0, 0]) 0x0808 (row 0x0808) 0 ∧ (pk [3, 0, 0, 0]).data.length = 4 ∧
    firstSet (pk [3, 0, 0, 0]).data 1 3 = none ∧ field (pk [3, 0, 0, 0]).data 0 1 ≤ 3 :=
  ⟨runs_of (by decide +kernel), by decide +kernel⟩

theorem wit_IdentityCommands_2 : Runs w0 (pk []) 0x0809 (row 0x0809) 0 ∧ (pk []).data = [] :=
  ⟨runs_of (by decide +kernel), by decide +kernel⟩

theorem wit_IdentityCommands_4 : Runs w0 (pk basePoint) 0x080A (row 0x080A) 0 ∧ (pk basePoint).data.length = 64 ∧
    (ecPoint (pk basePoint).data).isSome = true ∧ (pk basePoint).data.any (· != 0) = true :=
  ⟨runs_of (by decide +kernel), by decide +kernel⟩

theorem wit_IdentityCommands_5 : Runs w0 (pk (List.replicate 64 0)) 0x080A (row 0x080A) 0 ∧
    (pk (List.replicate 64 0)).data = List.replicate 64 0 ∧ w0.id.locked = false :=
  ⟨runs_of (by decide +kernel), by decide +kernel⟩

theorem wit_IdentityCommands_6 : Runs w0 (pk (List.replicate 32 0)) 0x080B (row 0x080B) 0 ∧
    (pk (List.replicate 32 0)).data.length = 32 := ⟨runs_of (by decide +kernel), by decide +kernel⟩

theorem wit_LinkCommands_1 : Runs w0 (pk []) 0x0901 (row 0x0901) 0 ∧ (pk []).data = [] :=
  ⟨runs_of (by decide +kernel), by decide +kernel⟩

theorem wit_LinkCommands_2 : Runs (queenAt 3) (pk forwarded) 0x0902 (row 0x0902) 0 ∧
    (queenAt 3).forwardCheck (pk forwarded).data = .ok (1, (commandPacket 0 7 1 1 0 [])) :=
  ⟨runs_of (by decide +kernel), by decide +kernel⟩

theorem wit_InterfaceEvents_1 :
    ({ w0 with tick := 5, host := { w0.host with barUntil := some 5 } }).host.barUntil = some 5 ∧
    5 ≤ ({ w0 with tick := 5, host := { w0.host with barUntil := some 5 } }).tick := by decide +kernel

theorem wit_InterfaceEvents_2 :
    ({ w0 with tick := 2048, host := { w0.host with baudAt := some 0 } }).host.baudAt = some 0 ∧
    ({ w0 with tick := 2048, host := { w0.host with baudAt := some 0 } }).host.alive = true ∧
    0 + 2048 ≤ ({ w0 with tick := 2048, host := { w0.host with baudAt := some 0 } }).tick := by decide +kernel

theorem wit_InterfaceEvents_3 : ({ w0 with tick := 614400 }).session session7.id = some session7 ∧
    session7.lastTick + 1024 * session7.idle ≤ ({ w0 with tick := 614400 }).tick := by decide +kernel

theorem wit_InterfaceEvents_4 : w0.hostListens = true ∧ w0.host.uart = false ∧
    w0.spiFault ([] : List Byte) = some (DiscardReason.framing) := by decide +kernel

theorem wit_InterfaceEvents_4b :
    ({ w0 with host := { w0.host with line := [held1, held1, held1] } }).hostListens = true ∧
    ({ w0 with host := { w0.host with line := [held1, held1, held1] } }).host.uart = false ∧
    ({ w0 with host := { w0.host with line := [held1, held1, held1] } }).spiFault (commandPacket 0 7 1 1 0 []) = some (DiscardReason.noBuffer) :=
  by decide +kernel

theorem wit_InterfaceEvents_6 : wUart.hostListens = true ∧ wUart.host.alive = true ∧ wUart.host.uart = true :=
  by decide +kernel

theorem wit_InterfaceEvents_7 : wUart.hostListens = true ∧ wUart.host.alive = true ∧ wUart.host.uart = true :=
  by decide +kernel

theorem wit_InterfaceEvents_8 : w0.hostListens = true ∧ w0.host.alive = true := by decide +kernel

theorem wit_InterfaceEvents_10 : wReply.hostListens = true ∧ wReply.host.uart = false ∧
    wReply.host.replies = reply0 :: ([] : List Reply) ∧ 2 + reply0.packet.length ≤ 32 := by decide +kernel

theorem wit_InterfaceEvents_11 : wReply.hostListens = true ∧ wReply.host.uart = false ∧
    wReply.host.replies = reply0 :: ([] : List Reply) ∧ 29 < 2 + reply0.packet.length := by decide +kernel

theorem wit_InterfaceEvents_12 : w0.hostListens = true ∧ w0.host.uart = false ∧ w0.host.replies = [] :=
  by decide +kernel

theorem wit_InterfaceEvents_13 : w0.hostListens = true ∧ w0.host.uart = false := by decide +kernel

theorem wit_InterfaceEvents_14 : w0.hostListens = true ∧ w0.host.uart = false ∧ (0x00#8) ≠ 0x5A#8 ∧ (0x00#8) ≠ 0xA5#8 :=
  by decide +kernel

theorem wit_MemoryErrors_1 : w0.logicPowered = true := by decide +kernel

theorem wit_MemoryErrors_2 : w0.logicPowered = true := by decide +kernel

theorem wit_MemoryErrors_3 : w0.logicRuns = true ∧ w0.committed = true ∧
    w0.sram.retired.contains (5 : Fin 2048).val = false := by decide +kernel

theorem wit_MemoryErrors_5 : wWritten.logicRuns = true ∧ wWritten.committed = true ∧
    (wWritten.base.cell (256 : Fin 8192).val).written = true ∧
    wWritten.work.cell (256 : Fin 8192).val = wWritten.base.cell (256 : Fin 8192).val := by decide +kernel

theorem wit_MemoryErrors_6 : wLoop.logicRuns = true ∧ wLoop.has (129 : Fin 1024).val = true ∧ wLoop.committed = true :=
  by decide +kernel

theorem wit_MemoryErrors_7 :
    ({ wLoop with tick := 1, workTick := 1, evaluated := false, committed := false }).logicRuns = true ∧
    ({ wLoop with tick := 1, workTick := 1, evaluated := false, committed := false }).has (129 : Fin 1024).val = true ∧
    ({ wLoop with tick := 1, workTick := 1, evaluated := false, committed := false }).committed = false ∧
    ({ wLoop with tick := 1, workTick := 1, evaluated := false, committed := false }).evaluated = false :=
  by decide +kernel

theorem wit_MemoryErrors_8 : w0.logicPowered = true ∧ w0.sram.retired.contains (5 : Fin 2048).val = false :=
  by decide +kernel

theorem wit_MemoryErrors_9 : wCached.session 7 = some cached7 ∧ cached7.cached.isSome = true := by decide +kernel

theorem wit_MemoryErrors_11 : wRec.inrec.open_ = true ∧ wRec.committed = true ∧ wRec.run P.INREC_MODE 0 ≠ 2 :=
  by decide +kernel

theorem wit_MemoryErrors_12 : wHeldSum.recorder.queue.any (fun x => x.seq == 0) = true := by decide +kernel

theorem wit_MemoryErrors_13 :
    (if true then ({ w0 with recorder := { w0.recorder with founding := [sum0] } }).recorder.founding else ({ w0 with recorder := { w0.recorder with founding := [sum0] } }).recorder.rolling).find? (fun sum0 => sum0.seq == 0) = some sum0 ∧
    sum0.unreadable = none := by decide +kernel

theorem wit_MemoryErrors_13b :
    (if false then ({ w0 with recorder := { w0.recorder with rolling := [sum0] } }).recorder.founding else ({ w0 with recorder := { w0.recorder with rolling := [sum0] } }).recorder.rolling).find? (fun sum0 => sum0.seq == 0) = some sum0 ∧
    sum0.unreadable = none := by decide +kernel

theorem wit_MemoryErrors_14 : (wStaged 2).upd.state = .receiving ∧
    (wStaged 2).upd.staged.any (fun b => b.1 == 0) = true := by decide +kernel

theorem wit_ClocksAndHousekeeping_1 : w0.vinOn = true ∧ w0.power ≠ .dormant ∧ w0.hk.crystalFail = false :=
  by decide +kernel

theorem wit_ClocksAndHousekeeping_2 : w0.vinOn = true ∧ w0.hk.crystalFail = false ∧ (w0.peer 0).state = 0 :=
  by decide +kernel

theorem wit_ClocksAndHousekeeping_3 : ({ w0 with hk := { w0.hk with crystalFail := true } }).vinOn = true ∧
    ({ w0 with hk := { w0.hk with crystalFail := true } }).hk.crystalFail = true := by decide +kernel

theorem wit_ClocksAndHousekeeping_4 : w0.vinOn = true := by decide +kernel

theorem wit_ClocksAndHousekeeping_5 : w0.vinOn = true := by decide +kernel

theorem wit_ClocksAndHousekeeping_7 : wSite.vinOn = true ∧ wSite.hk.included (5 : Fin 6).val = true ∧ 1350 ≤ 1350 :=
  by decide +kernel

theorem wit_ClocksAndHousekeeping_8 : w0.hk.included (5 : Fin 6).val = false := by decide +kernel

theorem wit_SupplyCrossings_1 : w0.vinOn = true := by decide +kernel

theorem wit_SupplyCrossings_2 : ((wBank false).bank (15 : Fin 16).val).powered = true := by decide +kernel

theorem wit_SupplyCrossings_3 : ((wBank false).bank (15 : Fin 16).val).powered = true ∧
    ((Instr.vfldUvloEntry 15 0) = Instr.vfldUvloEntry (15 : Fin 16) 0 ∧ ((wBank false).bank (15 : Fin 16).val).uvlo = false ∨ (Instr.vfldUvloEntry 15 0) = Instr.vfldUvloReturn (15 : Fin 16) 0 ∧ ((wBank false).bank (15 : Fin 16).val).uvlo = true ∨ (Instr.vfldUvloEntry 15 0) = Instr.vfldLowSet (15 : Fin 16) 0 ∧ ((wBank false).bank (15 : Fin 16).val).vfldLow = false ∨ (Instr.vfldUvloEntry 15 0) = Instr.vfldLowClear (15 : Fin 16) 0 ∧ ((wBank false).bank (15 : Fin 16).val).vfldLow = true) :=
  by decide +kernel

theorem wit_SupplyCrossings_3b : ((wBank true).bank (15 : Fin 16).val).powered = true ∧
    ((Instr.vfldLowClear 15 0) = Instr.vfldUvloEntry (15 : Fin 16) 0 ∧ ((wBank true).bank (15 : Fin 16).val).uvlo = false ∨ (Instr.vfldLowClear 15 0) = Instr.vfldUvloReturn (15 : Fin 16) 0 ∧ ((wBank true).bank (15 : Fin 16).val).uvlo = true ∨ (Instr.vfldLowClear 15 0) = Instr.vfldLowSet (15 : Fin 16) 0 ∧ ((wBank true).bank (15 : Fin 16).val).vfldLow = false ∨ (Instr.vfldLowClear 15 0) = Instr.vfldLowClear (15 : Fin 16) 0 ∧ ((wBank true).bank (15 : Fin 16).val).vfldLow = true) :=
  by decide +kernel

theorem wit_SupplyCrossings_4 : (wFanDom false).fanDom.powered = true ∧ (wFanDom false).fanDom.uvlo = false :=
  by decide +kernel

theorem wit_SupplyCrossings_5 : (wFanDom true).fanDom.powered = true ∧ (wFanDom true).fanDom.uvlo = true :=
  by decide +kernel

theorem wit_SupplyCrossings_6 : (wFanDom false).fanDom.powered = true ∧ (wFanDom false).fanDom.low = false :=
  by decide +kernel

theorem wit_SupplyCrossings_7 :
    ({ wFanDom true with fanDom := { (wFanDom true).fanDom with low := true } }).fanDom.powered = true ∧
    ({ wFanDom true with fanDom := { (wFanDom true).fanDom with low := true } }).fanDom.low = true := by decide +kernel

theorem wit_PowerAndReset_1 : w0.vinOn = true := by decide +kernel

theorem wit_PowerAndReset_2 : ({ w0 with vinOn := false }).vinOn = false ∧ 16600 ≤ 16600 := by decide +kernel

theorem wit_PowerAndReset_3 : (w0.vinOn = true ∨ 0 < 16600) := by decide +kernel

theorem wit_PowerAndReset_3b : (({ w0 with vinOn := false }).vinOn = true ∨ 16599 < 16600) := by decide +kernel

theorem wit_PowerAndReset_4 : w0.vinOn = true ∧ 16600 ≤ 16600 := by decide +kernel

theorem wit_PowerAndReset_5 : w0.vinOn = true ∧ w0.power ≠ .dormant ∧ w0.boot.startDue ≠ some 0 ∧
    w0.upd.fallbackDue = false := by decide +kernel

theorem wit_PowerAndReset_6 : ({ w0 with boot := { w0.boot with startDue := some 0 } }).vinOn = true ∧
    ({ w0 with boot := { w0.boot with startDue := some 0 } }).power ≠ .dormant ∧
    ({ w0 with boot := { w0.boot with startDue := some 0 } }).boot.startDue = some 0 := by decide +kernel

theorem wit_PowerAndReset_7 :
    (({ w0 with vinOn := false }).vinOn = false ∨ ({ w0 with vinOn := false }).power = .dormant) := by decide +kernel

theorem wit_PowerAndReset_7b :
    (({ w0 with power := .dormant }).vinOn = false ∨ ({ w0 with power := .dormant }).power = .dormant) :=
  by decide +kernel

theorem wit_PowerAndReset_8 : ({ w0 with power := .dormant }).vinOn = true ∧
    ({ w0 with power := .dormant }).power = .dormant ∧ ({ w0 with power := .dormant }).boot.startDue = none :=
  by decide +kernel

theorem wit_PowerAndReset_9 : w0.power ≠ .dormant := by decide +kernel

theorem wit_Starts_1 : wStart.vinOn = true ∧ wStart.host.alive = false ∧
    wStart.boot.startDue = some (startCode (.hostReset)) ∧ ({ goodReport with otpOk := false }).otpOk = false ∧
    wStart.upd.trial = false := by decide +kernel

theorem wit_Starts_2 : wStart.vinOn = true ∧ wStart.host.alive = false ∧
    wStart.boot.startDue = some (startCode (.hostReset)) ∧ goodReport.otpOk = true ∧ goodReport.slotOk = true ∧
    goodReport.checkpointOk = true ∧ goodReport.selfTestsOk = true ∧ wStart.upd.trial = false ∧
    wStart.slotStarts wStart.upd.slotB true = true ∧ wStart.hk.shutdownDue = false ∧ wStart.hk.shutdown = false :=
  by decide +kernel

theorem wit_Starts_3 : w0.boot.startDue ≠ some (startCode (.hostReset)) := by decide +kernel

theorem wit_TickAdvances_1 : w0.vinOn = true := by decide +kernel

theorem wit_TickAdvances_2 : w0.vinOn = true ∧ w0.logicRuns = true ∧ w0.committed = true ∧ w0.upd.activateAt = none :=
  by decide +kernel

theorem wit_TickAdvances_3 : ({ midTick true with tick := 7 }).vinOn = true ∧
    ({ midTick true with tick := 7 }).logicRuns = true ∧ ({ midTick true with tick := 7 }).committed = false ∧
    ({ midTick true with tick := 7 }).tick + 1 ≤ ({ midTick true with tick := 7 }).workTick + 7 := by decide +kernel

theorem wit_TickAdvances_4 : ({ midTick true with tick := 8 }).vinOn = true ∧
    ({ midTick true with tick := 8 }).logicRuns = true ∧ ({ midTick true with tick := 8 }).committed = false ∧
    ({ midTick true with tick := 8 }).workTick + 7 < ({ midTick true with tick := 8 }).tick + 1 ∧
    ({ midTick true with tick := 8 }).upd.fallbackDue = false := by decide +kernel

theorem wit_TickAdvances_5 : ({ w0 with vinOn := false }).vinOn = false := by decide +kernel

theorem wit_EvaluationAndCommit_1 : (midTick false).logicRuns = true ∧
    (midTick false).deadlineAt < (midTick false).tick ∧ (midTick false).evaluated = false ∧
    (midTick false).workTick ≤ (midTick false).tick := by decide +kernel

theorem wit_EvaluationAndCommit_2 : (midTick true).logicRuns = true ∧ (midTick true).evaluated = true ∧
    (midTick true).committed = false ∧ (midTick true).tick ≤ (midTick true).workTick := by decide +kernel

theorem wit_EvaluationAndCommit_3 : ({ midTick true with tick := 2 }).logicRuns = true ∧
    ({ midTick true with tick := 2 }).evaluated = true ∧ ({ midTick true with tick := 2 }).committed = false ∧
    ({ midTick true with tick := 2 }).workTick < ({ midTick true with tick := 2 }).tick := by decide +kernel

theorem wit_EvaluationAndCommit_4 : (wOpenSum 1).evaluated = true ∧ (wOpenSum 1).committed = false ∧
    (wOpenSum 1).work.recAcc.opened = true ∧ (wOpenSum 1).work.recAcc.tStart ≤ (wOpenSum 1).workTick ∧
    (wOpenSum 1).work.recAcc.causes ||| (wOpenSum 1).cutCauses (wOpenSum 1).workTick ≠ 0#8 := by decide +kernel

theorem wit_EvaluationAndCommit_5 : w0.work.recAcc.causes ||| w0.cutCauses w0.workTick = 0#8 := by decide +kernel

theorem wit_RedoStartsFromCommitted_1 : ({ midTick true with sram := { w0.sram with redoRun := 1 } }).logicRuns = true ∧
    ({ midTick true with sram := { w0.sram with redoRun := 1 } }).evaluated = true ∧
    ({ midTick true with sram := { w0.sram with redoRun := 1 } }).committed = false ∧
    ({ midTick true with sram := { w0.sram with redoRun := 1 } }).sram.redoRun < 2 := by decide +kernel

theorem wit_LagAndRedoRestarts_1 : ({ midTick false with tick := 8 }).logicRuns = true ∧
    ({ midTick false with tick := 8 }).committed = false ∧
    ({ midTick false with tick := 8 }).workTick + 7 ≤ ({ midTick false with tick := 8 }).tick := by decide +kernel

theorem wit_LagAndRedoRestarts_2 : ({ midTick true with sram := { w0.sram with redoRun := 2 } }).logicRuns = true ∧
    ({ midTick true with sram := { w0.sram with redoRun := 2 } }).evaluated = true ∧
    ({ midTick true with sram := { w0.sram with redoRun := 2 } }).committed = false ∧
    2 ≤ ({ midTick true with sram := { w0.sram with redoRun := 2 } }).sram.redoRun := by decide +kernel

theorem wit_LagAndRedoRestarts_3 : w0.vinOn = true ∧ w0.power ≠ .dormant ∧ w0.host.alive = true := by decide +kernel

theorem wit_LagAndRedoRestarts_4 : w0.upd.fallbackDue = false := by decide +kernel

theorem wit_LagAndRedoRestarts_5 : w0.committed = true := by decide +kernel

theorem wit_BoundaryStates_2 : ({ w0 with workTick := 20000, power := .run }).logicRuns = true ∧
    ({ w0 with workTick := 20000, power := .run }).committed = true ∧
    ({ w0 with workTick := 20000, power := .run }).calmsAt (({ w0 with workTick := 20000, power := .run }).workTick + 1) = true :=
  by decide +kernel

theorem wit_BoundaryStates_3 : w0.calmsAt (w0.workTick + 1) = false ∧ w0.smoker.due = none ∧ w0.logicRuns = true ∧
    w0.committed = true := by decide +kernel

theorem wit_BoundaryStates_4 :
    ((chanAt 127 3 []).mode 127 = 3 ∨ (chanAt 127 3 []).mode 127 = 4 ∨ (chanAt 127 3 []).mode 127 = 7 ∨ (chanAt 127 3 []).mode 127 = 8) ∧
    127 < 128 ∧ ((chanAt 127 3 []).unit (chanSlot 127)).st ≠ .stopped ∧
    ((chanAt 127 3 []).unit (chanSlot 127)).st ≠ .fault := by decide +kernel

theorem wit_BoundaryStates_5 : 0 < 256 ∧
    ((wLoop.unit (loopSlot 0)).st = .auto ∨ (wLoop.unit (loopSlot 0)).st = .manual) := by decide +kernel

theorem wit_BoundaryStates_6 :
    ({ stU 129 .stopping wLoop with work := ((stU 129 .stopping wLoop).work.modUnit 129 (fun u => { u with windDone := true })) }).logicRuns = true ∧
    ({ stU 129 .stopping wLoop with work := ((stU 129 .stopping wLoop).work.modUnit 129 (fun u => { u with windDone := true })) }).committed = true ∧
    isHive (129 : Fin 1024).val = false ∧
    (({ stU 129 .stopping wLoop with work := ((stU 129 .stopping wLoop).work.modUnit 129 (fun u => { u with windDone := true })) }).work.unit (129 : Fin 1024).val).st = .stopping ∧
    (({ stU 129 .stopping wLoop with work := ((stU 129 .stopping wLoop).work.modUnit 129 (fun u => { u with windDone := true })) }).work.unit (129 : Fin 1024).val).windDone = true :=
  by decide +kernel

theorem wit_BoundaryStates_7 : ({ w0 with hk := { w0.hk with shutdownDue := true } }).logicRuns = true ∧
    ({ w0 with hk := { w0.hk with shutdownDue := true } }).committed = true ∧
    ({ w0 with hk := { w0.hk with shutdownDue := true } }).hk.shutdownDue = true := by decide +kernel

theorem wit_ScheduledEffects_1 : FallsDue ({ w0 with sched := [waiting 0x000B []] }) (waiting 0x000B []) ∧
    (waiting 0x000B []).opcode = 0x000B#16 := ⟨falls_of (by decide +kernel), by decide +kernel⟩

theorem wit_ScheduledEffects_2 :
    FallsDue ({ w0 with sched := [waiting 0x0010 (List.replicate 8 0)] }) (waiting 0x0010 (List.replicate 8 0)) ∧
    (waiting 0x0010 (List.replicate 8 0)).opcode = 0x0010#16 := ⟨falls_of (by decide +kernel), by decide +kernel⟩

theorem wit_ScheduledEffects_3 : FallsDue ({ w0 with sched := [waiting 0x0011 [3]] }) (waiting 0x0011 [3]) ∧
    (waiting 0x0011 [3]).opcode = 0x0011#16 ∧ powerOf (field (waiting 0x0011 [3]).payload 0 1) = some (Power.run) :=
  ⟨falls_of (by decide +kernel), by decide +kernel⟩

theorem wit_ScheduledEffects_4 : FallsDue ({ w0 with sched := [waiting 0x0011 [0]] }) (waiting 0x0011 [0]) ∧
    (waiting 0x0011 [0]).opcode = 0x0011#16 ∧ field (waiting 0x0011 [0]).payload 0 1 = 0 ∧
    ({ w0 with sched := [waiting 0x0011 [0]] }).power ≠ .dormant := ⟨falls_of (by decide +kernel), by decide +kernel⟩

theorem wit_ScheduledEffects_5 :
    FallsDue ({ cfgd [hd 129] w0 with sched := [waiting 0x0202 [129, 0]] }) (waiting 0x0202 [129, 0]) ∧
    (waiting 0x0202 [129, 0]).opcode = 0x0202#16 ∧ field (waiting 0x0202 [129, 0]).payload 0 2 = 129 ∧
    ({ cfgd [hd 129] w0 with sched := [waiting 0x0202 [129, 0]] }).has 129 = true ∧ isHive 129 = false ∧ 129 ≠ hkSlot ∧
    (({ cfgd [hd 129] w0 with sched := [waiting 0x0202 [129, 0]] }).work.unit 129).st = .stopped ∧
    slotKind 129 ≠ 0x08 := ⟨falls_of (by decide +kernel), by decide +kernel⟩

theorem wit_ScheduledEffects_6 :
    FallsDue ({ wChan with sched := [waiting 0x0208 [1, 0, 0]] }) (waiting 0x0208 [1, 0, 0]) ∧
    (waiting 0x0208 [1, 0, 0]).opcode = 0x0208#16 ∧ 0 < 128 ∧
    field (waiting 0x0208 [1, 0, 0]).payload 0 2 = chanSlot 0 ∧ field (waiting 0x0208 [1, 0, 0]).payload 2 1 = 0 ∧
    ({ wChan with sched := [waiting 0x0208 [1, 0, 0]] }).has (chanSlot 0) = true :=
  ⟨falls_of (by decide +kernel), by decide +kernel⟩

theorem wit_ScheduledEffects_7 :
    FallsDue ({ wCell with sched := [waiting 0x0302 [1, 0, 1, 2, 0, 5, 0, 0, 0, 0, 0, 0, 0]] }) (waiting 0x0302 [1, 0, 1, 2, 0, 5, 0, 0, 0, 0, 0, 0, 0]) ∧
    (waiting 0x0302 [1, 0, 1, 2, 0, 5, 0, 0, 0, 0, 0, 0, 0]).opcode = 0x0302#16 ∧
    field (waiting 0x0302 [1, 0, 1, 2, 0, 5, 0, 0, 0, 0, 0, 0, 0]).payload 0 1 = 1 ∧
    (hostCells ({ wCell with sched := [waiting 0x0302 [1, 0, 1, 2, 0, 5, 0, 0, 0, 0, 0, 0, 0]] }).content).contains (field (waiting 0x0302 [1, 0, 1, 2, 0, 5, 0, 0, 0, 0, 0, 0, 0]).payload 1 2) = true :=
  ⟨falls_of (by decide +kernel), by decide +kernel⟩

theorem wit_ScheduledEffects_8 :
    FallsDue ({ wCell with sched := [waiting 0x0303 [0, 1, 2, 5, 0, 0, 0, 0, 0, 0, 0]] }) (waiting 0x0303 [0, 1, 2, 5, 0, 0, 0, 0, 0, 0, 0]) ∧
    (waiting 0x0303 [0, 1, 2, 5, 0, 0, 0, 0, 0, 0, 0]).opcode = 0x0303#16 :=
  ⟨falls_of (by decide +kernel), by decide +kernel⟩

theorem wit_ScheduledEffects_9 : FallsDue ({ wCell with sched := [waiting 0x0304 [0, 1]] }) (waiting 0x0304 [0, 1]) ∧
    (waiting 0x0304 [0, 1]).opcode = 0x0304#16 := ⟨falls_of (by decide +kernel), by decide +kernel⟩

theorem wit_ScheduledEffects_10 :
    FallsDue ({ wCell with sched := [waiting 0x0305 [1, 0, 1]] }) (waiting 0x0305 [1, 0, 1]) ∧
    (waiting 0x0305 [1, 0, 1]).opcode = 0x0305#16 ∧ field (waiting 0x0305 [1, 0, 1]).payload 0 1 = 1 :=
  ⟨falls_of (by decide +kernel), by decide +kernel⟩

theorem wit_ScheduledEffects_11 : FallsDue ({ w0 with sched := [waiting 0x0604 []] }) (waiting 0x0604 []) ∧
    (waiting 0x0604 []).opcode = 0x0604#16 := ⟨falls_of (by decide +kernel), by decide +kernel⟩

theorem wit_ScheduledEffects_12 :
    ({ wLoop with smoker := { wLoop.smoker with calmed := true }, sched := [waiting 0x0202 [129, 0]] }).logicRuns = true ∧
    ({ wLoop with smoker := { wLoop.smoker with calmed := true }, sched := [waiting 0x0202 [129, 0]] }).committed = true ∧
    ({ wLoop with smoker := { wLoop.smoker with calmed := true }, sched := [waiting 0x0202 [129, 0]] }).smoker.calmed = true ∧
    ({ wLoop with smoker := { wLoop.smoker with calmed := true }, sched := [waiting 0x0202 [129, 0]] }).smoker.due = none ∧
    (dueCommands ({ wLoop with smoker := { wLoop.smoker with calmed := true }, sched := [waiting 0x0202 [129, 0]] }).sched (({ wLoop with smoker := { wLoop.smoker with calmed := true }, sched := [waiting 0x0202 [129, 0]] }).workTick + 1)).head? = some (waiting 0x0202 [129, 0]) ∧
    (waiting 0x0202 [129, 0]).opcode = 0x0202#16 ∧ field (waiting 0x0202 [129, 0]).payload 0 2 = 129 ∧
    ({ wLoop with smoker := { wLoop.smoker with calmed := true }, sched := [waiting 0x0202 [129, 0]] }).has 129 = true ∧
    isHive 129 = false := by decide +kernel

theorem wit_BoundaryStores_1 : ({ w0 with gens := w0.gens ++ [gen2], awaiting := some await2 }).logicRuns = true ∧
    ({ w0 with gens := w0.gens ++ [gen2], awaiting := some await2 }).committed = true ∧
    ({ w0 with gens := w0.gens ++ [gen2], awaiting := some await2 }).awaiting = some await2 ∧
    await2.at_ = ({ w0 with gens := w0.gens ++ [gen2], awaiting := some await2 }).workTick + 1 ∧
    ({ w0 with gens := w0.gens ++ [gen2], awaiting := some await2 }).generation await2.number = some gen2 :=
  by decide +kernel

theorem wit_BoundaryStores_2 : w0.logicRuns = true ∧ w0.committed = true ∧
    (∀ a, w0.awaiting = some a → a.at_ ≠ w0.workTick + 1) := by decide +kernel

theorem wit_BoundaryStores_3 : wRecWanted.logicRuns = true ∧ wRecWanted.committed = true ∧ wRecWanted.recWanted = true ∧
    wRecWanted.inrec.open_ = false := by decide +kernel

theorem wit_BoundaryStores_4 :
    ({ wRecWanted with workTick := 10000000, inrec := { wRecWanted.inrec with open_ := true } }).logicRuns = true ∧
    ({ wRecWanted with workTick := 10000000, inrec := { wRecWanted.inrec with open_ := true } }).committed = true ∧
    ({ wRecWanted with workTick := 10000000, inrec := { wRecWanted.inrec with open_ := true } }).recWanted = true ∧
    ({ wRecWanted with workTick := 10000000, inrec := { wRecWanted.inrec with open_ := true } }).inrec.open_ = true ∧
    ({ wRecWanted with workTick := 10000000, inrec := { wRecWanted.inrec with open_ := true } }).inrec.scope = ({ wRecWanted with workTick := 10000000, inrec := { wRecWanted.inrec with open_ := true } }).run P.INREC_SCOPE 0 ∧
    ({ wRecWanted with workTick := 10000000, inrec := { wRecWanted.inrec with open_ := true } }).run P.INREC_MODE 0 ≠ 2 ∧
    ({ wRecWanted with workTick := 10000000, inrec := { wRecWanted.inrec with open_ := true } }).inrec.t0 ≤ ({ wRecWanted with workTick := 10000000, inrec := { wRecWanted.inrec with open_ := true } }).workTick ∧
    ({ wRecWanted with workTick := 10000000, inrec := { wRecWanted.inrec with open_ := true } }).inrec.t0 + ({ wRecWanted with workTick := 10000000, inrec := { wRecWanted.inrec with open_ := true } }).run P.INREC_SEGMENT_TICKS 0 ≤ ({ wRecWanted with workTick := 10000000, inrec := { wRecWanted.inrec with open_ := true } }).workTick + 1 :=
  by decide +kernel

theorem wit_BoundaryStores_5 : w0.logicRuns = true ∧ w0.committed = true := by decide +kernel

theorem wit_BoundaryStores_6 : wRemote.logicRuns = true ∧ wRemote.committed = true ∧
    wRemote.link.remote.filter (fun e => decide (e.due ≤ wRemote.workTick + 1)) = [remote1] := by decide +kernel

theorem wit_BoundaryLink_1 : (peered 1 { state := 2, joinAt := some 1 } w0).logicRuns = true ∧
    (peered 1 { state := 2, joinAt := some 1 } w0).committed = true ∧ (1 : Fin 8).val ≠ 0 ∧
    ((peered 1 { state := 2, joinAt := some 1 } w0).peer (1 : Fin 8).val).state = 2 ∧
    ((peered 1 { state := 2, joinAt := some 1 } w0).peer (1 : Fin 8).val).joinAt = some 1 ∧
    1 ≤ (peered 1 { state := 2, joinAt := some 1 } w0).workTick + 1 := by decide +kernel

theorem wit_BoundaryLink_2 : (peered 0 { state := 2, joinAt := some 1 } w0).logicRuns = true ∧
    (peered 0 { state := 2, joinAt := some 1 } w0).committed = true ∧
    ((peered 0 { state := 2, joinAt := some 1 } w0).peer 0).state = 2 ∧
    ((peered 0 { state := 2, joinAt := some 1 } w0).peer 0).joinAt = some 1 ∧
    1 ≤ (peered 0 { state := 2, joinAt := some 1 } w0).workTick + 1 := by decide +kernel

theorem wit_BoundaryLink_3 : (peered 7 { state := 3, lostDue := true } w0).logicRuns = true ∧
    (peered 7 { state := 3, lostDue := true } w0).committed = true ∧ (7 : Fin 8).val ≠ 0 ∧
    ((peered 7 { state := 3, lostDue := true } w0).peer (7 : Fin 8).val).lostDue = true := by decide +kernel

theorem wit_BoundaryLink_4 : (peered 0 { state := 3, lostDue := true } w0).logicRuns = true ∧
    (peered 0 { state := 3, lostDue := true } w0).committed = true ∧
    ((peered 0 { state := 3, lostDue := true } w0).peer 0).lostDue = true := by decide +kernel

theorem wit_FanTimers_1 : ((wFan { seq := .kick, kickSteps := 65535 }).work.fan (7 : Fin 8).val).seq = .kick ∧
    (wFan { seq := .kick, kickSteps := 65535 }).cfg P.FAN_KICK_TIME (7 : Fin 8).val ≤ ((wFan { seq := .kick, kickSteps := 65535 }).work.fan (7 : Fin 8).val).kickSteps :=
  by decide +kernel

theorem wit_FanTimers_2 :
    ((wFan { seq := .proving, kickSteps := 65535, retries := 0 }).work.fan (7 : Fin 8).val).seq = .proving ∧
    (wFan { seq := .proving, kickSteps := 65535, retries := 0 }).cfg P.FAN_START_TIME (7 : Fin 8).val ≤ ((wFan { seq := .proving, kickSteps := 65535, retries := 0 }).work.fan (7 : Fin 8).val).kickSteps ∧
    (wFan { seq := .proving, kickSteps := 65535, retries := 0 }).fanFast (7 : Fin 8).val ((wFan { seq := .proving, kickSteps := 65535, retries := 0 }).work.fan (7 : Fin 8).val) = false ∧
    ((wFan { seq := .proving, kickSteps := 65535, retries := 0 }).work.fan (7 : Fin 8).val).retries = 0 ∧ 0 < 3 :=
  by decide +kernel

theorem wit_FanTimers_2b :
    ((wFan { seq := .proving, kickSteps := 65535, retries := 2 }).work.fan (7 : Fin 8).val).seq = .proving ∧
    (wFan { seq := .proving, kickSteps := 65535, retries := 2 }).cfg P.FAN_START_TIME (7 : Fin 8).val ≤ ((wFan { seq := .proving, kickSteps := 65535, retries := 2 }).work.fan (7 : Fin 8).val).kickSteps ∧
    (wFan { seq := .proving, kickSteps := 65535, retries := 2 }).fanFast (7 : Fin 8).val ((wFan { seq := .proving, kickSteps := 65535, retries := 2 }).work.fan (7 : Fin 8).val) = false ∧
    ((wFan { seq := .proving, kickSteps := 65535, retries := 2 }).work.fan (7 : Fin 8).val).retries = 2 ∧ 2 < 3 :=
  by decide +kernel

theorem wit_FanTimers_3 :
    ((wFan { seq := .proving, kickSteps := 65535, retries := 3 }).work.fan (7 : Fin 8).val).seq = .proving ∧
    (wFan { seq := .proving, kickSteps := 65535, retries := 3 }).cfg P.FAN_START_TIME (7 : Fin 8).val ≤ ((wFan { seq := .proving, kickSteps := 65535, retries := 3 }).work.fan (7 : Fin 8).val).kickSteps ∧
    (wFan { seq := .proving, kickSteps := 65535, retries := 3 }).fanFast (7 : Fin 8).val ((wFan { seq := .proving, kickSteps := 65535, retries := 3 }).work.fan (7 : Fin 8).val) = false ∧
    ((wFan { seq := .proving, kickSteps := 65535, retries := 3 }).work.fan (7 : Fin 8).val).retries = 3 ∧
    ((wFan { seq := .proving, kickSteps := 65535, retries := 3 }).work.unit (fanSlot (7 : Fin 8).val)).faultDue = none :=
  by decide +kernel

theorem wit_FanTimers_4 : ((wFan { seq := .pause }).work.fan (7 : Fin 8).val).seq = .pause ∧
    ((wFan { seq := .pause }).work.fan (7 : Fin 8).val).pauseLeft = 0 := by decide +kernel

theorem wit_FanTimers_5 : ((wFan { seq := .running, lowRun := 1000000 }).work.fan (7 : Fin 8).val).seq = .running ∧
    0 < ((wFan { seq := .running, lowRun := 1000000 }).work.fan (7 : Fin 8).val).lowRun ∧
    (wFan { seq := .running, lowRun := 1000000 }).cfg P.FAN_FAULT_TIME (7 : Fin 8).val * 16 ≤ ((wFan { seq := .running, lowRun := 1000000 }).work.fan (7 : Fin 8).val).lowRun ∧
    ((wFan { seq := .running, lowRun := 1000000 }).work.unit (fanSlot (7 : Fin 8).val)).faultDue = none :=
  by decide +kernel

theorem wit_ChannelTimers_2 :
    (wChanAt 127 1 [sc P.STUCK_LIMIT 127 1] { stuckRun := 1025 }).cfg P.STUCK_LIMIT (127 : Fin 128).val ≠ 0 ∧
    (wChanAt 127 1 [sc P.STUCK_LIMIT 127 1] { stuckRun := 1025 }).cfg P.STUCK_LIMIT (127 : Fin 128).val * 1024 < ((wChanAt 127 1 [sc P.STUCK_LIMIT 127 1] { stuckRun := 1025 }).work.chan (127 : Fin 128).val).stuckRun :=
  by decide +kernel

theorem wit_ChannelTimers_3 :
    (w0.cfg P.STUCK_LIMIT (127 : Fin 128).val = 0 ∨ (w0.work.chan (127 : Fin 128).val).stuckRun ≤ w0.cfg P.STUCK_LIMIT (127 : Fin 128).val * 1024) :=
  by decide +kernel

theorem wit_ChannelTimers_3b :
    ((wChanAt 127 1 [sc P.STUCK_LIMIT 127 1] { stuckRun := 1024 }).cfg P.STUCK_LIMIT (127 : Fin 128).val = 0 ∨ ((wChanAt 127 1 [sc P.STUCK_LIMIT 127 1] { stuckRun := 1024 }).work.chan (127 : Fin 128).val).stuckRun ≤ (wChanAt 127 1 [sc P.STUCK_LIMIT 127 1] { stuckRun := 1024 }).cfg P.STUCK_LIMIT (127 : Fin 128).val * 1024) :=
  by decide +kernel

theorem wit_ChannelTimers_5 :
    (wChanAt 127 3 [sc P.OPEN_LOAD_EN 127 1] { openRun := 1024 }).cfg P.OPEN_LOAD_EN (127 : Fin 128).val = 1 ∧
    1024 ≤ ((wChanAt 127 3 [sc P.OPEN_LOAD_EN 127 1] { openRun := 1024 }).work.chan (127 : Fin 128).val).openRun :=
  by decide +kernel

theorem wit_ChannelTimers_6 :
    (w0.cfg P.OPEN_LOAD_EN (127 : Fin 128).val ≠ 1 ∨ (w0.work.chan (127 : Fin 128).val).openRun < 1024) :=
  by decide +kernel

theorem wit_ChannelTimers_6b :
    ((wChanAt 127 3 [sc P.OPEN_LOAD_EN 127 1] { openRun := 1023 }).cfg P.OPEN_LOAD_EN (127 : Fin 128).val ≠ 1 ∨ ((wChanAt 127 3 [sc P.OPEN_LOAD_EN 127 1] { openRun := 1023 }).work.chan (127 : Fin 128).val).openRun < 1024) :=
  by decide +kernel

theorem wit_LossAndFade_1 :
    ((cfgd [hd 384, sc P.LOSS_FAULT_STEPS 255 1] w0).modPlants (·.setLoop 255 { lossRun := 1 })).cfg P.LOSS_FAULT_STEPS (255 : Fin 256).val ≠ 0 ∧
    ((cfgd [hd 384, sc P.LOSS_FAULT_STEPS 255 1] w0).modPlants (·.setLoop 255 { lossRun := 1 })).cfg P.LOSS_FAULT_STEPS (255 : Fin 256).val ≤ (((cfgd [hd 384, sc P.LOSS_FAULT_STEPS 255 1] w0).modPlants (·.setLoop 255 { lossRun := 1 })).work.loop (255 : Fin 256).val).lossRun ∧
    (((cfgd [hd 384, sc P.LOSS_FAULT_STEPS 255 1] w0).modPlants (·.setLoop 255 { lossRun := 1 })).work.unit (loopSlot (255 : Fin 256).val)).faultDue = none :=
  by decide +kernel

theorem wit_LossAndFade_2 :
    ((cfgd [hd 448, sc P.PROF_LOSS_STEPS 63 1] w0).modPlants (·.setProf 63 { lossRun := 1 })).cfg P.PROF_LOSS_STEPS (63 : Fin 64).val ≠ 0 ∧
    ((cfgd [hd 448, sc P.PROF_LOSS_STEPS 63 1] w0).modPlants (·.setProf 63 { lossRun := 1 })).cfg P.PROF_LOSS_STEPS (63 : Fin 64).val ≤ (((cfgd [hd 448, sc P.PROF_LOSS_STEPS 63 1] w0).modPlants (·.setProf 63 { lossRun := 1 })).work.prof (63 : Fin 64).val).lossRun ∧
    (((cfgd [hd 448, sc P.PROF_LOSS_STEPS 63 1] w0).modPlants (·.setProf 63 { lossRun := 1 })).work.unit (profSlot (63 : Fin 64).val)).faultDue = none :=
  by decide +kernel

theorem wit_LossAndFade_3 :
    ((cfgd [hd 652, sc P.OBS_LOSS_STEPS 7 1] w0).modPlants (·.setObs 7 { lossRun := 1 })).cfg P.OBS_LOSS_STEPS (7 : Fin 8).val ≠ 0 ∧
    ((cfgd [hd 652, sc P.OBS_LOSS_STEPS 7 1] w0).modPlants (·.setObs 7 { lossRun := 1 })).cfg P.OBS_LOSS_STEPS (7 : Fin 8).val ≤ (((cfgd [hd 652, sc P.OBS_LOSS_STEPS 7 1] w0).modPlants (·.setObs 7 { lossRun := 1 })).work.observer (7 : Fin 8).val).lossRun ∧
    (((cfgd [hd 652, sc P.OBS_LOSS_STEPS 7 1] w0).modPlants (·.setObs 7 { lossRun := 1 })).work.unit (obsSlot (7 : Fin 8).val)).faultDue = none :=
  by decide +kernel

theorem wit_LossAndFade_4 :
    ((w0.modPlants (·.setChurn 31 { bandLeft := true })).work.churn (31 : Fin 32).val).fadeCount = 0 ∧
    ((w0.modPlants (·.setChurn 31 { bandLeft := true })).work.churn (31 : Fin 32).val).bandLeft = true ∧
    ((w0.modPlants (·.setChurn 31 { bandLeft := true })).work.unit (churnSlot (31 : Fin 32).val)).st ≠ .stopping :=
  by decide +kernel

theorem wit_LossAndFade_5 :
    (((cfgd [sc P.CHURN_PHASE_MODE 31 1] w0).modPlants (·.setChurn 31 { lostSince := true })).work.churn (31 : Fin 32).val).fadeCount = 0 ∧
    ((((cfgd [sc P.CHURN_PHASE_MODE 31 1] w0).modPlants (·.setChurn 31 { lostSince := true })).work.churn (31 : Fin 32).val).bandLeft = false ∨ (((cfgd [sc P.CHURN_PHASE_MODE 31 1] w0).modPlants (·.setChurn 31 { lostSince := true })).work.unit (churnSlot (31 : Fin 32).val)).st = .stopping) ∧
    ((cfgd [sc P.CHURN_PHASE_MODE 31 1] w0).modPlants (·.setChurn 31 { lostSince := true })).cfg P.CHURN_PHASE_MODE (31 : Fin 32).val = 1 ∧
    (((cfgd [sc P.CHURN_PHASE_MODE 31 1] w0).modPlants (·.setChurn 31 { lostSince := true })).work.churn (31 : Fin 32).val).lostSince = true :=
  by decide +kernel

theorem wit_LossAndFade_6 :
    ((w0.modPlants (·.setChurn 31 { fadeCount := 1 })).work.churn (31 : Fin 32).val).fadeCount ≠ 0 := by decide +kernel

theorem wit_ProgramEvents_1 : wProg.progAdvances (3 : Fin 4).val = true ∧
    (wProg.work.prog (3 : Fin 4).val).entryDue = false ∧
    let p := wProg.work.prog (3 : Fin 4).val
    let st := wProg.prgStepAt (3 : Fin 4).val p.step
    (p.condMet = false ∨ wProg.workTick - p.entry < st.minTime * 1024) ∧
    st.phase ≠ 0 ∧ st.timeout ≠ 0 ∧ st.timeout * 61440 ≤ wProg.workTick - p.entry := by decide +kernel

theorem wit_ProgramEvents_2 : wProgLost.progAdvances (3 : Fin 4).val = true ∧
    (wProgLost.work.unit (progSlot (3 : Fin 4).val)).faultDue = none ∧
    let p := wProgLost.work.prog (3 : Fin 4).val
    p.condUnusable = true ∧
    wProgLost.cfg P.PRG_LOSS_TIME (3 : Fin 4).val ≠ 0 := by decide +kernel

theorem wit_ProgramEvents_3 :
    (w0.cfg P.PRG_LOSS_TIME (3 : Fin 4).val = 0 ∨ (w0.work.prog (3 : Fin 4).val).condUnusable = false) :=
  by decide +kernel

theorem wit_ProgramEvents_3b :
    (wProg.cfg P.PRG_LOSS_TIME (3 : Fin 4).val = 0 ∨ (wProg.work.prog (3 : Fin 4).val).condUnusable = false) :=
  by decide +kernel

theorem wit_ProgramEvents_4 : (wChan.modPlants (·.setProg 3 { actions := [(2, 1)] })).logicRuns = true ∧
    (wChan.modPlants (·.setProg 3 { actions := [(2, 1)] })).committed = true ∧
    ((wChan.modPlants (·.setProg 3 { actions := [(2, 1)] })).work.prog (3 : Fin 4).val).actions = [(2, 1)] ∧
    ((wChan.modPlants (·.setProg 3 { actions := [(2, 1)] })).work.prog (3 : Fin 4).val).faultStop = none ∧ 1 < 1024 ∧
    slotKind 1 = 0x03 ∧ ((wChan.modPlants (·.setProg 3 { actions := [(2, 1)] })).work.unit 1).st = .active :=
  by decide +kernel

theorem wit_ChainTrips_1 :
    ((wChain { running := true } {} false).chainMembers (31 : Fin 32).val)[(0 : Fin 16).val]? = some member0 ∧
    let c := (wChain { running := true } {} false).work.chain (31 : Fin 32).val
    let x := c.member (0 : Fin 16).val
    x.plugged = false ∧
    x.running = true ∧ x.proven = false ∧ member0.prove ≤ x.sinceStart := by decide +kernel

theorem wit_ChainTrips_2 :
    ((wChain { running := true, proven := true } {} false).chainMembers (31 : Fin 32).val)[(0 : Fin 16).val]? = some member0 ∧
    let c := (wChain { running := true, proven := true } {} false).work.chain (31 : Fin 32).val
    let x := c.member (0 : Fin 16).val
    x.plugged = false ∧
    x.running = true ∧ x.proven = true ∧ member0.motion ≤ x.lowRun := by decide +kernel

theorem wit_ChainTrips_3 :
    (((wChain {} {} false).work.chain (31 : Fin 32).val).member (0 : Fin 16).val).running = false := by decide +kernel

theorem wit_ChainTrips_4 : 1 ≤ 1 := by decide +kernel

theorem wit_ChainTrips_5 :
    ((wChain {} { running := true } true).chainMembers (31 : Fin 32).val)[(1 : Fin 16).val]? = some member0 ∧
    0 < (1 : Fin 16).val ∧
    let c := (wChain {} { running := true } true).work.chain (31 : Fin 32).val
    c.stoppingFlow = true ∧
    (c.member (1 : Fin 16).val).running = true ∧ (c.member ((1 : Fin 16).val - 1)).running = false ∧
    ((c.member ((1 : Fin 16).val - 1)).everRan = false ∨ member0.purge ≤ (c.member ((1 : Fin 16).val - 1)).sinceStop) :=
  by decide +kernel

theorem wit_ChainTrips_6 : ((wChain {} {} false).work.chain (31 : Fin 32).val).stoppingFlow = false := by decide +kernel

theorem wit_SamplesAndRounds_1 :
    (({ wBin {} with workTick := (wBin {}).cfg P.BIN_PHASE 63 }).unit (binSlot (63 : Fin 64).val)).st = .active ∧
    ({ wBin {} with workTick := (wBin {}).cfg P.BIN_PHASE 63 }).binSampleAt (63 : Fin 64).val ({ wBin {} with workTick := (wBin {}).cfg P.BIN_PHASE 63 }).workTick = true :=
  by decide +kernel

theorem wit_SamplesAndRounds_2 :
    ((w0.unit (binSlot (63 : Fin 64).val)).st ≠ .active ∨ w0.binSampleAt (63 : Fin 64).val w0.workTick = false) :=
  by decide +kernel

theorem wit_SamplesAndRounds_2b :
    ((({ wBin {} with workTick := (wBin {}).cfg P.BIN_PHASE 63 + 1 }).unit (binSlot (63 : Fin 64).val)).st ≠ .active ∨ ({ wBin {} with workTick := (wBin {}).cfg P.BIN_PHASE 63 + 1 }).binSampleAt (63 : Fin 64).val ({ wBin {} with workTick := (wBin {}).cfg P.BIN_PHASE 63 + 1 }).workTick = false) :=
  by decide +kernel

theorem wit_SamplesAndRounds_3 :
    ((wBin { minOnHold := true, permit := true }).work.bin (63 : Fin 64).val).minOnHold = true ∧
    ((wBin { minOnHold := true, permit := true }).work.bin (63 : Fin 64).val).permit = true ∧
    (wBin { minOnHold := true, permit := true }).cfg P.BIN_AER_MIN_ON (63 : Fin 64).val * 1024 ≤ (wBin { minOnHold := true, permit := true }).workTick - ((wBin { minOnHold := true, permit := true }).work.bin (63 : Fin 64).val).changedAt :=
  by decide +kernel

theorem wit_SamplesAndRounds_4 : ((wBin { minOffHold := true }).work.bin (63 : Fin 64).val).minOffHold = true ∧
    ((wBin { minOffHold := true }).work.bin (63 : Fin 64).val).permit = false ∧
    (wBin { minOffHold := true }).cfg P.BIN_AER_MIN_OFF (63 : Fin 64).val * 1024 ≤ (wBin { minOffHold := true }).workTick - ((wBin { minOffHold := true }).work.bin (63 : Fin 64).val).changedAt :=
  by decide +kernel

theorem wit_SamplesAndRounds_5 :
    (match ((w0.modPlants (·.setComb 63 { missRun := [(47, 255)] })).work.comb (63 : Fin 64).val).last with | some r => r.limit | none => (w0.modPlants (·.setComb 63 { missRun := [(47, 255)] })).cfg P.COMB_MISS_LIMIT (63 : Fin 64).val) ≤ Tab.get 0 ((w0.modPlants (·.setComb 63 { missRun := [(47, 255)] })).work.comb (63 : Fin 64).val).missRun (47 : Fin 48).val ∧
    512 + (47 : Fin 48).val ∉ ((w0.modPlants (·.setComb 63 { missRun := [(47, 255)] })).work.comb (63 : Fin 64).val).raised :=
  by decide +kernel

theorem wit_SamplesAndRounds_7 : (∀ r ∈ [(⟨1000, 4500⟩ : ReadSlot)], r.pulseUa ≤ r.baseUa + 3500) := by decide +kernel

theorem wit_SamplesAndRounds_8 : (wProbe none).logicRuns = true ∧
    (wProbe none).has (probeSlot (0 : Fin 64).val) = true ∧ (wProbe none).rests (probeSlot (0 : Fin 64).val) = false ∧
    (wProbe none).tick % (wProbe none).probePeriod (0 : Fin 64).val = (wProbe none).probeSlotAt (0 : Fin 64).val ∧
    (∀ r, ((wProbe none).fprobe (0 : Fin 64).val).run = some r → r.start ≠ (wProbe none).tick) ∧
    ((wProbe none).unit (probeSlot (0 : Fin 64).val)).st = .active ∧
    ((wProbe none).bank ((wProbe none).probeDrive (0 : Fin 64).val / 8)).state = .inService ∧
    (wProbe none).membersActive (0 : Fin 64).val = true := by decide +kernel

theorem wit_SamplesAndRounds_9 : (wProbe (some run0)).logicRuns = true ∧
    ((wProbe (some run0)).fprobe (0 : Fin 64).val).run = some run0 ∧
    ((wProbe (some run0)).fprobe (0 : Fin 64).val).ready = none := by decide +kernel

theorem wit_SamplesAndRounds_10 : (wComb none).logicRuns = true ∧ (wComb none).has (combSlot (63 : Fin 64).val) = true ∧
    ((wComb none).unit (combSlot (63 : Fin 64).val)).st = .active ∧
    (wComb none).roundAt (63 : Fin 64).val (wComb none).tick = true ∧
    ((wComb none).view.unit (chanSlot ((wComb none).lineChannel (63 : Fin 64).val))).st = .active ∧
    ((wComb none).bank ((wComb none).lineChannel (63 : Fin 64).val / 8)).guardTripped = false := by decide +kernel

theorem wit_SamplesAndRounds_11 : (wComb (some round0)).logicRuns = true ∧
    ((wComb (some round0)).fcomb (63 : Fin 64).val).ended = none ∧
    ((wComb (some round0)).fcomb (63 : Fin 64).val).run = some round0 ∧
    ((wComb (some round0)).fcomb (63 : Fin 64).val).ready = none := by decide +kernel

theorem wit_SamplesAndRounds_12 : (⟨true, [], ⟨0, 0⟩⟩ : RoundMeas).complete = true ∧
    roundRecord round0 ([] : List MapEntry) (⟨true, [], ⟨0, 0⟩⟩ : RoundMeas) = some record0 := by decide +kernel

theorem wit_GuardsAndFrames_1 : w0.refreshes (15 : Fin 16).val = true ∧
    (w0.bank (15 : Fin 16).val).seqDown = (w0.bank (15 : Fin 16).val).seqNext := by decide +kernel

theorem wit_GuardsAndFrames_2 : w0.refreshes (15 : Fin 16).val = true ∧
    (false = false ∨ (w0.bank (15 : Fin 16).val).seqDown ≠ (w0.bank (15 : Fin 16).val).seqNext) := by decide +kernel

theorem wit_GuardsAndFrames_2b : (w0.setBank 15 { w0.bank 15 with seqDown := 5 }).refreshes (15 : Fin 16).val = true ∧
    (true = false ∨ ((w0.setBank 15 { w0.bank 15 with seqDown := 5 }).bank (15 : Fin 16).val).seqDown ≠ ((w0.setBank 15 { w0.bank 15 with seqDown := 5 }).bank (15 : Fin 16).val).seqNext) :=
  by decide +kernel

theorem wit_GuardsAndFrames_3 : ({ w0 with vinOn := false }).refreshes (15 : Fin 16).val = false := by decide +kernel

theorem wit_GuardsAndFrames_4 : (wFanDom false).vinOn = true ∧ (wFanDom false).logicRuns = true ∧
    (wFanDom false).fanDom.powered = true ∧ (wFanDom false).fanDom.seqDown = (wFanDom false).fanDom.seqNext :=
  by decide +kernel

theorem wit_GuardsAndFrames_5 : (chanAt 127 3 []).refreshes (15 : Fin 16).val = true ∧
    ((chanAt 127 3 []).bank (15 : Fin 16).val).guardArmed = true ∧
    (chanAt 127 3 []).has (chanSlot (8 * (15 : Fin 16).val + (7 : Fin 8).val)) = true ∧
    ((chanAt 127 3 []).bank (15 : Fin 16).val).seqDown = ((chanAt 127 3 []).bank (15 : Fin 16).val).seqNext :=
  by decide +kernel

theorem wit_GuardsAndFrames_6 : ((wGuard false 0).bank (15 : Fin 16).val).powered = true ∧
    ((wGuard false 0).bank (15 : Fin 16).val).guardArmed = true ∧
    ((wGuard false 0).bank (15 : Fin 16).val).guardTripped = false := by decide +kernel

theorem wit_GuardsAndFrames_7 :
    (((wGuard true 0).bank (15 : Fin 16).val).powered = false ∨ ((wGuard true 0).bank (15 : Fin 16).val).guardArmed = false ∨ ((wGuard true 0).bank (15 : Fin 16).val).guardTripped = true) :=
  by decide +kernel

theorem wit_GuardsAndFrames_8 :
    ((chanAt 127 3 []).setBank 15 { (chanAt 127 3 []).bank 15 with guardTripped := true }).driveRow 127 = 5 ∧
    ((chanAt 127 3 []).setBank 15 { (chanAt 127 3 []).bank 15 with guardTripped := true }).mode 127 = 3 :=
  by decide +kernel

theorem wit_GuardsAndFrames_9 : ((wGuard true 4).bank (15 : Fin 16).val).guardTripped = true ∧
    ((wGuard true 4).bank (15 : Fin 16).val).state = .inService ∧ 4 ≤ ((wGuard true 4).bank (15 : Fin 16).val).goodUp :=
  by decide +kernel

theorem wit_GuardsAndFrames_10 :
    (((wGuard true 3).bank (15 : Fin 16).val).guardTripped = false ∨ ((wGuard true 3).bank (15 : Fin 16).val).state ≠ .inService ∨ ((wGuard true 3).bank (15 : Fin 16).val).goodUp < 4) :=
  by decide +kernel

theorem wit_GuardsAndFrames_11 : (wFanDom false).fanDom.powered = true ∧ (wFanDom false).fanDom.guardArmed = true ∧
    (wFanDom false).fanDom.guardTripped = false := by decide +kernel

theorem wit_BanksAndUplink_1 : w0.vinOn = true ∧ w0.logicRuns = true ∧ (w0.bank (15 : Fin 16).val).state = .inService ∧
    (uplink0 true).intact = true := by decide +kernel

theorem wit_BanksAndUplink_2 : wLatched.vinOn = true ∧ wLatched.logicRuns = true ∧
    (wLatched.bank (15 : Fin 16).val).state = .inService ∧ uplinkDi.intact = true ∧ uplinkDi.onTime = true ∧
    wLatched.deadlineAt < wLatched.tick ∧ 1 ≤ wLatched.tick ∧ uplinkDi.meas = [measDi] ∧ measDi.convs = [] ∧
    measDi.ch / 8 = (15 : Fin 16).val ∧ wLatched.has (chanSlot measDi.ch) = true ∧
    modeDi (wLatched.mode measDi.ch) = true ∧ wLatched.tick % chanPeriod wLatched.content measDi.ch = 0 ∧
    (wLatched.fch measDi.ch).formed = none ∧
    (wLatched.fch measDi.ch).latched = some (wLatched.tick - 1, (⟨0, 0, 0⟩ : Conv)) := by decide +kernel

theorem wit_BanksAndUplink_3 : w0.vinOn = true ∧ w0.logicRuns = true ∧ (w0.bank (15 : Fin 16).val).state = .inService ∧
    (uplink0 false).intact = false := by decide +kernel

theorem wit_BanksAndUplink_4 :
    (({ w0 with vinOn := false }).vinOn = false ∨ ({ w0 with vinOn := false }).logicRuns = false ∨ (({ w0 with vinOn := false }).bank (15 : Fin 16).val).state ≠ .inService) :=
  by decide +kernel

theorem wit_BanksAndUplink_4b :
    ((wBankSt .starting 0).vinOn = false ∨ (wBankSt .starting 0).logicRuns = false ∨ ((wBankSt .starting 0).bank (15 : Fin 16).val).state ≠ .inService) :=
  by decide +kernel

theorem wit_BanksAndUplink_5 : (wFanDom false).vinOn = true ∧ (wFanDom false).logicRuns = true ∧
    (wFanDom false).fanDom.powered = true := by decide +kernel

theorem wit_BanksAndUplink_6 : ((wBankSt .starting 0).bank (15 : Fin 16).val).state = .starting := by decide +kernel

theorem wit_BanksAndUplink_7 : ((wGuard false 0).bank (15 : Fin 16).val).state ≠ .starting ∧
    (((wGuard false 0).bank (15 : Fin 16).val).state ≠ .inService ∨ ((wGuard false 0).bank (15 : Fin 16).val).guardArmed = true) :=
  by decide +kernel

theorem wit_BanksAndUplink_8 : (w0.bank (15 : Fin 16).val).state = .inService := by decide +kernel

theorem wit_BanksAndUplink_9 : ((wBankSt .failed 0).bank (15 : Fin 16).val).state ≠ .inService := by decide +kernel

theorem wit_BanksAndUplink_10 : ((wBankSt .failed 2).bank (15 : Fin 16).val).state = .failed ∧
    ((wBankSt .failed 2).bank (15 : Fin 16).val).restarts < 3 ∧
    ((wBankSt .failed 2).bank (15 : Fin 16).val).restartAt ≤ (wBankSt .failed 2).tick := by decide +kernel

theorem wit_BanksAndUplink_11 : ((wBankSt .failed 1).bank (15 : Fin 16).val).state = .failed ∧
    ((wBankSt .failed 1).bank (15 : Fin 16).val).restarts < 2 ∧
    ((wBankSt .failed 1).bank (15 : Fin 16).val).restartAt ≤ (wBankSt .failed 1).tick := by decide +kernel

theorem wit_BanksAndUplink_12 : ((wBankSt .failed 2).bank (15 : Fin 16).val).state = .failed ∧
    ((wBankSt .failed 2).bank (15 : Fin 16).val).restarts = 2 ∧
    ((wBankSt .failed 2).bank (15 : Fin 16).val).restartAt ≤ (wBankSt .failed 2).tick := by decide +kernel

theorem wit_BanksAndUplink_13 :
    ((w0.bank (15 : Fin 16).val).state ≠ .failed ∨ 3 ≤ (w0.bank (15 : Fin 16).val).restarts ∨ w0.tick < (w0.bank (15 : Fin 16).val).restartAt) :=
  by decide +kernel

theorem wit_BanksAndUplink_13b :
    (((wBankSt .failed 3).bank (15 : Fin 16).val).state ≠ .failed ∨ 3 ≤ ((wBankSt .failed 3).bank (15 : Fin 16).val).restarts ∨ (wBankSt .failed 3).tick < ((wBankSt .failed 3).bank (15 : Fin 16).val).restartAt) :=
  by decide +kernel

theorem wit_BanksAndUplink_14 : (({ w0 with tick := 1024 }).bank (15 : Fin 16).val).powered = true ∧
    (({ w0 with tick := 1024 }).bank (15 : Fin 16).val).loadBlock < ({ w0 with tick := 1024 }).tick / 1024 :=
  by decide +kernel

theorem wit_BanksAndUplink_15 :
    ((w0.bank (15 : Fin 16).val).powered = false ∨ w0.tick / 1024 ≤ (w0.bank (15 : Fin 16).val).loadBlock) :=
  by decide +kernel

theorem wit_DigitalEdges_1 : (chanAt 127 1 []).fieldAlive (127 : Fin 128).val = true ∧
    modeDi ((chanAt 127 1 []).mode (127 : Fin 128).val) = true ∧
    ((chanAt 127 1 []).fch (127 : Fin 128).val).level = !true := by decide +kernel

theorem wit_DigitalEdges_2 :
    (((chanAt 127 1 []).fch (127 : Fin 128).val).level = false ∨ modeDi ((chanAt 127 1 []).mode (127 : Fin 128).val) = false ∨ (chanAt 127 1 []).fieldAlive (127 : Fin 128).val = false) :=
  by decide +kernel

theorem wit_DigitalEdges_2b :
    ((w0.fch (127 : Fin 128).val).level = true ∨ modeDi (w0.mode (127 : Fin 128).val) = false ∨ w0.fieldAlive (127 : Fin 128).val = false) :=
  by decide +kernel

theorem wit_OutputEvents_1 : (chanAt 127 3 []).fieldAlive ((chanAt 127 3 []).pairLead (127 : Fin 128).val) = true ∧
    modeDo ((chanAt 127 3 []).mode ((chanAt 127 3 []).pairLead (127 : Fin 128).val)) = true ∧
    ((chanAt 127 3 []).fch ((chanAt 127 3 []).pairLead (127 : Fin 128).val)).trip = none := by decide +kernel

theorem wit_OutputEvents_2 : (chanAt 127 3 []).fieldAlive ((chanAt 127 3 []).pairLead (127 : Fin 128).val) = true ∧
    modeDo ((chanAt 127 3 []).mode ((chanAt 127 3 []).pairLead (127 : Fin 128).val)) = true ∧
    ((chanAt 127 3 []).fch ((chanAt 127 3 []).pairLead (127 : Fin 128).val)).trip = none ∧
    let c := (chanAt 127 3 []).pairLead (127 : Fin 128).val
    let d := fun j : Fin 8 => (chanAt 127 3 []).pairLead (8 * (c / 8) + j.val)
    (∀ j ∈ ([7] : List (Fin 8)), d j = c ∨ modeDo ((chanAt 127 3 []).mode (d j)) = false) :=
  by decide +kernel

theorem wit_OutputEvents_3 :
    (chanAt 127 3 [sc P.CH_MODE 120 3, hd (chanSlot 120)]).fieldAlive ((chanAt 127 3 [sc P.CH_MODE 120 3, hd (chanSlot 120)]).pairLead (127 : Fin 128).val) = true ∧
    modeDo ((chanAt 127 3 [sc P.CH_MODE 120 3, hd (chanSlot 120)]).mode ((chanAt 127 3 [sc P.CH_MODE 120 3, hd (chanSlot 120)]).pairLead (127 : Fin 128).val)) = true ∧
    ((chanAt 127 3 [sc P.CH_MODE 120 3, hd (chanSlot 120)]).fch ((chanAt 127 3 [sc P.CH_MODE 120 3, hd (chanSlot 120)]).pairLead (127 : Fin 128).val)).trip = none ∧
    let c := (chanAt 127 3 [sc P.CH_MODE 120 3, hd (chanSlot 120)]).pairLead (127 : Fin 128).val
    let o := 8 * (c / 8) + (0 : Fin 8).val
    let d := fun j : Fin 8 => (chanAt 127 3 [sc P.CH_MODE 120 3, hd (chanSlot 120)]).pairLead (8 * (c / 8) + j.val)
    o ≠ c ∧
    modeDo ((chanAt 127 3 [sc P.CH_MODE 120 3, hd (chanSlot 120)]).mode o) = true ∧
    (∀ j ∈ ([0, 7] : List (Fin 8)), d j = o ∨ d j = c ∨ modeDo ((chanAt 127 3 [sc P.CH_MODE 120 3, hd (chanSlot 120)]).mode (d j)) = false) ∧
    (∃ j ∈ ([0, 7] : List (Fin 8)), d j = o) := by decide +kernel

theorem wit_OutputEvents_4 :
    (chanAt 126 3 [sc P.DO_PAIR 126 1]).fieldAlive ((chanAt 126 3 [sc P.DO_PAIR 126 1]).pairLead (127 : Fin 128).val) = true ∧
    modeDo ((chanAt 126 3 [sc P.DO_PAIR 126 1]).mode ((chanAt 126 3 [sc P.DO_PAIR 126 1]).pairLead (127 : Fin 128).val)) = true ∧
    (chanAt 126 3 [sc P.DO_PAIR 126 1]).cfg P.DO_PAIR ((chanAt 126 3 [sc P.DO_PAIR 126 1]).pairLead (127 : Fin 128).val) = 1 ∧
    ((chanAt 126 3 [sc P.DO_PAIR 126 1]).fch ((chanAt 126 3 [sc P.DO_PAIR 126 1]).pairLead (127 : Fin 128).val)).trip = none :=
  by decide +kernel

theorem wit_OutputEvents_5 :
    ((((chanAt 127 3 []).setFch 127 { (chanAt 127 3 []).fch 127 with trip := some 0x10 }).fch (((chanAt 127 3 []).setFch 127 { (chanAt 127 3 []).fch 127 with trip := some 0x10 }).pairLead (127 : Fin 128).val)).trip.isSome = true ∨ ((chanAt 127 3 []).setFch 127 { (chanAt 127 3 []).fch 127 with trip := some 0x10 }).fieldAlive (((chanAt 127 3 []).setFch 127 { (chanAt 127 3 []).fch 127 with trip := some 0x10 }).pairLead (127 : Fin 128).val) = false ∨ modeDo (((chanAt 127 3 []).setFch 127 { (chanAt 127 3 []).fch 127 with trip := some 0x10 }).mode (((chanAt 127 3 []).setFch 127 { (chanAt 127 3 []).fch 127 with trip := some 0x10 }).pairLead (127 : Fin 128).val)) = false) :=
  by decide +kernel

theorem wit_OutputEvents_5b :
    ((w0.fch (w0.pairLead (127 : Fin 128).val)).trip.isSome = true ∨ w0.fieldAlive (w0.pairLead (127 : Fin 128).val) = false ∨ modeDo (w0.mode (w0.pairLead (127 : Fin 128).val)) = false) :=
  by decide +kernel

theorem wit_OutputEvents_6 : (chanAt 127 8 []).fieldAlive (127 : Fin 128).val = true ∧
    (chanAt 127 8 []).mode (127 : Fin 128).val = 8 ∧ ((chanAt 127 8 []).fch (127 : Fin 128).val).trip = none :=
  by decide +kernel

theorem wit_OutputEvents_7 : (w0.fieldAlive (127 : Fin 128).val = false ∨ w0.mode (127 : Fin 128).val ≠ 8) :=
  by decide +kernel

theorem wit_OutputEvents_8 : (chanAt 127 7 []).fieldAlive (127 : Fin 128).val = true ∧
    (chanAt 127 7 []).mode (127 : Fin 128).val = 7 := by decide +kernel

theorem wit_OutputEvents_9 : (w0.fieldAlive (127 : Fin 128).val = false ∨ w0.mode (127 : Fin 128).val ≠ 7) :=
  by decide +kernel

theorem wit_OutputEvents_10 : ((w0.setFch 127 { pulseNext := some 5 }).fch (127 : Fin 128).val).pulseNext = some 5 :=
  by decide +kernel

theorem wit_OutputEvents_11 : (w0.fch (127 : Fin 128).val).pulseNext = none := by decide +kernel

theorem wit_OutputEvents_12 : (chanAt 127 0x0B []).fieldAlive (127 : Fin 128).val = true ∧
    (chanAt 127 0x0B []).mode (127 : Fin 128).val = 0x0B ∧ ((chanAt 127 0x0B []).fch (127 : Fin 128).val).trip = none :=
  by decide +kernel

theorem wit_OutputEvents_13 : (w0.fieldAlive (127 : Fin 128).val = false ∨ w0.mode (127 : Fin 128).val ≠ 0x0B) :=
  by decide +kernel

theorem wit_OutputEvents_14 : (3 : Fin 8).val < 4 ∧
    ({ cfgd [sc P.FAN_SUPPLY 3 1] w0 with fanDom := (wFanDom false).fanDom }).fanDom.powered = true ∧
    ({ cfgd [sc P.FAN_SUPPLY 3 1] w0 with fanDom := (wFanDom false).fanDom }).cfg P.FAN_SUPPLY (3 : Fin 8).val ≠ 0 :=
  by decide +kernel

theorem wit_OutputEvents_15 :
    (4 ≤ (4 : Fin 8).val ∨ w0.fanDom.powered = false ∨ w0.cfg P.FAN_SUPPLY (4 : Fin 8).val = 0) := by decide +kernel

theorem wit_OutputEvents_15b :
    (4 ≤ (0 : Fin 8).val ∨ (wFanDom false).fanDom.powered = false ∨ (wFanDom false).cfg P.FAN_SUPPLY (0 : Fin 8).val = 0) :=
  by decide +kernel

theorem wit_OutputEvents_16 : wExc.logicRuns = true ∧ wExc.evaluated = false ∧ wExc.committed = false ∧
    wExc.mode (120 : Fin 128).val = 9 ∧ wExc.excOn (resForce wExc.content (120 : Fin 128).val) = true ∧
    wExc.workTick % chanPeriod wExc.content (120 : Fin 128).val = 0 ∧
    let f := wExc.fch (120 : Fin 128).val
    let want := wExc.run P.EXC_CURRENT (resForce wExc.content (120 : Fin 128).val)
    want ≠ 0 ∧
    f.excNow ≠ want := by decide +kernel

theorem wit_OutputEvents_17 : (w0.logicRuns = false ∨ w0.evaluated = true ∨ w0.committed = true) := by decide +kernel

theorem wit_JobsEnd_1 : (jobbed (jobOf 0x0602 .running []) w0).job 1 = some (jobOf 0x0602 .running []) ∧
    ((JobState.done) = .done ∨ (JobState.done) = .failed ∨ (JobState.done) = .cancelled) := by decide +kernel

theorem wit_JobsEnd_2 : (∀ k ∈ w0.jobs, k.state ≠ .queued ∧ k.cancelDue = false) := by decide +kernel

theorem wit_JobsEnd_3 : (∀ x ∈ (jobbed (jobOf 0x0602 .done []) w0).jobs, x.handle = 1 → x = (jobOf 0x0602 .done [])) ∧
    (jobOf 0x0602 .done []) ∈ (jobbed (jobOf 0x0602 .done []) w0).jobs ∧ (jobOf 0x0602 .done []).state.ended = true :=
  by decide +kernel

theorem wit_JobsEnd_4 : (jobbed (jobOf 0x0602 .running []) w0).job 1 = some (jobOf 0x0602 .running []) ∧
    (jobOf 0x0602 .running []).occupies = true ∧ (jobOf 0x0602 .running []).cancelDue = false ∧
    (jobOf 0x0602 .running []).pauseDue = false ∧
    (∀ k ∈ (jobbed (jobOf 0x0602 .running []) w0).jobs, k.state = .queued → jobClass (jobOf 0x0602 .running []).opcode ≤ jobClass k.opcode) :=
  by decide +kernel

theorem wit_JobsEnd_5 : (jobbed jobCancel0 w0).job 1 = some jobCancel0 ∧ jobCancel0.occupies = true ∧
    jobCancel0.cancelDue = true ∧ jobCancel0.change = false ∧ jobCancel0.opcode ≠ 0x0803#16 := by decide +kernel

theorem wit_JobsEnd_6 : (jobbed jobPause0 w0).job 1 = some jobPause0 ∧ jobPause0.occupies = true ∧
    jobPause0.cancelDue = false ∧ jobPause0.pauseDue = true ∧ jobPause0.opcode ≠ 0x0803#16 := by decide +kernel

theorem wit_JobsEnd_7 : wTwoJobs.job 1 = some (jobOf 0x0602 .running []) ∧ (jobOf 0x0602 .running []).occupies = true ∧
    (jobOf 0x0602 .running []).cancelDue = false ∧ (jobOf 0x0602 .running []).pauseDue = false ∧
    jobSecond ∈ wTwoJobs.jobs ∧ jobSecond.state = .queued ∧
    jobClass jobSecond.opcode < jobClass (jobOf 0x0602 .running []).opcode := by decide +kernel

theorem wit_JobsEnd_8 : w0.job 1 = none := by decide +kernel

theorem wit_JobsEnd_9 : (jobbed (jobOf 0x0402 .running []) wPend).job 1 = some (jobOf 0x0402 .running []) ∧
    (jobOf 0x0402 .running []).occupies = true ∧ (jobOf 0x0402 .running []).cancelDue = false ∧
    (jobOf 0x0402 .running []).pauseDue = false ∧ (jobOf 0x0402 .running []).opcode = 0x0402#16 ∧
    (jobbed (jobOf 0x0402 .running []) wPend).changeBarred = none ∧
    (jobbed (jobOf 0x0402 .running []) wPend).pendGen = some pend0 ∧
    (jobOf 0x0402 .running []).session = some pend0.holder ∧
    pend0.base = (jobbed (jobOf 0x0402 .running []) wPend).activeGen ∧
    (jobbed (jobOf 0x0402 .running []) wPend).validate (dropVacant pend0.content) = none ∧
    ((jobOf 0x0402 .running []).wantedSet = false ∨ (jobbed (jobOf 0x0402 .running []) wPend).tick + 2 ≤ (jobOf 0x0402 .running []).wanted) :=
  by decide +kernel

theorem wit_JobsEnd_9b :
    (jobbed { jobOf 0x0402 .running [] with wantedSet := true, wanted := 2 } wPend).job 1 = some ({ jobOf 0x0402 .running [] with wantedSet := true, wanted := 2 }) ∧
    ({ jobOf 0x0402 .running [] with wantedSet := true, wanted := 2 }).occupies = true ∧
    ({ jobOf 0x0402 .running [] with wantedSet := true, wanted := 2 }).cancelDue = false ∧
    ({ jobOf 0x0402 .running [] with wantedSet := true, wanted := 2 }).pauseDue = false ∧
    ({ jobOf 0x0402 .running [] with wantedSet := true, wanted := 2 }).opcode = 0x0402#16 ∧
    (jobbed { jobOf 0x0402 .running [] with wantedSet := true, wanted := 2 } wPend).changeBarred = none ∧
    (jobbed { jobOf 0x0402 .running [] with wantedSet := true, wanted := 2 } wPend).pendGen = some pend0 ∧
    ({ jobOf 0x0402 .running [] with wantedSet := true, wanted := 2 }).session = some pend0.holder ∧
    pend0.base = (jobbed { jobOf 0x0402 .running [] with wantedSet := true, wanted := 2 } wPend).activeGen ∧
    (jobbed { jobOf 0x0402 .running [] with wantedSet := true, wanted := 2 } wPend).validate (dropVacant pend0.content) = none ∧
    (({ jobOf 0x0402 .running [] with wantedSet := true, wanted := 2 }).wantedSet = false ∨ (jobbed { jobOf 0x0402 .running [] with wantedSet := true, wanted := 2 } wPend).tick + 2 ≤ ({ jobOf 0x0402 .running [] with wantedSet := true, wanted := 2 }).wanted) :=
  by decide +kernel

theorem wit_JobsEnd_10 : (jobbed (jobOf 0x0402 .running []) wBadPend).job 1 = some (jobOf 0x0402 .running []) ∧
    (jobOf 0x0402 .running []).occupies = true ∧ (jobOf 0x0402 .running []).cancelDue = false ∧
    (jobOf 0x0402 .running []).pauseDue = false ∧ (jobOf 0x0402 .running []).opcode = 0x0402#16 ∧
    (jobbed (jobOf 0x0402 .running []) wBadPend).changeBarred = none ∧
    (jobbed (jobOf 0x0402 .running []) wBadPend).pendGen = some badPend ∧
    (jobOf 0x0402 .running []).session = some badPend.holder ∧
    badPend.base = (jobbed (jobOf 0x0402 .running []) wBadPend).activeGen ∧
    (jobbed (jobOf 0x0402 .running []) wBadPend).validate (dropVacant badPend.content) = some badFault :=
  by decide +kernel

theorem wit_JobsEnd_11 :
    (jobbed { jobOf 0x0402 .running [] with wantedSet := true, wanted := 1 } wPend).job 1 = some ({ jobOf 0x0402 .running [] with wantedSet := true, wanted := 1 }) ∧
    ({ jobOf 0x0402 .running [] with wantedSet := true, wanted := 1 }).occupies = true ∧
    ({ jobOf 0x0402 .running [] with wantedSet := true, wanted := 1 }).cancelDue = false ∧
    ({ jobOf 0x0402 .running [] with wantedSet := true, wanted := 1 }).pauseDue = false ∧
    ({ jobOf 0x0402 .running [] with wantedSet := true, wanted := 1 }).opcode = 0x0402#16 ∧
    (jobbed { jobOf 0x0402 .running [] with wantedSet := true, wanted := 1 } wPend).changeBarred = none ∧
    (jobbed { jobOf 0x0402 .running [] with wantedSet := true, wanted := 1 } wPend).pendGen = some pend0 ∧
    ({ jobOf 0x0402 .running [] with wantedSet := true, wanted := 1 }).session = some pend0.holder ∧
    pend0.base = (jobbed { jobOf 0x0402 .running [] with wantedSet := true, wanted := 1 } wPend).activeGen ∧
    (jobbed { jobOf 0x0402 .running [] with wantedSet := true, wanted := 1 } wPend).validate (dropVacant pend0.content) = none ∧
    ({ jobOf 0x0402 .running [] with wantedSet := true, wanted := 1 }).wantedSet = true ∧
    ({ jobOf 0x0402 .running [] with wantedSet := true, wanted := 1 }).wanted < (jobbed { jobOf 0x0402 .running [] with wantedSet := true, wanted := 1 } wPend).tick + 2 :=
  by decide +kernel

theorem wit_JobsEnd_12 : (jobbed (jobOf 0x0702 .running []) w0).job 1 = some (jobOf 0x0702 .running []) ∧
    (jobOf 0x0702 .running []).state = .running ∧ (jobOf 0x0702 .running []).opcode = 0x0702#16 := by decide +kernel

theorem wit_JobsEnd_13 :
    (jobbed { jobOf 0x0602 .running [] with out := [[1]] } w0).job 1 = some ({ jobOf 0x0602 .running [] with out := [[1]] }) ∧
    ({ jobOf 0x0602 .running [] with out := [[1]] }).occupies = true ∧
    ({ jobOf 0x0602 .running [] with out := [[1]] }).cancelDue = false ∧
    ({ jobOf 0x0602 .running [] with out := [[1]] }).pauseDue = false ∧
    (({ jobOf 0x0602 .running [] with out := [[1]] }).opcode = 0x0602#16 ∨ ({ jobOf 0x0602 .running [] with out := [[1]] }).opcode = 0x0704#16 ∨ ({ jobOf 0x0602 .running [] with out := [[1]] }).opcode = 0x0406#16) ∧
    ({ jobOf 0x0602 .running [] with out := [[1]] }).out = [([1] : List Byte)] := by decide +kernel

theorem wit_JobsEnd_13b :
    (jobbed { jobOf 0x0704 .running [] with out := [[1]] } w0).job 1 = some ({ jobOf 0x0704 .running [] with out := [[1]] }) ∧
    ({ jobOf 0x0704 .running [] with out := [[1]] }).occupies = true ∧
    ({ jobOf 0x0704 .running [] with out := [[1]] }).cancelDue = false ∧
    ({ jobOf 0x0704 .running [] with out := [[1]] }).pauseDue = false ∧
    (({ jobOf 0x0704 .running [] with out := [[1]] }).opcode = 0x0602#16 ∨ ({ jobOf 0x0704 .running [] with out := [[1]] }).opcode = 0x0704#16 ∨ ({ jobOf 0x0704 .running [] with out := [[1]] }).opcode = 0x0406#16) ∧
    ({ jobOf 0x0704 .running [] with out := [[1]] }).out = [([1] : List Byte)] := by decide +kernel

theorem wit_JobsEnd_13c :
    (jobbed { jobOf 0x0406 .running [] with out := [[1]] } w0).job 1 = some ({ jobOf 0x0406 .running [] with out := [[1]] }) ∧
    ({ jobOf 0x0406 .running [] with out := [[1]] }).occupies = true ∧
    ({ jobOf 0x0406 .running [] with out := [[1]] }).cancelDue = false ∧
    ({ jobOf 0x0406 .running [] with out := [[1]] }).pauseDue = false ∧
    (({ jobOf 0x0406 .running [] with out := [[1]] }).opcode = 0x0602#16 ∨ ({ jobOf 0x0406 .running [] with out := [[1]] }).opcode = 0x0704#16 ∨ ({ jobOf 0x0406 .running [] with out := [[1]] }).opcode = 0x0406#16) ∧
    ({ jobOf 0x0406 .running [] with out := [[1]] }).out = [([1] : List Byte)] := by decide +kernel

theorem wit_JobsEnd_14 : (jobbed (jobOf 0x0503 .running (le 2 1023 ++ [2])) w0).job 1 = some (jobOf 0x0503 .running (le 2 1023 ++ [2])) ∧
    (jobOf 0x0503 .running (le 2 1023 ++ [2])).occupies = true ∧ (jobOf 0x0503 .running (le 2 1023 ++ [2])).cancelDue = false ∧
    (jobOf 0x0503 .running (le 2 1023 ++ [2])).pauseDue = false ∧ (jobOf 0x0503 .running (le 2 1023 ++ [2])).opcode = 0x0503#16 ∧
    field (jobOf 0x0503 .running (le 2 1023 ++ [2])).args 0 2 = (1023 : Fin 1024).val ∧
    field (jobOf 0x0503 .running (le 2 1023 ++ [2])).args 2 1 = (2 : Fin 3).val := by decide +kernel

theorem wit_JobsEnd_14b : (jobbed (jobOf 0x0503 .running (le 2 1023 ++ [2])) w0).job 1 = some (jobOf 0x0503 .running (le 2 1023 ++ [2])) ∧
    (field (jobOf 0x0503 .running (le 2 1023 ++ [2])).args 0 2 % 1024 ≠ (1023 : Fin 1024).val ∨
      field (jobOf 0x0503 .running (le 2 1023 ++ [2])).args 2 1 ≠ (1 : Fin 3).val) := by decide +kernel

theorem wit_JobsEnd_15 : (jobbed (jobOf 0x0504 .running []) w0).job 1 = some (jobOf 0x0504 .running []) ∧
    (jobOf 0x0504 .running []).occupies = true ∧ (jobOf 0x0504 .running []).cancelDue = false ∧
    (jobOf 0x0504 .running []).pauseDue = false ∧ (jobOf 0x0504 .running []).opcode = 0x0504#16 := by decide +kernel

theorem wit_JobsEnd_16 : (jobbed (jobOf 0x0505 .running (le 2 (combSlot 63))) w0).job 1 = some (jobOf 0x0505 .running (le 2 (combSlot 63))) ∧
    (jobOf 0x0505 .running (le 2 (combSlot 63))).occupies = true ∧ (jobOf 0x0505 .running (le 2 (combSlot 63))).cancelDue = false ∧
    (jobOf 0x0505 .running (le 2 (combSlot 63))).pauseDue = false ∧ (jobOf 0x0505 .running (le 2 (combSlot 63))).opcode = 0x0505#16 ∧
    field (jobOf 0x0505 .running (le 2 (combSlot 63))).args 0 2 = combSlot (63 : Fin 64).val := by decide +kernel

theorem wit_JobsEnd_16b : (jobbed (jobOf 0x0505 .running (le 2 (combSlot 63))) w0).job 1 = some (jobOf 0x0505 .running (le 2 (combSlot 63))) ∧
    field (jobOf 0x0505 .running (le 2 (combSlot 63))).args 0 2 % 1024 ≠ combSlot (62 : Fin 64).val := by decide +kernel

theorem wit_JobsEnd_17 : (wEnum.fcomb 63).enumFault = false ∧ wEnum.enumerateBar 63 = none ∧ wEnum.nodeMap 63 = [] ∧
    [(⟨1000, 4500⟩ : ReadSlot)].length = 1 ∧ (∀ r ∈ [(⟨1000, 4500⟩ : ReadSlot)], r.pulseUa ≤ r.baseUa + 3500) :=
  by decide +kernel

theorem wit_UpdateStages_1 : (wStaged 2).upd.state = .receiving ∧
    (wStaged 2).upd.staged = ((0, []) : Nat × List Byte) :: ([] : List (Nat × List Byte)) ∧
    (wStaged 2).upd.verified + 1 ≠ (wStaged 2).upd.blockCount := by decide +kernel

theorem wit_UpdateStages_2 : (wStaged 1).upd.state = .receiving ∧
    (wStaged 1).upd.staged = ((0, []) : Nat × List Byte) :: ([] : List (Nat × List Byte)) ∧
    (wStaged 1).upd.verified + 1 = (wStaged 1).upd.blockCount := by decide +kernel

theorem wit_UpdateStages_3 :
    ({ wStaged 2 with upd := { (wStaged 2).upd with sectorFails := 1 } }).upd.state = .receiving ∧
    ({ wStaged 2 with upd := { (wStaged 2).upd with sectorFails := 1 } }).upd.staged = ((0, []) : Nat × List Byte) :: ([] : List (Nat × List Byte)) ∧
    ({ wStaged 2 with upd := { (wStaged 2).upd with sectorFails := 1 } }).upd.sectorFails < 2 := by decide +kernel

theorem wit_UpdateStages_4 :
    ({ wStaged 2 with upd := { (wStaged 2).upd with sectorFails := 2 } }).upd.state = .receiving ∧
    ({ wStaged 2 with upd := { (wStaged 2).upd with sectorFails := 2 } }).upd.staged = ((0, []) : Nat × List Byte) :: ([] : List (Nat × List Byte)) ∧
    2 ≤ ({ wStaged 2 with upd := { (wStaged 2).upd with sectorFails := 2 } }).upd.sectorFails := by decide +kernel

theorem wit_UpdateStages_5 : (w0.upd.staged = [] ∨ w0.upd.state ≠ .receiving) := by decide +kernel

theorem wit_UpdateStages_5b : ((wUpd .received).upd.staged = [] ∨ (wUpd .received).upd.state ≠ .receiving) :=
  by decide +kernel

theorem wit_UpdateStages_6 :
    (jobbed (jobOf 0x0803 .running []) (wUpd .verifying)).job 1 = some (jobOf 0x0803 .running []) ∧
    (jobOf 0x0803 .running []).occupies = true ∧ (jobOf 0x0803 .running []).cancelDue = false ∧
    (jobOf 0x0803 .running []).pauseDue = false ∧ (jobOf 0x0803 .running []).opcode = 0x0803#16 ∧
    (jobbed (jobOf 0x0803 .running []) (wUpd .verifying)).upd.state = .verifying ∧
    (∀ k ∈ (jobbed (jobOf 0x0803 .running []) (wUpd .verifying)).jobs, k.state ≠ .queued ∧ k.cancelDue = false) :=
  by decide +kernel

theorem wit_UpdateStages_7 : w0.job 1 = none := by decide +kernel

theorem wit_UpdateStages_8 : wActAt.upd.activateAt = some 1 ∧ wActAt.upd.fallbackDue = false ∧ wActAt.committed = true ∧
    wActAt.tick + 1 = 1 ∧ 1 ≤ 257 ∧ 257 ≤ 1 + 256 ∧ goodReport.otpOk = true ∧ goodReport.slotOk = true ∧
    goodReport.selfTestsOk = true ∧ goodReport.handoverOk = true ∧
    wActAt.upd.secVersion ≤ field (wActAt.upd.manifests.getD (slotIndex !wActAt.upd.slotB) []) 7 1 ∧
    wActAt.upd.slotBad.length = 2 := by decide +kernel

theorem wit_UpdateStages_9 :
    (w0.upd.activateAt = none ∨ w0.committed = false ∨ (∃ e, w0.upd.activateAt = some e ∧ w0.tick + 1 < e)) :=
  by decide +kernel

theorem wit_PortsAndCells_1 : wPorts.logicRuns = true ∧ wPorts.portActive (1 : Fin 2).val = true ∧
    wPorts.link.ports.length = 2 := by decide +kernel

theorem wit_PortsAndCells_2 : (w0.logicRuns = false ∨ w0.portActive (1 : Fin 2).val = false) := by decide +kernel

theorem wit_PortsAndCells_3 : wPorts.logicRuns = true ∧ (wPorts.port (1 : Fin 2).val).up = true ∧
    wPorts.link.ports.length = 2 := by decide +kernel

theorem wit_PortsAndCells_4 : (w0.logicRuns = false ∨ (w0.port (1 : Fin 2).val).up = false) := by decide +kernel

theorem wit_PortsAndCells_5 : wPorts.logicRuns = true ∧ wPorts.portActive (1 : Fin 2).val = true := by decide +kernel

theorem wit_PortsAndCells_6 : wPorts.logicRuns = true ∧ wPorts.portActive 0 = true ∧ wPorts.portActive 1 = true ∧
    (wPorts.port 0).up = true ∧ (wPorts.port 1).up = true ∧ wPorts.link.ports.length = 2 := by decide +kernel

theorem wit_PortsAndCells_7 :
    (w0.portActive 0 = false ∨ w0.portActive 1 = false ∨ (w0.port 0).up = false ∨ (w0.port 1).up = false) :=
  by decide +kernel

theorem wit_PortsAndCells_8 : (foragerAt 2).logicRuns = true ∧ 2 ≤ ((foragerAt 2).peer 0).state := by decide +kernel

theorem wit_PortsAndCells_9 : ((foragerAt 1).peer 0).state < 2 := by decide +kernel

theorem wit_PortsAndCells_10 : (queenAt 2).logicRuns = true ∧ (queenAt 2).queen = true ∧ (1 : Fin 8).val ≠ 0 ∧
    2 ≤ ((queenAt 2).peer (1 : Fin 8).val).state := by decide +kernel

theorem wit_PortsAndCells_11 :
    ((queenAt 2).queen = false ∨ (0 : Fin 8).val = 0 ∨ ((queenAt 2).peer (0 : Fin 8).val).state < 2) :=
  by decide +kernel

theorem wit_PortsAndCells_11b :
    ((queenAt 1).queen = false ∨ (1 : Fin 8).val = 0 ∨ ((queenAt 1).peer (1 : Fin 8).val).state < 2) :=
  by decide +kernel

theorem wit_Admission_1 : wPorts.logicRuns = true ∧ wPorts.link.joined = false ∧ (wPorts.peer 0).state = 0 ∧
    (wPorts.hk.crystalFail = false ∨ wPorts.queen = true) := by decide +kernel

theorem wit_Admission_2 :
    (foragerAt 1).link.joined = true ∨ ((foragerAt 1).peer 0).state ≠ 0 ∨ ((foragerAt 1).hk.crystalFail = true ∧ (foragerAt 1).queen = false) :=
  by decide +kernel

theorem wit_Admission_3 : (wQueen 0).logicRuns = true ∧ (wQueen 0).queen = true ∧ hello1.role ≠ 1 ∧
    (wQueen 0).nodeOfSerial hello1.serial = some 1 ∧ ((wQueen 0).peer 1).state ≠ 3 := by decide +kernel

theorem wit_Admission_4 : (queenAt 0).logicRuns = true ∧ (queenAt 0).queen = true ∧
    (hello1.role = 1 ∨ (queenAt 0).nodeOfSerial hello1.serial = none) := by decide +kernel

theorem wit_Admission_5 : (wQueen 3).logicRuns = true ∧ (wQueen 3).queen = true ∧ hello1.role ≠ 1 ∧
    (wQueen 3).nodeOfSerial hello1.serial = some 1 ∧ ((wQueen 3).peer 1).state = 3 := by decide +kernel

theorem wit_Admission_6 : wPorts.logicRuns = true ∧ challenge1.target = wPorts.id.serial ∧ wPorts.queen = false ∧
    wPorts.link.joined = false ∧ (wPorts.peer 0).state = 0 := by decide +kernel

theorem wit_Admission_7 : (foragerAt 1).logicRuns = true ∧ challenge1.target = (foragerAt 1).id.serial ∧
    ((foragerAt 1).queen = true ∨ (foragerAt 1).link.joined = true ∨ ((foragerAt 1).peer 0).state ≠ 0) :=
  by decide +kernel

theorem wit_Admission_8 : (peered 1 peer1 (linked queenC w0)).logicRuns = true ∧
    (peered 1 peer1 (linked queenC w0)).queen = true ∧
    (peered 1 peer1 (linked queenC w0)).link.peers.find? (fun e => e.2.state == 1 && e.2.serial == proof1.serial) = some (1, peer1) :=
  by decide +kernel

theorem wit_Admission_9 : ({ queenAt 1 with tick := 513 }).logicRuns = true ∧ (1 : Fin 8).val ≠ 0 ∧
    (({ queenAt 1 with tick := 513 }).peer (1 : Fin 8).val).state = 1 ∧
    (({ queenAt 1 with tick := 513 }).peer (1 : Fin 8).val).challengeAt + 512 < ({ queenAt 1 with tick := 513 }).tick :=
  by decide +kernel

theorem wit_Admission_10 : ({ foragerAt 1 with tick := 513 }).logicRuns = true ∧
    (({ foragerAt 1 with tick := 513 }).peer 0).state = 1 ∧
    (({ foragerAt 1 with tick := 513 }).peer 0).challengeAt + 512 < ({ foragerAt 1 with tick := 513 }).tick :=
  by decide +kernel

theorem wit_Admission_11 :
    ((({ queenAt 1 with tick := 512 }).peer (1 : Fin 8).val).state ≠ 1 ∨ ({ queenAt 1 with tick := 512 }).tick ≤ (({ queenAt 1 with tick := 512 }).peer (1 : Fin 8).val).challengeAt + 512) :=
  by decide +kernel

theorem wit_Admission_11b :
    ((w0.peer (1 : Fin 8).val).state ≠ 1 ∨ w0.tick ≤ (w0.peer (1 : Fin 8).val).challengeAt + 512) := by decide +kernel

theorem wit_Admission_12 : (foragerAt 1).logicRuns = true ∧ ((foragerAt 1).peer 0).state = 1 := by decide +kernel

theorem wit_Admission_13 : ((foragerAt 2).peer 0).state ≠ 1 := by decide +kernel

theorem wit_Admission_14 : (foragerAt 1).logicRuns = true ∧ (foragerAt 1).link.joined = false := by decide +kernel

theorem wit_Admission_15 : wJoined.logicRuns = true ∧ wJoined.link.joined = true := by decide +kernel

theorem wit_Alignment_1 : wNode7.logicRuns = true ∧ 2 ≤ (wNode7.peer 0).state ∧
    wNode7.commonTick % 64 = 8 * wNode7.link.nodeId ∧ wNode7.link.thisLong = 0 := by decide +kernel

theorem wit_Alignment_2 :
    (((foragerAt 1).peer 0).state < 2 ∨ (foragerAt 1).commonTick % 64 ≠ 8 * (foragerAt 1).link.nodeId ∨ (foragerAt 1).link.thisLong ≠ 0) :=
  by decide +kernel

theorem wit_Alignment_3 : (queenAt 2).logicRuns = true ∧ (queenAt 2).queen = true ∧ (1 : Fin 8).val ≠ 0 ∧
    2 ≤ ((queenAt 2).peer (1 : Fin 8).val).state := by decide +kernel

theorem wit_Alignment_4 :
    ((queenAt 1).queen = false ∨ (1 : Fin 8).val = 0 ∨ ((queenAt 1).peer (1 : Fin 8).val).state < 2) :=
  by decide +kernel

theorem wit_Alignment_5 : (wAlign 1 0).logicRuns = true ∧ (wAlign 1 0).link.syncSent = some 0 ∧
    ((wAlign 1 0).peer 0).align = 1 := by decide +kernel

theorem wit_Alignment_6 : (wAlign 3 15).logicRuns = true ∧ (wAlign 3 15).link.syncSent = some 0 ∧
    ((wAlign 3 15).peer 0).align = 3 := by decide +kernel

theorem wit_Alignment_7 : (wAlign 4 0).logicRuns = true ∧ (wAlign 4 0).link.syncSent = some 0 ∧
    ((wAlign 4 0).peer 0).align = 4 := by decide +kernel

theorem wit_Alignment_8 : w0.link.syncSent = none := by decide +kernel

theorem wit_Alignment_10 : wLong.logicRuns = true ∧ wLong.link.lengthen = some 5 ∧ wLong.link.syncSent = none :=
  by decide +kernel

theorem wit_Alignment_11 : (w0.link.lengthen = none ∨ w0.link.syncSent ≠ none) := by decide +kernel

theorem wit_ForwardedCommands_1 : (foragerAt 3).logicRuns = true ∧ ((foragerAt 3).peer 0).state = 3 ∧
    command1.opcode = 0x0001#16 ∧ (foragerAt 3).keptReply command1 = none ∧ command1.packet.version = 1#8 ∧
    command1.packet.flags = 0#8 ∧ command1.packet.payload.length ≤ 64 := by decide +kernel

theorem wit_ForwardedCommands_2 : wKept.logicRuns = true ∧ (wKept.peer 0).state = 3 ∧
    wKept.keptReply command1 = some kept1 := by decide +kernel

theorem wit_ForwardedCommands_3 : (foragerAt 3).logicRuns = true ∧ ((foragerAt 3).peer 0).state = 3 ∧
    (foragerAt 3).keptReply ({ command1 with packet := { pk [] with version := 2 } }) = none ∧
    ({ command1 with packet := { pk [] with version := 2 } }).packet.version ≠ 1#8 := by decide +kernel

theorem wit_ForwardedCommands_4 : ((foragerAt 2).peer 0).state ≠ 3 := by decide +kernel

theorem wit_ForwardedCommands_5 : wHeld.logicRuns = true ∧ wHeld.nodeJoined (1 : Fin 8).val = true ∧
    wHeld.host.line = [held1] ∧ held1.reply = none ∧ held1.node = (1 : Fin 8).val ∧ held1.session = freply1.session ∧
    held1.seq = freply1.seq := by decide +kernel

theorem wit_ForwardedCommands_6 : held1.opcode ≠ 0x0902#16 ∧ held1.opcode ≠ 0x0301#16 := by decide +kernel

theorem wit_ForwardedCommands_7 : w0.nodeJoined (1 : Fin 8).val = false := by decide +kernel

theorem wit_ForwardedCommands_8 : wHeld.logicRuns = true ∧ wHeld.host.line = [held1] ∧ held1.reply = none ∧
    held1.node = (1 : Fin 8).val ∧ held1.deadline ≤ wHeld.tick := by decide +kernel

theorem wit_ForwardedCommands_9 : wHeld.host.line = [held1] ∧ held1.reply = none ∧
    (held1.node ≠ (2 : Fin 8).val ∨ wHeld.tick < held1.deadline) := by decide +kernel

theorem wit_ForwardedCommands_10 : wFeed.logicRuns = true ∧ wFeed.queen = true ∧ wFeed.smoker.calmed = false ∧
    wFeed.link.feedDue = true := by decide +kernel

theorem wit_ForwardedCommands_11 : (w0.queen = false ∨ w0.smoker.calmed = true ∨ w0.link.feedDue = false) :=
  by decide +kernel

theorem wit_LinkStatusAndLoss_1 : (queenAt 2).logicRuns = true ∧ (queenAt 2).queen = true ∧ (1 : Fin 8).val ≠ 0 ∧
    2 ≤ ((queenAt 2).peer (1 : Fin 8).val).state := by decide +kernel

theorem wit_LinkStatusAndLoss_2 :
    ((queenAt 2).queen = false ∨ (0 : Fin 8).val = 0 ∨ ((queenAt 2).peer (0 : Fin 8).val).state < 2) :=
  by decide +kernel

theorem wit_LinkStatusAndLoss_3 : (queenAt 2).logicRuns = true ∧ 2 ≤ ((queenAt 2).peer (1 : Fin 8).val).state :=
  by decide +kernel

theorem wit_LinkStatusAndLoss_4 : ((queenAt 1).peer (1 : Fin 8).val).state < 2 := by decide +kernel

theorem wit_LinkStatusAndLoss_5 : ({ queenAt 3 with tick := 100000, workTick := 100000 }).logicRuns = true ∧
    ({ queenAt 3 with tick := 100000, workTick := 100000 }).committed = true ∧ (1 : Fin 8).val ≠ 0 ∧
    2 ≤ (({ queenAt 3 with tick := 100000, workTick := 100000 }).peer (1 : Fin 8).val).state ∧
    (({ queenAt 3 with tick := 100000, workTick := 100000 }).peer (1 : Fin 8).val).lastRx + ({ queenAt 3 with tick := 100000, workTick := 100000 }).cfg P.LINK_LOSS_TICKS 0 < ({ queenAt 3 with tick := 100000, workTick := 100000 }).tick ∧
    (({ queenAt 3 with tick := 100000, workTick := 100000 }).peer (1 : Fin 8).val).lastRx + ({ queenAt 3 with tick := 100000, workTick := 100000 }).cfg P.LINK_LOSS_TICKS 0 < ({ queenAt 3 with tick := 100000, workTick := 100000 }).workTick + 1 :=
  by decide +kernel

theorem wit_LinkStatusAndLoss_6 : ({ foragerAt 3 with tick := 100000, workTick := 100000 }).logicRuns = true ∧
    ({ foragerAt 3 with tick := 100000, workTick := 100000 }).committed = true ∧
    2 ≤ (({ foragerAt 3 with tick := 100000, workTick := 100000 }).peer 0).state ∧
    (({ foragerAt 3 with tick := 100000, workTick := 100000 }).peer 0).lastRx + ({ foragerAt 3 with tick := 100000, workTick := 100000 }).cfg P.LINK_LOSS_TICKS 0 < ({ foragerAt 3 with tick := 100000, workTick := 100000 }).tick ∧
    (({ foragerAt 3 with tick := 100000, workTick := 100000 }).peer 0).lastRx + ({ foragerAt 3 with tick := 100000, workTick := 100000 }).cfg P.LINK_LOSS_TICKS 0 < ({ foragerAt 3 with tick := 100000, workTick := 100000 }).workTick + 1 :=
  by decide +kernel

theorem wit_LinkStatusAndLoss_7 :
    (((queenAt 1).peer (1 : Fin 8).val).state < 2 ∨ (queenAt 1).tick ≤ ((queenAt 1).peer (1 : Fin 8).val).lastRx + (queenAt 1).cfg P.LINK_LOSS_TICKS 0) :=
  by decide +kernel

theorem wit_LinkStatusAndLoss_7b :
    (((queenAt 3).peer (1 : Fin 8).val).state < 2 ∨ (queenAt 3).tick ≤ ((queenAt 3).peer (1 : Fin 8).val).lastRx + (queenAt 3).cfg P.LINK_LOSS_TICKS 0) :=
  by decide +kernel

theorem wit_CellReads_1 : 256 % 8192 ≠ 0 ∧ ¬(256 < 8192 ∧ 154 ≤ 256 ∧ 256 ≤ 255) := by decide +kernel

theorem wit_CellReads_2 : (({} : Cell).force 0 5 1).forced.isSome = true := by decide +kernel

theorem wit_CellReads_4 : 3 ≠ 4 ∧ ({} : Cell).extremesValid = false := by decide +kernel

theorem wit_CellReads_5 : (255 % 8192 = 0 ∨ (154 ≤ 255 ∧ 255 ≤ 255)) := by decide +kernel

theorem wit_CellReads_6 : 256 % 8192 ≠ 0 ∧ ¬(256 < 8192 ∧ 154 ≤ 256 ∧ 256 ≤ 255) ∧
    ((wWritten.work).cell 256).forced = none ∧ ((wWritten.work).cell 256).written = true ∧
    (256 < 8192 ∨ ((wWritten.work).cell 256).own.source ≠ 0) := by decide +kernel

theorem wit_CellReads_7 : 256 % 8192 ≠ 0 ∧ ¬(256 < 8192 ∧ 154 ≤ 256 ∧ 256 ≤ 255) ∧ ((w0.work).cell 256).forced = none ∧
    ((w0.work).cell 256).written = false := by decide +kernel

theorem wit_CellReads_8 : 256 < 8192 ∧ 129 ≠ 0 ∧
    unitPeriod (wLoop.content) (Power.run) 129 = some ((unitPeriod wLoop.content Power.run 129).getD 0) :=
  by decide +kernel

theorem wit_Extremes_1 : ({} : Cell).forced = none ∧ (⟨5, 0, 0, 2, 2, 0⟩ : CellVal).type ≠ 4 ∧
    (⟨5, 0, 0, 2, 2, 0⟩ : CellVal).quality ≤ 2 ∧ ({} : Cell).extremesValid = false := by decide +kernel

theorem wit_Extremes_2 : ({ extremesValid := true } : Cell).forced = none ∧ (⟨5, 0, 0, 2, 2, 0⟩ : CellVal).type ≠ 4 ∧
    (⟨5, 0, 0, 2, 2, 0⟩ : CellVal).quality ≤ 2 ∧ ({ extremesValid := true } : Cell).extremesValid = true :=
  by decide +kernel

theorem wit_Extremes_3 : fNaN (0x3F800000#32 : F32) = false ∧ fNaN (0 : F32) = false := by decide +kernel

theorem wit_Extremes_4 :
    (({} : Cell).forced ≠ none ∨ (⟨5, 0, 0, 3, 4, 0⟩ : CellVal).type = 4 ∨ 2 < (⟨5, 0, 0, 3, 4, 0⟩ : CellVal).quality) :=
  by decide +kernel

theorem wit_Extremes_6 : ({} : Cell).forced = none ∧ (⟨5, 0, 0, 2, 0, 0⟩ : CellVal).type ≠ 4 ∧
    (⟨5, 0, 0, 2, 0, 0⟩ : CellVal).quality ≤ 2 := by decide +kernel

/-- The premises of StepKeepsBounded hold at a state that steps. -/
theorem wit_StepKeepsBounded_1 : Bounded w0 ∧ step w0 = .next w0 := ⟨⟨by decide, by decide, by decide, by decide⟩, rfl⟩

/-- And those of TickNeverGoesBack. -/
theorem wit_TickNeverGoesBack_1 : ClockKept w0 ∧ step w0 = .next w0 := ⟨fun h => absurd h (by decide), rfl⟩

theorem wit_UnitReads_5 : Runs w0 (pk [1, 0x12, 0, 0, 0]) 0x0101 (row 0x0101) 0 ∧ 0 < 1 ∧ 1 < 256 ∧
    (pk [1, 0x12, 0, 0, 0]).data.headD 0 = BitVec.ofNat 8 1 ∧ (pk [1, 0x12, 0, 0, 0]).data.length = 1 + 4 * 1 ∧
    ∀ x ∈ (List.range 1).map (fun i => (field (pk [1, 0x12, 0, 0, 0]).data (1 + 4 * i) 2,
      field (pk [1, 0x12, 0, 0, 0]).data (3 + 4 * i) 2)),
      ∃ t code, w0.resolve x.1 x.2 = .found t ∧ typeCode t.info.ty = some code := by
  refine ⟨runs_of (by decide +kernel), by decide, by decide, by decide, by decide, fun x hx => ?_⟩
  have h : (List.range 1).map (fun i => (field (pk [1, 0x12, 0, 0, 0]).data (1 + 4 * i) 2,
      field (pk [1, 0x12, 0, 0, 0]).data (3 + 4 * i) 2)) = [(0x0012, 0)] := by decide +kernel
  rw [h, List.mem_singleton] at hx
  subst hx
  exact ⟨readTarget, (typeCode readTarget.info.ty).getD 0, by decide +kernel, by decide +kernel⟩

/-- The certificate check is the configuration's own, so its two answers stay premises. -/
theorem wit_IdentityCommands_3 (k : List Byte) (h : Config.certKey [1] = some k) :
    let s : State := { w0 with id := { w0.id with devicePub := k } }
    Runs s (pk [1]) 0x0809 (row 0x0809) 0 ∧ (pk [1]).data ≠ [] ∧ (pk [1]).data.length ≤ 2048 ∧
      Config.certKey (pk [1]).data = some s.id.devicePub ∧
      (∀ x, s.id.oemKey = some x → Config.certSigned (pk [1]).data x = true) := by
  refine ⟨runs_of ?_, by decide, by decide, h, fun x hx => ?_⟩
  · have : runsB w0 (pk [1]) 0x0809 (row 0x0809) 0 = true := by decide +kernel
    exact this
  · have : w0.id.oemKey = none := by decide +kernel
    exact absurd (this.symm.trans hx) (by simp)

theorem wit_InterfaceEvents_5 : w0.hostListens = true ∧ w0.host.uart = false ∧
    ∀ rest reason, ([0xA5#8] : List Byte) = 0x5A#8 :: rest → w0.spiFault rest ≠ some reason :=
  ⟨by decide +kernel, by decide +kernel, fun _ _ h => absurd h (by simp)⟩

theorem wit_MemoryErrors_4 : wNoPage.logicRuns = true ∧ wNoPage.committed = true ∧
    wNoPage.sram.retired.contains (5 : Fin 2048).val = false ∧ wNoPage.sram.retire (5 : Fin 2048).val = none := by
  have h : wNoPage.sram.pool = [] := by
    simp [Sram.pool, wNoPage]
    exact fun _ h _ => h
  refine ⟨by decide +kernel, by decide +kernel, by decide +kernel, ?_⟩
  have h5 : wNoPage.sram.map.any (·.contains 5) = true := by simp [wNoPage]
  simp only [Sram.retire, h]
  exact if_pos h5

theorem wit_ClocksAndHousekeeping_6 : 0 < 6 ∧ validSite (hkDev.sites.getD 0 none) = some 0x42200000#32 ∧
    hkDev.excluded.getD 0 false = false ∧ w0.hk.excluded.length = 6 ∧
    medianF ((([1, 2, 3, 4] : List Nat).filter hkDev.included).filterMap (fun n => validSite (hkDev.sites.getD n none))) =
      some 0x41A00000#32 ∧
    flt (fOfNat 15) (fabs (fsub 0x42200000#32 0x41A00000#32)) = true ∧ hkDev.devRun.getD 0 0 = 2 := by decide +kernel

theorem wit_EvaluationAndCommit_6 : wCal.job calJob.handle = some calJob ∧ calJob.opcode = 0x0503#16 ∧ field calJob.args 2 1 ≠ 2 ∧
    calJob.bar = none ∧ calJob.state = .running ∧ calJob.coll.length < field calJob.args 8 2 ∧
    (∀ m ∈ wCal.calMembers 0, (wCal.unit (chanSlot m)).st = .active) ∧ (wCal.work.cell (chanSlot 0)).own.quality ≤ 1 ∧
    calJob.tags ≠ some (Tab.get ((0, 0), []) (wCal.inputs (wCal.workTick - 1)).raws 0).1 := by decide +kernel

theorem wit_EvaluationAndCommit_6b : (∃ m ∈ wCal.calMembers 0, (wCal.work.chan m).skip = true) ∧
    (∀ m ∈ wCal.calMembers 0, ((wCal.modPlants (·.setChan 0 { skip := false })).work.chan m).skip = false) ∧
    calJob.tags = none := by decide +kernel

theorem wit_BoundaryStates_1 : w0.logicRuns = true ∧ w0.committed = true ∧ w0.power ≠ .dormant ∧
    ((fun (_ : Nat) (s : State) => s) (w0.workTick + 1) { w0 with tick := w0.workTick + 1, workTick := w0.workTick + 1 }).power ≠
      .dormant := by decide +kernel

theorem wit_BoundaryStores_7 : SnapLaw (fun _ _ _ => True) ∧ 1 < 1024 ∧
    ((snapEntries [] w0.work 0 1).map (fun b => (0, b))).map (·.2) = snapEntries [] w0.work 0 1 :=
  ⟨fun _ _ _ _ => trivial, by decide, by simp⟩

theorem block0_length : block0.length = 4096 := by
  rw [block0, length_withCrc, List.length_replicate]

/-- Clause 2 of UpdateCommands, whose block is too long for evaluation. -/
theorem wit_UpdateCommands_2 : Runs (wUpd .receiving) (pk block0) 0x0802 (row 0x0802) 0 ∧ (pk block0).data.length = 4096 ∧
    (wUpd .receiving).updForeign (.session 7) = false ∧ (wUpd .receiving).upd.state = .receiving ∧
    field (pk block0).data 2 2 = 0 ∧ crcOkAt (pk block0).data 4092 = true ∧
    field (pk block0).data 0 2 = (wUpd .receiving).upd.nextBlock ∧
    (wUpd .receiving).upd.nextBlock < (wUpd .receiving).upd.blockCount ∧ (wUpd .receiving).updFree ≠ 0 := by
  have hd : (pk block0).data = block0 := rfl
  have h0 : ∀ o, o + 2 ≤ 4092 → field block0 o 2 = 0 := by
    intro o h
    have h1 : min 2 (4092 - o) = 2 := by omega
    have h2 : o - 4092 = 0 := by omega
    have h3 : 2 - (4092 - o) = 0 := by omega
    simp [-List.reduceReplicate, field, bytesAt, block0, withCrc, List.drop_append, List.take_append, h1, h2, h3]
    decide
  refine ⟨⟨by decide +kernel, by decide +kernel, by decide +kernel, by decide +kernel, ?_, by decide +kernel, by decide +kernel,
    ?_, by decide +kernel, by decide +kernel, by decide +kernel, by decide +kernel⟩, ?_, by decide +kernel, by decide +kernel, ?_, ?_, ?_,
    by decide +kernel, by decide +kernel⟩
  · have : (wUpd .receiving).host.uart = false := by decide +kernel
    rw [this, Bool.false_and]
  · have h : (wUpd .receiving).stateBars 0x0802 = none := by decide +kernel
    have hr : row 0x0802 = ⟨0x0802, .w, false, false⟩ := by decide +kernel
    have hn : (wUpd .receiving).needsAuth ((wUpd .receiving).opClass ⟨0x0802, .w, false, false⟩) = false := by decide +kernel
    have hl : ¬4096 < (pk block0).data.length := by rw [hd, block0_length]; decide
    simp only [State.formBars, hr, h, hn, if_neg hl]
    decide
  · rw [hd, block0_length]
  · rw [hd]; exact h0 2 (by omega)
  · rw [hd]
    have := crcOkAt_withCrc (List.replicate 4092 0)
    rwa [List.length_replicate] at this
  · rw [hd]; exact h0 0 (by omega)

/-- Power fails and returns. -/
theorem wit_PowerAndReset_2b : ∃ t u, exec .vinPowerFail w0 = .next t ∧ w0.vinOn = true ∧
    exec (.vinPowerOn 16600 false) t = .next u ∧ 16600 ≤ 16600 := ⟨_, _, rfl, rfl, rfl, Nat.le_refl _⟩

end Sys2Proof.Tests
end

section
/-! # Cells: extremes, forces and what a reader sees (R31, R34, R37, R38) -/

namespace Sys2Proof.Machine

/-! ## The order of binary32 values -/

/-- Comparing in the other order gives the converse answer. -/
theorem fpCompare_swap (x y : Fp) : fpCompare y x = (fpCompare x y).map Ordering.swap := by
  cases x with
  | nan => cases y <;> rfl
  | inf a =>
    cases y with
    | nan => rfl
    | inf b => cases a <;> cases b <;> rfl
    | fin b n d => cases a <;> rfl
  | fin a m e =>
    cases y with
    | nan => rfl
    | inf b => cases b <;> rfl
    | fin b n d => simp [fpCompare, min_comm d e, Int.compare_swap]

theorem fpCompare_self {x : Fp} (h : x ≠ .nan) : fpCompare x x = some .eq := by
  cases x with
  | nan => exact absurd rfl h
  | inf a => cases a <;> rfl
  | fin a m e => simp [fpCompare]

/-- Only a NaN has no order to a value. -/
theorem fpCompare_isSome {x y : Fp} (hx : x ≠ .nan) (hy : y ≠ .nan) : ∃ o, fpCompare x y = some o := by
  cases x <;> cases y <;> simp_all [fpCompare]

theorem fabs_toNat (a : F32) : (fabs a).toNat = a.toNat % 2 ^ 31 := by
  rw [fabs, BitVec.toNat_and]
  exact Nat.and_two_pow_sub_one_eq_mod a.toNat 31

theorem f32v_ne_nan {a : F32} (h : fNaN a = false) : f32v a ≠ .nan := by
  have hle : ¬ fpInf fmt32 < a.toNat % fpSign fmt32 := by
    have : ¬ 0x7F800000 < a.toNat % 2 ^ 31 := by simpa [fNaN, fabs_toNat] using h
    exact this
  simp only [f32v, fpDecode, if_neg hle]
  split
  · simp
  · split <;> simp

theorem fle_self {a : F32} (h : fNaN a = false) : fle a a = true := by
  rw [fle, fpCompare_self (f32v_ne_nan h)]

theorem fle_of_flt {a b : F32} (h : flt a b = true) : fle a b = true := by
  rw [flt, beq_iff_eq] at h
  rw [fle, h]

/-- The order of values that are no NaN is total. -/
theorem fle_of_not_flt {a b : F32} (ha : fNaN a = false) (hb : fNaN b = false) (h : flt b a = false) :
    fle a b = true := by
  obtain ⟨o, ho⟩ := fpCompare_isSome (f32v_ne_nan hb) (f32v_ne_nan ha)
  rw [fle, fpCompare_swap (f32v b), ho]
  cases o with
  | lt => simp [flt, ho] at h
  | eq => rfl
  | gt => rfl

/-- The lower of two values is one of them and bounds both from below. -/
theorem fmin_spec {a b : F32} (ha : fNaN a = false) (hb : fNaN b = false) :
    fle (fmin a b) a = true ∧ fle (fmin a b) b = true ∧ (fmin a b = a ∨ fmin a b = b) := by
  unfold fmin
  split
  case isTrue h => exact ⟨fle_of_flt h, fle_self hb, .inr rfl⟩
  case isFalse h => exact ⟨fle_self ha, fle_of_not_flt ha hb (by simpa using h), .inl rfl⟩

/-- The higher of two values is one of them and bounds both from above. -/
theorem fmax_spec {a b : F32} (ha : fNaN a = false) (hb : fNaN b = false) :
    fle a (fmax a b) = true ∧ fle b (fmax a b) = true ∧ (fmax a b = a ∨ fmax a b = b) := by
  unfold fmax
  split
  case isTrue h => exact ⟨fle_of_flt h, fle_self hb, .inr rfl⟩
  case isFalse h => exact ⟨fle_self ha, fle_of_not_flt hb ha (by simpa using h), .inl rfl⟩

/-! ## The extremes of a cell -/

theorem extremeOf_min {a x : F32} (ha : fNaN a = false) (hx : fNaN x = false) : extremeOf false a x = fmin a x := by
  simp [extremeOf, ha, hx]

theorem extremeOf_max {a x : F32} (ha : fNaN a = false) (hx : fNaN x = false) : extremeOf true a x = fmax a x := by
  simp [extremeOf, ha, hx]

/-- The first value after a reset is both extremes. -/
theorem Cell.takeExtremes_first {c : Cell} {v : CellVal} (hq : v.quality ≤ 2) (ht : v.type ≠ 4)
    (hc : c.extremesValid = false) :
    c.takeExtremes v = { c with
      min := valueF32 v.type v.value, max := valueF32 v.type v.value, extremesValid := true } := by
  simp [Cell.takeExtremes, hq, ht, hc]

/-- A later value moves them. -/
theorem Cell.takeExtremes_later {c : Cell} {v : CellVal} (hq : v.quality ≤ 2) (ht : v.type ≠ 4)
    (hc : c.extremesValid = true) :
    c.takeExtremes v = { c with
      min := extremeOf false c.min (valueF32 v.type v.value), max := extremeOf true c.max (valueF32 v.type v.value) } := by
  simp [Cell.takeExtremes, hq, ht, hc]

theorem Cell.takeExtremes_of_not {c : Cell} {v : CellVal} (h : v.type = 4 ∨ 2 < v.quality) : c.takeExtremes v = c :=
  if_neg (by omega)

/-- The extremes concern no other field of a cell. -/
@[simp] theorem Cell.takeExtremes_own (c : Cell) (v : CellVal) : (c.takeExtremes v).own = c.own := by
  unfold Cell.takeExtremes; split <;> [split; skip] <;> rfl
@[simp] theorem Cell.takeExtremes_forced (c : Cell) (v : CellVal) : (c.takeExtremes v).forced = c.forced := by
  unfold Cell.takeExtremes; split <;> [split; skip] <;> rfl
@[simp] theorem Cell.takeExtremes_written (c : Cell) (v : CellVal) : (c.takeExtremes v).written = c.written := by
  unfold Cell.takeExtremes; split <;> [split; skip] <;> rfl

theorem Cell.takeExtremes_valid {c : Cell} {v : CellVal} (hq : v.quality ≤ 2) (ht : v.type ≠ 4) :
    (c.takeExtremes v).extremesValid = true := by
  cases hc : c.extremesValid with
  | false => rw [Cell.takeExtremes_first hq ht hc]
  | true => rw [Cell.takeExtremes_later hq ht hc]; exact hc

/-! ## Writing, forcing and releasing a cell -/

theorem Cell.write_unforced {c : Cell} {v : CellVal} (h : c.forced = none) :
    c.write v = ({ c with own := v, written := true } : Cell).takeExtremes v := by
  simp [Cell.write, h]

theorem Cell.write_forced {c : Cell} {v : CellVal} (h : c.forced.isSome = true) :
    c.write v = { c with own := v, written := true } := by
  simp [Cell.write, h]

/-- A write keeps the writer's value, whatever becomes of the extremes. -/
@[simp] theorem Cell.write_own (c : Cell) (v : CellVal) : (c.write v).own = v := by
  unfold Cell.write; split <;> simp
@[simp] theorem Cell.write_written (c : Cell) (v : CellVal) : (c.write v).written = true := by
  unfold Cell.write; split <;> simp

@[simp] theorem Cell.force_own (c : Cell) (type : Nat) (v : Val) (e : Nat) : (c.force type v e).own = c.own := by
  simp [Cell.force]
@[simp] theorem Cell.force_forced (c : Cell) (type : Nat) (v : Val) (e : Nat) :
    (c.force type v e).forced = some ⟨v, e, 0, 0, 0x80#8, type⟩ := rfl

@[simp] theorem Cell.release_forced (c : Cell) : c.release.forced = none := by
  unfold Cell.release
  split
  · split <;> simp
  · simp_all
@[simp] theorem Cell.release_own (c : Cell) : c.release.own = c.own := by
  unfold Cell.release; split <;> [split; skip] <;> simp
@[simp] theorem Cell.release_written (c : Cell) : c.release.written = c.written := by
  unfold Cell.release; split <;> [split; skip] <;> simp

/-- The value that a release brings back enters the extremes. -/
theorem Cell.release_valid {c : Cell} (hf : c.forced.isSome = true) (hw : c.written = true) (hq : c.own.quality ≤ 2)
    (ht : c.own.type ≠ 4) : c.release.extremesValid = true := by
  simp only [Cell.release, hf, hw, if_true]
  exact Cell.takeExtremes_valid hq ht

/-! ## What a reader sees -/

/-- The null cell of every node, and the reserved cells (R31). -/
theorem Plant.see_null {ref : Nat} (p : Plant) (c : Content) (pw : Power) (t : Nat)
    (h : ref % 8192 = 0 ∨ (ref < 8192 ∧ 154 ≤ ref ∧ ref ≤ 255)) : p.see c pw t ref = nullSeen := if_pos h

section
variable {ref : Nat} {p : Plant} {c : Content} {pw : Power} {t : Nat}
  (h0 : ref % 8192 ≠ 0) (hr : ¬(ref < 8192 ∧ 154 ≤ ref ∧ ref ≤ 255))
include h0 hr

theorem Plant.see_forced {f : CellVal} (hf : (p.cell ref).forced = some f) :
    p.see c pw t ref = ⟨f.value, f.stamp, f.source, f.quality, f.conditions, f.type⟩ := by
  rw [Plant.see, if_neg (not_or.mpr ⟨h0, hr⟩)]
  simp only [hf]

theorem Plant.see_unwritten (hf : (p.cell ref).forced = none) (hw : (p.cell ref).written = false) :
    p.see c pw t ref = { nullSeen with type := (p.cell ref).own.type } := by
  rw [Plant.see, if_neg (not_or.mpr ⟨h0, hr⟩)]
  simp [hf, hw]

/-- A written cell is judged by its age (R37). -/
theorem Plant.see_written (hf : (p.cell ref).forced = none) (hw : (p.cell ref).written = true)
    (hs : ref < 8192 ∨ (p.cell ref).own.source ≠ 0) :
    p.see c pw t ref =
      if (p.cell ref).own.stamp + freshLimit c pw ref (p.cell ref).own.source < t then
        ⟨(p.cell ref).own.value, (p.cell ref).own.stamp, (p.cell ref).own.source, Nat.max (p.cell ref).own.quality 4,
          (p.cell ref).own.conditions ||| 0x08#8, (p.cell ref).own.type⟩
      else ⟨(p.cell ref).own.value, (p.cell ref).own.stamp, (p.cell ref).own.source, (p.cell ref).own.quality,
        (p.cell ref).own.conditions, (p.cell ref).own.type⟩ := by
  have hs' : ¬(8192 ≤ ref ∧ (p.cell ref).own.source = 0) := by omega
  rw [Plant.see, if_neg (not_or.mpr ⟨h0, hr⟩)]
  simp only [hf, hw, hs', Bool.not_true, Bool.false_eq_true, if_false]
  rfl

end

/-- A cell that a unit with a period writes is fresh for twice that period (R37). -/
theorem freshLimit_unit {c : Content} {pw : Power} {ref source n : Nat} (hr : ref < 8192) (hs : source ≠ 0)
    (hn : unitPeriod c pw source = some n) : freshLimit c pw ref source = 2 * n := by
  simp [freshLimit, Nat.not_le.mpr hr, hs, hn]

end Sys2Proof.Machine

open Sys2Proof.Machine

/-- Settles O60: the extremes follow `Cell.takeExtremes`, and binary32 values that are no NaN are totally ordered. -/
theorem extremes : Obligations.Extremes := by
  unfold Obligations.Extremes
  refine ⟨fun x v hf ht hq hv => ?first, fun x v hf ht hq hv => ⟨fun h1 h2 h3 => ?later, ?some⟩,
    fun a b ha hb => ?order, fun x v h => ?other, fun _ _ => rfl, fun x e v hf ht hq => ?reset⟩
  case first => exact (Cell.write_unforced hf).trans (Cell.takeExtremes_first hq ht hv)
  case later =>
    rw [← extremeOf_min h1 h3, ← extremeOf_max h2 h3]
    exact (Cell.write_unforced hf).trans (Cell.takeExtremes_later hq ht hv)
  case some => exact ⟨_, _, (Cell.write_unforced hf).trans (Cell.takeExtremes_later hq ht hv)⟩
  case order =>
    obtain ⟨hma, hmb, hm⟩ := fmin_spec ha hb
    obtain ⟨hxa, hxb, hx⟩ := fmax_spec ha hb
    exact ⟨hma, hmb, hxa, hxb, hm, hx⟩
  case other =>
    rcases h with h | h
    · exact Cell.write_forced (Option.isSome_iff_ne_none.mpr h)
    · by_cases hf : x.forced = none
      · exact (Cell.write_unforced hf).trans (Cell.takeExtremes_of_not h)
      · exact Cell.write_forced (Option.isSome_iff_ne_none.mpr hf)
  case reset =>
    have hf' : (x.resetExtremes e).forced = none := hf
    rw [Cell.write_unforced hf', Cell.takeExtremes_first hq ht rfl]
    exact ⟨rfl, rfl⟩

/-- Settles O59: one lemma for each way that a cell can read. -/
theorem cellReads : Obligations.CellReads := by
  unfold Obligations.CellReads
  refine ⟨fun p c pw t ref e type v h0 hr => ?force, fun x v h => Cell.write_forced h,
    fun x => ⟨x.release_forced, x.release_own, x.release_written, Cell.release_valid⟩,
    fun x e type v ht hv => ?forceExtremes, fun p c pw t ref h => ?null,
    fun p c pw t ref h0 hr hf hw hs => Plant.see_written h0 hr hf hw hs, fun p c pw t ref h0 hr hf hw => ?unwritten,
    fun c pw ref source n => freshLimit_unit, fun c pw ref => ⟨fun h => if_pos h, fun h => ?host⟩⟩
  case force => exact Plant.see_forced (f := ⟨v, e, 0, 0, 0x80#8, type⟩) h0 hr (by simp)
  case forceExtremes =>
    have hq : (⟨v, e, 0, 0, 0x80#8, type⟩ : CellVal).quality ≤ 2 := Nat.zero_le 2
    simp only [Cell.force, Cell.takeExtremes_first hq ht hv, and_self]
  case null => exact Plant.see_null p c pw t (by omega)
  case unwritten => rw [Plant.see_unwritten h0 hr hf hw]; rfl
  case host => rw [freshLimit, if_neg (Nat.not_le.mpr h), if_pos rfl]
end

section
/-! # Reads of units, cells and parameters (R18, R20, R33, R75, R77, R442, R443, R445, R477) -/

namespace Sys2Proof.Machine

/-! ## Status words (Table 01-2) -/

/-- A word of Table 01-2 with KIND, FAULT_CODE and STATE given, and its flags in bits 19, 18, 17, 16 and 7. -/
def statusBits (kind code st : Nat) (f19 f18 f17 f16 f7 : Bool) : Nat :=
  16777216 * kind + flagBit f19 19 + flagBit f18 18 + flagBit f17 17 + flagBit f16 16 + 256 * code + flagBit f7 7 + st

theorem State.statusWord_vacant {s : State} {slot : Nat} (h : (headerOf s.content slot).kind = 0) :
    s.statusWord slot = 0 := if_pos h

theorem State.statusWord_configured {s : State} {slot : Nat} (h : (headerOf s.content slot).kind ≠ 0) :
    s.statusWord slot = statusBits (headerOf s.content slot).kind
      (if (s.view.unit slot).st.held then (s.view.unit slot).faultCode % 256 else 0) (s.view.unit slot).st.code
      (s.view.unit slot).cmdDropped (s.view.unit slot).capChanged (s.view.unit slot).inputSubst
      (s.view.unit slot).inputUnusable (s.view.unit slot).memberFault := if_neg h

/-- A flag as its bit's weight. -/
theorem flagBit_eq (f : Bool) (b : Nat) : flagBit f b = f.toNat * 2 ^ b := by cases f <;> simp [flagBit]

/-- The number fields of a status word. -/
theorem statusBits_fields {code st : Nat} (kind : Nat) (f19 f18 f17 f16 f7 : Bool) (hc : code < 256) (hs : st < 16) :
    statusBits kind code st f19 f18 f17 f16 f7 / 2 ^ 24 = kind ∧
    statusBits kind code st f19 f18 f17 f16 f7 % 16 = st ∧
    statusBits kind code st f19 f18 f17 f16 f7 / 256 % 256 = code ∧
    statusBits kind code st f19 f18 f17 f16 f7 / 2 ^ 20 % 16 = 0 ∧
    statusBits kind code st f19 f18 f17 f16 f7 / 16 % 8 = 0 := by
  have h19 := f19.toNat_le; have h18 := f18.toNat_le; have h17 := f17.toNat_le
  have h16 := f16.toNat_le; have h7 := f7.toNat_le
  simp only [statusBits, flagBit_eq]
  omega

/-- The flags of a status word. -/
theorem statusBits_flags {code st : Nat} (kind : Nat) (f19 f18 f17 f16 f7 : Bool) (hc : code < 256) (hs : st < 16) :
    (statusBits kind code st f19 f18 f17 f16 f7).testBit 19 = f19 ∧
    (statusBits kind code st f19 f18 f17 f16 f7).testBit 18 = f18 ∧
    (statusBits kind code st f19 f18 f17 f16 f7).testBit 17 = f17 ∧
    (statusBits kind code st f19 f18 f17 f16 f7).testBit 16 = f16 ∧
    (statusBits kind code st f19 f18 f17 f16 f7).testBit 7 = f7 := by
  have h19 := f19.toNat_le; have h18 := f18.toNat_le; have h17 := f17.toNat_le
  have h16 := f16.toNat_le; have h7 := f7.toNat_le
  have flag (w b : Nat) (f : Bool) (h : w / 2 ^ b % 2 = f.toNat) : w.testBit b = f := by
    rw [Nat.testBit_eq_decide_div_mod_eq, h]; cases f <;> rfl
  refine ⟨flag _ _ _ ?_, flag _ _ _ ?_, flag _ _ _ ?_, flag _ _ _ ?_, flag _ _ _ ?_⟩ <;>
    (simp only [statusBits, flagBit_eq]; omega)

theorem UState.held_iff (st : UState) : st.held = true ↔ st = .hold ∨ st = .fault := by cases st <;> simp [UState.held]

theorem UState.code_lt (st : UState) : st.code < 16 := by cases st <;> decide

/-- The units of the copy that readers see, after a change that stands in both copies. -/
theorem State.view_modPlants (s : State) (f : Plant → Plant) : (s.modPlants f).view = f s.view := by
  unfold State.view
  cases h : s.committed <;> simp [h]

theorem State.view_clearReadFlags (s : State) (slot : Nat) :
    (s.clearReadFlags slot).view.unit slot = { s.view.unit slot with cmdDropped := false, capChanged := false } := by
  rw [State.clearReadFlags, State.view_modPlants, Plant.unit_modUnit, if_pos rfl]

/-! ## Payload forms -/

/-- A field behind the first byte. -/
theorem field_cons (b : Byte) (t : List Byte) (off len : Nat) : field (b :: t) (1 + off) len = field t off len := by
  rw [Nat.add_comm]; rfl

/-- A payload in list form runs the command on its entries. -/
theorem listForm_run {max : Nat} {f : List Nat → Body} {s : State} {c : Ctx} (h : IsList max c.data) :
    listForm max f s c = f (listOf c.data) s c := by
  obtain ⟨hne, hpos, hmax, hlen⟩ := h
  unfold listForm
  cases hd : c.data with
  | nil => exact absurd hd hne
  | cons b t =>
    rw [hd] at hpos hmax hlen
    have hn : ¬(b.toNat = 0 ∨ max < b.toNat) := not_or.mpr ⟨hpos, Nat.not_lt.mpr hmax⟩
    exact (if_neg hn).trans (if_neg (not_not.mpr hlen))

theorem exactly_run {n : Nat} {f : Body} {s : State} {c : Ctx} (h : c.data.length = n) : exactly n f s c = f s c := if_pos h

/-- No entry fails a check that they all pass. -/
theorem firstFailing_none {α : Type} {ok : α → Bool} {l : List α} (h : ∀ x ∈ l, ok x = true) : firstFailing ok l = none := by
  have : l.findIdx? (fun x => !ok x) = none := List.findIdx?_eq_none_iff.mpr (fun x hx => by simp [h x hx])
  rw [firstFailing, this]; rfl

/-! ## What the reading commands do -/

theorem unitStatusBody_run {s : State} {c : Ctx} (h : IsList 255 c.data) (hs : ∀ u ∈ listOf c.data, s.slotExists u = true) :
    unitStatusBody s c = (okData ((listOf c.data).flatMap (fun u => le 4 (s.statusWord u))),
      (listOf c.data).foldl State.clearReadFlags s) := by
  rw [unitStatusBody, listForm_run h, List.flatMap_def]
  simp only [firstFailing_none hs]

theorem unitListBody_run {s : State} {c : Ctx} (h : c.data.length = 2) (hf : field c.data 0 2 ≤ 1023) :
    unitListBody s c = (okData (le 2 (field c.data 0 2) ++ le 2 (Nat.min 1000 (1024 - field c.data 0 2)) ++
      (List.range (Nat.min 1000 (1024 - field c.data 0 2))).flatMap (fun i => s.listEntry (field c.data 0 2 + i))), s) := by
  rw [unitListBody, exactly_run h, List.flatMap_def]
  exact if_neg (Nat.not_lt.mpr hf)

theorem cellReadBody_run {s : State} {c : Ctx} (h : IsList 127 c.data) (hx : ∀ x ∈ listOf c.data, x < 8192) :
    cellReadBody s c = (okData ((listOf c.data).flatMap (s.cellBytes s.tick)), s) := by
  have hown : ∀ x ∈ listOf c.data, ownCell x = true := fun x hm => decide_eq_true (hx x hm)
  rw [cellReadBody, listForm_run h, List.flatMap_def]
  simp only [firstFailing_none hown]

/-- A cell has 32 bytes (Table 01-6). -/
theorem State.length_cellBytes (s : State) (t x : Nat) : (s.cellBytes t x).length = 32 := by
  unfold State.cellBytes
  simp only [List.length_append, length_le, List.length_cons, List.length_nil]
  split
  · simp
  · split <;> simp

theorem paramReadBlock_run {s : State} {c : Ctx} {t : Target} (h : c.data.length = 10) (hl : field c.data 8 2 ≠ 0)
    (ht : s.blockTarget (field c.data 0 2) (field c.data 2 2) (field c.data 4 4) (field c.data 8 2) = .ok t) :
    paramReadBlock s c = (okData (bytesAt (s.readBlock c t) (field c.data 4 4) (field c.data 8 2)), s) := by
  rw [paramReadBlock, exactly_run h]
  simp only [ht, if_neg hl]

/-! ## PARAM_READ -/

/-- The parameters that a PARAM_READ of `n` entries names. -/
def readIds (d : List Byte) (n : Nat) : List (Nat × Nat) :=
  (List.range n).map (fun i => (field d (1 + 4 * i) 2, field d (3 + 4 * i) 2))

/-- The flags that a PARAM_READ clears: those of every unit whose status word it names. -/
def State.clearNamed (s : State) (ids : List (Nat × Nat)) : State :=
  ids.foldl (fun s x => if x.1 = P.UNIT_STATUS_WORD ∧ x.2 < 1024 then s.clearReadFlags x.2 else s) s

/-- The entry of a scalar that exists. -/
theorem State.readEntry_found {s : State} {c : Ctx} {id inst code : Nat} {t : Target} (h : s.resolve id inst = .found t)
    (ht : typeCode t.info.ty = some code) :
    s.readEntry c id inst = (le 2 id ++ le 2 inst ++ [BitVec.ofNat 8 code, 0, 0, 0] ++ le 8 (s.readScalar c t), stOk) := by
  simp only [State.readEntry, h, ht]
  rfl

/-- The entries of the answer. -/
def readRows (s : State) (c : Ctx) (n : Nat) : List (List Byte) :=
  (readIds c.data n).map (fun x => (s.readEntry c x.1 x.2).1)

@[simp] theorem length_readIds {d : List Byte} {n : Nat} : (readIds d n).length = n := by simp [readIds]
@[simp] theorem length_readRows {s : State} {c : Ctx} {n : Nat} : (readRows s c n).length = n := by simp [readRows]

theorem readRows_getD {s : State} {c : Ctx} {n i code : Nat} {t : Target} (hi : i < n)
    (hr : s.resolve ((readIds c.data n).getD i (0, 0)).1 ((readIds c.data n).getD i (0, 0)).2 = .found t)
    (ht : typeCode t.info.ty = some code) :
    (readRows s c n).getD i [] = le 2 ((readIds c.data n).getD i (0, 0)).1 ++ le 2 ((readIds c.data n).getD i (0, 0)).2 ++
      [BitVec.ofNat 8 code, 0, 0, 0] ++ le 8 (s.readScalar c t) := by
  have hlen : i < (readIds c.data n).length := by simpa using hi
  rw [List.getD_eq_getElem _ _ hlen] at hr ⊢
  rw [List.getD_eq_getElem _ _ (by simpa using hi)]
  simp only [readRows, List.getElem_map, State.readEntry_found hr ht]

/-- PARAM_READ of scalars that exist. -/
theorem paramRead_run {s : State} {c : Ctx} {n : Nat} (h0 : 0 < n) (h256 : n < 256) (hd : c.data.headD 0 = BitVec.ofNat 8 n)
    (hl : c.data.length = 1 + 4 * n)
    (hx : ∀ x ∈ readIds c.data n, ∃ t code, s.resolve x.1 x.2 = .found t ∧ typeCode t.info.ty = some code) :
    paramRead s c = (okData (readRows s c n).flatten,
      s.clearNamed (readIds c.data n)) := by
  unfold paramRead
  cases hc : c.data with
  | nil => rw [hc] at hl; simp at hl; omega
  | cons b t =>
    have hb : b.toNat = n := by
      have : b = BitVec.ofNat 8 n := by simpa [hc] using hd
      rw [this, BitVec.toNat_ofNat, Nat.mod_eq_of_lt h256]
    have ht : t.length = 4 * n := by rw [hc, List.length_cons] at hl; omega
    have hids : (List.range n).map (fun i => (field t (4 * i) 2, field t (4 * i + 2) 2)) = readIds (b :: t) n := by
      refine List.map_congr_left fun i _ => ?_
      have h3 : 3 + 4 * i = 1 + (4 * i + 2) := by omega
      rw [h3, field_cons, field_cons]
    have hok : ((readIds (b :: t) n).map (fun x => s.readEntry c x.1 x.2)).findIdx? (fun e => e.2 != stOk) = none := by
      refine List.findIdx?_eq_none_iff.mpr fun e he => ?_
      obtain ⟨x, hm, rfl⟩ := List.mem_map.mp he
      obtain ⟨u, code, hu, hcode⟩ := hx x (hc ▸ hm)
      rw [State.readEntry_found hu hcode]; rfl
    simp only [hb, ht, hids, hok, Nat.ne_of_gt h0, if_false, ne_eq, not_true, List.map_map, readRows, hc]
    rfl

/-! ## Which value a parameter reads (R445) -/

theorem State.readScalar_tick {s : State} {c : Ctx} {t : Target} {i : Nat} (hi : t.inst = some i) (ha : t.info.acc = .rw)
    (he : t.info.eff = .tick) : s.readScalar c t = runningOf s.view s.content t.info.id i := by
  simp only [State.readScalar, hi, ha, he]

theorem State.readScalar_commit {s : State} {c : Ctx} {t : Target} {i : Nat} (hi : t.inst = some i) (ha : t.info.acc = .rw)
    (he : t.info.eff = .commit) : s.readScalar c t = scalarOf (s.editContent c.sid) t.info.id i := by
  simp only [State.readScalar, hi, ha, he]

end Sys2Proof.Machine

open Sys2Proof.Machine

/-- Settles O17: the word is `statusBits` of the unit's record. -/
theorem statusWords : Obligations.StatusWords := by
  unfold Obligations.StatusWords
  refine ⟨fun s slot h => State.statusWord_vacant h, fun s slot h => ?_, State.view_clearReadFlags⟩
  have hcode : (if (s.view.unit slot).st.held then (s.view.unit slot).faultCode % 256 else 0) < 256 := by split <;> omega
  have hst := (s.view.unit slot).st.code_lt
  simp only [State.statusWord_configured h]
  obtain ⟨hkind, hstate, hfault, h20, h4⟩ := statusBits_fields (headerOf s.content slot).kind
    (s.view.unit slot).cmdDropped (s.view.unit slot).capChanged (s.view.unit slot).inputSubst
    (s.view.unit slot).inputUnusable (s.view.unit slot).memberFault hcode hst
  obtain ⟨h19, h18, h17, h16, h7⟩ := statusBits_flags (headerOf s.content slot).kind
    (s.view.unit slot).cmdDropped (s.view.unit slot).capChanged (s.view.unit slot).inputSubst
    (s.view.unit slot).inputUnusable (s.view.unit slot).memberFault hcode hst
  refine ⟨hkind, hstate, hfault.trans ?_, h19, h18, h17, h16, h7, h20, h4⟩
  simp only [UState.held_iff]

/-- Settles O16: each command's meaning is one lemma, and `State.hostCommand_ok` gives the reply. -/
theorem unitReads : Obligations.UnitReads := by
  unfold Obligations.UnitReads
  refine ⟨fun s p r e h hl hs => ?status, fun s p r e h hl hf => ?list, fun s p r e h hl hx => ⟨?cells, s.length_cellBytes s.tick⟩,
    fun s p r e t h hl hn ht => ?block, fun s p r e n h h0 h256 hd hl hx => ?params,
    fun s c t i => State.readScalar_tick, fun s c t i => State.readScalar_commit⟩
  case status => exact congrArg _ (State.hostCommand_ok h (by decide) (unitStatusBody_run hl hs) rfl)
  case list => exact congrArg _ (State.hostCommand_ok h (by decide) (unitListBody_run hl hf) rfl)
  case cells => exact congrArg _ (State.hostCommand_ok h (by decide) (cellReadBody_run hl hx) rfl)
  case block => exact congrArg _ (State.hostCommand_ok h (by decide) (paramReadBlock_run hl hn ht) rfl)
  case params =>
    have hrun := paramRead_run (c := hostCtx s p r e) h0 h256 hd hl hx
    exact ⟨readRows s (hostCtx s p r e) n, congrArg _ (State.hostCommand_ok h (by decide) hrun rfl), length_readRows,
      fun i t code => readRows_getD (c := hostCtx s p r e)⟩
end

section
/-! # Unit states: what an action on a unit leads to (Table 01-4, R21, R23, R24, R254) -/

namespace Sys2Proof.Machine

/-! ## Reading a unit's record after a change -/

@[simp] theorem State.unit_modUnit (s : State) (a b : Nat) (f : UnitRec → UnitRec) :
    (s.modUnit a f).unit b = if a = b then f (s.unit a) else s.unit b := Plant.unit_modUnit _ _ _ _

@[simp] theorem State.unit_setSt (s : State) (a b : Nat) (st : UState) :
    (s.setSt a st).unit b =
      if a = b then { s.unit a with st := st, faultCode := 0, windDone := false } else s.unit b :=
  State.unit_modUnit _ _ _ _

/-- Entry into HOLD or FAULT from another state. -/
theorem State.unit_enterHeld {s : State} {slot : Nat} {st : UState} {code : Nat} (h : (s.unit slot).st ≠ st) (u : Nat) :
    (s.enterHeld slot st code).unit u =
      if slot = u then { s.unit slot with st := st, faultCode := code % 256, windDone := false } else s.unit u := by
  rw [State.enterHeld, if_neg h]
  exact State.unit_modUnit _ _ _ _

theorem State.unit_enterHeld_ne (s : State) {slot u : Nat} (st : UState) (code : Nat) (h : slot ≠ u) :
    (s.enterHeld slot st code).unit u = s.unit u := by
  by_cases hs : (s.unit slot).st = st
  · rw [State.enterHeld, if_pos hs]
  · rw [State.unit_enterHeld hs, if_neg h]

/-! ## Operations that leave every unit's state and FAULT_CODE -/

/-- Every unit has the state and the FAULT_CODE that it had. -/
def SameStates (s t : State) : Prop := ∀ u, (t.unit u).st = (s.unit u).st ∧ (t.unit u).faultCode = (s.unit u).faultCode

theorem SameStates.of_units {s t : State} (h : t.work.units = s.work.units) : SameStates s t := fun u => by
  simp [State.unit, Plant.unit, h]

theorem SameStates.refl (s : State) : SameStates s s := .of_units rfl

theorem SameStates.trans {s t v : State} (h : SameStates s t) (h' : SameStates t v) : SameStates s v :=
  fun u => ⟨(h' u).1.trans (h u).1, (h' u).2.trans (h u).2⟩

/-- A detected fault waits for the next boundary. -/
theorem SameStates.detect (s : State) (slot code : Nat) : SameStates s (s.detect slot code) := fun u => by
  rw [State.detect, State.unit_modUnit]
  split
  · subst_vars
    unfold UnitRec.detect
    split <;> exact ⟨rfl, rfl⟩
  · exact ⟨rfl, rfl⟩

theorem SameStates.detectNow (s : State) (slot code : Nat) : SameStates s (s.detectNow slot code) :=
  SameStates.detect s slot code

theorem SameStates.foldl {α : Type} {f : State → α → State} (hf : ∀ s a, SameStates s (f s a)) (l : List α) (s : State) :
    SameStates s (l.foldl f s) := by
  induction l generalizing s with
  | nil => exact .refl _
  | cons a t ih => exact (hf s a).trans (ih _)

/-- The initial conditions of a start are the unit's own; a probe without a usable set detects a fault. -/
theorem State.initUnit_sameStates (s : State) (slot : Nat) : SameStates s (s.initUnit slot) := by
  unfold State.initUnit
  split
  case h_5 =>
    dsimp only
    split
    · exact .of_units rfl
    · exact SameStates.trans (.of_units rfl) (.detect _ _ _)
  case h_12 => split <;> exact .of_units rfl
  all_goals exact .of_units rfl

theorem State.engineFound_sameStates (s : State) (b : Nat) (ok : Bool) : SameStates s (s.engineFound b ok) := by
  unfold State.engineFound
  split
  · exact .of_units rfl
  · exact SameStates.trans (.of_units rfl) (.foldl (fun s u => .detectNow s u _) _ _)

theorem State.lineBelowIdle_sameStates (s : State) (ch : Nat) : SameStates s (s.lineBelowIdle ch).2 := by
  unfold State.lineBelowIdle
  lift_lets
  intro mv v lo hi r
  by_cases hlo : mv < lo
  · rw [if_pos hlo]; exact .refl s
  · rw [if_neg hlo]
    by_cases hhi : hi < mv
    · rw [if_pos hhi]; exact .refl s
    · rw [if_neg hhi]; exact .of_units rfl

/-- Looking for a fault's cause draws outcomes of self-tests; it brings no unit into another state. -/
theorem State.chanCauseGone_sameStates (s : State) (ch code : Nat) : SameStates s (s.chanCauseGone ch code).2 := by
  unfold State.chanCauseGone
  split
  case h_10 => exact s.lineBelowIdle_sameStates ch
  all_goals exact .of_units rfl

theorem State.causeGone_sameStates (s : State) (slot : Nat) : SameStates s (s.causeGone slot).2 := by
  unfold State.causeGone
  split
  case h_1 => exact s.chanCauseGone_sameStates _ _
  case h_4 =>
    dsimp only
    split
    · exact .refl _
    · split
      · exact SameStates.trans (.of_units rfl) (State.engineFound_sameStates _ _ _)
      · exact .refl _
  all_goals exact .of_units rfl

/-! ## The actions of Table 01-4 -/

theorem State.startUnit_stopped {s : State} {slot : Nat} (h : (s.unit slot).st = .stopped)
    (hc : ¬(slotKind slot = 0x08 ∧ (s.fcomb (slotInst slot)).enumerating = true)) :
    s.startUnit slot = (true, (s.setSt slot (startedState s.content slot)).initUnit slot) := by
  simp only [State.startUnit, h, if_neg hc]

/-- A unit that is started from STOPPED is in the state of its start mode. -/
theorem State.startUnit_st {s : State} {slot : Nat} (h : (s.unit slot).st = .stopped)
    (hc : ¬(slotKind slot = 0x08 ∧ (s.fcomb (slotInst slot)).enumerating = true)) :
    ((s.startUnit slot).2.unit slot).st = startedState s.content slot := by
  rw [State.startUnit_stopped h hc]
  exact (State.initUnit_sameStates _ slot slot).1.trans (by simp)

/-- A comb line is not started while it is enumerated (R254). -/
theorem State.startUnit_enumerating {s : State} {slot : Nat} (h : (s.unit slot).st = .stopped) (hk : slotKind slot = 0x08)
    (he : (s.fcomb (slotInst slot)).enumerating = true) : s.startUnit slot = (false, s) := by
  simp only [State.startUnit, h, if_pos (And.intro hk he)]

/-- A start in STOPPING absorbs the stop (R24). -/
theorem State.startUnit_stopping {s : State} {slot : Nat} (h : (s.unit slot).st = .stopping) :
    s.startUnit slot = (true, (s.absorbUnit slot).setSt slot (s.unit slot).resume) := by
  simp only [State.startUnit, h]

/-- A stop of a running unit begins its wind-down, or ends it at once. -/
theorem State.beginStop_st (s : State) (slot : Nat) :
    ((s.beginStop slot).unit slot).st = .stopping ∨ ((s.beginStop slot).unit slot).st = .stopped := by
  unfold State.beginStop
  split
  case h_1 => dsimp only; split <;> simp
  case h_5 => dsimp only; split <;> simp
  all_goals simp

theorem State.stopUnit_running {s : State} {slot : Nat} (h : (s.unit slot).st.running = true) :
    s.stopUnit slot = (true, s.beginStop slot) := by
  unfold State.stopUnit
  cases hs : (s.unit slot).st <;> simp_all [UState.running]

/-- A stop in HOLD or FAULT leads to STOPPED. -/
theorem State.stopUnit_held {s : State} {slot : Nat} (h : (s.unit slot).st = .hold ∨ (s.unit slot).st = .fault) :
    s.stopUnit slot = (true, (s.reinitUnit slot).setSt slot .stopped) := by
  rcases h with h | h <;> simp only [State.stopUnit, h]

/-- A clear fault in FAULT: STOPPED when the cause is gone; otherwise the unit stays as it is. -/
theorem State.clearUnit_fault {s : State} {slot : Nat} (h : (s.unit slot).st = .fault) :
    ((s.clearUnit slot).1 = true ∧ ((s.clearUnit slot).2.unit slot).st = .stopped) ∨
    ((s.clearUnit slot).1 = false ∧ ((s.clearUnit slot).2.unit slot).st = .fault ∧
      ((s.clearUnit slot).2.unit slot).faultCode = (s.unit slot).faultCode) := by
  simp only [State.clearUnit, h]
  by_cases hg : (s.causeGone slot).1 = true
  · exact .inl (by simp [hg])
  · obtain ⟨hst, hcode⟩ := s.causeGone_sameStates slot slot
    exact .inr (by simpa [hg] using ⟨hst.trans h, hcode⟩)

/-- What a transfer does beside the state itself is the kind's own. -/
theorem State.toManual_st (s : State) (slot : Nat) : ((s.toManual slot).unit slot).st = .manual := by
  have h : SameStates (s.setSt slot .manual) (s.toManual slot) := by
    unfold State.toManual
    dsimp only
    split <;> exact .of_units rfl
  exact (h slot).1.trans (by simp)

theorem State.endCalmSafe_sameStates (s : State) (slot : Nat) : SameStates s (s.endCalmSafe slot) := by
  unfold State.endCalmSafe
  split <;> exact .of_units rfl

theorem State.toAuto_st (s : State) (slot : Nat) : ((s.toAuto slot).unit slot).st = .auto := by
  have h : SameStates ((s.setSt slot .auto).endCalmSafe slot) (s.toAuto slot) := by
    unfold State.toAuto
    dsimp only
    split
    · exact .of_units rfl
    · exact .refl _
  exact ((State.endCalmSafe_sameStates _ slot).trans h slot).1.trans (by simp)

theorem State.modeUnit_idle {s : State} {slot : Nat} (dest : UState) (h : (s.unit slot).st.running = false) :
    s.modeUnit slot dest = (false, s) := by
  simp [State.modeUnit, h]

/-- A running unit with an operator mode takes the mode asked for. -/
theorem State.modeUnit_st {s : State} {slot : Nat} {dest : UState} (hk : hasMode (slotKind slot) = true)
    (h : (s.unit slot).st.running = true) (hd : dest = .auto ∨ dest = .manual) :
    (s.modeUnit slot dest).1 = true ∧ ((s.modeUnit slot dest).2.unit slot).st = dest := by
  have hno : ¬((!hasMode (slotKind slot) || !(s.unit slot).st.running) = true) := by simp [hk, h]
  rw [State.modeUnit, if_neg hno]
  by_cases hs : (s.unit slot).st = dest
  · rw [if_pos hs]
    refine ⟨rfl, ?_⟩
    dsimp only
    split
    · exact (s.endCalmSafe_sameStates slot slot).1.trans hs
    · exact hs
  · rw [if_neg hs]
    refine ⟨rfl, ?_⟩
    rcases hd with rfl | rfl
    · exact s.toAuto_st slot
    · exact s.toManual_st slot

/-! ## The actions, by their name -/

section
variable {s : State} {slot : Nat} (hk : slot ≠ hkSlot)
include hk

theorem State.actUnit_start : s.actUnit slot .start = s.startUnit slot := if_neg hk
theorem State.actUnit_stop : s.actUnit slot .stop = s.stopUnit slot := if_neg hk
theorem State.actUnit_clear : s.actUnit slot .clear = s.clearUnit slot := if_neg hk
theorem State.actUnit_manual : s.actUnit slot .manual = s.modeUnit slot .manual := if_neg hk
theorem State.actUnit_auto : s.actUnit slot .auto = s.modeUnit slot .auto := if_neg hk
theorem State.actUnit_value (v : F32) : s.actUnit slot (.value v) = s.valueUnit slot v := if_neg hk

end

end Sys2Proof.Machine

open Sys2Proof.Machine

/-- Settles O18: one case for each row of Table 01-4. -/
theorem unitTransitions : Obligations.UnitTransitions := by
  unfold Obligations.UnitTransitions
  intro s slot hk
  simp only [State.actUnit_start hk, State.actUnit_stop hk, State.actUnit_clear hk, State.actUnit_manual hk,
    State.actUnit_auto hk, State.actUnit_value hk]
  refine ⟨fun h => ?stopped, fun h => ?running, fun h => ?stopping, fun h => ?held, fun h => ?clearHold,
    State.clearUnit_fault, fun v h => if_pos h⟩
  case stopped =>
    have hidle : (s.unit slot).st.running = false := by rw [h]; rfl
    refine ⟨fun hc => ?_, State.startUnit_enumerating h, by simp only [State.stopUnit, h], by simp only [State.clearUnit, h],
      State.modeUnit_idle _ hidle, State.modeUnit_idle _ hidle⟩
    have hc' : ¬(slotKind slot = 0x08 ∧ (s.fcomb (slotInst slot)).enumerating = true) := by
      rintro ⟨h8, he⟩
      exact hc.elim (· h8) (fun hf => by simp [hf] at he)
    exact ⟨by rw [State.startUnit_stopped h hc'], State.startUnit_st h hc'⟩
  case running =>
    have hrun : (s.unit slot).st.running = true := by rcases h with h | h | h <;> rw [h] <;> rfl
    rw [State.stopUnit_running hrun]
    refine ⟨?_, ?_, rfl, s.beginStop_st slot, fun hm => ?_⟩
    · rcases h with h | h | h <;> simp only [State.startUnit, h]
    · rcases h with h | h | h <;> simp only [State.clearUnit, h]
    · obtain ⟨hman, hmanSt⟩ := State.modeUnit_st (dest := .manual) hm hrun (.inr rfl)
      exact ⟨hman, hmanSt, State.modeUnit_st hm hrun (.inl rfl)⟩
  case stopping =>
    have hidle : (s.unit slot).st.running = false := by rw [h]; rfl
    rw [State.startUnit_stopping h]
    exact ⟨rfl, by simp, by simp only [State.stopUnit, h], by simp only [State.clearUnit, h],
      State.modeUnit_idle _ hidle, State.modeUnit_idle _ hidle⟩
  case held =>
    have hidle : (s.unit slot).st.running = false := by rcases h with h | h <;> rw [h] <;> rfl
    rw [State.stopUnit_held h]
    refine ⟨?_, State.modeUnit_idle _ hidle, State.modeUnit_idle _ hidle, rfl, by simp, by simp⟩
    rcases h with h | h <;> simp only [State.startUnit, h]
  case clearHold => simp only [State.clearUnit, h]
end

section
/-! # What the operations of a boundary leave as it was

Each operation is placed once in a class by the part of the state that it can change; `State.besideUnits`,
`State.besidePlant`, `State.besideJobs` and `State.core` blank that part, so that one equation says what is left. -/

namespace Sys2Proof.Machine

/-! ## Folds -/

/-- What each step of a fold leaves, the fold leaves. -/
theorem foldl_keeps {α σ τ : Type} (π : σ → τ) {f : σ → α → σ} (h : ∀ s a, π (f s a) = π s) (l : List α) (s : σ) :
    π (l.foldl f s) = π s :=
  List.foldlRecOn (motive := fun t => π t = π s) l f rfl (fun t ht a _ => (h t a).trans ht)

/-- What the step of an entry brings about and no other step undoes holds of every entry at the end. -/
theorem foldl_brings {α σ : Type} {P : α → σ → Prop} {f : σ → α → σ} (hset : ∀ s a, P a (f s a))
    (hkeep : ∀ s a b, P b s → P b (f s a)) (l : List α) (s : σ) : ∀ b ∈ l, P b (l.foldl f s) := by
  induction l generalizing s with
  | nil => simp
  | cons a t ih =>
    intro b hb
    rcases List.mem_cons.mp hb with rfl | hb
    · exact List.foldlRecOn (motive := P b) t f (hset s b) (fun u hu a _ => hkeep u a b hu)
    · exact ih (f s a) b hb

/-! ## The four classes -/

/-- The state beside the units' records and the host interface. -/
def State.besideUnits (s : State) : State := { s with work := { s.work with units := [] }, host := {} }

/-- The state beside the working copy, the host interface and what is noted for the input record. -/
def State.besidePlant (s : State) : State := { s with work := default, host := {}, inrec := {} }

/-- The state beside what a job can change: jobs, events, the update session, the pending generation, draws, and the lines
that an enumeration takes. -/
def State.besideJobs (s : State) : State :=
  { s with host := {}, jobs := [], upd := {}, pendGen := none, draws := 0, fcombs := [] }

/-- The state beside all of these, the link, the recorder, the field side of channels, probes and lines, and the copy a
redo starts from: clocks, power, supplies, configuration, schedule, smoker, banks and thermal care. -/
def State.core (s : State) : State :=
  { s with work := default, base := default, host := {}, inrec := {}, jobs := [], upd := {}, pendGen := none, draws := 0
           fieldChans := [], fprobes := [], fcombs := [], link := {}, recorder := {} }

/-! What the core holds, field by field. -/

@[simp] theorem State.core_tick (s : State) : s.core.tick = s.tick := rfl
@[simp] theorem State.core_power (s : State) : s.core.power = s.power := rfl
@[simp] theorem State.core_smoker (s : State) : s.core.smoker = s.smoker := rfl
@[simp] theorem State.core_sched (s : State) : s.core.sched = s.sched := rfl
@[simp] theorem State.core_wallDiff (s : State) : s.core.wallDiff = s.wallDiff := rfl
@[simp] theorem State.core_wallStale (s : State) : s.core.wallStale = s.wallStale := rfl
@[simp] theorem State.core_hk (s : State) : s.core.hk = s.hk := rfl
@[simp] theorem State.core_fanDom (s : State) : s.core.fanDom = s.fanDom := rfl
@[simp] theorem State.core_bank (s : State) (b : Nat) : s.core.bank b = s.bank b := rfl
@[simp] theorem State.core_bankCount (s : State) : s.core.bankCount = s.bankCount := rfl
section
variable {s t : State} (h : t.core = s.core)
include h

theorem power_of_core : t.power = s.power := by simpa using congrArg State.power h
theorem smoker_of_core : t.smoker = s.smoker := by simpa using congrArg State.smoker h
theorem sched_of_core : t.sched = s.sched := by simpa using congrArg State.sched h
theorem wallDiff_of_core : t.wallDiff = s.wallDiff := by simpa using congrArg State.wallDiff h
theorem hk_of_core : t.hk = s.hk := by simpa using congrArg State.hk h
theorem fanDom_of_core : t.fanDom = s.fanDom := by simpa using congrArg State.fanDom h
theorem bank_of_core (b : Nat) : t.bank b = s.bank b := by simpa using congrArg (State.bank · b) h
theorem bankCount_of_core : t.bankCount = s.bankCount := by simpa using congrArg State.bankCount h

end

theorem besidePlant_of_units {s t : State} (h : t.besideUnits = s.besideUnits) : t.besidePlant = s.besidePlant :=
  show t.besideUnits.besidePlant = s.besideUnits.besidePlant from congrArg _ h

theorem core_of_plant {s t : State} (h : t.besidePlant = s.besidePlant) : t.core = s.core :=
  show t.besidePlant.core = s.besidePlant.core from congrArg _ h

theorem core_of_units {s t : State} (h : t.besideUnits = s.besideUnits) : t.core = s.core :=
  show t.besideUnits.core = s.besideUnits.core from congrArg _ h

theorem core_of_jobs {s t : State} (h : t.besideJobs = s.besideJobs) : t.core = s.core :=
  show t.besideJobs.core = s.besideJobs.core from congrArg _ h

/-! ## Units and hives -/

@[simp] theorem State.besideUnits_modUnit (s : State) (slot : Nat) (f : UnitRec → UnitRec) :
    (s.modUnit slot f).besideUnits = s.besideUnits := rfl

@[simp] theorem State.besideUnits_setSt (s : State) (slot : Nat) (st : UState) :
    (s.setSt slot st).besideUnits = s.besideUnits := rfl

@[simp] theorem State.besideUnits_enterHeld (s : State) (slot : Nat) (st : UState) (code : Nat) :
    (s.enterHeld slot st code).besideUnits = s.besideUnits := by
  unfold State.enterHeld
  split <;> rfl

/-- The flag that the states of a hive's members give it. -/
def State.syncFlag (s : State) (hive : Nat) : State :=
  s.modUnit hive (fun u => { u with
    memberFault := (membersOf s.content hive).any (fun u => (s.unit u).st.held) || (hive == 0 && s.graftedFault) })

/-- What follows for a hive from its members: its flag, then nothing, FAULT, or another state. -/
theorem State.syncHive_cases (s : State) (hive : Nat) :
    s.syncHive hive = s.syncFlag hive ∨ (∃ code, s.syncHive hive = (s.syncFlag hive).enterHeld hive .fault code) ∨
      ∃ st, s.syncHive hive = (s.syncFlag hive).setSt hive st := by
  obtain ⟨t, ht⟩ : ∃ t, s.syncHive hive = t := ⟨_, rfl⟩
  rw [ht]
  unfold State.syncHive at ht
  dsimp only at ht
  split at ht
  · split at ht
    · exact .inl ht.symm
    · exact .inr (.inl ⟨_, ht.symm⟩)
  · split at ht
    · exact .inr (.inr ⟨_, ht.symm⟩)
    · split at ht
      · exact .inr (.inr ⟨_, ht.symm⟩)
      · exact .inl ht.symm

@[simp] theorem State.besideUnits_syncHive (s : State) (hive : Nat) : (s.syncHive hive).besideUnits = s.besideUnits := by
  obtain h | ⟨code, h⟩ | ⟨st, h⟩ := s.syncHive_cases hive <;> rw [h]
  · rfl
  · exact State.besideUnits_enterHeld _ _ _ _
  · rfl

/-- The hives of the tree change their own records and raise UNIT_STATE; nothing else. -/
@[simp] theorem State.besideUnits_syncHives (s : State) : s.syncHives.besideUnits = s.besideUnits :=
  foldl_keeps State.besideUnits State.besideUnits_syncHive _ s

@[simp] theorem State.core_syncHives (s : State) : s.syncHives.core = s.core := core_of_units s.besideUnits_syncHives

theorem State.cells_syncHives (s : State) : s.syncHives.work.cells = s.work.cells :=
  show s.syncHives.besideUnits.work.cells = s.besideUnits.work.cells from congrArg (·.work.cells) s.besideUnits_syncHives

theorem State.cell_syncHives (s : State) (r : Nat) : s.syncHives.work.cell r = s.work.cell r := by
  rw [Plant.cell, s.cells_syncHives]; rfl

theorem State.unit_syncHive_ne (s : State) {hive u : Nat} (h : hive ≠ u) : (s.syncHive hive).unit u = s.unit u := by
  have hflag : (s.syncFlag hive).unit u = s.unit u := by simp [State.syncFlag, h]
  obtain hs | ⟨code, hs⟩ | ⟨st, hs⟩ := s.syncHive_cases hive <;> rw [hs]
  · exact hflag
  · rw [State.unit_enterHeld_ne _ _ _ h, hflag]
  · rw [State.unit_setSt, if_neg h, hflag]

/-- Only hives stand in the tree of hives. -/
theorem isHive_of_mem_hivesUp {c : Content} {k h u : Nat} (hh : isHive h = true) (hu : u ∈ hivesUp c k h) :
    isHive u = true := by
  induction k generalizing h with
  | zero => simp [hivesUp] at hu
  | succ k ih =>
    rw [hivesUp, List.mem_append, List.mem_flatMap, List.mem_singleton] at hu
    rcases hu with ⟨m, hm, hu⟩ | rfl
    · exact ih (List.mem_filter.mp hm).2 hu
    · exact hh

/-- A unit that is no hive is left as it is. -/
theorem State.unit_syncHives (s : State) {u : Nat} (h : isHive u = false) : s.syncHives.unit u = s.unit u := by
  refine List.foldlRecOn (motive := fun t : State => t.unit u = s.unit u) _ _ rfl fun t ht hive hm => ?_
  have hne : hive ≠ u := fun he => by
    have := isHive_of_mem_hivesUp (c := s.content) (k := 257) (h := 0) rfl hm
    rw [he, h] at this
    exact Bool.false_ne_true this
  rw [State.unit_syncHive_ne t hne, ht]

/-! ## CAPACITY_CHANGED, and causes that stay raised -/

/-- CAPACITY_CHANGED, once set, stays until it is read. -/
theorem State.capChanged_syncHives {s : State} {u : Nat} (h : (s.unit u).capChanged = true) :
    (s.syncHives.unit u).capChanged = true := by
  refine List.foldlRecOn (motive := fun t : State => (t.unit u).capChanged = true) _ _ h fun t ht hive _ => ?_
  by_cases hu : hive = u
  · subst hu
    have hflag : ((t.syncFlag hive).unit hive).capChanged = true := by simp [State.syncFlag, ht]
    obtain hs | ⟨code, hs⟩ | ⟨st, hs⟩ := t.syncHive_cases hive <;> rw [hs]
    · exact hflag
    · by_cases hf : ((t.syncFlag hive).unit hive).st = .fault
      · rw [State.enterHeld, if_pos hf]; exact hflag
      · rw [State.unit_enterHeld hf, if_pos rfl]; exact hflag
    · simpa using hflag
  · rw [State.unit_syncHive_ne t hu]; exact ht

/-- The cause register's bit `b` is set. -/
def State.hasCause (s : State) (b : Nat) : Prop := s.host.cause.getLsbD b = true

theorem HostIf.place_cause {h : HostIf} {b : Nat} (e : Event) (hb : h.cause.getLsbD b = true) :
    (h.place e).cause.getLsbD b = true := by
  unfold HostIf.place
  split
  · exact hb
  · dsimp only
    split
    · exact hb
    · simp [HostIf.setCause, hb]

theorem HostIf.setCause_keeps {h : HostIf} {b : Nat} (c : Nat) (hb : h.cause.getLsbD b = true) :
    (h.setCause c).cause.getLsbD b = true := by simp [HostIf.setCause, hb]

/-- An event sets its cause's bit. -/
theorem State.hasCause_raise (s : State) {b : Nat} (handle code data : Nat) (hb : b < 32) :
    (s.raise b handle code data).hasCause b := by
  refine HostIf.place_cause _ ?_
  rw [HostIf.setCause, BitVec.getLsbD_or, BitVec.getLsbD_ofNat, Nat.testBit_two_pow_self]
  simp [hb]

/-- An event clears no cause. -/
theorem State.hasCause.raise {s : State} {b : Nat} (h : s.hasCause b) (cause handle code data : Nat) :
    (s.raise cause handle code data).hasCause b :=
  HostIf.place_cause _ (HostIf.setCause_keeps cause h)

theorem State.hasCause.note {s : State} {b : Nat} (h : s.hasCause b) (type ref : Nat) (l : List Byte) :
    (s.note type ref l).hasCause b := h

theorem State.hasCause.enterHeld {s : State} {b : Nat} (h : s.hasCause b) (slot : Nat) (st : UState) (code : Nat) :
    (s.enterHeld slot st code).hasCause b := by
  unfold State.enterHeld
  split
  · exact h
  · exact State.hasCause.raise (s := s.modUnit slot _) h _ _ _ _

theorem State.hasCause.syncHives {s : State} {b : Nat} (h : s.hasCause b) : s.syncHives.hasCause b := by
  refine List.foldlRecOn (motive := fun t : State => t.hasCause b) _ _ h fun t ht hive _ => ?_
  obtain hs | ⟨code, hs⟩ | ⟨st, hs⟩ := t.syncHive_cases hive <;> rw [hs]
  · exact ht
  · exact State.hasCause.enterHeld (s := t.syncFlag hive) ht _ _ _
  · exact ht

/-! ## The boundary that the model stands at -/

/-- The state under the clock of the boundary after a commit. -/
def State.atNext (s : State) : State := { s with tick := s.workTick + 1, workTick := s.workTick + 1 }

/-- The state after a boundary whose work left `r`: the tick counter and the tick of work are as they were. -/
def State.afterBoundary (s r : State) : State :=
  { r with
    tick := s.tick
    workTick := s.workTick
    base := r.work
    checkpoint := if r.power = .dormant ∧ s.power ≠ .dormant then (s.tick, r.wallDiff) else r.checkpoint }

@[simp] theorem State.afterBoundary_tick (s r : State) : (s.afterBoundary r).tick = s.tick := rfl
@[simp] theorem State.afterBoundary_workTick (s r : State) : (s.afterBoundary r).workTick = s.workTick := rfl
@[simp] theorem State.afterBoundary_power (s r : State) : (s.afterBoundary r).power = r.power := rfl
@[simp] theorem State.afterBoundary_smoker (s r : State) : (s.afterBoundary r).smoker = r.smoker := rfl
@[simp] theorem State.afterBoundary_sched (s r : State) : (s.afterBoundary r).sched = r.sched := rfl
@[simp] theorem State.afterBoundary_host (s r : State) : (s.afterBoundary r).host = r.host := rfl
@[simp] theorem State.afterBoundary_work (s r : State) : (s.afterBoundary r).work = r.work := rfl
@[simp] theorem State.afterBoundary_wallDiff (s r : State) : (s.afterBoundary r).wallDiff = r.wallDiff := rfl
@[simp] theorem State.afterBoundary_wallStale (s r : State) : (s.afterBoundary r).wallStale = r.wallStale := rfl
@[simp] theorem State.afterBoundary_fineValid (s r : State) : (s.afterBoundary r).fineValid = r.fineValid := rfl
@[simp] theorem State.afterBoundary_fanDom (s r : State) : (s.afterBoundary r).fanDom = r.fanDom := rfl
@[simp] theorem State.afterBoundary_recorder (s r : State) : (s.afterBoundary r).recorder = r.recorder := rfl
@[simp] theorem State.afterBoundary_link (s r : State) : (s.afterBoundary r).link = r.link := rfl
@[simp] theorem State.afterBoundary_order (s r : State) : (s.afterBoundary r).order = r.order := rfl

/-- What one thing at the boundary after a commit is. -/
theorem State.atBoundary_committed {s : State} (f : Nat → State → State) (hl : s.logicRuns = true)
    (hc : s.committed = true) : s.atBoundary f = s.afterBoundary (f (s.workTick + 1) s.atNext) := by
  simp only [State.atBoundary, hl, hc, Bool.not_true, Bool.and_false, Bool.or_false, Bool.false_eq_true, if_false, if_true]
  rfl

theorem State.afterBoundary_awake {s r : State} (h : r.power ≠ .dormant) :
    s.afterBoundary r = { r with tick := s.tick, workTick := s.workTick, base := r.work } := by
  simp only [State.afterBoundary, h, false_and, if_false]

/-- A boundary at which nothing happens. -/
theorem State.afterBoundary_atNext (s : State) : s.afterBoundary s.atNext = { s with base := s.work } := by
  have h : ¬(s.atNext.power = .dormant ∧ s.power ≠ .dormant) := fun h => h.2 h.1
  simp only [State.afterBoundary, if_neg h]
  rfl

end Sys2Proof.Machine
end

section
/-! # The plant, the record, the link and the jobs at a boundary: what each operation leaves -/

namespace Sys2Proof.Machine

/-! ## The plant -/

@[simp] theorem State.besidePlant_modWork (s : State) (f : Plant → Plant) : (s.modWork f).besidePlant = s.besidePlant := rfl

@[simp] theorem State.besidePlant_modUnit (s : State) (slot : Nat) (f : UnitRec → UnitRec) :
    (s.modUnit slot f).besidePlant = s.besidePlant := rfl

@[simp] theorem State.besidePlant_setSt (s : State) (slot : Nat) (st : UState) :
    (s.setSt slot st).besidePlant = s.besidePlant := rfl

@[simp] theorem State.besidePlant_note (s : State) (type ref : Nat) (b : List Byte) :
    (s.note type ref b).besidePlant = s.besidePlant := rfl

@[simp] theorem State.besidePlant_enterHeld (s : State) (slot : Nat) (st : UState) (code : Nat) :
    (s.enterHeld slot st code).besidePlant = s.besidePlant := besidePlant_of_units (s.besideUnits_enterHeld slot st code)

@[simp] theorem State.besidePlant_syncHives (s : State) : s.syncHives.besidePlant = s.besidePlant :=
  besidePlant_of_units s.besideUnits_syncHives

@[simp] theorem State.besidePlant_writeCell (s : State) (slot ref type : Nat) (v : Val) (stamp : Nat) (c : BitVec 8) :
    (s.writeCell slot ref type v stamp c).besidePlant = s.besidePlant := by
  unfold State.writeCell
  split <;> rfl

@[simp] theorem State.besidePlant_haltChain (s : State) (n : Nat) : (s.haltChain n).besidePlant = s.besidePlant := by
  unfold State.haltChain State.writeChain
  dsimp only
  rw [State.besidePlant_writeCell]
  exact foldl_keeps State.besidePlant (fun s i => State.besidePlant_writeCell s _ _ _ _ _ _) _ _

/-- What a calm does to one unit concerns the plant, and its UNIT_STATE event. -/
@[simp] theorem State.besidePlant_calmUnit (s : State) (slot : Nat) : (s.calmUnit slot).besidePlant = s.besidePlant := by
  unfold State.calmUnit
  dsimp only
  split
  case h_1 =>
    split
    · exact State.besidePlant_enterHeld _ _ _ _
    · rfl
  case h_5 =>
    split
    · exact (State.besidePlant_setSt _ _ _).trans (State.besidePlant_haltChain _ _)
    · rfl
  case h_7 => rfl
  all_goals split <;> rfl

@[simp] theorem State.besidePlant_modUnitCells (s : State) (slot : Nat) (f : Cell → Cell) :
    (s.modUnitCells slot f).besidePlant = s.besidePlant := by
  unfold State.modUnitCells
  exact foldl_keeps State.besidePlant (fun s _ => State.besidePlant_modWork s _) _ _

@[simp] theorem State.besidePlant_capacityChanged (s : State) (slot : Nat) :
    (s.capacityChanged slot).besidePlant = s.besidePlant := by
  unfold State.capacityChanged
  exact foldl_keeps State.besidePlant (fun s u => State.besidePlant_modUnit s u _) _ _

@[simp] theorem State.besidePlant_channelOut (s : State) (ch : Nat) : (s.channelOut ch).besidePlant = s.besidePlant := by
  unfold State.channelOut
  dsimp only
  split
  · rfl
  · split <;> simp

@[simp] theorem State.core_modWork (s : State) (f : Plant → Plant) : (s.modWork f).core = s.core := rfl
@[simp] theorem State.core_note (s : State) (type ref : Nat) (b : List Byte) : (s.note type ref b).core = s.core := rfl
@[simp] theorem State.core_raise (s : State) (a b c d : Nat) : (s.raise a b c d).core = s.core := rfl
@[simp] theorem State.core_modPlants (s : State) (f : Plant → Plant) : (s.modPlants f).core = s.core := rfl
@[simp] theorem State.core_setFch (s : State) (n : Nat) (x : FieldChan) : (s.setFch n x).core = s.core := rfl
@[simp] theorem State.core_setFprobe (s : State) (n : Nat) (x : FieldProbe) : (s.setFprobe n x).core = s.core := rfl
@[simp] theorem State.core_setFcomb (s : State) (n : Nat) (x : FieldComb) : (s.setFcomb n x).core = s.core := rfl

@[simp] theorem State.core_initUnit (s : State) (slot : Nat) : (s.initUnit slot).core = s.core := by
  unfold State.initUnit
  split
  case h_1 =>
    unfold State.beginStartSettle
    dsimp only
    rw [State.core_setFch]
    exact State.core_modWork _ _
  case h_5 =>
    dsimp only
    split
    · exact (State.core_setFprobe _ _ _).trans (State.core_modWork _ _)
    · exact (State.core_modWork _ _).trans ((State.core_setFprobe _ _ _).trans (State.core_modWork _ _))
  case h_6 =>
    unfold State.dropRound
    dsimp only
    rw [State.core_setFcomb, State.core_setFcomb, State.core_modWork]
  case h_12 =>
    split
    · exact State.core_modWork _ _
    · rfl
  case h_13 => rfl
  all_goals exact State.core_modWork _ _

@[simp] theorem State.core_beginSettle (s : State) (ch n t : Nat) : (s.beginSettle ch n t).core = s.core := by
  unfold State.beginSettle
  dsimp only
  split
  · exact State.core_modPlants _ _
  · rfl

@[simp] theorem State.core_wake (s : State) (t slot : Nat) : (s.wake t slot).core = s.core := by
  unfold State.wake
  dsimp only
  split
  case h_1 =>
    split
    · rfl
    · exact State.core_beginSettle _ _ _ _
  case h_3 =>
    split
    · exact State.core_modWork _ _
    · rfl
  case h_5 => rfl
  all_goals exact State.core_modWork _ _

@[simp] theorem State.core_abandonRound (s : State) (l : Nat) : (s.abandonRound l).core = s.core := by
  unfold State.abandonRound
  dsimp only
  split
  · split <;> rfl
  · rfl

/-! ## Jobs -/

@[simp] theorem State.besideJobs_endJob (s : State) (h : Nat) (st : JobState) (a b : Nat) (d : List Byte) :
    (s.endJob h st a b d).besideJobs = s.besideJobs := by
  unfold State.endJob
  split
  · rfl
  · dsimp only
    split <;> rfl

@[simp] theorem State.besideJobs_dropPending (s : State) (x : Option (BitVec 16)) :
    (s.dropPending x).besideJobs = s.besideJobs := by
  unfold State.dropPending
  split
  · split <;> rfl
  · rfl

@[simp] theorem State.besideJobs_endChange (s : State) (j : Job) (st : JobState) (a b : Nat) (d : List Byte) :
    (s.endChange j st a b d).besideJobs = s.besideJobs := by
  unfold State.endChange
  dsimp only
  rw [State.besideJobs_endJob]
  split
  · exact State.besideJobs_dropPending _ _
  · rfl

@[simp] theorem State.besideJobs_verifyStopped (s : State) : s.verifyStopped.besideJobs = s.besideJobs := by
  unfold State.verifyStopped
  split <;> rfl

@[simp] theorem State.besideJobs_setEnumerating (s : State) (j : Job) (on : Bool) :
    (s.setEnumerating j on).besideJobs = s.besideJobs := by
  unfold State.setEnumerating
  split <;> rfl

@[simp] theorem State.besideJobs_jobParts (s : State) (j : Job) : (s.jobParts j).2.besideJobs = s.besideJobs := by
  unfold State.jobParts
  split
  · rfl
  · split
    · rfl
    · split <;> rfl

@[simp] theorem State.besideJobs_runJob (s : State) (j : Job) : (s.runJob j).besideJobs = s.besideJobs := by
  unfold State.runJob
  split
  · exact State.besideJobs_endJob _ _ _ _ _ _
  · split
    · exact State.besideJobs_endJob _ _ _ _ _ _
    · dsimp only
      have hv : (if j.opcode = 0x0803#16 then s.modUpd (fun u => { u with state := .verifying }) else s).besideJobs =
          s.besideJobs := by split <;> rfl
      split
      · refine Eq.trans ?_ hv
        exact (State.besideJobs_jobParts _ j).trans (State.besideJobs_setEnumerating _ j true)
      · exact hv

@[simp] theorem State.besideJobs_finishJob (s : State) (j : Job) (st : JobState) (a b : Nat) (d : List Byte) :
    (s.finishJob j st a b d).besideJobs = s.besideJobs := by
  unfold State.finishJob
  split
  · exact State.besideJobs_endChange _ _ _ _ _ _
  · dsimp only
    rw [State.besideJobs_endJob]
    split
    · exact State.besideJobs_verifyStopped _
    · rfl

@[simp] theorem State.besideJobs_cancelNow (s : State) (j : Job) : (s.cancelNow j).besideJobs = s.besideJobs := by
  rw [State.cancelNow, State.besideJobs_finishJob, State.besideJobs_setEnumerating]

@[simp] theorem State.besideJobs_runNext (k : Nat) (s : State) : (s.runNext k).besideJobs = s.besideJobs := by
  induction k generalizing s with
  | zero => rfl
  | succ k ih =>
    unfold State.runNext
    split
    · rfl
    · split
      · rfl
      · rw [ih, State.besideJobs_runJob]

/-- The runner. -/
@[simp] theorem State.besideJobs_dispatchJobs (s : State) : s.dispatchJobs.besideJobs = s.besideJobs := by
  unfold State.dispatchJobs
  dsimp only
  rw [State.besideJobs_runNext]
  exact foldl_keeps State.besideJobs State.besideJobs_cancelNow _ _

@[simp] theorem State.besideJobs_orphanJob (s : State) (j : Job) : (s.orphanJob j).besideJobs = s.besideJobs := by
  unfold State.orphanJob
  split
  · rfl
  · dsimp only
    split
    · rfl
    · exact State.besideJobs_cancelNow _ _

/-- A sender that is gone takes its jobs and its pending generation with it. -/
@[simp] theorem State.besideJobs_releaseSender (s : State) (sid : BitVec 16) (who : UpdOwner) :
    (s.releaseSender sid who).besideJobs = s.besideJobs := by
  unfold State.releaseSender
  dsimp only
  rw [State.besideJobs_dispatchJobs]
  have hfold (l : List Job) : (l.foldl State.orphanJob (s.dropPending (some sid))).besideJobs = s.besideJobs :=
    (foldl_keeps State.besideJobs State.besideJobs_orphanJob _ _).trans (s.besideJobs_dropPending _)
  split <;> exact hfold _

/-! ## The input record -/

/-- An overwritten entry fails the reads that have not returned it. -/
@[simp] theorem State.besideJobs_recOverwritten (s : State) (l : List (List Byte)) :
    (s.recOverwritten l).besideJobs = s.besideJobs :=
  foldl_keeps State.besideJobs (fun s _ => State.besideJobs_endJob s _ _ _ _ _) _ _

@[simp] theorem State.core_append (s : State) (es : List (List Byte)) : (s.append es).core = s.core := by
  unfold State.append
  exact (core_of_jobs (State.besideJobs_recOverwritten _ _)).trans rfl

@[simp] theorem State.core_closeWindow (s : State) (t : Nat) : (s.closeWindow t).core = s.core := by
  unfold State.closeWindow
  exact State.core_append _ _

@[simp] theorem State.core_endSegment (s : State) (t last reason : Nat) : (s.endSegment t last reason).core = s.core := by
  unfold State.endSegment
  split
  · rfl
  · refine (State.core_append _ _).trans ?_
    split
    · exact State.core_closeWindow _ _
    · rfl

@[simp] theorem State.core_beginSegment (s : State) (t : Nat) : (s.beginSegment t).core = s.core := by
  unfold State.beginSegment
  exact State.core_append _ _

/-- A boundary of the record. -/
@[simp] theorem State.core_recBoundary (s : State) (t : Nat) (changed power : Bool) :
    (s.recBoundary t changed power).core = s.core := by
  unfold State.recBoundary
  extract_lets r full off sFull s1 done s2
  have hoff (s : State) : (off s).core = s.core := rfl
  split
  · rfl
  · have h1 : s1.core = s.core := by
      unfold s1
      split
      · rfl
      · split
        · exact State.core_endSegment _ _ _ _
        · split
          · exact State.core_endSegment _ _ _ _
          · split
            · exact State.core_endSegment _ _ _ _
            · split
              · exact State.core_endSegment _ _ _ _
              · split
                · exact State.core_endSegment _ _ _ _
                · split
                  · split
                    · exact (hoff _).trans (State.core_endSegment _ _ _ _)
                    · exact State.core_endSegment _ _ _ _
                  · rfl
    have h2 : s2.core = s.core := by
      unfold s2
      split
      · exact (hoff _).trans h1
      · exact h1
    split
    · exact (State.core_beginSegment _ _).trans h2
    · exact h2

/-! ## The recorder -/

@[simp] theorem State.core_freezeExpiry (s : State) : s.freezeExpiry.core = s.core := by
  unfold State.freezeExpiry State.endFreeze
  split
  · dsimp only
    split <;> rfl
  · rfl

@[simp] theorem State.core_cutSummary (s : State) (c : Content) (t : Nat) (more : BitVec 8) :
    (s.cutSummary c t more).core = s.core := by
  unfold State.cutSummary
  dsimp only
  split
  · rfl
  · exact (State.core_freezeExpiry _).trans rfl

/-! ## The link -/

@[simp] theorem State.core_modLink (s : State) (f : Link → Link) : (s.modLink f).core = s.core := rfl

@[simp] theorem State.core_sendMsg (s : State) (port type node : Nat) (up : Bool) (peer : Option Nat) (b : List Byte) :
    (s.sendMsg port type node up peer b).core = s.core := by
  unfold State.sendMsg
  refine foldl_keeps State.core (fun s e => ?_) _ _
  dsimp only
  split <;> rfl

@[simp] theorem State.core_sendLeave (s : State) (n reason : Nat) : (s.sendLeave n reason).core = s.core := by
  unfold State.sendLeave State.sendPeer
  exact State.core_sendMsg _ _ _ _ _ _ _

@[simp] theorem State.core_portDown (s : State) (i : Nat) : (s.portDown i).core = s.core := by
  unfold State.portDown
  split
  · rfl
  · refine (foldl_keeps State.core (fun s e => ?_) _ _)
    dsimp only
    split <;> rfl

end Sys2Proof.Machine
end

section
/-! # Calms, wind-downs and thermal shutdown at a boundary (R22, R24, R85, R140, R208, R276, R433) -/

namespace Sys2Proof.Machine

/-! ## The smoker calm -/

/-- A calm marks the module; what its units do then concerns the plant. -/
theorem State.core_calm (s : State) : s.calm.core = { s.core with smoker := { s.smoker with calmed := true } } := by
  have hunits (l : List Nat) (s : State) : (l.foldl State.calmUnit s).core = s.core :=
    foldl_keeps State.core (fun s u => core_of_plant (s.besidePlant_calmUnit u)) l s
  unfold State.calm
  dsimp only
  rw [State.core_note, State.core_raise, State.core_syncHives, hunits]
  rfl

theorem State.smoker_calm (s : State) : s.calm.smoker = { s.smoker with calmed := true } := by
  rw [← State.core_smoker s.calm, s.core_calm]

theorem State.sched_calm (s : State) : s.calm.sched = s.sched := by
  rw [← State.core_sched s.calm, s.core_calm]
  rfl

/-- A calm raises SMOKER (R85). -/
theorem State.hasCause_calm (s : State) : s.calm.hasCause causeSmoker := by
  unfold State.calm
  exact (State.hasCause_raise _ _ _ _ (by decide)).note _ _ _

/-- At a boundary at which the smoker's timeout has run out, the module calms. -/
theorem State.calmAt_calms {s : State} {t : Nat} (h : s.calmsAt t = true) :
    s.calmAt t = ({ s with smoker := { s.smoker with due := none } } : State).calm := by
  obtain ⟨hout, hno⟩ : s.smokerOut t = true ∧ (!s.smoker.calmed) = true := by simpa [State.calmsAt] using h
  have hruns : s.smokerRuns = true := by
    simp only [State.smokerOut, Bool.and_eq_true] at hout
    exact hout.1.1
  have hcond : (({ s with smoker := { s.smoker with due := none } } : State).smokerRuns && !s.smoker.calmed) = true := by
    rw [hno, Bool.and_true]; exact hruns
  simp only [State.calmAt, h, State.calmDue, Nat.lt_irrefl, if_true, if_false]
  exact if_pos hcond

/-- And it does not when no timeout has run out and no calm is due. -/
theorem State.calmAt_idle {s : State} {t : Nat} (h : s.calmsAt t = false) (hd : s.smoker.due = none) : s.calmAt t = s := by
  simp [State.calmAt, h, State.calmDue, hd]

/-! ## A calm, unit by unit -/

theorem slotKind_chanSlot {ch : Nat} (h : ch < 128) : slotKind (chanSlot ch) = 0x03 := by
  unfold chanSlot
  rw [slotKind, if_neg (by omega), if_pos (by omega)]

theorem slotInst_chanSlot {ch : Nat} (h : ch < 128) : slotInst (chanSlot ch) = ch := by
  rw [slotInst, slotKind_chanSlot h]
  exact Nat.add_sub_cancel_left 1 ch

theorem slotKind_loopSlot {n : Nat} (h : n < 256) : slotKind (loopSlot n) = 0x04 := by
  unfold loopSlot
  rw [slotKind, if_neg (by omega), if_neg (by omega), if_pos (by omega)]

theorem slotInst_loopSlot {n : Nat} (h : n < 256) : slotInst (loopSlot n) = n := by
  rw [slotInst, slotKind_loopSlot h]
  exact Nat.add_sub_cancel_left 129 n

/-- An output channel that is neither STOPPED nor in FAULT enters FAULT with code 0x02 (R140, R208). -/
theorem State.calmUnit_output {s : State} {ch : Nat} (hm : s.mode ch = 3 ∨ s.mode ch = 4 ∨ s.mode ch = 7 ∨ s.mode ch = 8)
    (hch : ch < 128) (hs : (s.unit (chanSlot ch)).st ≠ .stopped) (hf : (s.unit (chanSlot ch)).st ≠ .fault) :
    s.calmUnit (chanSlot ch) = s.enterHeld (chanSlot ch) .fault 0x02 := by
  have hcond : ((modeDo (s.mode ch) || s.mode ch == 7 || s.mode ch == 8) && (s.unit (chanSlot ch)).st != .stopped &&
      (s.unit (chanSlot ch)).st != .fault) = true := by
    rcases hm with h | h | h | h <;> simp [h, modeDo, hs, hf]
  simp only [State.calmUnit, slotKind_chanSlot hch, slotInst_chanSlot hch]
  exact if_pos hcond

/-- The loop state that a calm leaves (R276). -/
def State.calmLoop (s : State) (n : Nat) : LoopState :=
  { s.work.loop n with
    calmSafe := true
    manual := if s.cfg P.SAFE_MODE n = 0 then (s.work.loop n).uLast else s.cfgF P.SAFE_OUTPUT n }

/-- A driven loop goes to MANUAL. -/
theorem State.calmUnit_loop {s : State} {n : Nat} (hn : n < 256)
    (h : (s.unit (loopSlot n)).st = .auto ∨ (s.unit (loopSlot n)).st = .manual) :
    s.calmUnit (loopSlot n) = (s.setSt (loopSlot n) .manual).modWork (·.setLoop n (s.calmLoop n)) := by
  have hdriven : ¬((!((s.unit (loopSlot n)).st == .auto || (s.unit (loopSlot n)).st == .manual)) = true) := by
    rcases h with h | h <;> simp [h]
  simp only [State.calmUnit, slotKind_loopSlot hn, slotInst_loopSlot hn]
  exact if_neg hdriven

/-! ## Thermal shutdown -/

/-- What a field domain without power leaves of a bank. -/
theorem State.bank_unpowerField (s : State) : ∀ b < s.bankCount, (s.unpowerField.bank b).state = .unpowered := by
  intro b hb
  refine foldl_brings (P := fun b (s : State) => (s.bank b).state = .unpowered) (fun s a => ?_) (fun s a b h => ?_) _ s b
    (List.mem_range.mpr hb)
  · simp
  · rw [State.bank_setBank]
    split
    · rfl
    · exact h

/-- The state beside the banks and the fan domain. -/
def State.besideField (s : State) : State := { s with banks := [], fanDom := {} }

/-- The field loses its power: banks and the fan domain; nothing else changes. -/
theorem State.besideField_unpowerField (s : State) : s.unpowerField.besideField = s.besideField := by
  unfold State.unpowerField
  refine foldl_keeps State.besideField (fun s b => ?_) (List.range s.bankCount) s
  rfl

theorem State.hk_unpowerField (s : State) : s.unpowerField.hk = s.hk :=
  (show s.unpowerField.besideField.hk = s.besideField.hk by rw [s.besideField_unpowerField])

theorem State.wallDiff_unpowerField (s : State) : s.unpowerField.wallDiff = s.wallDiff :=
  (show s.unpowerField.besideField.wallDiff = s.besideField.wallDiff by rw [s.besideField_unpowerField])

@[simp] theorem State.core_dropRecorder (s : State) : s.dropRecorder.core = s.core := rfl

/-- Thermal shutdown at boundary `t`, up to the end of the record: the marks, POWER, and the open segment's end. -/
def State.shutdownRecord (s : State) (t : Nat) : State :=
  ((s.modHk (fun h => { h with shutdown := true, shutdownDue := false })).append
    (if s.inrec.open_ then [recEntry 0x35 0x10 t []] else [])).endSegment t (t - 1) 2

theorem State.core_shutdownRecord (s : State) (t : Nat) :
    (s.shutdownRecord t).core = { s.core with hk := { s.hk with shutdown := true, shutdownDue := false } } := by
  rw [State.shutdownRecord, State.core_endSegment, State.core_append]
  rfl

/-- Then the field, the recorder and the ports lose their power. -/
theorem State.core_thermalShutdown (s : State) (t : Nat) :
    (s.thermalShutdown t).core = (s.shutdownRecord t).unpowerField.core := by
  have h : s.thermalShutdown t = (((s.shutdownRecord t).unpowerField.dropRecorder.portDown 0).portDown 1).raiseThermal 5
    (((s.shutdownRecord t).unpowerField.dropRecorder.portDown 0).portDown 1).hk.theta 0xFF := rfl
  rw [h, State.raiseThermal, State.core_raise, State.core_portDown, State.core_portDown, State.core_dropRecorder]

theorem State.hk_thermalShutdown (s : State) (t : Nat) :
    (s.thermalShutdown t).hk = { s.hk with shutdown := true, shutdownDue := false } := by
  rw [hk_of_core (s.core_thermalShutdown t), State.hk_unpowerField, ← State.core_hk, State.core_shutdownRecord]

theorem State.hasCause_thermalShutdown (s : State) (t : Nat) : (s.thermalShutdown t).hasCause causeThermal := by
  unfold State.thermalShutdown State.raiseThermal
  exact State.hasCause_raise _ _ _ _ (by decide)

end Sys2Proof.Machine

open Sys2Proof.Machine

/-- Settles O38. -/
theorem boundaryStates : Obligations.BoundaryStates := by
  unfold Obligations.BoundaryStates
  refine ⟨fun s f hl hc _ => ?thing, fun s hl hc h => ?calm, fun s h hd hl hc => ?idle, fun s ch hm hch hs hf => ?output,
    fun s n hn h => ?loop, fun s slot hl hc hh hst hw => ?wind, fun s hl hc hd => ?thermal⟩
  case thing =>
    intro r hr
    rw [State.atBoundary_committed f hl hc]
    exact State.afterBoundary_awake hr
  case calm =>
    obtain ⟨r, hr⟩ : ∃ r : State, r = { s.atNext with smoker := { s.smoker with due := none } } := ⟨_, rfl⟩
    have hrun : s.atBoundary (fun t s => s.calmAt t) = s.afterBoundary r.calm := by
      rw [State.atBoundary_committed _ hl hc, hr]
      exact congrArg _ (State.calmAt_calms (s := s.atNext) h)
    refine ⟨s.afterBoundary r.calm, congrArg Host.Outcome.next hrun, ?_, ?_, ?_,
      State.afterBoundary_tick _ _, State.afterBoundary_workTick _ _, ?_⟩
    · rw [State.afterBoundary_smoker, State.smoker_calm]
    · rw [State.afterBoundary_smoker, State.smoker_calm, hr]
    · rw [State.afterBoundary_host]
      exact r.hasCause_calm
    · rw [State.afterBoundary_sched, State.sched_calm, hr]
      rfl
  case idle =>
    have hrun : s.atBoundary (fun t s => s.calmAt t) = s.afterBoundary s.atNext := by
      rw [State.atBoundary_committed _ hl hc]
      exact congrArg _ (State.calmAt_idle (s := s.atNext) h hd)
    exact congrArg Host.Outcome.next (hrun.trans s.afterBoundary_atNext)
  case output =>
    rw [State.calmUnit_output hm hch hs hf, State.unit_enterHeld hf, if_pos rfl]
    exact ⟨rfl, rfl⟩
  case loop =>
    rw [State.calmUnit_loop hn h]
    have hloop : ((s.setSt (loopSlot n) .manual).modWork (·.setLoop n (s.calmLoop n))).work.loop n = s.calmLoop n := by simp
    rw [hloop]
    refine ⟨?_, rfl, rfl⟩
    have hunit : ((s.setSt (loopSlot n) .manual).modWork (·.setLoop n (s.calmLoop n))).unit (loopSlot n) =
      (s.setSt (loopSlot n) .manual).unit (loopSlot n) := rfl
    rw [hunit, State.unit_setSt, if_pos rfl]
  case wind =>
    have hrun : s.atBoundary (fun _ s => (s.windDown slot.val).syncHives) =
        s.afterBoundary (s.atNext.setSt slot.val .stopped).syncHives := by
      rw [State.atBoundary_committed _ hl hc]
      exact congrArg (fun r : State => s.afterBoundary r.syncHives) (if_pos ⟨hst, hw⟩)
    have hunit : ((s.atNext.setSt slot.val .stopped).syncHives.unit slot.val) =
        { s.atNext.unit slot.val with st := .stopped, faultCode := 0, windDone := false } := by
      rw [State.unit_syncHives _ hh, State.unit_setSt, if_pos rfl]
    exact ⟨_, congrArg Host.Outcome.next hrun, congrArg (·.st) hunit, congrArg (·.faultCode) hunit,
      State.afterBoundary_tick _ _⟩
  case thermal =>
    have hrun : exec .thermalShutdown s = .next (s.thermalShutdown (s.tick + 1)) := by
      have hno : (!s.logicRuns || !s.hk.shutdownDue || (s.evaluated && !s.committed)) = false := by simp [hl, hd, hc]
      show execThermalShutdown s = _
      rw [execThermalShutdown, hno, hc]
      rfl
    have ht := s.core_thermalShutdown (s.tick + 1)
    have hhk := s.hk_thermalShutdown (s.tick + 1)
    refine ⟨_, hrun, by rw [hhk], by rw [hhk], ?_, State.hasCause_thermalShutdown s _, ?_, fun b hb => ?_⟩
    · simp [State.logicRuns, hhk]
    · rw [fanDom_of_core ht]; rfl
    · rw [bank_of_core ht]
      refine State.bank_unpowerField _ b ?_
      rw [← State.core_bankCount, State.core_shutdownRecord]
      exact hb
end

section
/-! # Waiting commands at their boundary (R69, R76, R77, R85, R86, R174, R373, R375, R417, R422) -/

namespace Sys2Proof.Machine

/-! ## A command that falls due -/

/-- The state in which command `x` has its effect: under the boundary's clock, `x` waits no longer and is noted for the
input record. -/
def State.readyFor (s : State) (x : Sched) : State :=
  ({ s.atNext with sched := s.sched.erase x } : State).noteCommand x.opcode.toNat x.payload

@[simp] theorem State.readyFor_sched (s : State) (x : Sched) : (s.readyFor x).sched = s.sched.erase x := rfl
@[simp] theorem State.readyFor_work (s : State) (x : Sched) : (s.readyFor x).work = s.work := rfl
@[simp] theorem State.readyFor_tick (s : State) (x : Sched) : (s.readyFor x).tick = s.workTick + 1 := rfl
@[simp] theorem State.readyFor_content (s : State) (x : Sched) : (s.readyFor x).content = s.content := rfl
@[simp] theorem State.readyFor_has (s : State) (x : Sched) (slot : Nat) : (s.readyFor x).has slot = s.has slot := rfl
@[simp] theorem State.readyFor_wallDiff (s : State) (x : Sched) : (s.readyFor x).wallDiff = s.wallDiff := rfl
@[simp] theorem State.readyFor_bankCount (s : State) (x : Sched) : (s.readyFor x).bankCount = s.bankCount := rfl
@[simp] theorem State.readyFor_power (s : State) (x : Sched) : (s.readyFor x).power = s.power := rfl

/-- A queue with a first entry that is due. -/
theorem dueCommands_cons {l : List Sched} {t : Nat} {x : Sched} (h : (dueCommands l t).head? = some x) :
    ∃ r, dueCommands l t = x :: r := by
  cases hd : dueCommands l t with
  | nil => simp [hd] at h
  | cons y r =>
    rw [hd, List.head?_cons, Option.some.injEq] at h
    exact ⟨r, by rw [h]⟩

/-- A command other than POWER_STATE that is not discarded has its effect; the hives follow. -/
theorem FallsDue.applyOne {s : State} {x : Sched} (h : FallsDue s x) (hop : x.opcode ≠ 0x0011#16) :
    s.atNext.applyOne (s.workTick + 1) = ((s.readyFor x).commandEffect x).syncHives := by
  have hcalm : s.atNext.calmAt (s.workTick + 1) = s.atNext := State.calmAt_idle h.calms h.due
  obtain ⟨r, hr⟩ := dueCommands_cons h.first
  have hdue : dueCommands s.atNext.sched (s.workTick + 1) = x :: r := hr
  have hkept : ({ s.atNext with sched := s.atNext.sched.erase x } : State).calmDrops x = false := h.kept
  simp only [State.applyOne, hcalm, hdue, hop, false_and, if_false, State.applyCommand, hkept, Bool.false_eq_true]
  rfl

/-- The command at the head of the queue is applied at the boundary after a commit. -/
theorem exec_scheduledCommandApply {s : State} (hl : s.logicRuns = true) (hc : s.committed = true) :
    exec .scheduledCommandApply s = .next (s.afterBoundary (s.atNext.applyOne (s.workTick + 1))) := by
  rw [← State.atBoundary_committed (fun t s => s.applyOne t) hl hc]
  rfl

theorem FallsDue.exec {s : State} {x : Sched} (h : FallsDue s x) (hop : x.opcode ≠ 0x0011#16) :
    exec .scheduledCommandApply s = .next (s.afterBoundary ((s.readyFor x).commandEffect x).syncHives) := by
  rw [exec_scheduledCommandApply h.runs h.committed, h.applyOne hop]

/-- POWER_STATE with a target: the power state changes after everything else of the boundary (R417). -/
theorem FallsDue.applyOne_power {s : State} {x : Sched} {p : Power} (h : FallsDue s x) (hop : x.opcode = 0x0011#16)
    (hp : powerOf (field x.payload 0 1) = some p) :
    ∃ changed : Bool, s.atNext.applyOne (s.workTick + 1) =
      if ((s.readyFor x).syncHives.enterPower (s.workTick + 1) p).power = .dormant then
        (s.readyFor x).syncHives.enterPower (s.workTick + 1) p
      else ((s.readyFor x).syncHives.enterPower (s.workTick + 1) p).recBoundary (s.workTick + 1) false changed := by
  have hcalm : s.atNext.calmAt (s.workTick + 1) = s.atNext := State.calmAt_idle h.calms h.due
  obtain ⟨r, hr⟩ := dueCommands_cons h.first
  have hdue : dueCommands s.atNext.sched (s.workTick + 1) = x :: r := hr
  have hkept : s.atNext.calmDrops x = false := h.kept
  have hkept' : ({ s.atNext with sched := s.atNext.sched.erase x } : State).calmDrops x = false := h.kept
  have heffect (t : State) : t.commandEffect x = t := by rw [State.commandEffect, hop]; rfl
  have htarget : (if x.opcode = 0x0011#16 ∧ (!s.atNext.calmDrops x) = true then powerOf (field x.payload 0 1) else none) =
      some p := by rw [if_pos ⟨hop, by rw [hkept]; rfl⟩, hp]
  simp only [State.applyOne, hcalm, hdue, htarget, State.applyCommand, hkept', Bool.false_eq_true, if_false, heffect]
  exact ⟨_, rfl⟩

/-- A command of the Calm column whose tick comes while the module is calmed is discarded and marks its unit (R85). -/
theorem State.applyOne_dropped {s : State} {x : Sched} {u : Nat} (hcalm : s.smoker.calmed = true) (hd : s.smoker.due = none)
    (hx : (dueCommands s.sched (s.workTick + 1)).head? = some x) (hop : x.opcode ≠ 0x0011#16) (hk : s.calmDrops x = true)
    (hu : s.droppedSlot x = some u) (hh : s.has u = true) :
    s.atNext.applyOne (s.workTick + 1) = (({ s.atNext with sched := s.sched.erase x } : State).modUnit u
      (fun r => { r with cmdDropped := true })).syncHives := by
  have hno : s.atNext.calmsAt (s.workTick + 1) = false := by
    rw [State.calmsAt, show s.atNext.smoker.calmed = true from hcalm, Bool.not_true, Bool.and_false]
  have hidle : s.atNext.calmAt (s.workTick + 1) = s.atNext := State.calmAt_idle hno hd
  obtain ⟨r, hr⟩ := dueCommands_cons hx
  have hdue : dueCommands s.atNext.sched (s.workTick + 1) = x :: r := hr
  have hk' : ({ s.atNext with sched := s.atNext.sched.erase x } : State).calmDrops x = true := hk
  have hu' : ({ s.atNext with sched := s.atNext.sched.erase x } : State).droppedSlot x = some u := hu
  have hh' : ({ s.atNext with sched := s.atNext.sched.erase x } : State).has u = true := hh
  simp only [State.applyOne, hidle, hdue, hop, false_and, if_false, State.applyCommand, hk', if_true, hu', hh']
  rfl

/-- What an effect leaves of the schedule. -/
theorem State.sched_afterBoundary {s r : State} {x : Sched} (h : r.core = (s.readyFor x).core) :
    (s.afterBoundary r.syncHives).sched = s.sched.erase x := by
  rw [State.afterBoundary_sched, sched_of_core r.core_syncHives, sched_of_core h, State.readyFor_sched]

/-! ## Effects on one cell -/

/-- A command whose effect is a change of cell `r` has no other effect on the cells. -/
theorem FallsDue.exec_cell {s : State} {x : Sched} {r : Nat} {f : Cell → Cell} (h : FallsDue s x)
    (hop : x.opcode ≠ 0x0011#16)
    (he : (s.readyFor x).commandEffect x = (s.readyFor x).modWork (fun p => p.setCell r (f (p.cell r)))) :
    ∃ t, Machine.exec .scheduledCommandApply s = .next t ∧ t.sched = s.sched.erase x ∧
      t.work.cell r = f (s.work.cell r) ∧ ∀ q, q ≠ r → t.work.cell q = s.work.cell q := by
  have hcell (q : Nat) : ((s.readyFor x).modWork (fun p => p.setCell r (f (p.cell r)))).work.cell q =
      if r = q then f (s.work.cell r) else s.work.cell q := by
    rw [State.modWork_work, Plant.cell_setCell, State.readyFor_work]
  refine ⟨_, h.exec hop, ?_, ?_, fun q hq => ?_⟩
  · rw [he]
    exact State.sched_afterBoundary (State.core_modWork _ _)
  · rw [he, State.afterBoundary_work, State.cell_syncHives, hcell, if_pos rfl]
  · rw [he, State.afterBoundary_work, State.cell_syncHives, hcell, if_neg (Ne.symm hq)]

/-- CELL_WRITE of one cell of the host. -/
theorem State.hostWrite_one {s : State} {d : List Byte} (hn : field d 0 1 = 1)
    (hc : (hostCells s.content).contains (field d 1 2) = true) :
    s.hostWrite d = s.modWork (fun p => p.setCell (field d 1 2) ((p.cell (field d 1 2)).write
      ⟨BitVec.ofNat 64 (field d 5 8), s.workTick, 0, 0, 0, field d 3 1⟩)) := by
  unfold State.hostWrite
  rw [hn]
  exact if_pos hc

/-! ## Starts -/

/-- An action on a unit that is no hive. -/
theorem State.act_unit {s : State} {slot : Nat} (k : Nat) (a : Act) (h : isHive slot = false) :
    State.act (k + 1) s slot a = s.actUnit slot a := by
  simp only [State.act, h, Bool.not_false, if_true]

/-- UNIT_START of a STOPPED unit at its boundary. -/
theorem State.command_start {s : State} {slot : Nat} (hh : isHive slot = false) (hk : slot ≠ hkSlot)
    (hst : (s.unit slot).st = .stopped) (h8 : slotKind slot ≠ 0x08) :
    s.command slot .start = ((s.setSt slot (startedState s.content slot)).initUnit slot).syncHives := by
  have hact : State.act 257 s slot .start = (true, (s.setSt slot (startedState s.content slot)).initUnit slot) := by
    rw [State.act_unit 256 .start hh, State.actUnit_start hk, State.startUnit_stopped hst (fun h => h8 h.1)]
  simp only [State.command, hact, if_true]

/-! ## A channel out of service (R174, Table 01-9) -/

/-- FAULT with OUT_OF_SERVICE, whatever the state was. -/
def State.faultOut (s : State) (slot : Nat) : State :=
  if (s.unit slot).st = .fault then s.modUnit slot (fun u => { u with faultCode := 0x01 })
  else s.enterHeld slot .fault 0x01

theorem State.unit_faultOut (s : State) (slot : Nat) :
    ((s.faultOut slot).unit slot).st = .fault ∧ ((s.faultOut slot).unit slot).faultCode = 0x01 := by
  unfold State.faultOut
  split
  case isTrue h => rw [State.unit_modUnit, if_pos rfl]; exact ⟨h, rfl⟩
  case isFalse h => rw [State.unit_enterHeld h, if_pos rfl]; exact ⟨rfl, rfl⟩

theorem State.cells_faultOut (s : State) (slot : Nat) : (s.faultOut slot).work.cells = s.work.cells := by
  unfold State.faultOut
  split
  · rfl
  · unfold State.enterHeld
    split <;> rfl

theorem State.sameStates_capacityChanged (s : State) (slot : Nat) : SameStates s (s.capacityChanged slot) := by
  refine .foldl (fun s u w => ?_) _ _
  rw [State.unit_modUnit]
  split
  · subst_vars; exact ⟨rfl, rfl⟩
  · exact ⟨rfl, rfl⟩

theorem State.cells_capacityChanged (s : State) (slot : Nat) : (s.capacityChanged slot).work.cells = s.work.cells := by
  unfold State.capacityChanged
  exact foldl_keeps (fun s : State => s.work.cells) (f := fun s u => s.modUnit u _) (fun _ _ => rfl) _ _

/-- The cells of a channel that is out of service, and what it is noted as. -/
def State.channelCells (s : State) (ch : Nat) : State :=
  (s.modUnitCells (chanSlot ch) Cell.offline).modWork (fun p =>
    p.setChan ch { p.chan ch with back := false, outAt := some s.workTick })

theorem State.channelOut_eq {s : State} {ch : Nat} (h : s.has (chanSlot ch) = true) :
    s.channelOut ch = (((((s.channelCells ch).faultOut (chanSlot ch)).modUnit (chanSlot ch)
      (fun u => { u with faultDue := none, holdDue := none })).note 0x34 (chanSlot ch) (code4 0)).capacityChanged
        (chanSlot ch)) := by
  unfold State.channelOut
  dsimp only
  rw [if_neg (by simp [h])]
  rfl

@[simp] theorem State.unit_note (s : State) (type ref : Nat) (b : List Byte) (u : Nat) :
    (s.note type ref b).unit u = s.unit u := rfl
@[simp] theorem State.cells_note (s : State) (type ref : Nat) (b : List Byte) :
    (s.note type ref b).work.cells = s.work.cells := rfl
@[simp] theorem State.cells_modUnit (s : State) (slot : Nat) (f : UnitRec → UnitRec) :
    (s.modUnit slot f).work.cells = s.work.cells := rfl
@[simp] theorem Plant.cells_setChan (p : Plant) (n : Nat) (x : ChanState) : (p.setChan n x).cells = p.cells := rfl

/-- The unit of a channel that is out of service is in FAULT with code 0x01. -/
theorem State.unit_channelOut {s : State} {ch : Nat} (h : s.has (chanSlot ch) = true) :
    ((s.channelOut ch).unit (chanSlot ch)).st = .fault ∧ ((s.channelOut ch).unit (chanSlot ch)).faultCode = 0x01 := by
  have hout := (s.channelCells ch).unit_faultOut (chanSlot ch)
  rw [State.channelOut_eq h, (State.sameStates_capacityChanged _ _ _).1, (State.sameStates_capacityChanged _ _ _).2,
    State.unit_note, State.unit_modUnit, if_pos rfl]
  exact hout

theorem State.cells_channelOut {s : State} {ch : Nat} (h : s.has (chanSlot ch) = true) :
    (s.channelOut ch).work.cells = (s.modUnitCells (chanSlot ch) Cell.offline).work.cells := by
  rw [State.channelOut_eq h, State.cells_capacityChanged, State.cells_note, State.cells_modUnit, State.cells_faultOut,
    State.channelCells, State.modWork_work, Plant.cells_setChan]

/-- A change of a unit's cells that keeps a field of a cell keeps it in all of them. -/
theorem State.cell_modUnitCells {α : Type} (π : Cell → α) {f : Cell → Cell} (hf : ∀ c, π (f c) = π c) (s : State)
    (slot r : Nat) : π ((s.modUnitCells slot f).work.cell r) = π (s.work.cell r) := by
  refine foldl_keeps (fun s : State => π (s.work.cell r)) (fun s q => ?_) _ s
  rw [State.modWork_work, Plant.cell_setCell]
  split
  · subst_vars; exact hf _
  · rfl

/-- And what it brings about holds of every cell that the unit writes. -/
theorem State.cell_modUnitCells_of_mem {P : Cell → Prop} {f : Cell → Cell} (hf : ∀ c, P (f c)) (s : State) (slot : Nat) :
    ∀ r ∈ unitWrites s.content slot, P ((s.modUnitCells slot f).work.cell r) := by
  refine foldl_brings (P := fun r (s : State) => P (s.work.cell r)) (fun s a => ?_) (fun s a b h => ?_) _ s
  · rw [State.modWork_work, Plant.cell_setCell, if_pos rfl]; exact hf _
  · rw [State.modWork_work, Plant.cell_setCell]
    split
    · exact hf _
    · exact h

/-- Cells of a channel that is out of service: OFFLINE, with the value and the stamp that they had. -/
theorem State.cell_channelOut {s : State} {ch : Nat} (h : s.has (chanSlot ch) = true) :
    ∀ r ∈ unitWrites s.content (chanSlot ch), ((s.channelOut ch).work.cell r).own.quality = 7 ∧
      ((s.channelOut ch).work.cell r).own.value = (s.work.cell r).own.value ∧
      ((s.channelOut ch).work.cell r).own.stamp = (s.work.cell r).own.stamp := by
  intro r hr
  have hcell : (s.channelOut ch).work.cell r = (s.modUnitCells (chanSlot ch) Cell.offline).work.cell r := by
    rw [Plant.cell, State.cells_channelOut h, ← Plant.cell]
  have hq := State.cell_modUnitCells_of_mem (P := fun c => c.own.quality = 7) (f := Cell.offline) (fun _ => rfl) s _ r hr
  have hv := State.cell_modUnitCells (fun c => (c.own.value, c.own.stamp)) (f := Cell.offline) (fun _ => rfl) s (chanSlot ch) r
  rw [hcell]
  exact ⟨hq, congrArg Prod.fst hv, congrArg Prod.snd hv⟩

@[simp] theorem State.fch_besidePlant (s : State) (n : Nat) : s.besidePlant.fch n = s.fch n := rfl

theorem State.fch_channelOut (s : State) (ch n : Nat) : (s.channelOut ch).fch n = s.fch n := by
  rw [← State.fch_besidePlant, s.besidePlant_channelOut, State.fch_besidePlant]

theorem isHive_chanSlot {ch : Nat} (h : ch < 128) : isHive (chanSlot ch) = false := by
  rw [isHive, slotKind_chanSlot h]
  rfl

/-- CHANNEL_SERVICE with value 0 at its boundary. -/
theorem State.commandEffect_service {s : State} {x : Sched} {ch : Nat} (hop : x.opcode = 0x0208#16) (hch : ch < 128)
    (hslot : field x.payload 0 2 = chanSlot ch) (hoff : field x.payload 2 1 = 0) (hh : s.has (chanSlot ch) = true) :
    s.commandEffect x = ((s.setFch ch { s.fch ch with serviceOff := true }).channelOut ch).syncHives := by
  have he : s.commandEffect x = if s.has (field x.payload 0 2) = true then
      (s.channelService (slotInst (field x.payload 0 2)) (field x.payload 2 1 == 1)).syncHives else s := by
    rw [State.commandEffect, hop]; rfl
  rw [he, hslot, if_pos hh, slotInst_chanSlot hch, hoff]
  rfl

theorem State.fch_syncHives (s : State) (n : Nat) : s.syncHives.fch n = s.fch n :=
  show s.syncHives.besideUnits.fch n = s.besideUnits.fch n from congrArg (State.fch · n) s.besideUnits_syncHives

/-! ## The recorder cleared (R373) -/

theorem State.recorder_syncHives (s : State) : s.syncHives.recorder = s.recorder :=
  show s.syncHives.besideUnits.recorder = s.besideUnits.recorder from congrArg State.recorder s.besideUnits_syncHives

theorem State.recorder_clearRecorder (s : State) (e : Nat) :
    (s.clearRecorder e).recorder.rolling = [] ∧ (s.clearRecorder e).recorder.frozen = false ∧
      (s.clearRecorder e).recorder.clearing = true ∧ (s.clearRecorder e).recorder.founding = s.recorder.founding := by
  unfold State.clearRecorder
  dsimp only
  split <;> exact ⟨rfl, rfl, rfl, rfl⟩

theorem State.sched_clearRecorder (s : State) (e : Nat) : (s.clearRecorder e).sched = s.sched := by
  unfold State.clearRecorder
  dsimp only
  split <;> rfl

/-! ## The wall time set (R375) -/

@[simp] theorem State.setWall_wallDiff (s : State) (d : List Byte) :
    (s.setWall d).wallDiff = toSigned 8 (field d 0 8) - s.tick := rfl
@[simp] theorem State.setWall_wallStale (s : State) (d : List Byte) : (s.setWall d).wallStale = false := rfl
@[simp] theorem State.setWall_sched (s : State) (d : List Byte) : (s.setWall d).sched = s.sched := rfl

theorem wallStale_of_core {s t : State} (h : t.core = s.core) : t.wallStale = s.wallStale := by
  simpa using congrArg State.wallStale h

/-! ## Power states -/

theorem State.power_stopForWatch (s : State) : s.stopForWatch.power = s.power := by
  have hchain (s : State) (u : Nat) : (if (s.unit u).st = .active ∨ (s.unit u).st = .stopping then
      (s.haltChain (slotInst u)).setSt u .stopped else s).core = s.core := by
    split
    · exact core_of_plant ((State.besidePlant_setSt _ _ _).trans (State.besidePlant_haltChain _ _))
    · rfl
  have hstill (s : State) (u : Nat) (x : FieldChan) :
      (if modeDi (s.mode (slotInst u)) = true then s else s.setFch (slotInst u) x).core = s.core := by
    split <;> rfl
  unfold State.stopForWatch
  dsimp only
  rw [power_of_core (foldl_keeps State.core (fun s u => State.core_abandonRound s (slotInst u)) _ _),
    power_of_core (foldl_keeps State.core (fun s (e : Nat × FieldProbe) => State.core_setFprobe s e.1 _) _ _),
    power_of_core (foldl_keeps State.core (fun s u => hstill s u _) _ _), power_of_core (foldl_keeps State.core hchain _ _)]

/-- The power state is the one asked for (R417). -/
theorem State.power_enterPower (s : State) (t : Nat) (p : Power) : (s.enterPower t p).power = p := by
  unfold State.enterPower
  split
  case isTrue h => exact h.symm
  case isFalse =>
    split
    case isTrue h => exact h.symm
    case isFalse =>
      extract_lets was asleep s1 s2 s3 s4 s5 smoker fans s6
      have h4 : s4.power = p := power_of_core (s := s3) (foldl_keeps State.core (fun s u => s.core_wake t u) _ _)
      rw [power_of_core s6.core_syncHives]
      unfold s6
      split
      · rw [State.power_stopForWatch, h4]
      · show s5.power = p
        unfold s5
        split <;> exact h4

/-! ## Entry into DORMANT (R90, R422) -/

/-- A stop of the logic domain concerns neither the wall clock nor the field. -/
theorem State.wallDiff_stopLogic (s : State) (n : Nat) : (s.stopLogic n).wallDiff = s.wallDiff := by
  unfold State.stopLogic State.abandonChange
  dsimp only
  split <;> rfl

theorem State.bank_stopLogic (s : State) (n b : Nat) : (s.stopLogic n).bank b = s.bank b := by
  unfold State.stopLogic State.abandonChange
  dsimp only
  split <;> rfl

theorem State.fanDom_stopLogic (s : State) (n : Nat) : (s.stopLogic n).fanDom = s.fanDom := by
  unfold State.stopLogic State.abandonChange
  dsimp only
  split <;> rfl

/-- The joined peers have been told that this node goes to DORMANT. -/
def State.peersLeft (s : State) : State :=
  (s.link.peers.filter (fun e => e.2.state == 3)).foldl (fun s e => s.sendLeave e.1 2) s

theorem State.core_peersLeft (s : State) : s.peersLeft.core = s.core := by
  unfold State.peersLeft
  exact foldl_keeps State.core (f := fun s (e : Nat × Peer) => s.sendLeave e.1 2) (fun s e => s.core_sendLeave e.1 2) _ s

/-- What the field and the ports are when the logic domain stops for DORMANT: the peers have been told, the field and the
ports have no power. -/
def State.fieldOff (s : State) : State := (s.peersLeft.unpowerField.portDown 0).portDown 1

/-- The power state and the fine clock of DORMANT; sessions are not remembered. -/
def State.asDormant (s : State) : State :=
  { s.modBoot (fun b => { b with sessionsOpen := [], startDue := none }) with power := .dormant, fineValid := false }

@[simp] theorem State.asDormant_power (s : State) : s.asDormant.power = .dormant := rfl
@[simp] theorem State.asDormant_fineValid (s : State) : s.asDormant.fineValid = false := rfl
@[simp] theorem State.asDormant_host (s : State) : s.asDormant.host = s.host := rfl
@[simp] theorem State.asDormant_sched (s : State) : s.asDormant.sched = s.sched := rfl
@[simp] theorem State.asDormant_wallDiff (s : State) : s.asDormant.wallDiff = s.wallDiff := rfl
@[simp] theorem State.asDormant_fanDom (s : State) : s.asDormant.fanDom = s.fanDom := rfl
@[simp] theorem State.asDormant_bank (s : State) (b : Nat) : s.asDormant.bank b = s.bank b := rfl

theorem State.alive_stopLogic (s : State) (n : Nat) : (s.stopLogic n).host.alive = false := rfl
theorem State.sched_stopLogic (s : State) (n : Nat) : (s.stopLogic n).sched = [] := rfl
theorem State.powered_unpowerField (s : State) : s.unpowerField.fanDom.powered = false := rfl

theorem State.enterDormant_eq (s : State) : s.enterDormant = (s.fieldOff.stopLogic 0).asDormant := rfl

theorem State.core_fieldOff (s : State) : s.fieldOff.core = s.peersLeft.unpowerField.core := by
  rw [State.fieldOff, State.core_portDown, State.core_portDown]

/-- Entry into DORMANT leaves the wall clock, and every bank and the fan domain unpowered. -/
theorem State.enterDormant_field (s : State) : s.enterDormant.wallDiff = s.wallDiff ∧
    s.enterDormant.fanDom.powered = false ∧ ∀ b < s.bankCount, (s.enterDormant.bank b).state = .unpowered := by
  have hr := s.core_peersLeft
  have hoff := s.core_fieldOff
  rw [State.enterDormant_eq]
  refine ⟨?_, ?_, fun b hb => ?_⟩
  · rw [State.asDormant_wallDiff, State.wallDiff_stopLogic, wallDiff_of_core hoff, State.wallDiff_unpowerField,
      wallDiff_of_core hr]
  · rw [State.asDormant_fanDom, State.fanDom_stopLogic, fanDom_of_core hoff, State.powered_unpowerField]
  · rw [State.asDormant_bank, State.bank_stopLogic, bank_of_core hoff]
    exact s.peersLeft.bank_unpowerField b (by rw [bankCount_of_core hr]; exact hb)

/-- POWER_STATE into DORMANT of a module that is not there. -/
theorem State.enterPower_dormant {s : State} {t : Nat} (h : s.power ≠ .dormant) :
    s.enterPower t .dormant = s.enterDormant := by
  rw [State.enterPower, if_neg (Ne.symm h), if_pos rfl]

theorem State.afterBoundary_dormant {s r : State} (hr : r.power = .dormant) (hs : s.power ≠ .dormant) :
    (s.afterBoundary r).checkpoint = (s.tick, r.wallDiff) := if_pos ⟨hr, hs⟩

@[simp] theorem State.afterBoundary_bank (s r : State) (b : Nat) : (s.afterBoundary r).bank b = r.bank b := rfl
@[simp] theorem State.afterBoundary_fch (s r : State) (n : Nat) : (s.afterBoundary r).fch n = r.fch n := rfl
@[simp] theorem State.afterBoundary_unit (s r : State) (u : Nat) : (s.afterBoundary r).work.unit u = r.unit u := rfl

end Sys2Proof.Machine

open Sys2Proof.Machine

/-- Settles O39: `FallsDue.exec` gives the state, and one case for each command says what its effect is. -/
theorem scheduledEffects : Obligations.ScheduledEffects := by
  unfold Obligations.ScheduledEffects
  refine ⟨⟨fun s x h hop => ?smoker, fun s x h hop => ?wall, fun s x p h hop hp => ?power, fun s x h hop h0 hpw => ?dormant,
      fun s x slot h hop hslot hh hhive hk hst h8 => ?start, fun s x ch h hop hch hslot hoff hh => ?service⟩,
    ⟨fun s x h hop hn hhost => ?write, fun s x h hop => ?force, fun s x h hop => ?release, fun s x h hop hn => ?reset,
      fun s x h hop => ?clear⟩,
    fun s x slot hl hc hcalm hd hx hop hslot hh hhive => ?dropped⟩
  case smoker =>
    have he : (s.readyFor x).commandEffect x =
      { s.readyFor x with smoker := { s.smoker with calmed := false } } := by rw [State.commandEffect, hop]; rfl
    refine ⟨_, h.exec (by rw [hop]; decide), ?_⟩
    rw [he]
    have hsmoker := smoker_of_core (State.core_syncHives { s.readyFor x with smoker := { s.smoker with calmed := false } })
    refine ⟨?_, ?_, ?_, State.afterBoundary_tick _ _, State.afterBoundary_workTick _ _⟩
    · rw [State.afterBoundary_smoker, hsmoker]
    · rw [State.afterBoundary_smoker, hsmoker]
    · rw [State.afterBoundary_sched, sched_of_core (State.core_syncHives _)]; rfl
  case wall =>
    have he : (s.readyFor x).commandEffect x = (s.readyFor x).setWall x.payload := by rw [State.commandEffect, hop]; rfl
    have hcore := ((s.readyFor x).setWall x.payload).core_syncHives
    refine ⟨_, h.exec (by rw [hop]; decide), ?_⟩
    rw [he]
    refine ⟨?_, ?_, ?_⟩
    · rw [State.afterBoundary_wallDiff, wallDiff_of_core hcore, State.setWall_wallDiff, State.readyFor_tick]
    · rw [State.afterBoundary_wallStale, wallStale_of_core hcore, State.setWall_wallStale]
    · rw [State.afterBoundary_sched, sched_of_core hcore, State.setWall_sched, State.readyFor_sched]
  case power =>
    obtain ⟨changed, he⟩ := h.applyOne_power hop hp
    have hpow := (s.readyFor x).syncHives.power_enterPower (s.workTick + 1) p
    refine ⟨_, exec_scheduledCommandApply h.runs h.committed, ?_, State.afterBoundary_tick _ _⟩
    rw [State.afterBoundary_power, he]
    split
    · exact hpow
    · rw [power_of_core (State.core_recBoundary _ _ _ _), hpow]
  case dormant =>
    obtain ⟨changed, he⟩ := h.applyOne_power (p := .dormant) hop (by rw [h0]; rfl)
    have hcore := (s.readyFor x).core_syncHives
    have hwake : (s.readyFor x).syncHives.power ≠ .dormant := by rw [power_of_core hcore, State.readyFor_power]; exact hpw
    obtain ⟨hwall, hfan, hbanks⟩ := (s.readyFor x).syncHives.enterDormant_field
    rw [if_pos (State.power_enterPower _ _ _), State.enterPower_dormant hwake] at he
    have hpower : (s.readyFor x).syncHives.enterDormant.power = .dormant := by
      rw [State.enterDormant_eq, State.asDormant_power]
    refine ⟨_, exec_scheduledCommandApply h.runs h.committed, ?_⟩
    rw [he]
    refine ⟨?_, ?_, ?_, ?_, ?_, ?_, fun b hb => ?_⟩
    · rw [State.afterBoundary_power, hpower]
    · rw [State.afterBoundary_host, State.enterDormant_eq, State.asDormant_host, State.alive_stopLogic]
    · rw [State.afterBoundary_fineValid, State.enterDormant_eq, State.asDormant_fineValid]
    · rw [State.afterBoundary_dormant hpower hpw, hwall, wallDiff_of_core hcore, State.readyFor_wallDiff]
    · rw [State.afterBoundary_sched, State.enterDormant_eq, State.asDormant_sched, State.sched_stopLogic]
    · rw [State.afterBoundary_fanDom, hfan]
    · rw [State.afterBoundary_bank]
      exact hbanks b (by rw [bankCount_of_core hcore, State.readyFor_bankCount]; exact hb)
  case start =>
    have he : (s.readyFor x).commandEffect x =
        (((s.readyFor x).setSt slot (startedState s.content slot)).initUnit slot).syncHives := by
      have hcommand : (s.readyFor x).commandEffect x = if (s.readyFor x).has (field x.payload 0 2) = true then
          (s.readyFor x).command (field x.payload 0 2) .start else s.readyFor x := by rw [State.commandEffect, hop]; rfl
      rw [hcommand, hslot, State.readyFor_has, if_pos hh, State.command_start (s := s.readyFor x) hhive hk hst h8, State.readyFor_content]
    refine ⟨_, h.exec (by rw [hop]; decide), ?_, ?_⟩
    · rw [he]
      refine State.sched_afterBoundary ?_
      rw [State.core_syncHives, State.core_initUnit]
      exact core_of_plant (State.besidePlant_setSt _ _ _)
    · rw [he, State.afterBoundary_unit, State.unit_syncHives _ hhive, State.unit_syncHives _ hhive,
        (State.initUnit_sameStates _ slot slot).1, State.unit_setSt, if_pos rfl]
  case service =>
    have he := State.commandEffect_service (s := s.readyFor x) hop hch hslot hoff hh
    have hhive := isHive_chanSlot hch
    generalize hr : (s.readyFor x).setFch ch { (s.readyFor x).fch ch with serviceOff := true } = r at he
    have hhas : r.has (chanSlot ch) = true := by rw [← hr]; exact hh
    have hserv : (r.fch ch).serviceOff = true := by rw [← hr, State.fch_setFch, if_pos rfl]
    have hcontent : r.content = s.content := by rw [← hr]; rfl
    have hwork : r.work = s.work := by rw [← hr]; rfl
    have hcore : r.core = (s.readyFor x).core := by rw [← hr, State.core_setFch]
    obtain ⟨hst, hcode⟩ := State.unit_channelOut hhas
    refine ⟨_, h.exec (by rw [hop]; decide), ?_⟩
    rw [he]
    refine ⟨?_, ?_, ?_, ?_, fun c hc => ?_⟩
    · refine State.sched_afterBoundary ?_
      rw [State.core_syncHives, core_of_plant (r.besidePlant_channelOut ch), hcore]
    · rw [State.afterBoundary_fch, State.fch_syncHives, State.fch_syncHives, State.fch_channelOut, hserv]
    · rw [State.afterBoundary_unit, State.unit_syncHives _ hhive, State.unit_syncHives _ hhive, hst]
    · rw [State.afterBoundary_unit, State.unit_syncHives _ hhive, State.unit_syncHives _ hhive, hcode]
    · rw [State.afterBoundary_work, State.cell_syncHives, State.cell_syncHives, ← hwork]
      exact State.cell_channelOut hhas c (by rw [hcontent]; exact hc)
  case write =>
    have he : (s.readyFor x).commandEffect x = (s.readyFor x).hostWrite x.payload := by rw [State.commandEffect, hop]; rfl
    rw [State.hostWrite_one (s := s.readyFor x) hn hhost] at he
    obtain ⟨t, hrun, hsched, hcell, -⟩ := h.exec_cell (f := fun c => c.write
      ⟨BitVec.ofNat 64 (field x.payload 5 8), s.workTick + 1, 0, 0, 0, field x.payload 3 1⟩) (by rw [hop]; decide) he
    exact ⟨t, hrun, hsched, by rw [hcell, Cell.write_own], by rw [hcell, Cell.write_written]⟩
  case force =>
    have he : (s.readyFor x).commandEffect x = (s.readyFor x).modWork (fun p => p.setCell (field x.payload 0 2)
        ((p.cell (field x.payload 0 2)).force (field x.payload 2 1) (BitVec.ofNat 64 (field x.payload 3 8))
          (s.workTick + 1))) := by rw [State.commandEffect, hop]; rfl
    obtain ⟨t, hrun, hsched, hcell, hothers⟩ := h.exec_cell (f := fun c => c.force (field x.payload 2 1)
      (BitVec.ofNat 64 (field x.payload 3 8)) (s.workTick + 1)) (by rw [hop]; decide) he
    exact ⟨t, hrun, hsched, by rw [hcell, Cell.force_forced], by rw [hcell, Cell.force_own], hothers⟩
  case release =>
    have he : (s.readyFor x).commandEffect x = (s.readyFor x).modWork (fun p => p.setCell (field x.payload 0 2)
        (p.cell (field x.payload 0 2)).release) := by rw [State.commandEffect, hop]; rfl
    obtain ⟨t, hrun, hsched, hcell, hothers⟩ := h.exec_cell (f := Cell.release) (by rw [hop]; decide) he
    exact ⟨t, hrun, hsched, by rw [hcell, Cell.release_forced], by rw [hcell, Cell.release_own], hothers⟩
  case reset =>
    have he : (s.readyFor x).commandEffect x = (s.readyFor x).modWork (fun p => p.setCell (field x.payload 1 2)
        ((p.cell (field x.payload 1 2)).resetExtremes (s.workTick + 1))) := by
      rw [State.commandEffect, hop]
      dsimp only
      rw [hn]
      rfl
    obtain ⟨t, hrun, hsched, hcell, -⟩ := h.exec_cell (f := fun c => c.resetExtremes (s.workTick + 1))
      (by rw [hop]; decide) he
    exact ⟨t, hrun, hsched, by rw [hcell]; rfl, by rw [hcell]; rfl, by rw [hcell]; rfl⟩
  case clear =>
    have he : (s.readyFor x).commandEffect x = (s.readyFor x).clearRecorder (s.workTick + 1) := by
      rw [State.commandEffect, hop]; rfl
    obtain ⟨hroll, hfrozen, hclear, hfound⟩ := (s.readyFor x).recorder_clearRecorder (s.workTick + 1)
    refine ⟨_, h.exec (by rw [hop]; decide), ?_⟩
    rw [he, State.afterBoundary_recorder, State.recorder_syncHives]
    refine ⟨?_, hroll, hfrozen, hclear, hfound⟩
    rw [State.afterBoundary_sched, sched_of_core (State.core_syncHives _), State.sched_clearRecorder, State.readyFor_sched]
  case dropped =>
    have hdrops : s.calmDrops x = true := by
      rw [State.calmDrops, hcalm, hop]; rfl
    have hmarked : s.droppedSlot x = some slot := by
      rw [State.droppedSlot, hop, ← hslot]; rfl
    have he := State.applyOne_dropped hcalm hd hx (by rw [hop]; decide) hdrops hmarked hh
    have hunit := State.unit_syncHives (({ s.atNext with sched := s.sched.erase x } : State).modUnit slot
      (fun r => { r with cmdDropped := true })) hhive
    rw [State.unit_modUnit, if_pos rfl] at hunit
    refine ⟨_, exec_scheduledCommandApply hl hc, ?_⟩
    rw [he]
    refine ⟨?_, ?_, ?_⟩
    · rw [State.afterBoundary_sched, sched_of_core (State.core_syncHives _)]; rfl
    · rw [State.afterBoundary_unit, hunit]
    · rw [State.afterBoundary_unit, hunit]; rfl
end

section
/-! # Joining and losing of nodes at a boundary (R43, R360 to R362) -/

namespace Sys2Proof.Machine

/-! ## Peers, cells and causes through the operations that end a boundary -/

theorem link_of_units {s t : State} (h : t.besideUnits = s.besideUnits) : t.link = s.link :=
  show t.besideUnits.link = s.besideUnits.link from congrArg State.link h

theorem cells_of_units {s t : State} (h : t.besideUnits = s.besideUnits) : t.work.cells = s.work.cells :=
  show t.besideUnits.work.cells = s.besideUnits.work.cells from congrArg (·.work.cells) h

theorem order_of_units {s t : State} (h : t.besideUnits = s.besideUnits) : t.order = s.order :=
  show t.besideUnits.order = s.besideUnits.order from congrArg State.order h

theorem link_of_jobs {s t : State} (h : t.besideJobs = s.besideJobs) : t.link = s.link :=
  show t.besideJobs.link = s.besideJobs.link from congrArg State.link h

theorem work_of_jobs {s t : State} (h : t.besideJobs = s.besideJobs) : t.work = s.work :=
  show t.besideJobs.work = s.besideJobs.work from congrArg State.work h

theorem order_of_jobs {s t : State} (h : t.besideJobs = s.besideJobs) : t.order = s.order :=
  show t.besideJobs.order = s.besideJobs.order from congrArg State.order h

theorem peer_of_link {s t : State} (h : t.link = s.link) (n : Nat) : t.peer n = s.peer n := by
  rw [State.peer, h]; rfl

@[simp] theorem State.peer_afterBoundary (s r : State) (n : Nat) : (s.afterBoundary r).peer n = r.peer n := rfl
@[simp] theorem State.peer_atNext (s : State) (n : Nat) : s.atNext.peer n = s.peer n := rfl

theorem State.work_atNext (s : State) : s.atNext.work = s.work := rfl
theorem State.order_atNext (s : State) : s.atNext.order = s.order := rfl
theorem State.losses_atNext (s : State) : s.atNext.link.losses = s.link.losses := rfl

@[simp] theorem State.peer_setPeer (s : State) (a b : Nat) (p : Peer) :
    (s.setPeer a p).peer b = if a = b then p else s.peer b := Tab.get_put _ _ _ _ _

/-! ## Units that a change of a node concerns -/

@[simp] theorem State.besideUnits_nodeChanged (s : State) (n : Nat) : (s.nodeChanged n).besideUnits = s.besideUnits := by
  unfold State.nodeChanged
  exact foldl_keeps State.besideUnits (f := fun s u => s.modUnit u _) (fun s u => s.besideUnits_modUnit u _) _ s

theorem State.host_nodeChanged (s : State) (n : Nat) : (s.nodeChanged n).host = s.host := by
  unfold State.nodeChanged
  exact foldl_keeps State.host (f := fun s u => s.modUnit u _) (fun _ _ => rfl) _ s

/-- CAPACITY_CHANGED of the root hive and of every unit that reads a cell of the node. -/
theorem State.capChanged_nodeChanged (s : State) (n : Nat) : ∀ u ∈ 0 :: (configuredSlots s.content).filter (fun u =>
    (unitReads s.content u ++ markedReads s.content u).any (fun r => r / 8192 == n)),
    ((s.nodeChanged n).unit u).capChanged = true := by
  unfold State.nodeChanged
  refine foldl_brings (P := fun u (s : State) => (s.unit u).capChanged = true) (fun s a => ?_) (fun s a b h => ?_) _ s
  · rw [State.unit_modUnit, if_pos rfl]
  · rw [State.unit_modUnit]
    split
    · rfl
    · exact h

theorem State.capChanged_reader {s : State} {n u r : Nat} (hu : u ∈ configuredSlots s.content)
    (hr : r ∈ unitReads s.content u) (hn : r / 8192 = n) : ((s.nodeChanged n).unit u).capChanged = true := by
  refine s.capChanged_nodeChanged n u (List.mem_cons_of_mem _ (List.mem_filter.mpr ⟨hu, ?_⟩))
  exact List.any_eq_true.mpr ⟨r, List.mem_append_left _ hr, by simp [hn]⟩

/-! ## Joining (R360) -/

/-- Cells that enter the subscription read SETTLING. -/
def State.settleCells (s : State) (l : List Nat) : State :=
  l.foldl (fun s r => s.modWork (fun p => p.setCell r
    { p.cell r with own := ⟨0, s.tick, 0, 3, condBit 3, 0⟩, written := true })) s

/-- The cells that the subscription has and those that enter it. -/
def State.subscription (s : State) : List Nat := (remoteRefs s.content).filter (fun r => (s.peer (r / 8192)).state == 3)

theorem State.subscribeCells_eq (s : State) : s.subscribeCells =
    (s.settleCells (s.subscription.filter (fun r => !s.link.wanted.contains r))).modLink
      (fun l => { l with wanted := s.subscription }) := rfl

theorem State.link_settleCells (s : State) (l : List Nat) : (s.settleCells l).link = s.link := by
  unfold State.settleCells
  exact foldl_keeps State.link (f := fun s r => s.modWork _) (fun _ _ => rfl) l s

theorem State.host_settleCells (s : State) (l : List Nat) : (s.settleCells l).host = s.host := by
  unfold State.settleCells
  exact foldl_keeps State.host (f := fun s r => s.modWork _) (fun _ _ => rfl) l s

theorem State.units_settleCells (s : State) (l : List Nat) : (s.settleCells l).work.units = s.work.units := by
  unfold State.settleCells
  exact foldl_keeps (fun s : State => s.work.units) (f := fun s r => s.modWork _) (fun _ _ => rfl) l s


/-- What the subscription of cells leaves. -/
theorem State.subscribeCells_frame (s : State) : s.subscribeCells.link.peers = s.link.peers ∧
    s.subscribeCells.host = s.host ∧ s.subscribeCells.work.units = s.work.units := by
  rw [State.subscribeCells_eq, State.modLink_link, State.modLink_host, State.modLink_work, State.link_settleCells,
    State.host_settleCells, State.units_settleCells]
  exact ⟨rfl, rfl, rfl⟩

theorem State.peer_subscribeCells (s : State) (n : Nat) : s.subscribeCells.peer n = s.peer n := by
  rw [State.peer, s.subscribeCells_frame.1]; rfl

theorem State.unit_subscribeCells (s : State) (u : Nat) : s.subscribeCells.unit u = s.unit u := by
  obtain ⟨-, -, hunits⟩ := s.subscribeCells_frame
  rw [State.unit, Plant.unit, hunits]; rfl

theorem State.hasCause.subscribeCells {s : State} {b : Nat} (h : s.hasCause b) : s.subscribeCells.hasCause b := by
  rw [State.hasCause, s.subscribeCells_frame.2.1]; exact h

/-- The node is joined, and the LINK event says so. -/
def State.graft (s : State) (n : Nat) : State :=
  ((s.setPeer n { s.peer n with state := 3, joinAt := none, align := 4, wasLost := false }).note 0x34 (8192 * n)
    (code4 6)).raiseLink 0xFFFF n 1

/-- A node joins at the boundary that it has announced. -/
theorem State.joinNode_due {s : State} {n b : Nat} (hn : n ≠ 0) (hst : (s.peer n).state = 2)
    (hb : (s.peer n).joinAt = some b) (hle : b ≤ s.tick) : s.joinNode n = ((s.graft n).nodeChanged n).subscribeCells := by
  have hno : ¬(s.tick < b ∨ n = 0 ∨ (s.peer n).state ≠ 2) := by omega
  simp only [State.joinNode, hb, if_neg hno]
  rfl

theorem State.peer_graft (s : State) (n : Nat) :
    (s.graft n).peer n = { s.peer n with state := 3, joinAt := none, align := 4, wasLost := false } :=
  (s.peer_setPeer n n _).trans (if_pos rfl)

theorem State.hasCause_graft (s : State) (n : Nat) : (s.graft n).hasCause causeLink := by
  unfold State.graft State.raiseLink
  exact State.hasCause_raise _ _ _ _ (by decide)

/-- A forager's own join. -/
theorem State.joinSelf_due {s : State} {b : Nat} (hst : (s.peer 0).state = 2) (hb : (s.peer 0).joinAt = some b)
    (hle : b ≤ s.tick) : s.joinSelf =
      (s.setPeer 0 { s.peer 0 with state := 3, joinAt := none }).modLink (fun l => { l with joined := true }) := by
  simp only [State.joinSelf, hb, hst, hle, and_self, if_true]

theorem State.peer_setJoined (s : State) (j : Bool) (n : Nat) :
    (s.modLink (fun l => { l with joined := j })).peer n = s.peer n := rfl

/-! ## Replies for commands that wait for a node (R358) -/

/-- A reply touches the host interface alone and clears no cause. -/
theorem State.newBaud_frame (s : State) :
    s.newBaud.besideUnits = s.besideUnits ∧ s.newBaud.host.cause = s.host.cause := by
  unfold State.newBaud
  split <;> exact ⟨rfl, rfl⟩

theorem State.baudChange_frame (s : State) (r : Reply) :
    (s.baudChange r).besideUnits = s.besideUnits ∧ (s.baudChange r).host.cause = s.host.cause := by
  unfold State.baudChange
  split
  · exact s.newBaud_frame
  · exact ⟨rfl, rfl⟩

theorem State.besideUnits_send (s : State) (r : Reply) : (s.send r).besideUnits = s.besideUnits := by
  unfold State.send
  split
  · exact (State.baudChange_frame _ r).1
  · rfl

theorem State.hasCause.send {s : State} {b : Nat} (h : s.hasCause b) (r : Reply) : (s.send r).hasCause b := by
  unfold State.send
  split
  · rw [State.hasCause, (State.baudChange_frame _ r).2]
    exact h
  · exact HostIf.setCause_keeps _ h

theorem State.besideUnits_unreach (s : State) (n : Nat) : (s.unreach n).besideUnits = s.besideUnits := by
  unfold State.unreach State.flushLine
  exact foldl_keeps State.besideUnits State.besideUnits_send _ _

theorem State.hasCause.unreach {s : State} {b : Nat} (h : s.hasCause b) (n : Nat) : (s.unreach n).hasCause b := by
  unfold State.unreach State.flushLine
  exact List.foldlRecOn (motive := fun t : State => t.hasCause b) _ _ h fun t ht r _ => ht.send r

/-! ## Losing (R361, R362) -/

/-- The place of a node that is lost: known by its serial number; what was under way for it is dropped. -/
def State.vacate (s : State) (n : Nat) : State :=
  (s.setPeer n { serial := (s.peer n).serial, wasLost := (s.peer n).wasLost || (s.peer n).state == 3 }).modLink (fun l =>
    { l with
      remote := l.remote.filter (fun e => e.ref / 8192 != n)
      wanted := l.wanted.filter (fun r => r / 8192 != n) })

theorem State.peer_vacate (s : State) (n : Nat) : (s.vacate n).peer n =
    { serial := (s.peer n).serial, wasLost := (s.peer n).wasLost || (s.peer n).state == 3 } :=
  (s.peer_setPeer n n _).trans (if_pos rfl)

theorem State.losses_vacate (s : State) (n : Nat) : (s.vacate n).link.losses = s.link.losses := rfl

/-- The loss of a joined node is counted and raised, its cells read OFFLINE. -/
def State.markLost (s : State) (n : Nat) : State :=
  (((s.offlineNode n).modLink (fun l => { l with losses := sat32 (l.losses + 1) })).note 0x34 (8192 * n)
    (code4 7)).raiseLink 0xFFFF n 2

theorem State.loseNode_joined {s : State} {n : Nat} (h : (s.peer n).state = 3) :
    s.loseNode n = (((s.vacate n).markLost n).modUnit 0 (fun u => { u with memberFault := true })).nodeChanged n := by
  rw [State.loseNode]
  exact if_pos h

theorem State.loseNode_unjoined {s : State} {n : Nat} (h : (s.peer n).state ≠ 3) : s.loseNode n = s.vacate n := by
  rw [State.loseNode]
  exact if_neg h

theorem State.besideUnits_loseNode_joined {s : State} {n : Nat} (h : (s.peer n).state = 3) :
    (s.loseNode n).besideUnits = ((s.vacate n).markLost n).besideUnits := by
  rw [State.loseNode_joined h, State.besideUnits_nodeChanged, State.besideUnits_modUnit]

theorem State.peer_markLost (s : State) (n m : Nat) : (s.markLost n).peer m = s.peer m := rfl
theorem State.losses_markLost (s : State) (n : Nat) : (s.markLost n).link.losses = sat32 (s.link.losses + 1) := rfl
theorem State.cells_markLost (s : State) (n : Nat) : (s.markLost n).work.cells = (s.offlineNode n).work.cells := rfl

theorem State.hasCause_markLost (s : State) (n : Nat) : (s.markLost n).hasCause causeLink := by
  unfold State.markLost State.raiseLink
  exact State.hasCause_raise _ _ _ _ (by decide)

/-- Whatever its state, a lost node's place is vacated. -/
theorem State.peer_loseNode (s : State) (n : Nat) : (s.loseNode n).peer n = (s.vacate n).peer n := by
  by_cases h : (s.peer n).state = 3
  · rw [peer_of_link (link_of_units (State.besideUnits_loseNode_joined h)), State.peer_markLost]
  · rw [State.loseNode_unjoined h]

/-- A table whose entries are mapped under their keys reads as the mapped value where it lists one. -/
theorem Tab.get_map {α : Type} {d : α} {f : Nat × α → Nat × α} (hf : ∀ e, (f e).1 = e.1) (t : Tab α) (j : Nat) :
    (Tab.get d t j = d ∧ Tab.get d (t.map f) j = d) ∨ Tab.get d (t.map f) j = (f (j, Tab.get d t j)).2 := by
  induction t with
  | nil => exact .inl ⟨rfl, rfl⟩
  | cons e t ih =>
    have hmap : Tab.get d ((e :: t).map f) j = if j = e.1 then (f e).2 else Tab.get d (t.map f) j := by
      rw [← hf e]; rfl
    have hhead : Tab.get d (e :: t) j = if j = e.1 then e.2 else Tab.get d t j := rfl
    rw [hmap, hhead]
    split
    case isTrue h => rw [h]; exact .inr rfl
    case isFalse => exact ih

/-- Every cell of the node that was ever written reads OFFLINE. -/
theorem State.cell_offlineNode {s : State} {n r : Nat} (hr : r / 8192 = n) (hw : (s.work.cell r).written = true) :
    ((s.offlineNode n).work.cell r).own.quality = 7 := by
  have hmap := Tab.get_map (d := ({} : Cell)) (f := fun e => if e.1 / 8192 = n then (e.1, e.2.offline) else e)
    (fun e => by split <;> rfl) s.work.cells r
  rcases hmap with ⟨hnone, -⟩ | hcell
  · rw [Plant.cell, hnone] at hw
    exact absurd hw Bool.false_ne_true
  · rw [if_pos hr] at hcell
    have hoff : (s.offlineNode n).work.cell r = (s.work.cell r).offline := hcell
    rw [hoff]
    rfl

/-- A forager that has lost its queen is alone. -/
theorem State.loseQueen_frame (s : State) : s.loseQueen.link.joined = false ∧ s.loseQueen.link.offset = 0 ∧
    s.loseQueen.link.nodeId = 0 ∧ s.loseQueen.link.subscribed = [] ∧ s.loseQueen.work = s.work ∧
    s.loseQueen.order = s.order := ⟨rfl, rfl, rfl, rfl, rfl, rfl⟩

theorem State.loseDue_node {s : State} {n : Nat} (h : (s.peer n).lostDue = true) (hn : n ≠ 0) :
    s.loseDue n = (s.loseNode n).unreach n := by
  rw [State.loseDue, h]
  exact if_neg hn

theorem State.loseDue_queen {s : State} (h : (s.peer 0).lostDue = true) :
    s.loseDue 0 = (s.loseQueen.releaseSender 0 .link).dispatchJobs := by
  rw [State.loseDue, h]
  rfl

theorem State.besideJobs_loseDue_queen {s : State} (h : (s.peer 0).lostDue = true) :
    (s.loseDue 0).besideJobs = s.loseQueen.besideJobs := by
  rw [State.loseDue_queen h, State.besideJobs_dispatchJobs, State.besideJobs_releaseSender]

/-! ## The two boundary events -/

section
variable {s : State} (hl : s.logicRuns = true) (hc : s.committed = true)
include hl hc

theorem exec_nodeJoin {n : Fin 8} (hn : n.val ≠ 0) :
    exec (.nodeJoin n) s = .next (s.afterBoundary (s.atNext.joinNode n.val).syncHives) := by
  have h := State.atBoundary_committed
    (fun _ s => (if n.val = 0 then s.joinSelf else s.joinNode n.val).syncHives) hl hc
  rw [if_neg hn] at h
  exact congrArg Host.Outcome.next h

theorem exec_nodeJoin_self : exec (.nodeJoin 0) s = .next (s.afterBoundary s.atNext.joinSelf.syncHives) :=
  congrArg Host.Outcome.next (State.atBoundary_committed
    (fun _ s => (if (0 : Fin 8).val = 0 then s.joinSelf else s.joinNode (0 : Fin 8).val).syncHives) hl hc)

theorem exec_nodeLost (n : Fin 8) :
    exec (.nodeLost n) s = .next (s.afterBoundary (s.atNext.loseDue n.val).syncHives) :=
  congrArg Host.Outcome.next (State.atBoundary_committed (fun _ s => (s.loseDue n.val).syncHives) hl hc)

end

end Sys2Proof.Machine

open Sys2Proof.Machine

/-- Settles O41: the peer, the counter, the cause and the flags follow from what each of the two events does, since the
operations behind them (hives, subscription, replies, jobs) leave them. -/
theorem boundaryLink : Obligations.BoundaryLink := by
  unfold Obligations.BoundaryLink
  refine ⟨fun s n b hl hc hn hst hb hle => ?join, fun s b hl hc hst hb hle => ?self, fun s n hl hc hn hdue => ?lost,
    fun s hl hc hdue => ?alone⟩
  case join =>
    have hjoin := State.joinNode_due (s := s.atNext) hn hst hb hle
    have hpeer : (s.atNext.joinNode n.val).syncHives.peer n.val =
        { s.peer n.val with state := 3, joinAt := none, align := 4, wasLost := false } := by
      rw [peer_of_link (link_of_units (State.besideUnits_syncHives _)), hjoin, State.peer_subscribeCells,
        peer_of_link (link_of_units (State.besideUnits_nodeChanged _ _)), State.peer_graft, State.peer_atNext]
    have hcause : ((s.atNext.graft n.val).nodeChanged n.val).hasCause causeLink := by
      rw [State.hasCause, State.host_nodeChanged]
      exact State.hasCause_graft _ _
    have hflag {u : Nat} (h : (((s.atNext.graft n.val).nodeChanged n.val).unit u).capChanged = true) :
        ((s.atNext.joinNode n.val).syncHives.unit u).capChanged = true := by
      refine State.capChanged_syncHives ?_
      rw [hjoin, State.unit_subscribeCells]
      exact h
    refine ⟨_, exec_nodeJoin hl hc hn, ?_, ?_, ?_, ?_, ?_, fun u hu ⟨r, hr, hrn⟩ => ?_⟩
    · rw [State.peer_afterBoundary, hpeer]
    · rw [State.peer_afterBoundary, hpeer]
    · rw [State.peer_afterBoundary, hpeer]
    · rw [State.afterBoundary_host, hjoin]
      exact hcause.subscribeCells.syncHives
    · rw [State.afterBoundary_unit]
      exact hflag (State.capChanged_nodeChanged _ _ 0 (List.mem_cons_self ..))
    · rw [State.afterBoundary_unit]
      exact hflag (State.capChanged_reader hu hr hrn)
  case self =>
    have hlink := link_of_units (State.besideUnits_syncHives s.atNext.joinSelf)
    have hjoin := State.joinSelf_due (s := s.atNext) hst hb hle
    have hpeer : s.atNext.joinSelf.syncHives.peer 0 = { s.peer 0 with state := 3, joinAt := none } := by
      rw [peer_of_link hlink, hjoin, State.peer_setJoined, State.peer_setPeer, if_pos rfl, State.peer_atNext]
    refine ⟨_, exec_nodeJoin_self hl hc, ?_, ?_, ?_⟩
    · rw [State.afterBoundary_link, hlink, hjoin, State.modLink_link]
    · rw [State.peer_afterBoundary, hpeer]
    · rw [State.peer_afterBoundary, hpeer]
  case lost =>
    have hlose := State.loseDue_node (s := s.atNext) hdue hn
    have hunits : (s.atNext.loseDue n.val).syncHives.besideUnits = (s.atNext.loseNode n.val).besideUnits := by
      rw [State.besideUnits_syncHives, hlose, State.besideUnits_unreach]
    have hpeer : (s.atNext.loseDue n.val).syncHives.peer n.val =
        { serial := (s.peer n.val).serial, wasLost := (s.peer n.val).wasLost || (s.peer n.val).state == 3 } := by
      rw [peer_of_link (link_of_units hunits), State.peer_loseNode, State.peer_vacate, State.peer_atNext]
    refine ⟨_, exec_nodeLost hl hc n, ?_, ?_, ?_, fun hjoined => ?_⟩
    · rw [State.peer_afterBoundary, hpeer]
    · rw [State.peer_afterBoundary, hpeer]
    · rw [State.peer_afterBoundary, hpeer]
    · have hmarkLost := hunits.trans (State.besideUnits_loseNode_joined (s := s.atNext) hjoined)
      have hcause : (s.atNext.loseNode n.val).hasCause causeLink := by
        rw [State.loseNode_joined (s := s.atNext) hjoined, State.hasCause, State.host_nodeChanged]
        exact (s.atNext.vacate n.val).hasCause_markLost n.val
      refine ⟨?_, ?_, fun r hr hw => ?_⟩
      · rw [State.afterBoundary_link, link_of_units hmarkLost, State.losses_markLost, State.losses_vacate,
          State.losses_atNext]
      · rw [State.afterBoundary_host, hlose]
        exact (hcause.unreach n.val).syncHives
      · rw [State.afterBoundary_work, Plant.cell, cells_of_units hmarkLost, State.cells_markLost]
        exact State.cell_offlineNode hr hw
  case alone =>
    have hjobs := State.besideJobs_loseDue_queen (s := s.atNext) hdue
    have hunits := State.besideUnits_syncHives (s.atNext.loseDue 0)
    have hlink : (s.atNext.loseDue 0).syncHives.link = s.atNext.loseQueen.link :=
      (link_of_units hunits).trans (link_of_jobs hjobs)
    obtain ⟨hjoin, hoff, hnode, hsub, hwork, horder⟩ := s.atNext.loseQueen_frame
    refine ⟨_, exec_nodeLost hl hc 0, ?_⟩
    rw [State.afterBoundary_link, State.afterBoundary_work, State.afterBoundary_order]
    rw [show (0 : Fin 8).val = 0 from rfl, hlink]
    refine ⟨hjoin, hoff, hnode, hsub, ?_, ?_⟩
    · rw [cells_of_units hunits, work_of_jobs hjobs, hwork, State.work_atNext]
    · rw [order_of_units hunits, order_of_jobs hjobs, horder, State.order_atNext]
end

section
/-! # Free numbers (log entry 4): one that is not in use -/

namespace Sys2Proof.Machine

/-- A number that an ascending list is searched from is found at or above it, no further than the list is long. -/
theorem skipUsed_between (used : List Nat) (v : Nat) : v ≤ skipUsed used v ∧ skipUsed used v ≤ v + used.length := by
  induction used generalizing v with
  | nil => simp [skipUsed]
  | cons u t ih =>
    rw [skipUsed, List.length_cons]
    split
    · obtain ⟨hlow, hhigh⟩ := ih (v + 1)
      omega
    · omega

theorem skipUsed_notMem {used : List Nat} (hs : used.Pairwise (· < ·)) (v : Nat) : skipUsed used v ∉ used := by
  induction used generalizing v with
  | nil => exact List.not_mem_nil
  | cons u t ih =>
    obtain ⟨hu, ht⟩ := List.pairwise_cons.mp hs
    rw [skipUsed, List.mem_cons, not_or]
    split
    case isTrue h =>
      have hlow := (skipUsed_between t (v + 1)).1
      exact ⟨by omega, ih ht (v + 1)⟩
    case isFalse h =>
      refine ⟨by omega, fun hv => ?_⟩
      have := hu v hv
      omega

@[simp] theorem mem_insertSorted {l : List Nat} {n x : Nat} : x ∈ insertSorted l n ↔ x = n ∨ x ∈ l := by
  induction l with
  | nil => simp [insertSorted]
  | cons m t ih =>
    rw [insertSorted]
    split
    · exact List.mem_cons
    · split
      case isTrue h => subst h; simp
      case isFalse h => rw [List.mem_cons, ih, List.mem_cons]; tauto

theorem pairwise_insertSorted {l : List Nat} (hl : l.Pairwise (· < ·)) (n : Nat) :
    (insertSorted l n).Pairwise (· < ·) := by
  induction l with
  | nil => simp [insertSorted]
  | cons m t ih =>
    obtain ⟨hm, ht⟩ := List.pairwise_cons.mp hl
    rw [insertSorted]
    split
    case isTrue h =>
      refine List.pairwise_cons.mpr ⟨fun x hx => ?_, hl⟩
      rcases List.mem_cons.mp hx with rfl | hx
      · exact h
      · exact h.trans (hm x hx)
    case isFalse h =>
      split
      · exact hl
      · refine List.pairwise_cons.mpr ⟨fun x hx => ?_, ih ht⟩
        rcases mem_insertSorted.mp hx with rfl | hx
        · omega
        · exact hm x hx

theorem length_insertSorted_le (l : List Nat) (n : Nat) : (insertSorted l n).length ≤ l.length + 1 := by
  induction l with
  | nil => simp [insertSorted]
  | cons m t ih =>
    rw [insertSorted]
    split
    · simp
    · split
      · simp
      · simpa using ih

theorem foldl_insertSorted (l : List Nat) : ∀ acc : List Nat, acc.Pairwise (· < ·) →
    (l.foldl insertSorted acc).Pairwise (· < ·) ∧ (∀ x, x ∈ l.foldl insertSorted acc ↔ x ∈ l ∨ x ∈ acc) ∧
      (l.foldl insertSorted acc).length ≤ l.length + acc.length := by
  induction l with
  | nil => exact fun acc h => ⟨h, by simp, by simp⟩
  | cons n t ih =>
    intro acc h
    obtain ⟨hpair, hmem, hlen⟩ := ih (insertSorted acc n) (pairwise_insertSorted h n)
    refine ⟨hpair, fun x => ?_, ?_⟩
    · rw [List.foldl_cons, hmem, mem_insertSorted, List.mem_cons]
      tauto
    · have := length_insertSorted_le acc n
      simp only [List.foldl_cons, List.length_cons]
      omega

/-- A free number is no number in use, and has 16 bits without being 0, while there are fewer than 65,535 in use. -/
theorem freshId_free (v : Nat) {used : List Nat} (h : used.length < 65535) :
    freshId v used ∉ used ∧ 0 < freshId v used ∧ freshId v used ≤ 65535 := by
  obtain ⟨hpair, hmem, hlen⟩ := foldl_insertSorted used [] List.Pairwise.nil
  have hmod : v % (65535 - (sortNats used).length) < 65535 - (sortNats used).length :=
    Nat.mod_lt _ (by simp only [sortNats, List.length_nil] at hlen ⊢; omega)
  have hbetween := skipUsed_between (sortNats used) (1 + v % (65535 - (sortNats used).length))
  refine ⟨fun hu => skipUsed_notMem hpair _ ((hmem _).mpr (.inl hu)), ?_, ?_⟩ <;> simp only [freshId] <;> omega

end Sys2Proof.Machine
end

section
/-! # Steps, sessions, authorisation, events and plain reads (R62 to R67, R78, R83) -/

namespace Sys2Proof.Machine

/-- A packet that the module carries out, with a meaning that refuses it with AUTH_FAILED: it is not accepted (R66). -/
theorem State.hostCommand_authFailed {s : State} {p : Packet} {code : Nat} {r : OpInfo} {e : Nat}
    (h : Runs s p code r e)
    (hf : code ≠ 0x0902) {body : Body} {after : State → State} {a : Answer} {u : State}
    (hb : body s (hostCtx s p r e) = (a, u)) (ha : a.status = stAuthFailed) :
    s.hostCommand p code body after = u.produce (replyTo s p r e a) := by
  have hl : ¬ 3 ≤ s.host.line.length := Nat.not_le.mpr h.buffer
  have hf' : r.code ≠ 0x0902 := by rw [opInfo_code h.row]; exact hf
  have hw : wantedTick r s.tick p.etv p.etick.toNat = e := by unfold wantedTick; rw [h.tick]
  have hrun : s.runBody r body { hostCtx s p r e with etick := 0 } s.tick p.etv p.etick.toNat = (a, u) := by
    unfold State.runBody
    rw [h.tick]
    simp only [if_neg h.calm, Nat.add_sub_cancel]
    exact hb
  unfold State.hostCommand State.admitPacket
  simp only [h.listens, h.alive, Bool.not_true, Bool.false_eq_true, if_false, hl, h.length, h.row, h.fresh]
  unfold State.handle
  simp only [h.tag, h.form, hf', h.known, h.here, if_false, Bool.false_eq_true]
  unfold State.execute
  simp only [hostCtx] at hrun
  simp only [hrun, hw, ha, if_true]
  rfl

/-! ## Events -/

theorem State.host_raise (s : State) (cause handle code data : Nat) :
    (s.raise cause handle code data).host =
      (s.host.setCause cause).place ⟨s.tick, cause, handle, code, BitVec.ofNat 32 data⟩ := rfl

theorem HostIf.place_room {h : HostIf} {e : Event} (hl : h.events.length < 255) :
    h.place e = { h with events := h.events ++ [e] } := if_pos hl

/-- The first loss of an episode takes the kept place for EVENT_OVERFLOW. -/
theorem HostIf.place_overflow {h : HostIf} {e : Event} (hl : 255 ≤ h.events.length) (ho : h.overflowed = false) :
    h.place e = { h with
      cause := h.cause ||| BitVec.ofNat 32 (2 ^ causeOverflow), lost := sat16 (h.lost + 1), overflowed := true
      events := h.events ++ [⟨e.tick, causeOverflow, 0xFFFF, 0, 0⟩] } := by
  rw [HostIf.place, if_neg (Nat.not_lt.mpr hl)]
  simp only [ho, Bool.false_eq_true, if_false, HostIf.setCause]

theorem HostIf.place_lost {h : HostIf} {e : Event} (hl : 255 ≤ h.events.length) (ho : h.overflowed = true) :
    h.place e = { h with lost := sat16 (h.lost + 1) } := by
  rw [HostIf.place, if_neg (Nat.not_lt.mpr hl)]
  simp only [ho, if_true]

/-! ## Commands without a payload -/

theorem empty_run {f : Body} {s : State} {c : Ctx} (h : c.data = []) : exactly 0 f s c = f s c :=
  exactly_run (congrArg List.length h)

/-! ## Sessions and authorisation -/

theorem HostIf.place_sessions (h : HostIf) (e : Event) : (h.place e).sessions = h.sessions := by
  unfold HostIf.place
  split
  · rfl
  · dsimp only
    split <;> rfl

theorem State.sessions_raise (s : State) (cause handle code data : Nat) :
    (s.raise cause handle code data).host.sessions = s.host.sessions := HostIf.place_sessions _ _

/-- A closed session is no session. -/
theorem State.session_closeSession (s : State) (id : BitVec 16) (raise : Bool) :
    (s.closeSession id raise).session id = none := by
  unfold State.closeSession
  split
  case h_1 h => exact h
  case h_2 =>
    dsimp only
    cases raise <;> simp [State.session, State.modHost, State.sessions_raise]

/-- A session opens with a number that neither a session nor a waiting command has. -/
theorem sessionOpen_free {s : State} (v : Nat) (hn : s.host.sessions.length < 4) (hw : s.sched.length ≤ 256) :
    let id := BitVec.ofNat 16 (freshId v
      (s.host.sessions.map (fun x => x.id.toNat) ++ s.sched.map (fun x => x.session.toNat)))
    id ≠ 0 ∧ (∀ x ∈ s.host.sessions, x.id ≠ id) ∧ (∀ x ∈ s.sched, x.session ≠ id) := by
  obtain ⟨hfree, hpos, hmax⟩ := freshId_free v
    (used := s.host.sessions.map (fun x => x.id.toNat) ++ s.sched.map (fun x => x.session.toNat))
    (by simp only [List.length_append, List.length_map]; omega)
  generalize freshId v _ = n at hfree hpos hmax
  have hn : (BitVec.ofNat 16 n).toNat = n := by rw [BitVec.toNat_ofNat]; omega
  simp only [List.mem_append, List.mem_map, not_or, not_exists, not_and] at hfree
  refine ⟨fun h0 => ?_, fun x hx hid => hfree.1 x hx (by rw [hid, hn]), fun x hx hid => hfree.2 x hx (by rw [hid, hn])⟩
  rw [h0] at hn
  exact absurd hn (Nat.ne_of_lt hpos)

theorem sessionOpenBody_run {s : State} {c : Ctx} (hl : c.data.length = 18) (hn : s.host.sessions.length < 4)
    (hi : field c.data 16 2 = 0 ∨ (10 ≤ field c.data 16 2 ∧ field c.data 16 2 ≤ 3600)) :
    sessionOpenBody s c =
      (let id := BitVec.ofNat 16 (freshId (Config.draw s.draws)
        (s.host.sessions.map (fun x => x.id.toNat) ++ s.sched.map (fun x => x.session.toNat)))
      (okData (le 2 id.toNat), { s with
        draws := s.draws + 1
        host := { s.host with sessions := s.host.sessions ++
          [{ id := id, label := c.data.take 16, idle := if field c.data 16 2 = 0 then 600 else field c.data 16 2
             expect := 1, lastSeq := 0, lastTick := s.tick, cached := none, awaits := false, nonce := none,
             key := none }] } })) := by
  have hidle : ¬((if field c.data 16 2 = 0 then 600 else field c.data 16 2) < 10 ∨
      3600 < (if field c.data 16 2 = 0 then 600 else field c.data 16 2)) := by split <;> omega
  rw [sessionOpenBody, exactly_run hl]
  simp only [if_neg hidle, if_neg (Nat.not_le.mpr hn)]
  rfl

section
variable {s : State} {c : Ctx} (hl : c.data.length = 128) (hb : s.host.barUntil = none)
include hl hb

theorem authProveBody_proved {k : List Byte} (hk : s.proveKey c.sid c.data = some k) :
    authProveBody s c =
      (okAns, (s.modSession c.sid (fun x => { x with key := some k })).modHost
        (fun h => { h with authFails := 0 })) := by
  rw [authProveBody, exactly_run hl]
  simp only [hb, hk, Bool.false_eq_true, if_false]

theorem authProveBody_failed (hk : s.proveKey c.sid c.data = none) :
    authProveBody s c = (refuse stAuthFailed, s.modHost (fun h => { h with
      authFails := h.authFails + 1
      barUntil := if 3 ≤ h.authFails + 1 then some (s.tick + 61440) else none })) := by
  rw [authProveBody, exactly_run hl]
  simp only [hb, hk, Bool.false_eq_true, if_false, State.modHost]

end

theorem lockBody_run {on : Bool} {s : State} {c : Ctx} (hl : c.data = []) (hk : s.id.oemKey.isSome = true) :
    lockBody on s c = (okAns, { s with id := { s.id with locked := on } }) := by
  rw [lockBody, empty_run hl]
  simp only [Option.isNone_eq_false_iff.mpr hk, Bool.false_eq_true, if_false]

end Sys2Proof.Machine

open Sys2Proof Sys2Proof.Machine

/-- Settles O1: both cases are the definition of a step. -/
theorem stepRunsFront : Obligations.StepRunsFront := by
  unfold Obligations.StepRunsFront step
  refine ⟨fun c rest s h => ?_, fun s h => ?_⟩ <;> rw [h]

/-- Settles O6: each command's meaning is one answer, and `State.hostCommand_ok` gives the reply. -/
theorem plainReadsAnswer : Obligations.PlainReadsAnswer := by
  unfold Obligations.PlainReadsAnswer
  refine ⟨⟨fun s p r e h hl => ?ping, fun s p r e h hl => ?identify, fun s p r e h hl => ?tick,
    fun s p r e h hl => ?status⟩,
    fun s p r e h hl => ?ack⟩
  case ping => exact congrArg _ (State.hostCommand_ok h (by decide) (if_neg (Nat.not_lt.mpr hl)) rfl)
  case identify => exact congrArg _ (State.hostCommand_ok h (by decide) (empty_run hl) rfl)
  case tick => exact congrArg _ (State.hostCommand_ok h (by decide) (empty_run hl) rfl)
  case status => exact congrArg _ (State.hostCommand_ok h (by decide) (empty_run hl) rfl)
  case ack => exact congrArg _ (State.hostCommand_ok h (by decide) (exactly_run (c := hostCtx s p r e) hl) rfl)

/-- Settles O7: the three cases of `HostIf.place`, and the meaning of READ_EVENTS. -/
theorem eventQueue : Obligations.EventQueue := by
  unfold Obligations.EventQueue
  refine ⟨fun s cause handle code data hc => ?bit, fun s cause handle code data hl => ?room,
    fun s cause handle code data hl ho => ?first, fun s cause handle code data hl ho => ?later,
    fun s p r e h hl => ?read, fun e => rfl⟩
  case bit => exact State.hasCause_raise s handle code data (by omega)
  case room =>
    rw [State.host_raise, HostIf.place_room (h := s.host.setCause cause) hl]
    exact ⟨rfl, rfl⟩
  case first =>
    rw [State.host_raise, HostIf.place_overflow (h := s.host.setCause cause) (Nat.le_of_eq hl.symm) ho]
    exact ⟨rfl, rfl, by simp [causeOverflow]⟩
  case later =>
    rw [State.host_raise, HostIf.place_lost (h := s.host.setCause cause) hl ho]
    exact ⟨rfl, rfl⟩
  case read => exact congrArg _ (State.hostCommand_ok h (by decide) (exactly_run (c := hostCtx s p r e) hl) rfl)

/-- Settles O8: a fresh number of 16 bits exists while fewer than 65,535 are in use. -/
theorem sessionsOpenAndClose : Obligations.SessionsOpenAndClose := by
  unfold Obligations.SessionsOpenAndClose
  refine ⟨fun s p r e h hl hn hw hi => ?opens,
    fun s p r e h hl => ⟨?closes, State.session_closeSession s p.session false⟩⟩
  case opens =>
    obtain ⟨hid, hsessions, hsched⟩ := sessionOpen_free (Config.draw s.draws) hn hw
    exact ⟨_, hid, hsessions, hsched, congrArg _ (State.hostCommand_ok h (by decide)
      (sessionOpenBody_run (c := hostCtx s p r e) hl hn hi) rfl)⟩
  case closes =>
    exact congrArg _ (State.hostCommand_ok h (by decide) (empty_run hl) rfl)

/-- Settles O9: a proof either gives a key, or is counted and refused before its acceptance. -/
theorem authorisationAndLock : Obligations.AuthorisationAndLock := by
  unfold Obligations.AuthorisationAndLock
  refine ⟨fun s p r e h hl => ?nonce, fun s p r e h hl hb => ?prove, fun s p r e h hl hk => ?locks,
    fun s p r e h hl hk => ?unlocks⟩
  case nonce => exact congrArg _ (State.hostCommand_ok h (by decide) (empty_run hl) rfl)
  case prove =>
    cases hkey : s.proveKey p.session p.data with
    | some k =>
      exact congrArg _ (State.hostCommand_ok h (by decide) (authProveBody_proved (c := hostCtx s p r e) hl hb hkey) rfl)
    | none =>
      exact congrArg _ (State.hostCommand_authFailed h (by decide)
        (authProveBody_failed (c := hostCtx s p r e) hl hb hkey) rfl)
  case locks => exact congrArg _ (State.hostCommand_ok h (by decide) (lockBody_run hl hk) rfl)
  case unlocks => exact congrArg _ (State.hostCommand_ok h (by decide) (lockBody_run hl hk) rfl)
end

section
/-! # Effective ticks and the commands that wait for them (R68, R69) -/

namespace Sys2Proof.Machine

/-! ## The window of ETICK -/

/-- The extended tick lies in the window of 2^32 ticks from 2^31 before `a`, and has the low bits it was extended
from. -/
theorem extendTick_spec {a low : Nat} (hlow : low < 2 ^ 32) :
    (a : Int) - 2 ^ 31 ≤ extendTick a low ∧ extendTick a low ≤ a + 2 ^ 31 - 1 ∧ extendTick a low % 2 ^ 32 = low := by
  simp only [extendTick]
  omega

/-- Only one tick of the window has given low bits. -/
theorem extendTick_eq {a low : Nat} {e : Int} (hlow : low < 2 ^ 32) (hmin : (a : Int) - 2 ^ 31 ≤ e)
    (hmax : e ≤ a + 2 ^ 31 - 1)
    (hmod : e % 2 ^ 32 = low) : extendTick a low = e := by
  obtain ⟨hlo, hhi, hm⟩ := extendTick_spec (a := a) hlow
  omega

theorem effectiveTick_unset (a low : Nat) : effectiveTick a false low = .ok (a + 2) := by
  simp only [effectiveTick, Bool.false_eq_true, if_false]
  rw [if_neg (by omega), if_neg (by omega)]
  rfl

/-! ## Commands that wait -/

/-- A command whose meaning is to wait for its tick is answered with OK and joins the waiting commands. -/
theorem State.hostCommand_waits {s : State} {p : Packet} {code : Nat} {r : OpInfo} {e : Nat} (h : Runs s p code r e)
    (hf : code ≠ 0x0902) (hq : s.sched.length < 256) {body : Body} {after : State → State}
    (hb : body s (hostCtx s p r e) = s.schedule (hostCtx s p r e)) :
    s.hostCommand p code body after = after (replied s p r e okAns (scheduled s p r e)) :=
  State.hostCommand_ok h hf (hb.trans (State.schedule_ctx hq)) rfl

/-- Only a start, a stop and a clear fault go on to the grafted root hives. -/
theorem State.actOnGrafts_other {s : State} {c : Ctx}
    (h : c.opcode.toNat ≠ 0x0202 ∧ c.opcode.toNat ≠ 0x0203 ∧ c.opcode.toNat ≠ 0x0206) :
    s.actOnGrafts c = s := if_neg (by omega)

/-- The opcode of a packet's meaning is the one of its row. -/
theorem hostCtx_opcode {s : State} {p : Packet} {code : Nat} {r : OpInfo} {e : Nat} (h : Runs s p code r e)
    (hc : code < 2 ^ 16) :
    (hostCtx s p r e).opcode.toNat = code := by
  rw [hostCtx, opInfo_code h.row, BitVec.toNat_ofNat, Nat.mod_eq_of_lt hc]

/-- An action on a unit that nothing bars. -/
theorem unitAction_run {bar : State → Nat → Option Answer} {s : State} {p : Packet} {r : OpInfo} {e : Nat}
    (hl : p.data.length = 2) (hg : s.goodHandle (field p.data 0 2) = true) (hb : bar s (field p.data 0 2) = none)
    (hq : s.sched.length < 256) :
    unitAction bar s (hostCtx s p r e) = (okAns, if field p.data 0 2 = 0
      then (scheduled s p r e).actOnGrafts (hostCtx s p r e) else scheduled s p r e) := by
  rw [unitAction, exactly_run (c := hostCtx s p r e) hl, State.schedule_ctx hq]
  have hg' : s.goodHandle (field (hostCtx s p r e).data 0 2) = true := hg
  have hb' : bar s (field (hostCtx s p r e).data 0 2) = none := hb
  simp only [hg', hb', Bool.not_true, Bool.false_eq_true, if_false]
  rfl

theorem barHousekeeping_none {s : State} {h : Nat} (hh : h ≠ hkSlot) : barHousekeeping s h = none := if_neg hh

theorem barMode_none {s : State} {h : Nat} (hm : modeSlot s.content h = true) : barMode s h = none := if_pos hm

/-- UNIT_MANUAL and UNIT_AUTO concern no grafted root hive. -/
theorem modeAction_run {s : State} {p : Packet} {code : Nat} {r : OpInfo} {e : Nat} (h : Runs s p code r e)
    (hsmall : code < 2 ^ 16) (hcode : code ≠ 0x0202 ∧ code ≠ 0x0203 ∧ code ≠ 0x0206) (hl : p.data.length = 2)
    (hg : s.goodHandle (field p.data 0 2) = true) (hm : modeSlot s.content (field p.data 0 2) = true)
    (hq : s.sched.length < 256) : unitAction barMode s (hostCtx s p r e) = (okAns, scheduled s p r e) := by
  have hgrafts : (scheduled s p r e).actOnGrafts (hostCtx s p r e) = scheduled s p r e :=
    State.actOnGrafts_other (by rwa [hostCtx_opcode h hsmall])
  rw [unitAction_run hl hg (barMode_none hm) hq, hgrafts, ite_self]

theorem powerStateBody_run {s : State} {c : Ctx} (hl : c.data.length = 1) (h3 : field c.data 0 1 ≤ 3)
    (hw : c.who ≠ .link)
    (hc : 2 ≤ field c.data 0 1 → s.smoker.calmed = false) (hd : field c.data 0 1 = 0 → s.dormantBarred = false) :
    powerStateBody s c = s.schedule c := by
  rw [powerStateBody, exactly_run hl]
  have hcalm : ¬(2 ≤ field c.data 0 1 ∧ s.smoker.calmed = true) := fun ⟨h2, h⟩ => by simp [hc h2] at h
  have hdormant : ¬(field c.data 0 1 = 0 ∧ s.dormantBarred = true) := fun ⟨h0, h⟩ => by simp [hd h0] at h
  simp only [if_neg (Nat.not_lt.mpr h3), if_neg hcalm, hw, and_false, if_false, if_neg hdormant]

theorem setManualBody_run {s : State} {c : Ctx} {u : Nat} (hl : c.data.length = 10)
    (hg : s.goodHandle (field c.data 0 2) = true) (hm : modeSlot s.content (field c.data 0 2) = true)
    (ht : modeTarget s.content 257 (field c.data 0 2) = some u) (hu : hasMode (slotKind u) = true)
    (hk : slotKind u ≠ 0x09)
    (hz : firstSet c.data 6 4 = none) (hv : fFinite (BitVec.ofNat 32 (field c.data 2 4)) = true)
    (hst : (s.view.unit u).st = .manual) : setManualBody s c = s.schedule c := by
  rw [setManualBody, exactly_run hl]
  simp [hg, hm, ht, hu, hk, hz, hv, hst]

theorem ofKind_run {kind off : Nat} {f : Nat → Body} {s : State} {c : Ctx}
    (hg : s.goodHandle (field c.data off 2) = true)
    (hk : slotKind (field c.data off 2) = kind) : ofKind kind off f s c = f (slotInst (field c.data off 2)) s c := by
  simp [ofKind, hg, hk]

theorem reserved_run {off len : Nat} {f : Body} {s : State} {c : Ctx} (h : firstSet c.data off len = none) :
    reserved off len f s c = f s c := by simp only [reserved, h]

theorem channelServiceBody_run {s : State} {c : Ctx} (hl : c.data.length = 3)
    (hg : s.goodHandle (field c.data 0 2) = true)
    (hk : slotKind (field c.data 0 2) = 0x03) (h1 : field c.data 2 1 ≤ 1) : channelServiceBody s c = s.schedule c := by
  rw [channelServiceBody, exactly_run hl, ofKind_run hg hk, if_neg (Nat.not_lt.mpr h1)]

/-- The first byte of a payload is its count. -/
theorem headD_toNat (d : List Byte) : (d.headD 0).toNat = field d 0 1 := by
  cases d with
  | nil => rfl
  | cons b t => simp [field, bytesAt, ofLe]

theorem cellWriteBody_run {s : State} {c : Ctx} {n : Nat} (h0 : n ≠ 0) (hf : field c.data 0 1 = n)
    (hl : c.data.length = 1 + 12 * n)
    (hx : (List.range n).findSome? (s.checkCell (hostCells s.content) c.data) = none) :
    cellWriteBody s c = s.schedule c := by
  unfold cellWriteBody
  split
  case h_1 h => rw [h] at hl; simp at hl; omega
  case h_2 b t h =>
    have hb : b.toNat = n := by rw [← hf, ← headD_toNat, h]; rfl
    simp only [hb, h0, hl, hx, ne_eq, not_true, if_false]

theorem cellForceBody_run {s : State} {c : Ctx} (hl : c.data.length = 11) (hw : s.written (field c.data 0 2) = true)
    (ht : field c.data 2 1 ≤ 4)
    (hz : firstSet c.data (3 + usedBytes (field c.data 2 1)) (8 - usedBytes (field c.data 2 1)) = none) :
    cellForceBody s c = s.schedule c := by
  rw [cellForceBody, exactly_run hl]
  simp only [hw, hz, Bool.not_true, Bool.false_eq_true, if_false, if_neg (Nat.not_lt.mpr ht)]

theorem cellReleaseBody_run {s : State} {c : Ctx} (hl : c.data.length = 2) (hw : s.written (field c.data 0 2) = true) :
    cellReleaseBody s c = s.schedule c := by
  rw [cellReleaseBody, exactly_run hl, if_pos hw]

theorem cellResetBody_run {s : State} {c : Ctx} (hl : IsList 255 c.data)
    (hw : ∀ x ∈ listOf c.data, s.written x = true) :
    cellResetBody s c = s.schedule c := by
  rw [cellResetBody, listForm_run hl]
  simp only [firstFailing_none hw]

theorem recClearBody_run {s : State} {p : Packet} {r : OpInfo} {e : Nat} (hl : p.data = [])
    (hq : s.sched.length < 256) :
    recClearBody s (hostCtx s p r e) =
      ({ okAns with detail := if s.recorder.founding = [] then 0 else 1 }, scheduled s p r e) := by
  rw [recClearBody, empty_run (c := hostCtx s p r e) hl, State.schedule_ctx hq]
  cases s.recorder.founding <;> rfl

end Sys2Proof.Machine

open Sys2Proof Sys2Proof.Machine

/-- Settles O11: `extendTick` is the one tick of the window with the low bits of ETICK. -/
theorem effectiveTicks : Obligations.EffectiveTicks := by
  unfold Obligations.EffectiveTicks
  refine ⟨by decide, effectiveTick_unset, fun a low e hlow hmin hmax hmod => ?window, fun a low hlow => ?inWindow,
    fun s r body c etv low st het he => ?late, fun s r body c etv low e het he hcalm => ?inTime,
    fun s r auth data het hs hl hb => ?noTick⟩
  case window =>
    rw [← extendTick_eq hlow hmin hmax hmod]
    rfl
  case inWindow =>
    exact ⟨extendTick a low, extendTick_spec hlow⟩
  case late =>
    simp only [State.runBody, het, he, if_true]
  case inTime =>
    have hrefused : ¬(r.calm = true ∧ s.smoker.calmed = true) := by simpa using hcalm
    simp only [State.runBody, het, he, if_true, if_neg hrefused, Nat.add_sub_cancel]
  case noTick =>
    have hbaud : ¬(r.code = 0x0009 ∧ (!s.host.uart) = true) := by
      rintro ⟨h9, huart⟩
      rcases hb with h | h
      · exact h h9
      · simp [h] at huart
    simp only [State.formBars, hs, if_neg (Nat.not_lt.mpr hl), if_neg hbaud, het, Bool.not_false, and_self, if_true]

/-- Settles O12: each command's meaning is to wait, by its checks, and `State.hostCommand_waits` gives the reply. -/
theorem commandsScheduled : Obligations.CommandsScheduled := by
  unfold Obligations.CommandsScheduled
  refine ⟨⟨fun s p r e h hl hq => ?clear, fun s p r e h hl hq => ?wall, fun s p r e h hl h3 hq hc hd => ?power,
      fun s p r e h hl hg hb hq => ?start, fun s p r e h hl hg hk hq => ?stop, fun s p r e h hl hg hm hq => ?manual,
      fun s p r e h hl hg hm hq => ?auto, fun s p r e h hl hg hk hq => ?clearFault,
      fun s p r e u h hl hg hm ht hu hk hz hv hst hq => ?value, fun s p r e h hl hg hk h1 hq => ?service⟩,
    fun s p r e n h h0 h256 hf hl hx hq => ?cellWrite, fun s p r e h hl hw ht hz hq => ?cellForce,
    fun s p r e h hl hw hq => ?cellRelease, fun s p r e h hl hw hq => ?cellReset, fun s p r e h hl hq => ?recClear⟩
  case clear => exact congrArg _ (State.hostCommand_waits h (by decide) hq (empty_run hl))
  case wall => exact congrArg _ (State.hostCommand_waits h (by decide) hq (exactly_run (c := hostCtx s p r e) hl))
  case power =>
    exact congrArg _ (State.hostCommand_waits h (by decide) hq
      (powerStateBody_run (c := hostCtx s p r e) hl h3 (fun hw => UpdOwner.noConfusion hw) hc hd))
  case start => exact congrArg _ (State.hostCommand_ok h (by decide) (unitAction_run hl hg hb hq) rfl)
  case stop =>
    exact congrArg _ (State.hostCommand_ok h (by decide) (unitAction_run hl hg (barHousekeeping_none hk) hq) rfl)
  case manual =>
    exact congrArg _ (State.hostCommand_ok h (by decide) (modeAction_run h (by decide) (by decide) hl hg hm hq) rfl)
  case auto =>
    exact congrArg _ (State.hostCommand_ok h (by decide) (modeAction_run h (by decide) (by decide) hl hg hm hq) rfl)
  case clearFault =>
    exact congrArg _ (State.hostCommand_ok h (by decide) (unitAction_run hl hg (barHousekeeping_none hk) hq) rfl)
  case value =>
    exact congrArg _ (State.hostCommand_waits h (by decide) hq
      (setManualBody_run (c := hostCtx s p r e) hl hg hm ht hu hk hz hv hst))
  case service =>
    exact congrArg _ (State.hostCommand_waits h (by decide) hq
      (channelServiceBody_run (c := hostCtx s p r e) hl hg hk h1))
  case cellWrite =>
    exact congrArg _ (State.hostCommand_waits h (by decide) hq (cellWriteBody_run (c := hostCtx s p r e) h0 hf hl hx))
  case cellForce =>
    exact congrArg _ (State.hostCommand_waits h (by decide) hq (cellForceBody_run (c := hostCtx s p r e) hl hw ht hz))
  case cellRelease =>
    exact congrArg _ (State.hostCommand_waits h (by decide) hq (cellReleaseBody_run (c := hostCtx s p r e) hl hw))
  case cellReset =>
    exact congrArg _ (State.hostCommand_waits h (by decide) hq (cellResetBody_run (c := hostCtx s p r e) hl hw))
  case recClear => exact congrArg _ (State.hostCommand_ok h (by decide) (recClearBody_run hl hq) rfl)

end

section
/-! # Parameter writes, the creation of jobs, and the commands for jobs (R69, R76, R79 to R82) -/

namespace Sys2Proof.Machine

/-! ## Parameter writes -/

/-- PARAM_WRITE of entries that pass their checks. -/
theorem paramWrite_run {s : State} {p : Packet} {r : OpInfo} {e n : Nat} {l : List WriteEntry} (h0 : 0 < n)
    (h256 : n < 256)
    (hd : p.data.headD 0 = BitVec.ofNat 8 n) (hl : p.data.length = 1 + 14 * n)
    (hc : s.checkWrites (hostCtx s p r e) (List.range n) = .ok l) (hq : s.sched.length < 256) :
    paramWrite s (hostCtx s p r e) = (okAns, (l.filter (fun x => x.target.info.eff == .commit)).foldl
      (fun s x => s.modPending (fun c => contentSetScalar c x.target.info.id (x.target.inst.getD 0) x.value))
      (if l.any (fun x => x.target.info.eff != .commit) then scheduled s p r e else s)) := by
  have hdata : (hostCtx s p r e).data = p.data := rfl
  unfold paramWrite
  rw [hdata]
  cases hp : p.data with
  | nil => rw [hp] at hl; simp at hl; omega
  | cons b t =>
    have hb : b.toNat = n := by
      have : b = BitVec.ofNat 8 n := by simpa [hp] using hd
      rw [this, BitVec.toNat_ofNat, Nat.mod_eq_of_lt h256]
    rw [hp] at hl
    simp only [hb, hl, hc, Nat.ne_of_gt h0, ne_eq, not_true, if_false]
    by_cases hlater : l.any (fun x => x.target.info.eff != .commit) = true
    · simp only [hlater, if_true, State.schedule_ctx hq]
      rfl
    · simp only [hlater]
      rfl

/-- PARAM_WRITE_BLOCK of a block that the holder of the pending generation may write. -/
theorem paramWriteBlock_run {s : State} {c : Ctx} {t : Target} {i : Nat} (h8 : 8 ≤ c.data.length)
    (ht : s.blockTarget (field c.data 0 2) (field c.data 2 2) (field c.data 4 4) (c.data.length - 8) = .ok t)
    (hi : t.inst = some i) (hw : readOnly t.info i = false) (hp : s.holdsPending c.sid = true)
    (hk : t.info.id = P.UNIT_HEADER →
      field (overlay (s.readBlock c t) (field c.data 4 4) (c.data.drop 8)) 0 1 = 0 ∨
      field (overlay (s.readBlock c t) (field c.data 4 4) (c.data.drop 8)) 0 1 = slotKind i) :
    paramWriteBlock s c = (okAns, s.modPending (fun x =>
      contentSetBlock x t.info.id i (overlay (s.readBlock c t) (field c.data 4 4) (c.data.drop 8)))) := by
  have hkind : ¬(t.info.id = P.UNIT_HEADER ∧
      field (overlay (s.readBlock c t) (field c.data 4 4) (c.data.drop 8)) 0 1 ≠ 0 ∧
      field (overlay (s.readBlock c t) (field c.data 4 4) (c.data.drop 8)) 0 1 ≠ slotKind i) :=
    fun ⟨hid, h0, h1⟩ => (hk hid).elim h0 h1
  unfold paramWriteBlock
  simp only [if_neg (Nat.not_lt.mpr h8), List.length_drop, ht, hi, hw, hp, if_neg hkind, Bool.not_true,
    Bool.false_eq_true,
    if_false]

/-! ## The creation of jobs -/

/-- A job for the sender while fewer than 8 exist. -/
theorem State.newJob_ctx {s : State} {p : Packet} {r : OpInfo} {e : Nat} (f : Job → Job) (h : s.jobs.length < 8) :
    s.newJob (hostCtx s p r e) f = (⟨stAccepted, 0, (queuedJob s p r).handle, [], none⟩,
      { s with draws := s.draws + 1, jobs := s.jobs ++ [f (queuedJob s p r)] }) := by
  unfold State.newJob
  rw [if_neg (Nat.not_le.mpr h)]
  rfl

theorem State.startJob_ctx {s : State} {p : Packet} {r : OpInfo} {e : Nat} (f : Job → Job) (h : s.jobs.length < 8) :
    s.startJob (hostCtx s p r e) f =
      (⟨stAccepted, 0, (queuedJob s p r).handle, [], none⟩, withJob s (f (queuedJob s p r))) := by
  unfold State.startJob
  rw [State.newJob_ctx f h]
  rfl

/-- A command whose meaning is to start a job is answered with ACCEPTED and the job's handle. -/
theorem State.hostCommand_starts {s : State} {p : Packet} {code : Nat} {r : OpInfo} {e : Nat} (h : Runs s p code r e)
    (hf : code ≠ 0x0902) (hj : s.jobs.length < 8) {body : Body} {f : Job → Job}
    (hb : body s (hostCtx s p r e) = s.startJob (hostCtx s p r e) f) :
    s.hostCommand p code body = replied s p r e ⟨stAccepted, 0, (queuedJob s p r).handle, [], none⟩
      (withJob s (f (queuedJob s p r))) :=
  State.hostCommand_other h hf (hb.trans (State.startJob_ctx f hj)) (fun h => absurd h (by decide : stAccepted ≠ stOk))
    (fun h => absurd h (by decide : stAccepted ≠ stAuthFailed))

/-- A chunk within its area. -/
theorem chunkBody_run {size : Nat} {s : State} {c : Ctx} (h8 : 8 ≤ c.data.length) (hflags : field c.data 0 1 ≤ 3)
    (hz : firstSet c.data 1 3 = none) (hsize : field c.data 4 4 + (c.data.length - 8) ≤ size) :
    chunkBody size s c = s.startJob c := by
  simp only [chunkBody, if_neg (Nat.not_lt.mpr h8), if_neg (Nat.not_lt.mpr hflags), hz, if_neg (Nat.not_lt.mpr hsize)]

theorem cfgCommitBody_run {s : State} {c : Ctx} (hl : c.data = []) (hp : s.holdsPending c.sid = true) :
    cfgCommitBody s c = s.startJob c (fun j => j.asking c) := by
  rw [cfgCommitBody, empty_run hl, if_pos hp]

theorem calRunBody_run {s : State} {c : Ctx} (hl : c.data.length = 12) (hg : s.goodHandle (field c.data 0 2) = true)
    (hk : slotKind (field c.data 0 2) = 0x03) (hz : firstSet c.data 10 2 = none) (ha : field c.data 2 1 ≤ 2)
    (hp : field c.data 3 1 ≤ 2) (hr : fFinite (BitVec.ofNat 32 (field c.data 4 4)) = true)
    (hmin : 16 ≤ field c.data 8 2)
    (hmax : field c.data 8 2 ≤ 16384) : calRunBody s c = s.startJob c := by
  have hrange : ¬(2 < field c.data 2 1 ∨ 2 < field c.data 3 1 ∨ (!fFinite (BitVec.ofNat 32 (field c.data 4 4))) = true ∨
      field c.data 8 2 < 16 ∨ 16384 < field c.data 8 2) := by
    simp only [hr, Bool.not_true, Bool.false_eq_true, false_or]
    omega
  rw [calRunBody, exactly_run hl, ofKind_run hg hk, reserved_run hz, if_neg hrange]

theorem probeCalBody_run {s : State} {c : Ctx} (hl : c.data.length = 8) (hg : s.goodHandle (field c.data 0 2) = true)
    (hk : slotKind (field c.data 0 2) = 0x07) (hz : firstSet c.data 4 4 = none) (hstd : field c.data 2 1 ≤ 3)
    (hmin : 1 ≤ field c.data 3 1) (hmax : field c.data 3 1 ≤ 64) : probeCalBody s c = s.startJob c := by
  rw [probeCalBody, exactly_run hl, ofKind_run hg hk, reserved_run hz, if_neg (by omega)]

theorem combEnumerateBody_run {s : State} {c : Ctx} (hl : c.data.length = 4)
    (hg : s.goodHandle (field c.data 0 2) = true)
    (hk : slotKind (field c.data 0 2) = 0x08) (hz : firstSet c.data 2 2 = none) :
    combEnumerateBody s c = s.startJob c := by
  rw [combEnumerateBody, exactly_run hl, ofKind_run hg hk, reserved_run hz]

theorem recReadBody_run {s : State} {c : Ctx} (hl : c.data.length = 12) (hz : firstSet c.data 1 3 = none)
    (hz' : firstSet c.data 10 2 = none) (harea : field c.data 0 1 ≤ 2) (hmin : 1 ≤ field c.data 8 2)
    (hmax : field c.data 8 2 ≤ 8192) : recReadBody s c = s.startJob c := by
  rw [recReadBody, exactly_run hl, reserved_run hz, reserved_run hz', if_neg (by omega)]

theorem replayRunBody_run {s : State} {c : Ctx} (hl : c.data.length = 4) (hf : field c.data 0 1 ≤ 1)
    (hz : firstSet c.data 1 3 = none) : replayRunBody s c = s.startJob c := by
  rw [replayRunBody, exactly_run hl, if_neg (Nat.not_lt.mpr hf), reserved_run hz]

/-! ## Commands for a job of the sender -/

section
variable {s : State} {c : Ctx} {j : Job} (hl : c.data.length = 2) (hj : s.job (field c.data 0 2) = some j)
  (ho : j.session = some c.sid)
include hl hj ho

theorem onJob_run (f : Job → Body) : onJob f s c = f j s c := by
  rw [onJob, exactly_run hl, hj]
  exact if_pos ho

theorem jobStatusBody_ended (he : j.state.ended = true) : jobStatusBody s c =
    (okData (j.report j.data), { s with jobs := s.jobs.filter (fun k => k.handle != j.handle) }) := by
  rw [jobStatusBody, onJob_run hl hj ho, if_pos he]

theorem jobStatusBody_part {part next : List Byte} {rest : List (List Byte)} (hs : j.state = .running)
    (hr : j.reads = true)
    (hout : j.out = part :: next :: rest) : jobStatusBody s c =
      (okData (j.report part), s.modJob j.handle (fun k => { k with out := next :: rest, data := part })) := by
  rw [jobStatusBody, onJob_run hl hj ho, hs, hout, if_neg (by decide), hr]
  rfl

theorem jobStatusBody_plain (he : j.state.ended = false)
    (hp : j.state ≠ .running ∨ j.reads = false ∨ j.out.length < 2) :
    jobStatusBody s c = (okData (j.report []), s) := by
  rw [jobStatusBody, onJob_run hl hj ho, he, if_neg Bool.false_ne_true]
  split
  case h_1 part next rest hout =>
    refine if_neg ?_
    rcases hp with h | h | h
    · simp [h]
    · simp [h]
    · rw [hout] at h; simp at h
  case h_2 => rfl

theorem jobPauseBody_running (hs : j.state = .running) (hx : j.fixed = false) :
    jobPauseBody s c = (okAns, s.modJob j.handle (fun k => { k with pauseDue := true })) := by
  rw [jobPauseBody, onJob_run hl hj ho, hs, hx, if_neg (by decide), if_neg (by decide)]

theorem jobPauseBody_queued (hs : j.state = .queued) (hx : j.fixed = false) :
    jobPauseBody s c = (okAns,
      if j.opcode = 0x0803#16 ∧ s.upd.state = .verifying then
        (s.modJob j.handle (fun k => { k with state := .paused })).verifyStopped
      else s.modJob j.handle (fun k => { k with state := .paused })) := by
  rw [jobPauseBody, onJob_run hl hj ho, hs, hx, if_neg (by decide), if_neg (by decide)]
  rfl

theorem jobResumeBody_run (hs : j.state = .paused) : jobResumeBody s c =
    (okAns, (s.modJob j.handle (fun k => { k with state := .queued })).dispatchJobs) := by
  rw [jobResumeBody, onJob_run hl hj ho, if_pos hs]

theorem jobCancelBody_run (he : j.state.ended = false) (hx : j.fixed = false) : jobCancelBody s c =
    (okAns, (s.modJob j.handle (fun k => { k with cancelDue := true })).dispatchJobs) := by
  rw [jobCancelBody, onJob_run hl hj ho, he, hx, if_neg (by decide), if_neg (by decide)]

end

theorem schedCancelBody_run {s : State} {c : Ctx} {x : Sched} (hl : c.data.length = 4)
    (hx : s.sched.find? (fun x => x.session.toNat == field c.data 0 2 && x.seq.toNat == field c.data 2 2) = some x)
    (ha : x.auth = true → c.auth = true) (ht : s.tick + 2 ≤ x.at_) :
    schedCancelBody s c = (okAns, { s with sched := s.sched.erase x }) := by
  have hauth : ¬(x.auth = true ∧ (!c.auth) = true) := fun ⟨h1, h2⟩ => by simp [ha h1] at h2
  rw [schedCancelBody, exactly_run hl]
  simp only [hx, if_neg hauth, if_neg (Nat.not_lt.mpr ht)]

end Sys2Proof.Machine

open Sys2Proof Sys2Proof.Machine

/-- Settles O19: one meaning, `paramWrite_run`, serves four commands. -/
theorem parameterWrites : Obligations.ParameterWrites := by
  unfold Obligations.ParameterWrites
  refine ⟨fun s p r e n l h h0 h256 hd hl hc hq => ?scalars, fun s p r e t i h h8 ht hi hw hp hk => ?block⟩
  case scalars =>
    have hreply := State.hostCommand_ok (after := fun s => s) h (by decide)
      (paramWrite_run (r := r) (e := e) h0 h256 hd hl hc hq) rfl
    exact ⟨congrArg _ hreply, congrArg _ hreply, congrArg _ hreply, congrArg _ hreply⟩
  case block =>
    exact congrArg _ (State.hostCommand_ok h (by decide)
      (paramWriteBlock_run (c := hostCtx s p r e) h8 ht hi hw hp hk) rfl)

/-- Settles O21: each meaning is to start a job, by its checks, and `State.hostCommand_starts` gives the reply. -/
theorem jobsAreCreated : Obligations.JobsAreCreated := by
  unfold Obligations.JobsAreCreated
  refine ⟨fun s p r e h hl hp hj => ?commit, fun s p r e h hl hj => ?revert, fun s p r e h hl hj => ?bundle,
    fun s p r e h h8 hf hz hs hj => ?chunk, fun s p r e h hl hg hk hz ha hp hr hmin hmax hj => ?cal,
    fun s p r e h hl hg hk hz hstd hmin hmax hj => ?probe, fun s p r e h hl hg hk hz hj => ?comb,
    fun s p r e h hl hz hz' ha hmin hmax hj => ?recorder, fun s p r e h h8 hf hz hs hj => ?load,
    fun s p r e h hl hf hz hj => ?replay, fun s p r e h hl hj => ?inputs⟩
  case commit =>
    exact congrArg _ (State.hostCommand_starts (f := fun j => j.asking (hostCtx s p r e)) h (by decide) hj
      (cfgCommitBody_run (c := hostCtx s p r e) hl hp))
  case revert =>
    exact congrArg _ (State.hostCommand_starts (f := fun j => j.asking (hostCtx s p r e)) h (by decide) hj
      (empty_run (c := hostCtx s p r e) hl))
  case bundle =>
    exact congrArg _ (State.hostCommand_starts (f := id) h (by decide) hj (exactly_run (c := hostCtx s p r e) hl))
  case chunk =>
    exact congrArg _ (State.hostCommand_starts (f := id) h (by decide) hj
      (chunkBody_run (c := hostCtx s p r e) h8 hf hz hs))
  case cal =>
    exact congrArg _ (State.hostCommand_starts (f := id) h (by decide) hj
      (calRunBody_run (c := hostCtx s p r e) hl hg hk hz ha hp hr hmin hmax))
  case probe =>
    exact congrArg _ (State.hostCommand_starts (f := id) h (by decide) hj
      (probeCalBody_run (c := hostCtx s p r e) hl hg hk hz hstd hmin hmax))
  case comb =>
    exact congrArg _ (State.hostCommand_starts (f := id) h (by decide) hj
      (combEnumerateBody_run (c := hostCtx s p r e) hl hg hk hz))
  case recorder =>
    exact congrArg _ (State.hostCommand_starts (f := id) h (by decide) hj
      (recReadBody_run (c := hostCtx s p r e) hl hz hz' ha hmin hmax))
  case load =>
    exact congrArg _ (State.hostCommand_starts (f := id) h (by decide) hj
      (chunkBody_run (c := hostCtx s p r e) h8 hf hz hs))
  case replay =>
    exact congrArg _ (State.hostCommand_starts (f := id) h (by decide) hj
      (replayRunBody_run (c := hostCtx s p r e) hl hf hz))
  case inputs =>
    exact congrArg _ (State.hostCommand_starts (f := id) h (by decide) hj (exactly_run (c := hostCtx s p r e) hl))

/-- Settles O22: each command on a job of the sender runs its meaning on that job. -/
theorem jobControl : Obligations.JobControl := by
  unfold Obligations.JobControl
  refine ⟨fun s p r e j h hl hj ho he => ?ended, fun s p r e j part next rest h hl hj ho hs hr hout => ?part,
    fun s p r e j h hl hj ho he hp => ?plain, fun s p r e j h hl hj ho hs hx => ?pauseRunning,
    fun s p r e j h hl hj ho hs hx => ?pauseQueued, fun s p r e j h hl hj ho hs => ?resume,
    fun s p r e j h hl hj ho he hx => ?cancel, fun s p r e x h hl hx ha ht => ?schedCancel⟩
  case ended =>
    exact congrArg _ (State.hostCommand_ok h (by decide) (jobStatusBody_ended (c := hostCtx s p r e) hl hj ho he) rfl)
  case part =>
    exact congrArg _ (State.hostCommand_ok h (by decide)
      (jobStatusBody_part (c := hostCtx s p r e) hl hj ho hs hr hout) rfl)
  case plain =>
    exact congrArg _ (State.hostCommand_ok h (by decide) (jobStatusBody_plain (c := hostCtx s p r e) hl hj ho he hp)
      rfl)
  case pauseRunning =>
    exact congrArg _ (State.hostCommand_ok h (by decide)
      (jobPauseBody_running (c := hostCtx s p r e) hl hj ho hs hx) rfl)
  case pauseQueued =>
    exact congrArg _ (State.hostCommand_ok h (by decide)
      (jobPauseBody_queued (c := hostCtx s p r e) hl hj ho hs hx) rfl)
  case resume =>
    exact congrArg _ (State.hostCommand_ok h (by decide) (jobResumeBody_run (c := hostCtx s p r e) hl hj ho hs) rfl)
  case cancel =>
    exact congrArg _ (State.hostCommand_ok h (by decide) (jobCancelBody_run (c := hostCtx s p r e) hl hj ho he hx) rfl)
  case schedCancel =>
    have hauth : x.auth = true → (hostCtx s p r e).auth = true := fun hxa => by
      obtain ⟨h1, h2⟩ := ha hxa
      simp [hostCtx, h1, h2]
    exact congrArg _ (State.hostCommand_ok h (by decide)
      (schedCancelBody_run (c := hostCtx s p r e) hl hx hauth ht) rfl)

end

section
/-! # The bytes of a reply (R57 to R59) -/

namespace Sys2Proof.Machine

/-- The FLAGS of a reply: REPLY, ETV and AUTH. -/
def Reply.flags (r : Reply) : Byte := BitVec.ofNat 8 (0x80 + flagBit r.etick.isSome 6 + flagBit r.auth 5)

theorem Reply.flags_bits (r : Reply) : r.flags.getLsbD 7 = true ∧ r.flags.getLsbD 6 = r.etick.isSome ∧
    r.flags.getLsbD 5 = r.auth := by
  unfold Reply.flags
  cases r.etick.isSome <;> cases r.auth <;> decide

/-- The body of a reply field by field, before what follows it. -/
theorem Reply.body_fields (r : Reply) (tail : List Byte) : r.body ++ tail =
    [0xB7, 0x4D, 0x01, r.flags] ++ (le 2 r.seq.toNat ++ (le 2 r.opcode.toNat ++
      (le 2 (8 + r.data.length + (if r.auth then 16 else 0)) ++ (le 2 r.session.toNat ++ (le 4 (r.etick.getD 0) ++
        ([r.status, r.detail] ++ (le 2 r.job.toNat ++ (le 2 (r.etick.getD 0 / 2 ^ 32) ++
          ([0, 0] ++ (r.data ++ tail)))))))))) := by
  simp only [Reply.body, Reply.flags, List.append_assoc]

theorem Reply.packet_eq (r : Reply) : r.packet = r.body ++ (r.tag ++ le 4 (crc32c (r.body ++ r.tag))) :=
  List.append_assoc _ _ _

theorem Reply.length_body (r : Reply) : r.body.length = 24 + r.data.length := by
  simp [Reply.body]
  omega

/-- A field of 16 bits reads the word written there. -/
theorem ofLe_le_word (w : BitVec 16) : ofLe (le 2 w.toNat) = w.toNat := by
  rw [ofLe_le]
  exact Nat.mod_eq_of_lt w.isLt

end Sys2Proof.Machine

open Sys2Proof Sys2Proof.Machine

/-- Settles O15: every field stands at a fixed offset of `Reply.body_fields`. -/
theorem replyPackets : Obligations.ReplyPackets := by
  unfold Obligations.ReplyPackets
  intro r
  have hlen : (r.body ++ r.tag).length = 24 + r.data.length + r.tag.length := by
    rw [List.length_append, Reply.length_body]
  have hsize : r.packet.length = 28 + r.data.length + r.tag.length := by
    rw [Reply.packet, length_withCrc, hlen]
    omega
  have hcrc : crcOkAt r.packet (r.packet.length - 4) = true := by
    rw [Reply.packet, length_withCrc]
    exact crcOkAt_withCrc (r.body ++ r.tag)
  obtain ⟨hreply, hetv, hauth⟩ := r.flags_bits
  refine ⟨?head, ?reply, ?etv, ?auth, ?seq, ?opcode, ?session, ?etick, ?status, ?detail, ?job, ?data, hsize, hcrc⟩ <;>
    rw [Reply.packet_eq, Reply.body_fields]
  case head => rfl
  case reply => exact hreply
  case etv => exact hetv
  case auth => exact hauth
  case seq => exact ofLe_le_word r.seq
  case opcode => exact ofLe_le_word r.opcode
  case session => exact ofLe_le_word r.session
  case etick => exact ofLe_le 4 (r.etick.getD 0)
  case status => rfl
  case detail => rfl
  case job => exact ofLe_le_word r.job
  case data => exact List.take_left

end

section
/-! # What reset leaves -/

open Sys2Proof Sys2Proof.Machine

namespace Sys2Proof.Machine

/-- No cell has been written after reset: it reads VALUE 0 and OFFLINE. -/
theorem Plant.cell_first (ref : Nat) : (Plant.first.cell ref).own.value = 0 ∧ (Plant.first.cell ref).own.quality = 7 :=
  ⟨rfl, rfl⟩

/-- Regions that fit into the pages have the sizes they were laid out with. -/
theorem layPages_sizes (sizes pages : List Nat) (h : sizes.sum ≤ pages.length) :
    (layPages sizes pages).map List.length = sizes := by
  induction sizes generalizing pages with
  | nil => rfl
  | cons n t ih =>
    rw [List.sum_cons] at h
    rw [layPages, List.map_cons, List.length_take, Nat.min_eq_left (by omega),
      ih _ (by rw [List.length_drop]; omega)]

end Sys2Proof.Machine

/-- Settles O3, field by field. -/
theorem resetState : Obligations.ResetState := by
  unfold Obligations.ResetState
  refine ⟨⟨rfl, rfl, rfl, rfl, rfl, rfl, rfl, layPages_sizes _ _ (by rw [List.length_range]; decide), rfl, rfl, rfl,
    Plant.cell_first⟩,
    ⟨by decide, by decide, by decide, by decide⟩, fun h => Bool.noConfusion h⟩

end

section
/-! # Rate, restart, and the packets that are refused (R54, R60 to R64, R72, R84, R86, R437) -/

namespace Sys2Proof.Machine

/-! ## Replies and acceptance beside the interface -/

@[simp] theorem makeReply_opcode (session seq opcode : BitVec 16) (key : Option (List Byte)) (e : Option Nat)
    (a : Answer) :
    (makeReply session seq opcode key e a).opcode = opcode := by
  cases key <;> rfl

@[simp] theorem makeReply_status (session seq opcode : BitVec 16) (key : Option (List Byte)) (e : Option Nat)
    (a : Answer) :
    (makeReply session seq opcode key e a).status = BitVec.ofNat 8 a.status := by
  cases key <;> rfl

/-- A reply given in its order changes the interface alone. -/
theorem State.produce_beside (s : State) (r : Reply) : s.produce r = { s with host := (s.produce r).host } := by
  unfold State.produce
  split
  · unfold State.send
    split
    · unfold State.baudChange State.newBaud
      split
      · split <;> rfl
      · rfl
    · rfl
  · rfl

/-- A packet that is carried out changes the interface, the smoker and the link beside its own effect. -/
theorem replied_beside (s : State) (p : Packet) (r : OpInfo) (e : Nat) (a : Answer) (u : State) :
    replied s p r e a u = { u with
      host := (replied s p r e a u).host, smoker := { u.smoker with last := u.tick, spent := false }
      link := { u.link with feedDue := true } } := by
  have htaken : ∀ reply, (u.accept p).cacheReply reply = { u with
      host := ((u.accept p).cacheReply reply).host, smoker := { u.smoker with last := u.tick, spent := false }
      link := { u.link with feedDue := true } } := fun reply => rfl
  unfold replied
  rw [State.produce_beside]
  generalize State.host (State.produce _ _) = h
  exact congrArg (fun t : State => { t with host := h }) (htaken _)

section
variable (s : State) (p : Packet) (r : OpInfo) (e : Nat) (a : Answer) (u : State)
@[simp] theorem replied_hk : (replied s p r e a u).hk = u.hk := by rw [replied_beside]
@[simp] theorem replied_upd : (replied s p r e a u).upd = u.upd := by rw [replied_beside]
@[simp] theorem replied_id : (replied s p r e a u).id = u.id := by rw [replied_beside]
@[simp] theorem replied_tick : (replied s p r e a u).tick = u.tick := by rw [replied_beside]
@[simp] theorem replied_activeGen : (replied s p r e a u).activeGen = u.activeGen := by rw [replied_beside]
end

/-- A change of the interface that is answered changes beside it what acceptance changes. -/
theorem replied_modHost (s : State) (p : Packet) (r : OpInfo) (e : Nat) (a : Answer) (f : HostIf → HostIf) :
    replied s p r e a (s.modHost f) = { s with
      host := (replied s p r e a (s.modHost f)).host, smoker := (replied s p r e a (s.modHost f)).smoker
      link := (replied s p r e a (s.modHost f)).link } := by
  have h := replied_beside s p r e a (s.modHost f)
  generalize replied s p r e a (s.modHost f) = t at h ⊢
  rw [h]
  rfl

/-- In UART, with no earlier command that waits, a reply to SET_BAUD is sent and the new rate applies. -/
theorem State.produce_baud {s : State} {r : Reply} {rate : Nat} (hu : s.host.uart = true) (hl : s.host.line = [])
    (ho : r.opcode = 0x0009#16) (hs : r.status = 0#8) (hn : s.host.baudNext = some rate) :
    s.produce r = { s with host := { s.host with
      sent := s.host.sent ++ [r], baud := rate, baudAt := some s.tick, baudNext := none } } := by
  have hempty : s.host.line.isEmpty = true := by rw [hl]; rfl
  unfold State.produce State.send
  rw [if_pos hempty, if_pos hu]
  unfold State.baudChange State.newBaud
  rw [if_pos ⟨ho, hs⟩]
  simp only [hn]

/-- Behind a command that waits, a reply waits too. -/
theorem State.produce_waits {s : State} {r : Reply} (hl : s.host.line ≠ []) :
    s.produce r = { s with host := { s.host with line := s.host.line ++
      [{ session := r.session, seq := r.seq, opcode := r.opcode, reply := some r }] } } :=
  if_neg (by simpa using hl)

/-! ## SET_BAUD and RESTART -/

/-- Only in UART does SET_BAUD get past the checks of its form. -/
theorem Runs.uart {s : State} {p : Packet} {r : OpInfo} {e : Nat} (h : Runs s p 0x0009 r e) : s.host.uart = true := by
  have hc := opInfo_code h.row
  have hform := h.form
  by_contra hu
  unfold State.formBars at hform
  split at hform
  · cases hform
  · split at hform
    · cases hform
    · rw [if_pos ⟨hc, by simpa using hu⟩] at hform
      cases hform

theorem setBaudBody_run {s : State} {c : Ctx} (hl : c.data.length = 4) (hr : field c.data 0 4 ∈ baudRates) :
    setBaudBody s c = (okAns, s.modHost (fun h => { h with baudNext := some (field c.data 0 4) })) := by
  rw [setBaudBody, exactly_run hl, if_pos (by simpa using hr)]

/-- A stop that no fallback waits for leaves a start with its cause due. -/
theorem State.stopFor_eq {s : State} (closed cause : Nat) (h : s.upd.fallbackDue = false) :
    s.stopFor closed cause = (s.stopLogic closed).modBoot (fun b => { b with startDue := some cause }) := by
  unfold State.stopFor
  rw [h]
  rfl

theorem State.restartLogic_eq {s : State} (hs : s.hk.shutdown = false) (hb : s.upd.fallbackDue = false) :
    s.restartLogic = (s.stopLogic 0).modBoot (fun b => { b with startDue := some 2 }) := by
  rw [State.restartLogic, State.stopFor_eq _ _ hb, hs]
  rfl

@[simp] theorem State.id_stopLogic (s : State) (n : Nat) : (s.stopLogic n).id = s.id := by
  unfold State.stopLogic State.abandonChange
  dsimp only
  split <;> rfl
@[simp] theorem State.tick_stopLogic (s : State) (n : Nat) : (s.stopLogic n).tick = s.tick := by
  unfold State.stopLogic State.abandonChange
  dsimp only
  split <;> rfl
@[simp] theorem State.activeGen_stopLogic (s : State) (n : Nat) : (s.stopLogic n).activeGen = s.activeGen := by
  unfold State.stopLogic State.abandonChange
  dsimp only
  split <;> rfl

/-! ## Packets without flags -/

section
variable {s : State} {p : Packet}

theorem Packet.auth_of_flags (hf : p.flags = 0#8) : p.auth = false := by rw [Packet.auth, hf]; rfl
theorem Packet.etv_of_flags (hf : p.flags = 0#8) : p.etv = false := by rw [Packet.etv, hf]; rfl
theorem Packet.data_of_flags (hf : p.flags = 0#8) : p.data = p.payload := by
  rw [Packet.data, Packet.auth_of_flags hf]; rfl
theorem State.tagKey_of_flags (hf : p.flags = 0#8) : s.tagKey p = none := by
  rw [State.tagKey, Packet.auth_of_flags hf]; rfl
theorem State.tagFails_of_flags (hf : p.flags = 0#8) (code : BitVec 16) : s.tagFails p code = false := by
  rw [State.tagFails, Packet.auth_of_flags hf]; rfl

/-- A packet that reaches the checks of R60. -/
theorem State.admitPacket_taken (hl : s.hostListens = true) (ha : s.host.alive = true) (hb : s.host.line.length < 3)
    (hf : p.flags = 0#8) (hn : s.host.uart = true → p.payload.length ≤ 4096) : s.admitPacket p = (true, s) := by
  have hlen : (s.host.uart && !uartLength p.payload.length p.auth) = false := by
    rw [Packet.auth_of_flags hf]
    cases hu : s.host.uart with
    | false => rfl
    | true => simp [uartLength, hn hu]
  unfold State.admitPacket
  simp only [hl, ha, hlen, if_neg (Nat.not_le.mpr hb), Bool.not_true, Bool.false_eq_true, if_false]

section
variable {x : Session} (hv : p.version = 1#8) (hf : p.flags = 0#8) (h0 : p.session ≠ 0#16)
  (hx : s.session p.session = some x) (he : p.seq ≠ x.expect)
include hv hf h0 hx he

/-- A repetition of the last packet of an open session, whose reply is kept. -/
theorem State.arrival_again {needs : Bool} {r : Reply} (hq : p.seq = x.lastSeq) (hw : x.awaits = false)
    (hc : x.cached = some r) : s.arrival p needs = .again r := by
  unfold State.arrival
  rw [if_neg (not_not.mpr hv), if_neg (by rw [hf]; decide), if_neg h0, hx]
  simp only [if_neg he, hw, hc, Bool.false_eq_true, and_false, if_false, if_pos hq]

/-- A SEQUENCE that is neither the expected nor the last one of its session. -/
theorem State.arrival_sequence {needs : Bool} (hq : p.seq ≠ x.lastSeq) :
    s.arrival p needs = .refused (refuse stSequence (x.expect.toNat % 256)) := by
  unfold State.arrival
  rw [if_neg (not_not.mpr hv), if_neg (by rw [hf]; decide), if_neg h0, hx]
  simp only [if_neg he, hq, false_and, if_false]
  split <;> rfl

end

/-- A packet that its session accepts is accepted whether its opcode needs a session or not. -/
theorem State.arrival_of_needs (h : s.arrival p true = .accepted) : s.arrival p false = .accepted := by
  unfold State.arrival at h ⊢
  split
  case isTrue hv => rw [if_pos hv] at h; cases h
  case isFalse hv =>
    rw [if_neg hv] at h
    split
    case isTrue hf => rw [if_pos hf] at h; cases h
    case isFalse hf =>
      rw [if_neg hf] at h
      split
      case isTrue hs => rfl
      case isFalse hs => rwa [if_neg hs] at h

section
variable {code : Nat} {r : OpInfo} {body : Body} {after : State → State} (hrow : opInfo code = some r)
  (hadmit : s.admitPacket p = (true, s))
include hrow hadmit

theorem State.hostCommand_again {y : Reply} (h : s.arrival p (r.cls != .n) = .again y) :
    s.hostCommand p code body after = (s.acceptAgain p).produce y := by
  unfold State.hostCommand
  simp only [hadmit, hrow, h, Bool.not_true, Bool.false_eq_true, if_false]

theorem State.hostCommand_refused {a : Answer} (h : s.arrival p (r.cls != .n) = .refused a) :
    s.hostCommand p code body after =
      s.produce (makeReply p.session p.seq (BitVec.ofNat 16 code) (s.tagKey p) none a) := by
  unfold State.hostCommand
  simp only [hadmit, hrow, h, Bool.not_true, Bool.false_eq_true, if_false]

theorem State.hostCommand_accepted (h : s.arrival p (r.cls != .n) = .accepted) :
    s.hostCommand p code body after = s.handle p r body after false := by
  unfold State.hostCommand
  simp only [hadmit, hrow, h, Bool.not_true, Bool.false_eq_true, if_false]

end

theorem State.stateBars_none (h : s.hk.shutdown = false) (hb : s.boot.hold = false) (code : Nat) :
    s.stateBars code = none := by
  unfold State.stateBars
  simp only [h, hb, Bool.false_eq_true, if_false, ite_self]

/-- A command refused by its form is refused and accepted all the same. -/
theorem State.handle_formBars {r : OpInfo} {body : Body} {after : State → State} {again : Bool} {a : Answer}
    (ht : s.tagFails p (BitVec.ofNat 16 r.code) = false)
    (hf : s.formBars r p.etv (p.auth && (s.keyOf p).isSome) p.data = some a) :
    s.handle p r body after again = s.refusePacket p (BitVec.ofNat 16 r.code) a := by
  unfold State.handle
  simp only [ht, hf, Bool.false_eq_true, if_false]

/-- UNIT_START of a module that is calmed gets no further than its refusal. -/
theorem State.handle_unitStart_calmed {body : Body} {after : State → State} (hf : p.flags = 0#8)
    (hn : p.payload.length = 2) (hslot : field p.payload 0 2 < 1024) (hs : s.hk.shutdown = false)
    (hh : s.boot.hold = false) (hcalm : s.smoker.calmed = true) :
    s.handle p ⟨0x0202, .o, true, true⟩ body after false = s.refusePacket p 0x0202#16 (refuse stCalmed) := by
  have hdata := Packet.data_of_flags hf
  have hform : s.formBars ⟨0x0202, .o, true, true⟩ p.etv (p.auth && (s.keyOf p).isSome) p.data = none := by
    simp [State.formBars, State.stateBars_none hs hh, hdata, hn, State.opClass, State.needsAuth]
  have hrefs : namedRefs 0x0202 p.data = [(0, field p.payload 0 2)] := by
    simp [namedRefs, hdata, hn]
  have hgood : badHandle 0x0202 p.data = none := by
    simp [badHandle, hrefs, firstFailing, Nat.div_eq_of_lt hslot]
  have hhere : foreignNode 0x0202 p.data = .ok none := by
    have : field p.payload 0 2 / 8192 = 0 := by omega
    simp [foreignNode, hrefs, mixedNodes, this]
  have hrun : ∀ c, s.runBody ⟨0x0202, .o, true, true⟩ body c s.tick p.etv p.etick.toNat = (refuse stCalmed, s) := by
    intro c
    rw [Packet.etv_of_flags hf]
    unfold State.runBody
    simp only [if_true, effectiveTick_unset, hcalm, and_self]
  unfold State.handle
  simp only [State.tagFails_of_flags hf, hform, hgood, hhere, Bool.false_eq_true, if_false]
  rw [if_neg (by decide)]
  unfold State.execute
  simp only [hrun]
  rfl

end

end Sys2Proof.Machine

open Sys2Proof Sys2Proof.Machine

/-- Settles O10: what the reply brings is `State.produce_baud` or `State.produce_waits`, and a restart is a stop. -/
theorem rateFeedRestart : Obligations.RateFeedRestart := by
  unfold Obligations.RateFeedRestart
  refine ⟨fun s p r e h hl hr hline => ?now, fun s p r e h hl hr hline => ?later, fun s p r e h hl => ?feed,
    fun s p r e h hl hs hb => ?restart⟩
  case now =>
    have hcode : (replyTo s p r e okAns).opcode = 0x0009#16 := by
      rw [replyTo, makeReply_opcode, opInfo_code h.row]
    have hstatus : (replyTo s p r e okAns).status = 0#8 := by rw [replyTo, makeReply_status]; rfl
    have hsent := State.produce_baud (rate := field p.data 0 4)
      (s := ((s.modHost (fun h => { h with baudNext := some (field p.data 0 4) })).accept p).cacheReply
        (replyTo s p r e okAns))
      h.uart hline hcode hstatus rfl
    exact ⟨_, congrArg Host.Outcome.next
        (State.hostCommand_ok h (by decide) (setBaudBody_run (c := hostCtx s p r e) hl hr) rfl),
      congrArg (·.host.baud) hsent, congrArg (·.host.baudAt) hsent, congrArg (·.host.baudNext) hsent,
      congrArg (·.host.sent) hsent, congrArg (·.smoker.last) hsent, replied_modHost _ _ _ _ _ _⟩
  case later =>
    have hwaits := State.produce_waits (r := replyTo s p r e okAns)
      (s := ((s.modHost (fun h => { h with baudNext := some (field p.data 0 4) })).accept p).cacheReply
        (replyTo s p r e okAns))
      hline
    exact ⟨_, congrArg Host.Outcome.next
        (State.hostCommand_ok h (by decide) (setBaudBody_run (c := hostCtx s p r e) hl hr) rfl),
      congrArg (·.host.baud) hwaits, congrArg (·.host.baudNext) hwaits,
      (congrArg (·.host.line.length) hwaits).trans List.length_append, congrArg (·.host.sent) hwaits,
      replied_modHost _ _ _ _ _ _⟩
  case feed => exact congrArg _ (State.hostCommand_ok h (by decide) (empty_run hl) rfl)
  case restart =>
    have hbody : restartBody s (hostCtx s p r e) = (okAns, s) := by
      rw [restartBody, empty_run hl, hs]
      rfl
    refine ⟨_, congrArg Host.Outcome.next
      (State.hostCommand_ok (after := State.restartLogic) h (by decide) hbody rfl), ?_⟩
    rw [State.restartLogic_eq (by rwa [replied_hk]) (by rwa [replied_upd])]
    exact ⟨rfl, rfl, rfl, rfl, rfl, (State.id_stopLogic _ 0).trans (replied_id ..),
      (State.tick_stopLogic _ 0).trans (replied_tick ..), (State.activeGen_stopLogic _ 0).trans (replied_activeGen ..)⟩

/-- Settles O13: the checks of R60 answer a repetition and a wrong SEQUENCE, the form an opcode of class A, and the calm
an opcode of the Calm column. -/
theorem refusals : Obligations.Refusals := by
  unfold Obligations.Refusals
  refine ⟨fun s p x r hl ha hb hv hf hn h0 hx hq he hw hc => ?again,
    fun s p x hl ha hb hv hf hn h0 hx hq he => ?sequence,
    fun s p hl ha hb hf hn hs hh hok => ?lock, fun s p hl ha hb hf hn hslot hs hh hok hlock hcalm => ?calmed⟩
  case again =>
    exact congrArg Host.Outcome.next (State.hostCommand_again rfl (State.admitPacket_taken hl ha hb hf hn)
      (State.arrival_again hv hf h0 hx he hq hw hc))
  case sequence =>
    refine congrArg Host.Outcome.next ((State.hostCommand_refused rfl (State.admitPacket_taken hl ha hb hf hn)
      (State.arrival_sequence hv hf h0 hx he hq)).trans ?_)
    rw [State.tagKey_of_flags hf]
  case lock =>
    refine congrArg Host.Outcome.next ((State.hostCommand_accepted (r := ⟨0x0007, .a, false, false⟩) rfl
      (State.admitPacket_taken hl ha hb hf (fun _ => hn)) hok).trans ?_)
    refine State.handle_formBars (State.tagFails_of_flags hf _) ?_
    have hlen : ¬ 4096 < p.data.length := by rw [Packet.data_of_flags hf]; exact Nat.not_lt.mpr hn
    simp [State.formBars, State.stateBars_none hs hh, hlen, Packet.etv_of_flags hf, Packet.auth_of_flags hf,
      State.opClass,
      State.needsAuth]
  case calmed =>
    refine congrArg Host.Outcome.next ((State.hostCommand_accepted (r := ⟨0x0202, .o, true, true⟩) rfl
      (State.admitPacket_taken hl ha hb hf (fun _ => by omega)) hok).trans ?_)
    exact State.handle_unitStart_calmed hf hn hslot hs hh hcalm

/-- Settles O14. -/
theorem unknownOpcode : Obligations.UnknownOpcode := by
  unfold Obligations.UnknownOpcode
  intro s p code hcode hl ha hb hf hn hok
  show execBadOpcode code p s = _
  unfold execBadOpcode
  simp only [hcode, Option.isSome_none, Bool.false_eq_true, if_false, State.admitPacket_taken hl ha hb hf hn,
    Bool.not_true,
    State.arrival_of_needs hok, State.tagFails_of_flags hf, State.refusePacket, State.tagKey_of_flags hf]

end

section
/-! # Timeouts and wires of the interface (R50 to R56, R63, R66, R83) -/

namespace Sys2Proof.Machine

/-! ## Timeouts -/

theorem State.besideJobs_modHost (s : State) (f : HostIf → HostIf) : (s.modHost f).besideJobs = s.besideJobs := rfl

theorem State.besideJobs_raise (s : State) (cause handle code data : Nat) :
    (s.raise cause handle code data).besideJobs = s.besideJobs := rfl

/-- A session's close that is reported leaves what no job concerns, and raises SESSION. -/
theorem State.closeSession_raises {s : State} {x : Session} (hx : s.session x.id = some x) :
    (s.closeSession x.id true).besideJobs = s.besideJobs ∧ (s.closeSession x.id true).hasCause causeSession := by
  have hclose : s.closeSession x.id true =
      ((s.releaseSender x.id (.session x.id)).modHost
        (fun h => { h with sessions := h.sessions.filter (fun y => y.id != x.id) })).raise
          causeSession 0xFFFF x.id.toNat 1 := by
    unfold State.closeSession
    rw [hx]
    rfl
  rw [hclose]
  refine ⟨?_, State.hasCause_raise _ _ _ _ (by decide)⟩
  rw [State.besideJobs_raise, State.besideJobs_modHost, State.besideJobs_releaseSender]

theorem execSessionIdleTimeout_due {s : State} {x : Session} (hx : s.session x.id = some x)
    (ht : x.lastTick + 1024 * x.idle ≤ s.tick) :
    execSessionIdleTimeout x.id s = .next (s.closeSession x.id true).dispatchJobs := by
  have hidle : x.idleAt (s.tick + 1) = true := by simp only [Session.idleAt, decide_eq_true_eq]; omega
  unfold execSessionIdleTimeout
  rw [show s.host.sessions.find? (fun y => y.id == x.id) = some x from hx]
  simp only [hidle, if_true]

/-! ## Bytes of a read transaction -/

theorem padTo_long {n : Nat} {bs : List Byte} (h : bs.length ≤ n) :
    padTo n bs = bs ++ List.replicate (n - bs.length) 0 := by
  rw [padTo, List.take_of_length_le]
  rw [List.length_append, List.length_replicate]
  omega

theorem padTo_short {n : Nat} {bs : List Byte} (h : n ≤ bs.length) : padTo n bs = bs.take n := by
  rw [padTo, Nat.sub_eq_zero_of_le h, List.replicate_zero, List.append_nil]

/-- With no reply the count is 0, and 0x00 follow. -/
theorem padTo_zero (n : Nat) : padTo n (le 2 0) = List.replicate n 0 := by
  rw [show le 2 0 = List.replicate 2 (0 : Byte) from rfl, padTo, ← List.replicate_add, List.take_replicate,
    List.length_replicate]
  congr 1
  omega

theorem length_counted (r : Reply) : (le 2 r.packet.length ++ r.packet).length = 2 + r.packet.length := by simp

theorem spiUse_other {first : Byte} (h : first ≠ 0x5A#8) :
    spiUse first = if first = 0xA5#8 then .read else .ignored := if_neg h

section
variable {s : State} (hl : s.hostListens = true) (hu : s.host.uart = false)
include hl hu

theorem execPacketDiscard_fault {rest : List Byte} {reason : DiscardReason} (hf : s.spiFault rest = some reason) :
    execPacketDiscard (0x5A#8 :: rest) s = .next (s.countDiscard reason) := by
  unfold execPacketDiscard
  simp only [hl, hu, hf, Bool.not_true, Bool.false_eq_true, if_false]
  rfl

/-- A transaction that writes no packet at fault is not counted. -/
theorem execPacketDiscard_none {bytes : List Byte}
    (hb : ∀ rest reason, bytes = 0x5A#8 :: rest → s.spiFault rest ≠ some reason) :
    execPacketDiscard bytes s = .next s := by
  unfold execPacketDiscard
  simp only [hl, hu, Bool.not_true, Bool.false_eq_true, if_false]
  cases bytes with
  | nil => rfl
  | cons first rest =>
    by_cases hfirst : first = 0x5A#8
    · subst hfirst
      cases hf : s.spiFault rest with
      | none =>
        dsimp only
        rw [hf]
        rfl
      | some reason => exact absurd hf (hb rest reason rfl)
    · have huse : spiUse first ≠ .write := by
        rw [spiUse_other hfirst]
        split <;> decide
      dsimp only
      split
      case h_1 hw _ => exact absurd hw huse
      case h_2 => rfl

/-- What a read transaction puts on the line. -/
theorem execSpiRead_read (n : Nat) : execSpiRead ⟨0xA5#8, n⟩ s = .next (
    let t := s.modHost (fun h => { h with miso := BitVec.ofNat 8 s.spiStatus :: s.spiBytes n })
    if s.readsWhole n then t.replyRead else t) := by
  unfold execSpiRead
  simp only [hl, hu, Bool.not_true, Bool.or_self, Bool.false_eq_true, if_false]
  rfl

theorem execSpiRead_write (n : Nat) : execSpiRead ⟨0x5A#8, n⟩ s =
    .next (s.modHost (fun h => { h with miso := BitVec.ofNat 8 s.spiStatus :: List.replicate n 0 })) := by
  unfold execSpiRead
  simp only [hl, hu, Bool.not_true, Bool.or_self, Bool.false_eq_true, if_false]
  rfl

theorem execSpiRead_other {first : Byte} (n : Nat) (hw : first ≠ 0x5A#8) (hr : first ≠ 0xA5#8) :
    execSpiRead ⟨first, n⟩ s = .next (s.modHost (fun h => { h with miso := [BitVec.ofNat 8 s.spiStatus] })) := by
  have huse : spiUse first = .ignored := by rw [spiUse_other hw, if_neg hr]
  unfold execSpiRead
  simp only [hl, hu, huse, Bool.not_true, Bool.or_self, Bool.false_eq_true, if_false]

end

section
variable {s : State} {r : Reply} {rest : List Reply} (h : s.host.replies = r :: rest)
include h

theorem State.spiBytes_reply (n : Nat) : s.spiBytes n = padTo n (le 2 r.packet.length ++ r.packet) := by
  unfold State.spiBytes
  rw [h]

theorem State.readsWhole_reply (n : Nat) : s.readsWhole n = decide (2 + r.packet.length ≤ n) := by
  unfold State.readsWhole
  rw [h]

theorem State.replyRead_reply : s.replyRead = s.modHost (fun h => { h with
    replies := rest
    sent := h.sent ++ [r]
    cause := if rest = [] then h.cause &&& ~~~1#32 else h.cause }) := by
  unfold State.replyRead
  rw [h]
  simp only [List.isEmpty_iff]

end

end Sys2Proof.Machine

open Sys2Proof Sys2Proof.Machine

/-- Settles O28: each row of the interface is one lemma on the operation it runs. -/
theorem interfaceEvents : Obligations.InterfaceEvents := by
  unfold Obligations.InterfaceEvents
  refine ⟨⟨fun s b hb ht => ?bar, fun s a ha hal ht => ?baud, fun s x hx ht => ?idle⟩,
    ⟨fun s rest reason hl hu hf => ?fault, fun s bytes hl hu hb => ?noFault, fun s bytes hl ha hu => ?uart,
      fun s hl ha hu => ?gap, fun s inPacket hl ha => ?vioLow, fun s => rfl⟩,
    fun s n r rest hl hu hr hn => ?whole, fun s n r rest hl hu hr hn => ?cut, fun s n hl hu hr => ?noReply,
    fun s n hl hu => execSpiRead_write hl hu n, fun s first n hl hu hw hr => execSpiRead_other hl hu n hw hr⟩
  case bar =>
    have hrun : execAuthProveBarEnd s = .next (s.modHost (fun h => { h with barUntil := none, authFails := 0 })) := by
      simp only [execAuthProveBarEnd, hb, if_pos ht]
    exact hrun
  case baud =>
    have hrun : execBaudFallback s = .next s.baudFallback := by
      simp only [execBaudFallback, ha, hal, decide_eq_true ht, Bool.and_self, if_true]
    exact hrun
  case idle =>
    obtain ⟨hbeside, hcause⟩ := State.closeSession_raises hx
    exact ⟨execSessionIdleTimeout_due hx ht, State.session_closeSession s x.id true, hcause,
      sched_of_core (core_of_jobs hbeside), by simpa using congrArg State.tick (core_of_jobs hbeside)⟩
  case fault =>
    refine (execPacketDiscard_fault hl hu hf).trans ?_
    cases reason <;> rfl
  case noFault => exact execPacketDiscard_none hl hu hb
  case uart =>
    have hrun : execPacketDiscard bytes s =
        .next (s.uartKeeps (uartScan (s.host.rx.length + bytes.length + 1) (s.host.rx ++ bytes))) := by
      simp only [execPacketDiscard, hl, ha, hu, Bool.not_true, Bool.false_eq_true, if_false, if_true]
    exact hrun
  case gap =>
    have hruns : (s.hostListens && s.host.alive && s.host.uart) = true := by rw [hl, ha, hu]; rfl
    exact congrArg Host.Outcome.next (if_pos hruns)
  case vioLow =>
    have hruns : (inPacket && s.hostListens && s.host.alive) = inPacket := by
      rw [hl, ha, Bool.and_true, Bool.and_true]
    have hrun : execVioLow inPacket s = .next (if inPacket then
        (s.modHost (fun h => { h with vioOk := false, rx := [] })).modHost
          (fun h => { h with framing := sat32 (h.framing + 1) })
      else s.modHost (fun h => { h with vioOk := false, rx := [] })) := by
      simp only [execVioLow, hruns]
    refine Eq.trans hrun ?_
    cases inPacket <;> rfl
  case whole =>
    have hbytes : s.spiBytes n = le 2 r.packet.length ++ r.packet ++ List.replicate (n - 2 - r.packet.length) 0 := by
      rw [State.spiBytes_reply hr, padTo_long (by rw [length_counted]; exact hn), length_counted, Nat.sub_sub]
    refine (execSpiRead_read hl hu n).trans ?_
    rw [hbytes, State.readsWhole_reply hr, decide_eq_true hn]
    exact congrArg Host.Outcome.next (State.replyRead_reply (r := r) (rest := rest)
      (s := s.modHost (fun h => { h with miso := _ })) hr)
  case cut =>
    refine (execSpiRead_read hl hu n).trans ?_
    rw [State.spiBytes_reply hr, padTo_short (by rw [length_counted]; omega), State.readsWhole_reply hr,
      decide_eq_false (by omega)]
    rfl
  case noReply =>
    have hbytes : s.spiBytes n = List.replicate n 0 := by
      unfold State.spiBytes
      rw [hr]
      exact padTo_zero n
    have hwhole : s.readsWhole n = false := by
      unfold State.readsWhole
      rw [hr]
    refine (execSpiRead_read hl hu n).trans ?_
    rw [hbytes, hwhole]
    rfl

end

section
/-! # Loss and return of power, HOST_RESET_N and HOST_WAKE (R46 to R48, R89, R375, R426, R461) -/

namespace Sys2Proof.Machine

@[simp] theorem State.checkpoint_stopLogic (s : State) (n : Nat) : (s.stopLogic n).checkpoint = s.checkpoint := by
  unfold State.stopLogic State.abandonChange
  dsimp only
  split <;> rfl

/-- The threshold of power fail. -/
theorem State.vinFail_eq {s : State} (h : s.vinOn = true) :
    s.vinFail = { ({ s with checkpoint := (s.tick, s.wallDiff) } : State).stopLogic 2 with
      vinOn := false, fineValid := false
      boot := { (({ s with checkpoint := (s.tick, s.wallDiff) } : State).stopLogic 2).boot with
        startDue := none } } := by
  unfold State.vinFail
  rw [h]
  rfl

/-- The return of VIN. -/
theorem State.vinReturn_eq {s : State} (uart : Bool) (h : s.vinOn = false) :
    s.vinReturn uart = { (s.stopLogic s.boot.closed).powerClear with
      vinOn := true
      tick := (s.stopLogic s.boot.closed).checkpoint.1 + 131072
      wallDiff := (s.stopLogic s.boot.closed).checkpoint.2
      wallStale := true
      power := .watch
      host := { (s.stopLogic s.boot.closed).powerClear.host with uart := uart, resetHeld := false }
      boot := { (s.stopLogic s.boot.closed).powerClear.boot with startDue := some 0 } } := by
  unfold State.vinReturn
  rw [h]
  rfl

theorem execVinPowerOn_eq {s : State} {mv : Nat} (uart : Bool) (hm : 16600 ≤ mv) :
    execVinPowerOn mv uart s = .next (s.vinReturn uart) := congrArg Host.Outcome.next (if_pos hm)

/-- What power fail keeps: the tick, in the checkpoint too, and what is in flash. -/
theorem State.vinFail_keeps {s : State} (h : s.vinOn = true) :
    s.vinFail.checkpoint = (s.tick, s.wallDiff) ∧ s.vinFail.tick = s.tick ∧ s.vinFail.id = s.id ∧
      s.vinFail.activeGen = s.activeGen := by
  rw [State.vinFail_eq h]
  exact ⟨State.checkpoint_stopLogic _ 2, State.tick_stopLogic _ 2, State.id_stopLogic _ 2,
    State.activeGen_stopLogic _ 2⟩

/-- What power fail stops. -/
theorem State.vinFail_stops {s : State} (h : s.vinOn = true) :
    s.vinFail.vinOn = false ∧ s.vinFail.fineValid = false ∧ s.vinFail.boot.closed = 2 ∧ s.vinFail.host.alive = false ∧
      s.vinFail.host.sessions = [] ∧ s.vinFail.host.replies = [] ∧ s.vinFail.sched = [] ∧ s.vinFail.jobs = [] ∧
      s.vinFail.pendGen = none ∧ s.vinFail.boot.startDue = none := by
  rw [State.vinFail_eq h]
  exact ⟨rfl, rfl, rfl, rfl, rfl, rfl, rfl, rfl, rfl, rfl⟩

theorem State.tick_vinReturn {s : State} (uart : Bool) (h : s.vinOn = false) :
    (s.vinReturn uart).tick = s.checkpoint.1 + 131072 := by
  rw [State.vinReturn_eq uart h]
  exact congrArg (fun c : Nat × Int => c.1 + 131072) (State.checkpoint_stopLogic s _)

/-- What the return of VIN finds in flash. -/
theorem State.vinReturn_keeps {s : State} (uart : Bool) (h : s.vinOn = false) :
    (s.vinReturn uart).wallDiff = s.checkpoint.2 ∧ (s.vinReturn uart).id = s.id ∧
      (s.vinReturn uart).activeGen = s.activeGen := by
  rw [State.vinReturn_eq uart h]
  exact ⟨congrArg Prod.snd (State.checkpoint_stopLogic s s.boot.closed), State.id_stopLogic s s.boot.closed,
    State.activeGen_stopLogic s s.boot.closed⟩

/-- HOST_RESET_N without a logic domain to reset. -/
theorem State.hostReset_idle {s : State} (h : s.vinOn = false ∨ s.power = .dormant) : s.hostReset = s :=
  if_pos (by rcases h with h | h <;> simp [h])

section
variable {s : State} (hv : s.vinOn = true) (hp : s.power ≠ .dormant)
include hv hp

/-- HOST_RESET_N before the start that follows power-on. -/
theorem State.hostReset_first (hd : s.boot.startDue = some 0) :
    s.hostReset = s.modHost (fun h => { h with resetHeld := true }) :=
  (if_neg (by simp [hv, hp])).trans (if_pos hd)

theorem State.hostReset_stops (hd : s.boot.startDue ≠ some 0) (hb : s.upd.fallbackDue = false) :
    s.hostReset = ((s.stopLogic 0).modBoot (fun b => { b with startDue := some 1 })).modHost
      (fun h => { h with resetHeld := true }) := by
  rw [← State.stopFor_eq 0 1 hb]
  exact (if_neg (by simp [hv, hp])).trans (if_neg hd)

end

end Sys2Proof.Machine

open Sys2Proof Sys2Proof.Machine

/-- Settles O32: power fail and HOST_RESET_N are stops of the logic domain, and the return of VIN is one more. -/
theorem powerAndReset : Obligations.PowerAndReset := by
  unfold Obligations.PowerAndReset
  refine ⟨⟨fun s hv => ⟨s.vinFail, rfl, ?fails⟩,
      fun s mv uart hv hm => ⟨s.vinReturn uart, execVinPowerOn_eq uart hm, ?returns⟩, fun s mv uart h => ?noReturn,
      fun s mv uart hv hm =>
        ⟨s.vinFail, s.vinFail.vinReturn uart, rfl, execVinPowerOn_eq uart hm, ?later⟩⟩,
    fun s hv hp hd hb => ⟨s.hostReset, rfl, ?reset⟩, fun s hv hp hd => ?first, fun s h => ?noReset,
    fun s hv hp hd => ?wake, fun s hp => ?noWake⟩
  case fails =>
    obtain ⟨hcheck, htick, hid, hgen⟩ := State.vinFail_keeps hv
    obtain ⟨hoff, hfine, hclosed, halive, hsessions, hreplies, hsched, hjobs, hpend, hstart⟩ := State.vinFail_stops hv
    exact ⟨hoff, hcheck, htick, hfine, hclosed, halive, hsessions, hreplies, hsched, hjobs, hpend, hid, hgen, hstart⟩
  case returns =>
    have htick := State.tick_vinReturn uart hv
    obtain ⟨hwall, hid, hgen⟩ := State.vinReturn_keeps uart hv
    have heq := State.vinReturn_eq uart hv
    refine ⟨?_, htick, hwall, ?_, ?_, ?_, ?_, ?_, ?_, ?_, ?_, ?_, ?_, ?_, hid, hgen⟩ <;> rw [heq] <;> rfl
  case noReturn =>
    show execVinPowerOn mv uart s = _
    unfold execVinPowerOn State.vinReturn
    rcases h with hv | hm
    · rw [hv]
      exact congrArg Host.Outcome.next (ite_self _)
    · rw [if_neg (Nat.not_le.mpr hm)]
  case later =>
    have hstop := (State.vinFail_stops hv).1
    rw [State.tick_vinReturn uart hstop, (State.vinFail_keeps hv).1]
    show s.tick < s.tick + 131072
    omega
  case reset =>
    rw [State.hostReset_stops hv hp hd hb]
    exact ⟨rfl, rfl, rfl, rfl, rfl, rfl, State.id_stopLogic s 0, State.activeGen_stopLogic s 0,
      State.tick_stopLogic s 0⟩
  case first => exact congrArg Host.Outcome.next (State.hostReset_first hv hp hd)
  case noReset => exact congrArg Host.Outcome.next (State.hostReset_idle h)
  case wake => exact congrArg Host.Outcome.next (if_pos ⟨hp, hv, hd⟩)
  case noWake => exact congrArg Host.Outcome.next (if_neg (fun h => hp h.1))

end

section
/-! # The runner with nothing to run (R80) -/

namespace Sys2Proof.Machine

theorem nextJob_none {jobs : List Job} (h : ∀ k ∈ jobs, k.state ≠ .queued) : nextJob jobs = none := by
  have hnone : jobs.filter (fun j => j.state == .queued) = [] :=
    List.filter_eq_nil_iff.mpr fun k hk => by simpa using h k hk
  rw [nextJob, hnone]
  rfl

/-- Without a queued job and without a cancel that waits, the runner changes nothing. -/
theorem State.dispatchJobs_idle {s : State} (h : ∀ k ∈ s.jobs, k.state ≠ .queued ∧ k.cancelDue = false) :
    s.dispatchJobs = s := by
  have hidle : s.jobs.filter (fun j => j.cancelDue && (j.state == .queued || j.state == .paused)) = [] :=
    List.filter_eq_nil_iff.mpr fun k hk => by simp [(h k hk).2]
  rw [State.dispatchJobs, hidle]
  simp only [List.foldl_nil, State.runNext, nextJob_none (fun k hk => (h k hk).1), ite_self]

/-- A job that has ended. -/
def endedJob : Job :=
  { handle := 1, session := none, opcode := 0x0503#16, state := .done, progress := 1000, status := 0, detail := 0
    etick := none, wanted := 0, wantedSet := false, args := [], out := [], data := [], pauseDue := false
    cancelDue := false, started := 0 }

/-- The module after reset with that job alone. -/
def endedJobState : State := { State.reset with jobs := [endedJob] }

theorem endedJobState_dispatch : endedJobState.dispatchJobs = endedJobState :=
  State.dispatchJobs_idle fun k hk => by
    rw [List.mem_singleton.mp hk]
    exact ⟨JobState.noConfusion, rfl⟩

end Sys2Proof.Machine

open Sys2Proof Sys2Proof.Machine

/-- Refutes O52: its clause on a job that stays through the runner lets the handle `h` be another than the job's. With
the ended job of handle 1 alone and `h` = 2 the premises hold (no job has handle 2), and no job of handle 2 is found. -/
theorem not_jobsEnd : ¬ Obligations.JobsEnd := by
  unfold Obligations.JobsEnd
  rintro ⟨⟨-, -, hstays⟩, -⟩
  have hother : ∀ x ∈ endedJobState.jobs, x.handle = 2 → x = endedJob := fun x hx _ => List.mem_singleton.mp hx
  have hfound : endedJobState.dispatchJobs.job 2 = some endedJob := hstays _ 2 _ hother (List.mem_singleton.mpr rfl) rfl
  rw [endedJobState_dispatch] at hfound
  have hnone : endedJobState.job 2 = none := rfl
  rw [hnone] at hfound
  cases hfound

end

section
/-! # Commands across the line (R60, R356, R358, R359) -/

namespace Sys2Proof.Machine

/-! ## A message sent -/

/-- The state beside the link. -/
def State.besideLink (s : State) : State := { s with link := {} }

theorem eq_of_besideLink {s t : State} (h : t.besideLink = s.besideLink) : t = { s with link := t.link } :=
  show { t.besideLink with link := t.link } = { s.besideLink with link := t.link } from
    congrArg (fun u : State => { u with link := t.link }) h

/-- One fragment of a message, as a frame of its own. -/
def State.sendFragment (port type node : Nat) (up : Bool) (peer : Option Nat) (count : Nat) (s : State)
    (e : List Byte × Nat) : State :=
  let ctr := match peer with | some p => (s.peer p).txCounter | none => 0
  let f : Frame := ⟨port, !(s.port port).neighbour, type, node, up, decide (e.2 + 1 < count), peer, s.link.msg, e.2,
    ctr, e.1⟩
  let s := s.modLink (fun l => { l with sent := l.sent ++ [f] })
  match peer with
  | some p => s.setPeer p { s.peer p with txCounter := ctr + 1 }
  | none => s

section
variable (s : State) (port type node : Nat) (up : Bool) (peer : Option Nat)

theorem State.sendMsg_eq (body : List Byte) : s.sendMsg port type node up peer body =
    ((fragments body).foldl (State.sendFragment port type node up peer (fragments body).length) s).modLink
      (fun l => { l with msg := (l.msg + 1) % 256 }) := rfl

theorem State.besideLink_sendFragment (count : Nat) (e : List Byte × Nat) :
    (State.sendFragment port type node up peer count s e).besideLink = s.besideLink := by
  cases peer <;> rfl

theorem State.replies_sendFragment (count : Nat) (e : List Byte × Nat) :
    (State.sendFragment port type node up peer count s e).link.replies = s.link.replies := by
  cases peer <;> rfl

theorem State.lastRx_sendFragment (n count : Nat) (e : List Byte × Nat) :
    ((State.sendFragment port type node up peer count s e).peer n).lastRx = (s.peer n).lastRx := by
  cases peer with
  | none => rfl
  | some p =>
    unfold State.sendFragment
    dsimp only
    rw [State.peer_setPeer]
    split
    case isTrue h => rw [← h]; rfl
    case isFalse => rfl

/-- The frame of a fragment is of its message's type, for its message's node. -/
theorem State.sent_sendFragment (count : Nat) (e : List Byte × Nat) :
    ∃ f : Frame, f.type = type ∧ f.node = node ∧
      (State.sendFragment port type node up peer count s e).link.sent = s.link.sent ++ [f] := by
  cases peer <;> exact ⟨_, rfl, rfl, rfl⟩

end

theorem fragments_ne_nil (body : List Byte) : fragments body ≠ [] := by
  unfold fragments
  cases body with
  | nil => simp
  | cons b t => simp [chunks]

/-- What is sent stays sent. -/
theorem State.sent_fragments (port type node : Nat) (up : Bool) (peer : Option Nat) (count : Nat)
    (parts : List (List Byte × Nat)) : ∀ (s : State) (f : Frame), f ∈ s.link.sent →
      f ∈ (parts.foldl (State.sendFragment port type node up peer count) s).link.sent := by
  induction parts with
  | nil => exact fun s f h => h
  | cons e t ih =>
    intro s f h
    obtain ⟨g, -, -, hsent⟩ := State.sent_sendFragment s port type node up peer count e
    exact ih _ f (by rw [hsent]; exact List.mem_append_left _ h)

section
variable (s : State) (port type node : Nat) (up : Bool) (peer : Option Nat) (body : List Byte)

/-- A message changes the link alone. -/
theorem State.besideLink_sendMsg : (s.sendMsg port type node up peer body).besideLink = s.besideLink :=
  foldl_keeps State.besideLink (fun s e => s.besideLink_sendFragment port type node up peer _ e) _ _

theorem State.replies_sendMsg : (s.sendMsg port type node up peer body).link.replies = s.link.replies :=
  foldl_keeps (fun s : State => s.link.replies) (fun s e => s.replies_sendFragment port type node up peer _ e) _ _

theorem State.lastRx_sendMsg (n : Nat) : ((s.sendMsg port type node up peer body).peer n).lastRx = (s.peer n).lastRx :=
  foldl_keeps (fun s : State => (s.peer n).lastRx) (fun s e => s.lastRx_sendFragment port type node up peer n _ e) _ _

theorem State.sent_sendMsg_old {f : Frame} (h : f ∈ s.link.sent) :
    f ∈ (s.sendMsg port type node up peer body).link.sent :=
  State.sent_fragments port type node up peer _ _ s f h

/-- A message leaves at least one frame of its type, for its node. -/
theorem State.sent_sendMsg_new :
    ∃ f ∈ (s.sendMsg port type node up peer body).link.sent, f.type = type ∧ f.node = node := by
  cases hparts : fragments body with
  | nil => exact absurd hparts (fragments_ne_nil body)
  | cons e t =>
    obtain ⟨f, htype, hnode, hsent⟩ := State.sent_sendFragment s port type node up peer (fragments body).length e
    refine ⟨f, ?_, htype, hnode⟩
    have hmem := State.sent_fragments port type node up peer (fragments body).length t
      (State.sendFragment port type node up peer (fragments body).length s e) f (by rw [hsent]; simp)
    rw [State.sendMsg_eq, hparts, List.foldl_cons, ← hparts]
    exact hmem

end

/-! ## A command carried out on a forager -/

theorem State.onLink_runs {s : State} {f : State → State} (h : s.logicRuns = true) : s.onLink f = .next (f s) :=
  congrArg Host.Outcome.next (if_pos h)

/-- An effect of the link that changes nothing changes nothing whether the logic domain runs or not. -/
theorem State.onLink_none {s : State} {f : State → State} (h : f s = s) : s.onLink f = .next s := by
  rw [State.onLink, h, ite_self]

theorem exec_xistaCommand {s : State} (h : s.logicRuns = true) (m : ForwardedCmd) :
    exec (.xistaCommand m) s = .next (s.onCommand m) :=
  congrArg Host.Outcome.next (if_pos h)

theorem exec_xistaReply {s : State} (h : s.logicRuns = true) (n : Fin 8) (r : ForwardedReply) :
    exec (.xistaReply n r) s = .next (s.onReply n.val r) :=
  congrArg Host.Outcome.next (if_pos h)

theorem exec_linkReplyTimeout {s : State} (h : s.logicRuns = true) (n : Fin 8) :
    exec (.linkReplyTimeout n) s = .next (s.replyTimeout n.val) :=
  congrArg Host.Outcome.next (if_pos h)

theorem State.lastRx_heard (s : State) (n : Nat) : ((s.heard n).peer n).lastRx = s.tick := by
  rw [State.heard, State.peer_setPeer, if_pos rfl]

/-- A forwarded PING without flags is answered with its payload. -/
theorem State.executeLink_ping {s : State} {m : ForwardedCmd} (ho : m.opcode = 0x0001#16) (hf : m.packet.flags = 0#8)
    (hn : m.packet.payload.length ≤ 64) : s.executeLink m = (okData m.packet.payload, none, s) := by
  have hcode : m.opcode.toNat = 0x0001 := by rw [ho]; rfl
  have hrow : opInfo 0x0001 = some ⟨0x0001, .n, false, false⟩ := rfl
  have hform : s.formBars ⟨0x0001, .n, false, false⟩ m.packet.etv m.authorised m.packet.payload = none := by
    have hbars : s.stateBars 0x0001 = none := rfl
    simp only [State.formBars, hbars, Packet.etv_of_flags hf]
    rw [if_neg (by omega), if_neg (fun h => absurd h.1 (by decide)), if_neg (fun h => absurd h.1 (by decide))]
    simp [State.opClass, State.needsAuth]
  have hbars : s.linkBars m = none := by
    unfold State.linkBars
    simp only [hcode, hrow, hform]
    rfl
  have hbody : bodyOf 0x0001 = some pingBody := rfl
  unfold State.executeLink
  rw [hcode]
  simp only [hbars, hrow, hbody, State.runBody, Bool.false_eq_true, if_false, false_and, pingBody,
    if_neg (Nat.not_lt.mpr hn), replyTick]

/-- The forager's state when it has answered a command: the kept reply, the acceptance, and REPLY. -/
def State.answersQueen (s : State) (m : ForwardedCmd) (b : List Byte) : State :=
  ((s.modLink (fun l => { l with
    replies := l.replies.filter (fun e => e.1 != m.session) ++ [(m.session, m.seq, b)] })).feedSmoker).sendReply
      m.session m.seq b

section
variable (s : State) (session seq : BitVec 16) (b : List Byte)

theorem State.besideLink_sendReply : (s.sendReply session seq b).besideLink = s.besideLink := by
  unfold State.sendReply State.sendPeer
  exact State.besideLink_sendMsg ..

theorem State.replies_sendReply : (s.sendReply session seq b).link.replies = s.link.replies := by
  unfold State.sendReply State.sendPeer
  exact State.replies_sendMsg ..

theorem State.lastRx_sendReply : ((s.sendReply session seq b).peer 0).lastRx = (s.peer 0).lastRx := by
  unfold State.sendReply State.sendPeer
  exact State.lastRx_sendMsg ..

theorem State.sent_sendReply : ∃ f ∈ (s.sendReply session seq b).link.sent, f.type = 0x31 := by
  unfold State.sendReply State.sendPeer
  obtain ⟨f, hf, htype, -⟩ := State.sent_sendMsg_new s (s.peer 0).port 0x31
    (if (0 == 0) = true then s.link.nodeId else 0) (0 == 0) (some 0)
    (le 2 session.toNat ++ le 2 seq.toNat ++ b)
  exact ⟨f, hf, htype⟩

end

theorem State.besideLink_modLink (s : State) (f : Link → Link) : (s.modLink f).besideLink = s.besideLink := rfl

/-- What a change of the link leaves when the smoker is fed beside it. -/
theorem eq_of_fed {s t : State} (h : t.besideLink = s.feedSmoker.besideLink) :
    t.smoker = { s.smoker with last := s.tick, spent := false } ∧
      t = { s with link := t.link, smoker := t.smoker } := by
  have hsmoker : t.smoker = s.feedSmoker.smoker :=
    show t.besideLink.smoker = s.feedSmoker.besideLink.smoker from congrArg State.smoker h
  refine ⟨hsmoker, ?_⟩
  rw [hsmoker]
  exact eq_of_besideLink h

theorem State.besideLink_feedSmoker {s t : State} (h : t.besideLink = s.besideLink) :
    t.feedSmoker.besideLink = s.feedSmoker.besideLink :=
  show t.besideLink.feedSmoker = s.besideLink.feedSmoker from congrArg State.feedSmoker h

/-- What a forager does with a command that it has no reply for and does not refuse. -/
theorem State.onCommand_answers {s u : State} {m : ForwardedCmd} {a : Answer} {e : Option Nat}
    (hp : (s.peer 0).state = 3) (hk : s.keptReply m = none) (hr : linkRefused m.packet = none)
    (hx : (s.heard 0).executeLink m = (a, e, u)) (ha : a.status = stOk) :
    s.onCommand m = afterReply m.opcode.toNat
      (u.answersQueen m (makeReply m.session m.seq m.opcode none e a).packet) := by
  have hk' : (s.heard 0).keptReply m = none := hk
  unfold State.onCommand
  rw [if_neg (not_not.mpr hp)]
  simp only [hk', hr, hx, ha, if_true]
  rfl

/-- A forwarded PING without flags is answered. -/
theorem State.onCommand_ping {s : State} {m : ForwardedCmd} (hp : (s.peer 0).state = 3) (hk : s.keptReply m = none)
    (ho : m.opcode = 0x0001#16) (hv : m.packet.version = 1#8) (hf : m.packet.flags = 0#8)
    (hn : m.packet.payload.length ≤ 64) : s.onCommand m = (s.heard 0).answersQueen m
      (makeReply m.session m.seq m.opcode none none (okData m.packet.payload)).packet := by
  have hr : linkRefused m.packet = none := by
    rw [linkRefused, if_neg (not_not.mpr hv), if_neg (by rw [hf]; decide),
      if_neg (by rw [Packet.auth_of_flags hf]; decide)]
  have hcode : m.opcode.toNat = 0x0001 := by rw [ho]; rfl
  refine (State.onCommand_answers hp hk hr (State.executeLink_ping ho hf hn) rfl).trans ?_
  rw [hcode]
  rfl

/-- The answer changes the link and feeds the smoker; the reply is kept, and REPLY is on its way. -/
theorem State.answersQueen_spec (s : State) (m : ForwardedCmd) (b : List Byte) :
    (s.answersQueen m b).besideLink = s.feedSmoker.besideLink ∧
      (s.answersQueen m b).link.replies = s.link.replies.filter (fun e => e.1 != m.session) ++ [(m.session, m.seq, b)] ∧
      ((s.answersQueen m b).peer 0).lastRx = (s.peer 0).lastRx ∧
        ∃ f ∈ (s.answersQueen m b).link.sent, f.type = 0x31 := by
  unfold State.answersQueen
  refine ⟨?_, ?_, ?_, State.sent_sendReply _ _ _ _⟩
  · rw [State.besideLink_sendReply]
    exact State.besideLink_feedSmoker (s.besideLink_modLink _)
  · rw [State.replies_sendReply]
    rfl
  · rw [State.lastRx_sendReply]
    rfl

theorem State.onCommand_kept {s : State} {m : ForwardedCmd} {b : List Byte} (hp : (s.peer 0).state = 3)
    (hk : s.keptReply m = some b) : s.onCommand m = (s.heard 0).feedSmoker.sendReply m.session m.seq b := by
  have hk' : (s.heard 0).keptReply m = some b := hk
  unfold State.onCommand
  rw [if_neg (not_not.mpr hp)]
  simp only [hk']

/-- A packet of another version is answered and not accepted. -/
theorem State.onCommand_version {s : State} {m : ForwardedCmd} (hp : (s.peer 0).state = 3) (hk : s.keptReply m = none)
    (hv : m.packet.version ≠ 1#8) : s.onCommand m = (s.heard 0).sendReply m.session m.seq
      (makeReply m.session m.seq m.opcode none none (refuse stBadVersion 1)).packet := by
  have hk' : (s.heard 0).keptReply m = none := hk
  have hr : linkRefused m.packet = some (refuse stBadVersion 1) := if_pos hv
  unfold State.onCommand
  rw [if_neg (not_not.mpr hp)]
  simp only [hk', hr]

/-! ## The queen: replies, timeouts, and the feeding of foragers -/

theorem makeReply_fields (session seq opcode : BitVec 16) (key : Option (List Byte)) (e : Option Nat) (a : Answer) :
    let r := makeReply session seq opcode key e a
    r.status = BitVec.ofNat 8 a.status ∧ r.detail = BitVec.ofNat 8 a.detail ∧ r.data = a.data ∧ r.etick = e ∧
      r.session = session ∧ r.seq = seq := by
  cases key <;> exact ⟨rfl, rfl, rfl, rfl, rfl, rfl⟩

/-- The one command that waits is answered, and nothing waits behind it. -/
theorem State.flushLine_one {s : State} {h : Held} {r : Reply} (hl : s.host.line = [h]) (hr : h.reply = some r) :
    s.flushLine = ({ s with host := { s.host with line := [] } } : State).send r := by
  unfold State.flushLine
  rw [hl]
  simp [hr]

theorem State.flushLine_waits {s : State} {h : Held} (hl : s.host.line = [h]) (hr : h.reply = none) :
    s.flushLine = s := by
  unfold State.flushLine
  rw [hl]
  simp only [List.takeWhile_cons, List.dropWhile_cons, hr, Option.isSome_none, Bool.false_eq_true, if_false,
    List.filterMap_nil, List.foldl_nil]
  rw [← hl]

theorem giveReply_one {p : Held → Bool} {f : Held → Reply} {h : Held} (hr : h.reply = none) (hp : p h = true) :
    giveReply p f [h] = [{ h with reply := some (f h) }] := by
  simp only [giveReply, hr, hp, Option.isNone_none, Bool.and_self, if_true]

theorem State.onReply_one {s : State} {n : Nat} {r : ForwardedReply} {h : Held} (hj : s.nodeJoined n = true)
    (hl : s.host.line = [h]) (hr : h.reply = none) (hn : h.node = n) (hs : h.session = r.session) (hq : h.seq = r.seq) :
    s.onReply n r = (({ (s.heard n).cacheReply (h.answered r) with
      host := { ((s.heard n).cacheReply (h.answered r)).host with line := [] } } : State)).send (h.answered r) := by
  have hmine : (h.reply.isNone && h.node == n && h.session == r.session && h.seq == r.seq) = true := by
    simp [hr, hn, hs, hq]
  have hl' : (s.heard n).host.line = [h] := hl
  unfold State.onReply
  rw [hj]
  simp only [Bool.not_true, Bool.false_eq_true, if_false, hl', List.find?_cons, hmine]
  refine State.flushLine_one (h := { h with reply := some (h.answered r) }) ?_ rfl
  exact (congrArg (giveReply _ _) hl').trans (giveReply_one hr hmine)

theorem State.replyTimeout_one {s : State} {n : Nat} {h : Held} (hl : s.host.line = [h]) (hr : h.reply = none)
    (hn : h.node = n) (hd : h.deadline ≤ s.tick) :
    s.replyTimeout n = ({ s with host := { s.host with line := [] } } : State).send h.unreached := by
  unfold State.replyTimeout
  rw [hl]
  exact State.flushLine_one (h := { h with reply := some h.unreached }) (by simp [hr, hn, hd]) rfl

theorem State.replyTimeout_waits {s : State} {n : Nat} {h : Held} (hl : s.host.line = [h]) (hr : h.reply = none)
    (hd : h.node ≠ n ∨ s.tick < h.deadline) : s.replyTimeout n = s := by
  have hwaits : (h.reply.isNone && h.node == n && decide (h.deadline ≤ s.tick)) = false := by
    rcases hd with hd | hd
    · simp [hd]
    · simp [Nat.not_le.mpr hd]
  have hline : s.host.line.map (fun h =>
      if h.reply.isNone && h.node == n && decide (h.deadline ≤ s.tick) then
        { h with reply := some h.unreached } else h) =
      s.host.line := by
    rw [hl, List.map_singleton, hwaits]
    rfl
  unfold State.replyTimeout
  dsimp only
  rw [hline]
  exact State.flushLine_waits hl hr

theorem State.onReply_unjoined {s : State} {n : Nat} {r : ForwardedReply} (hj : s.nodeJoined n = false) :
    s.onReply n r = s := by
  unfold State.onReply
  rw [hj]
  rfl

theorem State.besideLink_feedNode (s : State) (n : Nat) : (s.feedNode n).besideLink = s.besideLink := by
  unfold State.feedNode State.sendPeer
  exact State.besideLink_sendMsg ..

theorem State.sent_feedNode_old {s : State} {f : Frame} (n : Nat) (h : f ∈ s.link.sent) :
    f ∈ (s.feedNode n).link.sent := by
  unfold State.feedNode State.sendPeer
  exact State.sent_sendMsg_old _ _ _ _ _ _ _ h

theorem State.sent_feedNode_new (s : State) {n : Nat} (h0 : n ≠ 0) :
    ∃ f ∈ (s.feedNode n).link.sent, f.type = 0x30 ∧ f.node = n := by
  have hdown : (n == 0) = false := by simpa using h0
  unfold State.feedNode State.sendPeer
  simp only [hdown]
  exact State.sent_sendMsg_new ..

/-- Feeding the nodes changes the link alone. -/
theorem State.besideLink_feedNodes (s : State) (nodes : List Nat) :
    (nodes.foldl State.feedNode s).besideLink = s.besideLink :=
  foldl_keeps State.besideLink State.besideLink_feedNode nodes s

/-- Every node that is fed gets a COMMAND frame. -/
theorem State.sent_feedNodes (s : State) (nodes : List Nat) : ∀ n ∈ nodes, n ≠ 0 →
    ∃ f ∈ (nodes.foldl State.feedNode s).link.sent, f.type = 0x30 ∧ f.node = n :=
  foldl_brings (P := fun n (s : State) => n ≠ 0 → ∃ f ∈ s.link.sent, f.type = 0x30 ∧ f.node = n)
    (fun s _ h0 => s.sent_feedNode_new h0)
    (fun _ a _ hb h0 => (hb h0).imp fun _ hf => ⟨State.sent_feedNode_old a hf.1, hf.2⟩) nodes s

end Sys2Proof.Machine

open Sys2Proof Sys2Proof.Machine

/-- Settles O57: `State.onCommand` on the forager, `State.flushLine` of the one command that waits on the queen. -/
theorem forwardedCommands : Obligations.ForwardedCommands := by
  unfold Obligations.ForwardedCommands
  refine ⟨fun s m hruns hp ho hk hv hf hn => ?ping, fun s m b hruns hp hk => ?again, fun s m hruns hp hk hv => ?refused,
    fun s m hp => State.onLink_none (f := fun s => s.onCommand m) (if_pos hp),
    fun s n r h hruns hj hl hr hn hs hq => ?reply,
    fun h r h902 h301 => ?fields,
    fun s n r hj => State.onLink_none (f := fun s => s.onReply n.val r) (State.onReply_unjoined hj),
    fun s n h hruns hl hr hn hd => ?timeout, fun s n h hl hr hd =>
      State.onLink_none (f := fun s => s.replyTimeout n.val) (State.replyTimeout_waits hl hr hd),
    fun s hruns hq hc hd => ?feed, fun s h => ?noFeed⟩
  case ping =>
    refine ⟨_, (exec_xistaCommand hruns m).trans (congrArg Host.Outcome.next
      (State.onCommand_ping hp hk ho hv hf hn)), ?_⟩
    obtain ⟨hbeside, hreplies, hlast, hsent⟩ := State.answersQueen_spec (s.heard 0) m
      (makeReply m.session m.seq m.opcode none none (okData m.packet.payload)).packet
    generalize (s.heard 0).answersQueen m _ = t at hbeside hreplies hlast hsent
    obtain ⟨hsmoker, heq⟩ := eq_of_fed hbeside
    exact ⟨hreplies, hsmoker, hlast.trans (State.lastRx_heard s 0), hsent, heq⟩
  case again => exact (exec_xistaCommand hruns m).trans (congrArg Host.Outcome.next (State.onCommand_kept hp hk))
  case refused =>
    refine ⟨_, (exec_xistaCommand hruns m).trans (congrArg Host.Outcome.next (State.onCommand_version hp hk hv)), ?_⟩
    have hbeside := State.besideLink_sendReply (s.heard 0) m.session m.seq
      (makeReply m.session m.seq m.opcode none none (refuse stBadVersion 1)).packet
    have hreplies := State.replies_sendReply (s.heard 0) m.session m.seq
      (makeReply m.session m.seq m.opcode none none (refuse stBadVersion 1)).packet
    have hsent := State.sent_sendReply (s.heard 0) m.session m.seq
      (makeReply m.session m.seq m.opcode none none (refuse stBadVersion 1)).packet
    generalize (s.heard 0).sendReply m.session m.seq _ = t at hbeside hreplies hsent
    have heq := eq_of_besideLink hbeside
    exact ⟨(congrArg State.smoker heq :), hreplies, hsent, heq⟩
  case reply =>
    exact (exec_xistaReply hruns n r).trans
      (congrArg Host.Outcome.next (State.onReply_one hj hl hr hn hs hq))
  case fields =>
    have hans : h.answered r = makeReply h.session h.seq h.opcode h.key r.etick
        ⟨r.status.toNat, r.detail.toNat, r.job.toNat, r.data, none⟩ := by
      rw [Held.answered, if_neg h902, if_neg h301]
    obtain ⟨hstatus, hdetail, hdata, hetick, hsession, hseq⟩ := makeReply_fields h.session h.seq h.opcode h.key r.etick
      ⟨r.status.toNat, r.detail.toNat, r.job.toNat, r.data, none⟩
    rw [hans]
    exact ⟨hstatus.trans (BitVec.ofNat_toNat ..), hdetail.trans (BitVec.ofNat_toNat ..), hdata, hetick, hsession, hseq⟩
  case timeout =>
    refine (exec_linkReplyTimeout hruns n).trans (congrArg Host.Outcome.next
      ((State.replyTimeout_one hl hr hn hd).trans ?_))
    rw [Held.unreached, hn]
  case feed =>
    have hnew := s.sent_feedNodes (s.joinedNodes.filter (fun n => n != 0))
    have hbeside := s.besideLink_feedNodes (s.joinedNodes.filter (fun n => n != 0))
    have hruns' : (s.queen && !s.smoker.calmed && s.link.feedDue) = true := by rw [hq, hc, hd]; rfl
    refine ⟨_, (State.onLink_runs hruns).trans (congrArg Host.Outcome.next (if_pos hruns')), rfl,
      fun n hn h0 => hnew n (List.mem_filter.mpr ⟨hn, by simpa using h0⟩) h0, fun hnone => ?_, eq_of_besideLink hbeside⟩
    rw [hnone]
    rfl
  case noFeed =>
    refine State.onLink_none (if_neg ?_)
    rcases h with h | h | h <;> simp [h]

end

section
/-! # What the limits and the clock speak of, and the operations that leave it (R63, R69, R78, R79, R89)

Every operation of the model is one of three kinds: it leaves the ledger below, it takes something out of it (the
relation `Ledger.Covers` of the next part), or it is one of the few that add to it under a check of the limit. Here
stand the operations of the first kind, in the order of the model. -/

namespace Sys2Proof.Machine

/-- What the limits of R63, R69, R78 and R79 and the clock of R89 speak of: sessions, waiting commands, jobs, whether
the event queue keeps its places, power, and the tick with its checkpoint. -/
structure Ledger where
  sessions : List Session
  sched : List Sched
  jobs : List Job
  room : Bool
  vinOn : Bool
  alive : Bool
  activateAt : Option Nat
  tick : Nat
  checkpoint : Nat × Int

/-- The event queue keeps to its places (R78). -/
def HostIf.room (h : HostIf) : Bool := decide (h.events.length ≤ if h.overflowed then 256 else 255)

def State.ledger (s : State) : Ledger :=
  ⟨s.host.sessions, s.sched, s.jobs, s.host.room, s.vinOn, s.host.alive, s.upd.activateAt, s.tick, s.checkpoint⟩

@[simp] theorem HostIf.room_setCause (h : HostIf) (c : Nat) : (h.setCause c).room = h.room := (rfl)
@[simp] theorem HostIf.sessions_setCause (h : HostIf) (c : Nat) : (h.setCause c).sessions = h.sessions := rfl
@[simp] theorem HostIf.alive_setCause (h : HostIf) (c : Nat) : (h.setCause c).alive = h.alive := rfl

/-- An event takes a place that is free, the kept place, or none. -/
@[simp] theorem HostIf.room_place (h : HostIf) (e : Event) : (h.place e).room = h.room := by
  unfold HostIf.place HostIf.room
  cases h.overflowed <;> simp [HostIf.setCause] <;> split <;> simp <;> omega

theorem HostIf.place_alive (h : HostIf) (e : Event) : (h.place e).alive = h.alive := by
  unfold HostIf.place
  split
  · rfl
  · dsimp only; split <;> rfl

@[simp] theorem State.ledger_raiseAt (s : State) (t cause handle code data : Nat) :
    (s.raiseAt t cause handle code data).ledger = s.ledger := by
  simp only [State.raiseAt, State.ledger, HostIf.room_place, HostIf.place_sessions, HostIf.place_alive]
  rfl
@[simp] theorem State.ledger_raise (s : State) (cause handle code data : Nat) :
    (s.raise cause handle code data).ledger = s.ledger := s.ledger_raiseAt _ _ _ _ _

@[simp] theorem State.ledger_ite (c : Prop) [Decidable c] (s t : State) :
    (if c then s else t).ledger = if c then s.ledger else t.ledger := apply_ite State.ledger c s t

@[simp] theorem ledger_foldl {α : Type} {f : State → α → State} (h : ∀ s a, (f s a).ledger = s.ledger) (l : List α)
    (s : State) :
    (l.foldl f s).ledger = s.ledger := foldl_keeps State.ledger h l s

@[simp] theorem State.ledger_mk (pending tick checkpoint fineValid wallDiff wallStale vinOn power id host smoker
    sched jobs gens topNumber activeGen awaiting pendGen importBuf order prev base work evaluated committed workTick inbufs
    deadlineAt skip banks fieldChans fprobes fcombs fanDom recorder inrec sram upd link boot hk draws drawsAt) :
    (State.mk pending tick checkpoint fineValid wallDiff wallStale vinOn power id host smoker sched jobs
    gens topNumber activeGen awaiting pendGen importBuf order prev base work evaluated committed workTick inbufs
    deadlineAt skip banks fieldChans fprobes fcombs fanDom recorder inrec sram upd link boot hk draws drawsAt).ledger =
      ⟨host.sessions, sched, jobs, host.room, vinOn, host.alive, upd.activateAt, tick, checkpoint⟩ := (rfl)

@[simp] theorem HostIf.room_mk (uart vioOk alive resetHeld replies sent baud baudAt baudNext rx miso overrun framing
    crcErr sessions authFails barUntil cause events lost overflowed line) :
    (HostIf.mk uart vioOk alive resetHeld replies sent baud baudAt baudNext rx miso overrun framing
      crcErr sessions authFails barUntil cause events lost overflowed line).room =
      decide (events.length ≤ if overflowed then 256 else 255) := (rfl)

@[simp] theorem HostIf.room_eta (h : HostIf) :
    decide (h.events.length ≤ if h.overflowed then 256 else 255) = h.room := (rfl)

@[simp] theorem ledger_eta (s : State) :
    Ledger.mk s.host.sessions s.sched s.jobs s.host.room s.vinOn s.host.alive s.upd.activateAt s.tick s.checkpoint =
      s.ledger := (rfl)

/-! ## Ops -/

@[simp] theorem State.ledger_drawFree (s : State) : (s.drawFree).2.ledger = s.ledger := (rfl)
@[simp] theorem State.ledger_drawBytes (s : State) (n : Nat) : (s.drawBytes n).2.ledger = s.ledger := (rfl)
@[simp] theorem State.ledger_modWork (s : State) (f : Plant → Plant) : (s.modWork f).ledger = s.ledger := (rfl)
@[simp] theorem State.ledger_modPlants (s : State) (f : Plant → Plant) : (s.modPlants f).ledger = s.ledger := (rfl)
@[simp] theorem State.ledger_modUnit (s : State) (slot : Nat) (f : UnitRec → UnitRec) :
    (s.modUnit slot f).ledger = s.ledger := (rfl)
@[simp] theorem State.ledger_setBank (s : State) (b : Nat) (x : Bank) : (s.setBank b x).ledger = s.ledger := (rfl)
@[simp] theorem State.ledger_setFch (s : State) (n : Nat) (x : FieldChan) : (s.setFch n x).ledger = s.ledger := (rfl)
@[simp] theorem State.ledger_setFprobe (s : State) (n : Nat) (x : FieldProbe) :
    (s.setFprobe n x).ledger = s.ledger := (rfl)
@[simp] theorem State.ledger_setFcomb (s : State) (n : Nat) (x : FieldComb) :
    (s.setFcomb n x).ledger = s.ledger := (rfl)
@[simp] theorem State.ledger_setInputs (s : State) (t : Nat) (x : InBuf) : (s.setInputs t x).ledger = s.ledger := (rfl)
@[simp] theorem State.ledger_detect (s : State) (slot code : Nat) : (s.detect slot code).ledger = s.ledger := (rfl)
@[simp] theorem State.ledger_writeCell (s : State) (slot ref : Nat) (type : Nat) (value : Val) (stamp : Nat)
    (conds : BitVec 8) :
    (s.writeCell slot ref type value stamp conds).ledger = s.ledger := by
  simp [State.writeCell]
@[simp] theorem State.ledger_writeF (s : State) (slot ref : Nat) (x : F32) (stamp : Nat) (conds : BitVec 8) :
    (s.writeF slot ref x stamp conds).ledger = s.ledger := by simp [State.writeF]
@[simp] theorem State.ledger_noteInputs (s : State) (slot : Nat) (subst unusable : Bool) :
    (s.noteInputs slot subst unusable).ledger = s.ledger := (rfl)
@[simp] theorem State.ledger_newBaud (s : State) : (s.newBaud).ledger = s.ledger := by
  unfold State.newBaud
  split <;> rfl
@[simp] theorem State.ledger_baudChange (s : State) (r : Reply) :
    (s.baudChange r).ledger = s.ledger := by simp [State.baudChange]
@[simp] theorem State.ledger_send (s : State) (r : Reply) : (s.send r).ledger = s.ledger := by simp [State.send]
@[simp] theorem State.ledger_note (s : State) (type ref : Nat) (payload : List Byte) :
    (s.note type ref payload).ledger = s.ledger := (rfl)

/-! ## Field -/

@[simp] theorem State.ledger_bankFlag (s : State) (b bit : Nat) (on : Bool) :
    (s.bankFlag b bit on).ledger = s.ledger := by simp [State.bankFlag]
@[simp] theorem State.ledger_bankMark (s : State) (b bit : Nat) :
    (s.bankMark b bit).ledger = s.ledger := by simp [State.bankMark]
@[simp] theorem State.ledger_chanFlagAt (s : State) (ch bit : Nat) (on : Bool) (t : Nat) :
    (s.chanFlagAt ch bit on t).ledger = s.ledger := by simp [State.chanFlagAt]
@[simp] theorem State.ledger_chanFlag (s : State) (ch bit : Nat) (on : Bool) :
    (s.chanFlag ch bit on).ledger = s.ledger := by simp [State.chanFlag]
@[simp] theorem State.ledger_chanMark (s : State) (ch bit : Nat) :
    (s.chanMark ch bit).ledger = s.ledger := by simp [State.chanMark]
@[simp] theorem State.ledger_vfldFlags (s : State) (b : Nat) :
    (s.vfldFlags b).ledger = s.ledger := by simp [State.vfldFlags]
@[simp] theorem State.ledger_latchStatus (s : State) (ch t : Nat) :
    (s.latchStatus ch t).ledger = s.ledger := by simp [State.latchStatus]
@[simp] theorem State.ledger_aiRecords (s : State) (ch j : Nat) (l : List Conv) :
    (s.aiRecords ch j l).2.ledger = s.ledger := by
  induction l generalizing s j with
  | nil => rfl
  | cons m t ih => simp only [State.aiRecords, ih, State.ledger_setFch]
@[simp] theorem State.ledger_filteredRecord (s : State) (ch : Nat) (ms : List Conv) :
    (s.filteredRecord ch ms).2.ledger = s.ledger := by simp [State.filteredRecord, apply_ite Prod.snd]
@[simp] theorem State.ledger_resRecord (s : State) (ch : Nat) (m : ChanMeas) :
    (s.resRecord ch m).2.ledger = s.ledger := by
  unfold State.resRecord
  split <;> rfl
@[simp] theorem State.ledger_formRecords (s : State) (m : ChanMeas) :
    (s.formRecords m).2.ledger = s.ledger := by simp [State.formRecords, apply_ite Prod.snd]
@[simp] theorem State.ledger_beginSettle (s : State) (ch windows t : Nat) :
    (s.beginSettle ch windows t).ledger = s.ledger := by simp [State.beginSettle]
@[simp] theorem State.ledger_endWindow (s : State) (ch t : Nat) :
    (s.endWindow ch t).ledger = s.ledger := by simp [State.endWindow]
@[simp] theorem State.ledger_applyExc (s : State) (ch t : Nat) :
    (s.applyExc ch t).ledger = s.ledger := by simp [State.applyExc]
@[simp] theorem State.ledger_beginWindow (s : State) (ch t : Nat) :
    (s.beginWindow ch t).ledger = s.ledger := by simp [State.beginWindow]
@[simp] theorem State.ledger_latchDi (s : State) (ch t : Nat) : (s.latchDi ch t).ledger = s.ledger := (rfl)
@[simp] theorem State.ledger_latchStamps (s : State) (b : Nat) :
    (s.latchStamps b).ledger = s.ledger := by simp [State.latchStamps]
@[simp] theorem State.ledger_holdStamps (s : State) (b : Nat) :
    (s.holdStamps b).ledger = s.ledger := by simp [State.holdStamps]
@[simp] theorem State.ledger_deliverStamps (s : State) (b : Nat) :
    (s.deliverStamps b).ledger = s.ledger := by simp [State.deliverStamps]
@[simp] theorem State.ledger_railStep (s : State) (b : Nat) :
    (s.railStep b).ledger = s.ledger := by simp [State.railStep]
@[simp] theorem State.ledger_fieldFlags (s : State) (ch : Nat) :
    (s.fieldFlags ch).ledger = s.ledger := by simp [State.fieldFlags]
@[simp] theorem State.ledger_bankFlags (s : State) (b : Nat) :
    (s.bankFlags b).ledger = s.ledger := by simp [State.bankFlags]
@[simp] theorem State.ledger_applyLoad (s : State) (t b : Nat) : (s.applyLoad t b).ledger = s.ledger := by
  unfold State.applyLoad
  dsimp only
  split <;> simp
@[simp] theorem State.ledger_fieldBoundary (s : State) (t b : Nat) :
    (s.fieldBoundary t b).ledger = s.ledger := by simp [State.fieldBoundary]
@[simp] theorem State.ledger_windowBoundary (s : State) (t b : Nat) :
    (s.windowBoundary t b).ledger = s.ledger := by simp [State.windowBoundary]

/-! ## Channels -/

@[simp] theorem State.ledger_gather (s : State) (ch : Nat) : (s.gather ch).ledger = s.ledger := by simp [State.gather]
@[simp] theorem State.ledger_countSubst (s : State) (ch : Nat) :
    (s.countSubst ch).ledger = s.ledger := by simp [State.countSubst]
@[simp] theorem State.ledger_openLoadRecord (s : State) (ch : Nat) : (s.openLoadRecord ch).ledger = s.ledger := by
  unfold State.openLoadRecord
  dsimp only
  split <;> simp
@[simp] theorem State.ledger_recordFaults (s : State) (ch : Nat) : (s.recordFaults ch).ledger = s.ledger := by
  unfold State.recordFaults
  dsimp only
  repeat' split
  all_goals simp
@[simp] theorem State.ledger_evalDi (s : State) (ch : Nat) : (s.evalDi ch).ledger = s.ledger := by
  unfold State.evalDi
  dsimp only
  split <;> simp
@[simp] theorem State.ledger_evalCount (s : State) (ch : Nat) : (s.evalCount ch).ledger = s.ledger := by
  unfold State.evalCount
  dsimp only
  split <;> simp
@[simp] theorem State.ledger_evalSource (s : State) (ch : Nat) : (s.evalSource ch).ledger = s.ledger := (rfl)
@[simp] theorem State.ledger_evalDo (s : State) (ch : Nat) : (s.evalDo ch).ledger = s.ledger := by
  unfold State.evalDo
  dsimp only
  split <;> simp
@[simp] theorem State.ledger_evalAo (s : State) (ch : Nat) : (s.evalAo ch).ledger = s.ledger := by
  unfold State.evalAo
  dsimp only
  split <;> simp
@[simp] theorem State.ledger_selectPaths (s : State) (ch : Nat) :
    (s.selectPaths ch).2.ledger = s.ledger := by simp [State.selectPaths]
@[simp] theorem State.ledger_evalAi (s : State) (ch : Nat) : (s.evalAi ch).ledger = s.ledger := by
  unfold State.evalAi
  dsimp only
  split <;> simp
@[simp] theorem State.ledger_selectRes (s : State) (ch : Nat) : (s.selectRes ch).ledger = s.ledger := by
  unfold State.selectRes
  dsimp only
  split <;> simp
@[simp] theorem State.ledger_writeOffline (s : State) (slot ref type t : Nat) :
    (s.writeOffline slot ref type t).ledger = s.ledger := by simp [State.writeOffline]
@[simp] theorem State.ledger_evalRes (s : State) (ch : Nat) : (s.evalRes ch).ledger = s.ledger := by
  unfold State.evalRes
  dsimp only
  repeat' split
  all_goals simp

/-! ## Probe -/

@[simp] theorem State.ledger_detectNow (s : State) (slot code : Nat) :
    (s.detectNow slot code).ledger = s.ledger := (rfl)
@[simp] theorem State.ledger_engineFound (s : State) (b : Nat) (ok : Bool) :
    (s.engineFound b ok).ledger = s.ledger := by simp [State.engineFound]
@[simp] theorem State.ledger_startSweep (s : State) (p : Nat) : (s.startSweep p).ledger = s.ledger := by
  unfold State.startSweep
  dsimp only
  split <;> [split; skip] <;> simp
@[simp] theorem State.ledger_countLate (s : State) (b : Nat) : (s.countLate b).ledger = s.ledger := (rfl)
@[simp] theorem State.ledger_deliverSweep (s : State) (p : Nat) (m : SweepMeas) :
    (s.deliverSweep p m).ledger = s.ledger := by
  unfold State.deliverSweep
  dsimp only
  split <;> simp
@[simp] theorem State.ledger_takeSweep (s : State) (p w : Nat) : (s.takeSweep p w).ledger = s.ledger := by
  unfold State.takeSweep
  dsimp only
  split <;> simp
@[simp] theorem State.ledger_sweepMember (s : State) (ch t : Nat) (r : Conv) :
    (s.sweepMember ch t r).ledger = s.ledger := by
  unfold State.sweepMember
  refine ledger_foldl (fun s p => ?_) _ _
  dsimp only
  split
  · split
    · split <;> simp
    · rfl
  · rfl
@[simp] theorem State.ledger_evalDiel (s : State) (ch : Nat) : (s.evalDiel ch).ledger = s.ledger := by
  unfold State.evalDiel
  dsimp only
  split <;> simp
@[simp] theorem State.ledger_evalProbe (s : State) (p : Nat) : (s.evalProbe p).ledger = s.ledger := by
  unfold State.evalProbe
  dsimp only
  repeat' split
  all_goals simp

/-! ## CombLine -/

@[simp] theorem State.ledger_openRound (s : State) (l : Nat) :
    (s.openRound l).ledger = s.ledger := by simp [State.openRound]
@[simp] theorem State.ledger_beginRound (s : State) (l : Nat) (m : LineMeas) :
    (s.beginRound l m).ledger = s.ledger := by
  unfold State.beginRound
  dsimp only
  split <;> simp
@[simp] theorem State.ledger_abandonRound (s : State) (l : Nat) : (s.abandonRound l).ledger = s.ledger := by
  unfold State.abandonRound
  dsimp only
  split <;> simp
@[simp] theorem State.ledger_dropRound (s : State) (l : Nat) : (s.dropRound l).ledger = s.ledger := (rfl)
@[simp] theorem State.ledger_checkRounds (s : State) : (s.checkRounds).ledger = s.ledger := by simp [State.checkRounds]
@[simp] theorem State.ledger_deliverRound (s : State) (l : Nat) (m : RoundMeas) :
    (s.deliverRound l m).ledger = s.ledger := by
  unfold State.deliverRound
  dsimp only
  repeat' split
  all_goals simp
@[simp] theorem State.ledger_takeRound (s : State) (l w : Nat) : (s.takeRound l w).ledger = s.ledger := by
  unfold State.takeRound
  dsimp only
  split <;> simp
@[simp] theorem State.ledger_roundMember (s : State) (ch t : Nat) (r : Conv) :
    (s.roundMember ch t r).ledger = s.ledger := by simp [State.roundMember]
@[simp] theorem State.ledger_feedCheck (s : State) (ch : Nat) : (s.feedCheck ch).ledger = s.ledger := by
  unfold State.feedCheck
  split <;> simp
@[simp] theorem State.ledger_noteRound (s : State) (l : Nat) (r : RoundRec) :
    (s.noteRound l r).ledger = s.ledger := by simp [State.noteRound]
@[simp] theorem State.ledger_evalCombChan (s : State) (ch : Nat) : (s.evalCombChan ch).ledger = s.ledger := by
  unfold State.evalCombChan
  dsimp only
  split <;> simp
@[simp] theorem State.ledger_nodeOffline (s : State) (l pos t : Nat) :
    (s.nodeOffline l pos t).ledger = s.ledger := by simp [State.nodeOffline]
@[simp] theorem State.ledger_nodeValues (s : State) (l : Nat) (e : MapEntry) (n : NodeEntry) (clamp : Bool) (t : Nat) :
    (s.nodeValues l e n clamp t).ledger = s.ledger := by simp [State.nodeValues]
@[simp] theorem State.ledger_raiseMap (s : State) (l : Nat) (now : List Nat) :
    (s.raiseMap l now).ledger = s.ledger := by simp [State.raiseMap]
@[simp] theorem State.ledger_nodeMissed (s : State) (l limit pos t : Nat) :
    (s.nodeMissed l limit pos t).ledger = s.ledger := by simp [State.nodeMissed]
@[simp] theorem State.ledger_evalNode (s : State) (l t limit : Nat) (clamp : Bool) (e : MapEntry) (n : NodeEntry) :
    (s.evalNode l t limit clamp e n).ledger = s.ledger := by simp [State.evalNode]
@[simp] theorem State.ledger_evalComb (s : State) (l : Nat) : (s.evalComb l).ledger = s.ledger := by
  unfold State.evalComb
  dsimp only
  split <;> simp
@[simp] theorem State.ledger_missLimit (s : State) (l pos : Nat) :
    (s.missLimit l pos).ledger = s.ledger := by simp [State.missLimit]

/-! ## Loop -/

@[simp] theorem State.ledger_writeLoop (s : State) (n : Nat) (u : F32) (uc : BitVec 8) (e : F32) (ec : BitVec 8)
    (r : F32) (rc : BitVec 8) :
    (s.writeLoop n u uc e ec r rc).ledger = s.ledger := by
  simp [State.writeLoop]
@[simp] theorem State.ledger_readLoop (s : State) (n : Nat) (mods : LoopMods) :
    (s.readLoop n mods).2.ledger = s.ledger := by
  unfold State.readLoop
  dsimp only
  split <;> simp
@[simp] theorem State.ledger_stepLoop (s : State) (n : Nat) : (s.stepLoop n).ledger = s.ledger := by
  unfold State.stepLoop
  dsimp only
  split <;> simp
@[simp] theorem State.ledger_windLoop (s : State) (n : Nat) : (s.windLoop n).ledger = s.ledger := by
  unfold State.windLoop
  dsimp only
  repeat' split
  all_goals simp
@[simp] theorem State.ledger_evalLoop (s : State) (n : Nat) : (s.evalLoop n).ledger = s.ledger := by
  unfold State.evalLoop
  split <;> simp
@[simp] theorem State.ledger_startLoop (s : State) (n : Nat) : (s.startLoop n).ledger = s.ledger := (rfl)
@[simp] theorem State.ledger_evalOverride (s : State) (h : Nat) : (s.evalOverride h).ledger = s.ledger := by
  unfold State.evalOverride
  dsimp only
  split <;> simp
@[simp] theorem State.ledger_evalProf (s : State) (n : Nat) :
    (s.evalProf n).ledger = s.ledger := by simp [State.evalProf]
@[simp] theorem State.ledger_startProf (s : State) (n : Nat) : (s.startProf n).ledger = s.ledger := (rfl)
@[simp] theorem State.ledger_evalChurn (s : State) (n : Nat) :
    (s.evalChurn n).ledger = s.ledger := by simp [State.evalChurn]
@[simp] theorem State.ledger_startChurn (s : State) (n : Nat) : (s.startChurn n).ledger = s.ledger := (rfl)

/-! ## Drying -/

@[simp] theorem State.ledger_obsUnready (s : State) (n : Nat) (more : BitVec 8) :
    (s.obsUnready n more).ledger = s.ledger := by simp [State.obsUnready]
@[simp] theorem State.ledger_evalObs (s : State) (n : Nat) : (s.evalObs n).ledger = s.ledger := by simp [State.evalObs]
@[simp] theorem State.ledger_startObs (s : State) (n : Nat) : (s.startObs n).ledger = s.ledger := (rfl)
@[simp] theorem State.ledger_advanceProg (s : State) (n : Nat) (stopping : Bool) (st : PrgStep) (p : ProgState) :
    (s.advanceProg n stopping st p).ledger = s.ledger := by simp [State.advanceProg]
@[simp] theorem State.ledger_writeProg (s : State) (n : Nat) :
    (s.writeProg n).ledger = s.ledger := by simp [State.writeProg]
@[simp] theorem State.ledger_progLoss (s : State) (n : Nat) (p : ProgState) :
    (s.progLoss n p).2.ledger = s.ledger := by simp [State.progLoss, apply_ite Prod.snd]
@[simp] theorem State.ledger_evalProg (s : State) (n : Nat) :
    (s.evalProg n).ledger = s.ledger := by simp [State.evalProg]
@[simp] theorem State.ledger_startProg (s : State) (n : Nat) : (s.startProg n).ledger = s.ledger := (rfl)
@[simp] theorem State.ledger_writeChain (s : State) (n : Nat) :
    (s.writeChain n).ledger = s.ledger := by simp [State.writeChain]
@[simp] theorem State.ledger_chainDone (s : State) (n : Nat) :
    (s.chainDone n).ledger = s.ledger := by simp [State.chainDone]
@[simp] theorem State.ledger_evalChain (s : State) (n : Nat) :
    (s.evalChain n).ledger = s.ledger := by simp [State.evalChain]
@[simp] theorem State.ledger_startChain (s : State) (n : Nat) : (s.startChain n).ledger = s.ledger := (rfl)
@[simp] theorem State.ledger_haltChain (s : State) (n : Nat) :
    (s.haltChain n).ledger = s.ledger := by simp [State.haltChain]
@[simp] theorem State.ledger_binSample (s : State) (n : Nat) : (s.binSample n).ledger = s.ledger := (rfl)
@[simp] theorem State.ledger_evalBin (s : State) (n : Nat) : (s.evalBin n).ledger = s.ledger := by simp [State.evalBin]
@[simp] theorem State.ledger_startBin (s : State) (n : Nat) : (s.startBin n).ledger = s.ledger := (rfl)

/-! ## Fan -/

@[simp] theorem State.ledger_gatherFan (s : State) (n : Nat) : (s.gatherFan n).ledger = s.ledger := by
  unfold State.gatherFan
  split <;> simp
@[simp] theorem State.ledger_evalFan (s : State) (n : Nat) : (s.evalFan n).ledger = s.ledger := by
  unfold State.evalFan
  extract_lets slot st f recs f1 f2 off held w sup f3 seq f4 applied f5 s1 s2 s3 s4 t s5 s6 s7
  split
  · have hcode : s2.ledger = s.ledger := by
      unfold s2
      split <;> simp [s1]
    simp [s3, s4, s5, s6, s7, hcode]
  · rfl
@[simp] theorem State.ledger_startFan (s : State) (n : Nat) : (s.startFan n).ledger = s.ledger := (rfl)
@[simp] theorem State.ledger_resumeFan (s : State) (n : Nat) : (s.resumeFan n).ledger = s.ledger := (rfl)

/-! ## Link -/

@[simp] theorem State.ledger_modLink (s : State) (f : Link → Link) : (s.modLink f).ledger = s.ledger := (rfl)
@[simp] theorem State.ledger_setPeer (s : State) (n : Nat) (p : Peer) : (s.setPeer n p).ledger = s.ledger := (rfl)
@[simp] theorem State.ledger_modPort (s : State) (i : Nat) (f : Port → Port) :
    (s.modPort i f).ledger = s.ledger := (rfl)
@[simp] theorem State.ledger_raiseLink (s : State) (handle node reason : Nat) :
    (s.raiseLink handle node reason).ledger = s.ledger := by simp [State.raiseLink]
@[simp] theorem State.ledger_sendMsg (s : State) (port type node : Nat) (up : Bool) (peer : Option Nat)
    (body : List Byte) :
    (s.sendMsg port type node up peer body).ledger = s.ledger := by
  unfold State.sendMsg
  split <;> simp
@[simp] theorem State.ledger_sendPeer (s : State) (n type : Nat) (body : List Byte) :
    (s.sendPeer n type body).ledger = s.ledger := by simp [State.sendPeer]
@[simp] theorem State.ledger_heard (s : State) (n : Nat) : (s.heard n).ledger = s.ledger := (rfl)
@[simp] theorem State.ledger_learn (s : State) (port : Nat) : (s.learn port).ledger = s.ledger := (rfl)
@[simp] theorem State.ledger_actOnNode (s : State) (session seq : BitVec 16) (opcode : Nat) (auth : Bool)
    (etick : Option Nat) (n : Nat) :
    (s.actOnNode session seq opcode auth etick n).ledger = s.ledger := by
  simp [State.actOnNode]
@[simp] theorem State.ledger_refuseHello (s : State) (port : Nat) (serial : List Byte) (reason event node : Nat) :
    (s.refuseHello port serial reason event node).ledger = s.ledger := by simp [State.refuseHello]
@[simp] theorem State.ledger_sendHello (s : State) : (s.sendHello).ledger = s.ledger := by simp [State.sendHello]
@[simp] theorem State.ledger_relay (s : State) (port : Nat) : (s.relay port).ledger = s.ledger := by simp [State.relay]
@[simp] theorem State.ledger_onHello (s : State) (port : Nat) (m : HelloMsg) :
    (s.onHello port m).ledger = s.ledger := by
  unfold State.onHello
  dsimp only
  repeat' split
  all_goals simp
@[simp] theorem State.ledger_onChallenge (s : State) (port : Nat) (m : ChallengeMsg) :
    (s.onChallenge port m).ledger = s.ledger := by simp [State.onChallenge]
@[simp] theorem State.ledger_sendSubscribe (s : State) (n : Nat) :
    (s.sendSubscribe n).ledger = s.ledger := by simp [State.sendSubscribe]
@[simp] theorem State.ledger_onProof (s : State) (port : Nat) (m : ProofMsg) :
    (s.onProof port m).ledger = s.ledger := by
  unfold State.onProof
  dsimp only
  split <;> [skip; split] <;> simp
@[simp] theorem State.ledger_dropAttempt (s : State) : (s.dropAttempt).ledger = s.ledger := by simp [State.dropAttempt]
@[simp] theorem State.ledger_proofExpired (s : State) (n : Nat) :
    (s.proofExpired n).ledger = s.ledger := by simp [State.proofExpired]
@[simp] theorem State.ledger_onAdmit (s : State) (queenTick : Nat) :
    (s.onAdmit queenTick).ledger = s.ledger := by simp [State.onAdmit]
@[simp] theorem State.ledger_onRefuse (s : State) (port : Nat) (target : List Byte) :
    (s.onRefuse port target).ledger = s.ledger := by simp [State.onRefuse]
@[simp] theorem State.ledger_nodeChanged (s : State) (n : Nat) :
    (s.nodeChanged n).ledger = s.ledger := by simp [State.nodeChanged]
@[simp] theorem State.ledger_offlineNode (s : State) (n : Nat) : (s.offlineNode n).ledger = s.ledger := (rfl)
@[simp] theorem State.ledger_loseQueen (s : State) : (s.loseQueen).ledger = s.ledger := by simp [State.loseQueen]
@[simp] theorem State.ledger_loseNode (s : State) (n : Nat) :
    (s.loseNode n).ledger = s.ledger := by simp [State.loseNode]
@[simp] theorem State.ledger_loseAlign (s : State) : (s.loseAlign).ledger = s.ledger := (rfl)
@[simp] theorem State.ledger_sendSync (s : State) : (s.sendSync).ledger = s.ledger := by simp [State.sendSync]
@[simp] theorem State.ledger_onSyncReq (s : State) (n arrival reply : Nat) :
    (s.onSyncReq n arrival reply).ledger = s.ledger := by simp [State.onSyncReq]
@[simp] theorem State.ledger_sendStatus (s : State) (root : Nat) (ports : Nat × Nat) :
    (s.sendStatus root ports).ledger = s.ledger := by simp [State.sendStatus]
@[simp] theorem State.ledger_onSyncResp (s : State) (q1 q2 s2 : Int) : (s.onSyncResp q1 q2 s2).ledger = s.ledger := by
  unfold State.onSyncResp
  dsimp only
  repeat' split
  all_goals simp
@[simp] theorem State.ledger_lengthenTick (s : State) : (s.lengthenTick).ledger = s.ledger := by
  unfold State.lengthenTick
  split <;> simp
@[simp] theorem State.ledger_onSubscribe (s : State) (fromTick : Nat) (cells : List Nat) :
    (s.onSubscribe fromTick cells).ledger = s.ledger := by simp [State.onSubscribe]
@[simp] theorem State.ledger_applySubscribe (s : State) :
    (s.applySubscribe).ledger = s.ledger := by simp [State.applySubscribe]
@[simp] theorem State.ledger_sendCells (s : State) : (s.sendCells).ledger = s.ledger := by simp [State.sendCells]
@[simp] theorem State.ledger_onCells (s : State) (n : Nat) (entries : List CellEntry) :
    (s.onCells n entries).ledger = s.ledger := by simp [State.onCells]
@[simp] theorem State.ledger_applyRemote (s : State) : (s.applyRemote).ledger = s.ledger := by simp [State.applyRemote]
@[simp] theorem State.ledger_subscribeCells (s : State) :
    (s.subscribeCells).ledger = s.ledger := by simp [State.subscribeCells]
@[simp] theorem State.ledger_joinNode (s : State) (n : Nat) : (s.joinNode n).ledger = s.ledger := by
  unfold State.joinNode
  dsimp only
  split <;> simp
@[simp] theorem State.ledger_joinSelf (s : State) : (s.joinSelf).ledger = s.ledger := by
  unfold State.joinSelf
  dsimp only
  split <;> simp
@[simp] theorem State.ledger_onStatus (s : State) (n : Nat) (m : StatusMsg) :
    (s.onStatus n m).ledger = s.ledger := by simp [State.onStatus]
@[simp] theorem State.ledger_onLeave (s : State) (n : Nat) : (s.onLeave n).ledger = s.ledger := by simp [State.onLeave]
@[simp] theorem State.ledger_sendLeave (s : State) (n reason : Nat) :
    (s.sendLeave n reason).ledger = s.ledger := by simp [State.sendLeave]
@[simp] theorem State.ledger_portUp (s : State) (i : Nat) (a : Amplitude) :
    (s.portUp i a).ledger = s.ledger := by simp [State.portUp]
@[simp] theorem State.ledger_portDown (s : State) (i : Nat) :
    (s.portDown i).ledger = s.ledger := by simp [State.portDown]

/-! ## Recorder -/

@[simp] theorem State.ledger_sampleHist (s : State) (h : Nat) :
    (s.sampleHist h).ledger = s.ledger := by simp [State.sampleHist]
@[simp] theorem State.ledger_evalRec (s : State) : (s.evalRec).ledger = s.ledger := by simp [State.evalRec]
@[simp] theorem State.ledger_openInterval (s : State) (t : Nat) : (s.openInterval t).ledger = s.ledger := (rfl)
@[simp] theorem State.ledger_closeInterval (s : State) : (s.closeInterval).ledger = s.ledger := (rfl)
@[simp] theorem State.ledger_endFreeze (s : State) (expiry : Bool) :
    (s.endFreeze expiry).ledger = s.ledger := by simp [State.endFreeze]
@[simp] theorem State.ledger_freezeExpiry (s : State) :
    (s.freezeExpiry).ledger = s.ledger := by simp [State.freezeExpiry]
@[simp] theorem State.ledger_cutSummary (s : State) (c : Content) (tEnd : Nat) (more : BitVec 8) :
    (s.cutSummary c tEnd more).ledger = s.ledger := by simp [State.cutSummary]
@[simp] theorem State.ledger_recExtremes (s : State) (t : Nat) :
    (s.recExtremes t).ledger = s.ledger := by simp [State.recExtremes]
@[simp] theorem State.ledger_retireSector (s : State) (area reason sector seq : Nat) (healthOk : Bool) :
    (s.retireSector area reason sector seq healthOk).ledger = s.ledger := by simp [State.retireSector]
@[simp] theorem State.ledger_sectorFails (s : State) :
    (s.sectorFails).2.ledger = s.ledger := by simp [State.sectorFails]
@[simp] theorem State.ledger_sectorFailure (s : State) (area seq : Nat) (healthOk : Bool) :
    (s.sectorFailure area seq healthOk).ledger = s.ledger := by simp [State.sectorFailure]
@[simp] theorem State.ledger_summaryBad (s : State) (founding : Bool) (seq : Nat) :
    (s.summaryBad founding seq).ledger = s.ledger := by simp [State.summaryBad]
@[simp] theorem State.ledger_heldLost (s : State) (seq : Nat) :
    (s.heldLost seq).ledger = s.ledger := by simp [State.heldLost]

/-! ## Generations -/

@[simp] theorem State.ledger_modGen (s : State) (n : Nat) (f : Generation → Generation) :
    (s.modGen n f).ledger = s.ledger := (rfl)
@[simp] theorem State.ledger_makeRoom (s : State) : (s.makeRoom).ledger = s.ledger := by
  unfold State.makeRoom
  split <;> [skip; split] <;> simp
@[simp] theorem State.ledger_storeGeneration (s : State) (origin : Nat) (c : Content) (e : Nat) :
    (s.storeGeneration origin c e).ledger = s.ledger := by simp [State.storeGeneration]
@[simp] theorem State.ledger_dropPending (s : State) (session : Option (BitVec 16)) :
    (s.dropPending session).ledger = s.ledger := by
  unfold State.dropPending
  split <;> simp
@[simp] theorem State.ledger_storeFailed (s : State) : (s.storeFailed).ledger = s.ledger := by
  unfold State.storeFailed
  split <;> simp
@[simp] theorem State.ledger_signBytes (s : State) (b : List Byte) : (s.signBytes b).2.ledger = s.ledger := (rfl)
@[simp] theorem State.ledger_bundle (s : State) (target : List Byte) : (s.bundle target).2.ledger = s.ledger := (rfl)

/-! ## InRec -/

@[simp] theorem State.ledger_noteCommand (s : State) (opcode : Nat) (payload : List Byte) :
    (s.noteCommand opcode payload).ledger = s.ledger := (rfl)

/-! ## Units -/

@[simp] theorem State.ledger_setSt (s : State) (slot : Nat) (st : UState) : (s.setSt slot st).ledger = s.ledger := (rfl)
@[simp] theorem State.ledger_enterHeld (s : State) (slot : Nat) (st : UState) (code : Nat) :
    (s.enterHeld slot st code).ledger = s.ledger := by simp [State.enterHeld]
@[simp] theorem State.ledger_resetChan (s : State) (ch : Nat) : (s.resetChan ch).ledger = s.ledger := (rfl)
@[simp] theorem State.ledger_beginStartSettle (s : State) (ch : Nat) :
    (s.beginStartSettle ch).ledger = s.ledger := (rfl)
@[simp] theorem State.ledger_initUnit (s : State) (slot : Nat) : (s.initUnit slot).ledger = s.ledger := by
  unfold State.initUnit
  split <;> simp
@[simp] theorem State.ledger_reinitUnit (s : State) (slot : Nat) : (s.reinitUnit slot).ledger = s.ledger := by
  unfold State.reinitUnit
  split <;> rfl
@[simp] theorem State.ledger_absorbUnit (s : State) (slot : Nat) : (s.absorbUnit slot).ledger = s.ledger := by
  unfold State.absorbUnit
  split <;> rfl
@[simp] theorem State.ledger_stopRecorder (s : State) (causes : BitVec 8) :
    (s.stopRecorder causes).ledger = s.ledger := by simp [State.stopRecorder]
@[simp] theorem State.ledger_beginStop (s : State) (slot : Nat) : (s.beginStop slot).ledger = s.ledger := by
  unfold State.beginStop
  split <;> simp
@[simp] theorem State.ledger_modUnitCells (s : State) (slot : Nat) (f : Cell → Cell) :
    (s.modUnitCells slot f).ledger = s.ledger := by simp [State.modUnitCells]
@[simp] theorem State.ledger_capacityChanged (s : State) (slot : Nat) :
    (s.capacityChanged slot).ledger = s.ledger := by simp [State.capacityChanged]
@[simp] theorem State.ledger_returnChannel (s : State) (ch : Nat) :
    (s.returnChannel ch).ledger = s.ledger := by simp [State.returnChannel]
@[simp] theorem State.ledger_returnEnds (s : State) (t ch : Nat) :
    (s.returnEnds t ch).ledger = s.ledger := by simp [State.returnEnds]
@[simp] theorem State.ledger_lineBelowIdle (s : State) (ch : Nat) :
    (s.lineBelowIdle ch).2.ledger = s.ledger := by simp [State.lineBelowIdle, apply_ite Prod.snd]
@[simp] theorem State.ledger_selfTest (s : State) : (s.selfTest).2.ledger = s.ledger := (rfl)
@[simp] theorem State.ledger_engineTest (s : State) (b : Nat) :
    (s.engineTest b).2.ledger = s.ledger := by simp [State.engineTest]
@[simp] theorem State.ledger_chanCauseGone (s : State) (ch code : Nat) :
    (s.chanCauseGone ch code).2.ledger = s.ledger := by
  unfold State.chanCauseGone
  split <;> simp
@[simp] theorem State.ledger_causeGone (s : State) (slot : Nat) : (s.causeGone slot).2.ledger = s.ledger := by
  unfold State.causeGone
  dsimp only
  repeat' split
  all_goals simp
@[simp] theorem State.ledger_clearedUnit (s : State) (slot code : Nat) :
    (s.clearedUnit slot code).ledger = s.ledger := by
  unfold State.clearedUnit
  split <;> simp
@[simp] theorem State.ledger_startUnit (s : State) (slot : Nat) : (s.startUnit slot).2.ledger = s.ledger := by
  unfold State.startUnit
  split
  · split <;> simp
  · simp
  all_goals rfl
@[simp] theorem State.ledger_stopUnit (s : State) (slot : Nat) : (s.stopUnit slot).2.ledger = s.ledger := by
  unfold State.stopUnit
  split <;> simp
@[simp] theorem State.ledger_clearUnit (s : State) (slot : Nat) : (s.clearUnit slot).2.ledger = s.ledger := by
  unfold State.clearUnit
  dsimp only
  repeat' split
  all_goals simp
@[simp] theorem State.ledger_toManual (s : State) (slot : Nat) : (s.toManual slot).ledger = s.ledger := by
  unfold State.toManual
  split <;> rfl
@[simp] theorem State.ledger_endCalmSafe (s : State) (slot : Nat) : (s.endCalmSafe slot).ledger = s.ledger := by
  unfold State.endCalmSafe
  split <;> rfl
@[simp] theorem State.ledger_toAuto (s : State) (slot : Nat) :
    (s.toAuto slot).ledger = s.ledger := by simp [State.toAuto]
@[simp] theorem State.ledger_modeUnit (s : State) (slot : Nat) (dest : UState) :
    (s.modeUnit slot dest).2.ledger = s.ledger := by simp [State.modeUnit, apply_ite Prod.snd]
@[simp] theorem State.ledger_valueUnit (s : State) (slot : Nat) (v : F32) :
    (s.valueUnit slot v).2.ledger = s.ledger := by
  unfold State.valueUnit
  split <;> [skip; split] <;> simp
@[simp] theorem State.ledger_actUnit (s : State) (slot : Nat) (a : Act) : (s.actUnit slot a).2.ledger = s.ledger := by
  unfold State.actUnit
  split <;> [skip; split] <;> simp
@[simp] theorem State.ledger_syncHive (s : State) (hive : Nat) : (s.syncHive hive).ledger = s.ledger := by
  unfold State.syncHive
  dsimp only
  split <;> simp
@[simp] theorem State.ledger_syncHives (s : State) : (s.syncHives).ledger = s.ledger := by simp [State.syncHives]
@[simp] theorem State.ledger_act (k : Nat) (s : State) (slot : Nat) (a : Act) :
    (State.act k s slot a).2.ledger = s.ledger := by
  induction k generalizing s slot a with
  | zero => rfl
  | succ k ih =>
    unfold State.act
    split
    · exact State.ledger_actUnit _ _ _
    · dsimp only
      split
      · split
        · rfl
        · simp [ih]
      · have hfold :
            ((s.orderedMembers slot).reverse.foldl (fun s u => (State.act k s u .stop).2) s).ledger = s.ledger :=
          ledger_foldl (fun s u => ih s u .stop) _ _
        split <;> [skip; split] <;> simpa using hfold
      · split
        · rfl
        · split <;> [split; skip] <;> simp [ih]
      · split <;> [split; skip] <;> simp [ih]
@[simp] theorem State.ledger_command (s : State) (slot : Nat) (a : Act) :
    (s.command slot a).ledger = s.ledger := by simp [State.command]

/-! ## Capacity -/

@[simp] theorem State.ledger_channelOut (s : State) (ch : Nat) :
    (s.channelOut ch).ledger = s.ledger := by simp [State.channelOut]
@[simp] theorem State.ledger_channelService (s : State) (ch : Nat) (on : Bool) :
    (s.channelService ch on).ledger = s.ledger := by simp [State.channelService]
@[simp] theorem State.ledger_calmUnit (s : State) (slot : Nat) : (s.calmUnit slot).ledger = s.ledger := by
  unfold State.calmUnit
  split <;> simp
@[simp] theorem State.ledger_calm (s : State) : (s.calm).ledger = s.ledger := by simp [State.calm]
@[simp] theorem State.ledger_removeUnit (s : State) (slot : Nat) : (s.removeUnit slot).ledger = s.ledger := by
  unfold State.removeUnit
  split <;> simp
@[simp] theorem State.ledger_enterMode (s : State) (ch t : Nat) :
    (s.enterMode ch t).ledger = s.ledger := by simp [State.enterMode]
@[simp] theorem State.ledger_keepChannel (s : State) (old : Content) (ch t : Nat) :
    (s.keepChannel old ch t).ledger = s.ledger := by simp [State.keepChannel]
@[simp] theorem State.ledger_keepProbe (s : State) (old : Content) (p : Nat) :
    (s.keepProbe old p).ledger = s.ledger := by simp [State.keepProbe]
@[simp] theorem State.ledger_keepComb (s : State) (old : Content) (l : Nat) :
    (s.keepComb old l).ledger = s.ledger := by simp [State.keepComb]
@[simp] theorem State.ledger_keepUnit (s : State) (old : Content) (t slot : Nat) :
    (s.keepUnit old t slot).ledger = s.ledger := by
  unfold State.keepUnit
  split <;> simp
@[simp] theorem State.ledger_addUnit (s : State) (t slot : Nat) :
    (s.addUnit t slot).ledger = s.ledger := by simp [State.addUnit]
@[simp] theorem State.ledger_addHive (s : State) (hive : Nat) : (s.addHive hive).ledger = s.ledger := (rfl)
@[simp] theorem State.ledger_switchLink (s : State) (old : Content) :
    (s.switchLink old).ledger = s.ledger := by simp [State.switchLink]
@[simp] theorem State.ledger_noteCapacity (s : State) (a : Content) (gone fresh kept : List Nat) :
    (s.noteCapacity a gone fresh kept).ledger = s.ledger := by simp [State.noteCapacity]
@[simp] theorem State.ledger_switchUnits (s : State) (a : Content) (t : Nat) :
    (s.switchUnits a t).ledger = s.ledger := by simp [State.switchUnits]

/-! ## Update -/

@[simp] theorem State.ledger_modUpd (s : State) (f : Update → Update) : (s.modUpd f).ledger =
    ⟨s.host.sessions, s.sched, s.jobs, s.host.room, s.vinOn, s.host.alive, (f s.upd).activateAt, s.tick,
      s.checkpoint⟩ := (rfl)
@[simp] theorem State.ledger_raiseUpdate (s : State) : (s.raiseUpdate).ledger = s.ledger := by simp [State.raiseUpdate]
@[simp] theorem State.ledger_updBlock (s : State) (who : UpdOwner) (b : List Byte) :
    (s.updBlock who b).2.ledger = s.ledger := by simp [State.updBlock, apply_ite Prod.snd]
@[simp] theorem State.ledger_blockProgrammed (s : State) (matched : Bool) :
    (s.blockProgrammed matched).ledger = s.ledger := by
  unfold State.blockProgrammed
  dsimp only
  split <;> simp
@[simp] theorem State.ledger_stagedBad (s : State) (n : Nat) :
    (s.stagedBad n).ledger = s.ledger := by simp [State.stagedBad]
@[simp] theorem State.ledger_runSlot (s : State) : (s.runSlot).ledger = s.ledger := by simp [State.runSlot]
@[simp] theorem State.ledger_convertFormats (s : State) : (s.convertFormats).ledger = s.ledger := (rfl)

/-! ## Housekeeping -/

@[simp] theorem State.ledger_modHk (s : State) (f : Hk → Hk) : (s.modHk f).ledger = s.ledger := (rfl)
@[simp] theorem State.ledger_raiseThermal (s : State) (code : Nat) (x : F32) (site : Nat) :
    (s.raiseThermal code x site).ledger = s.ledger := by simp [State.raiseThermal]
@[simp] theorem State.ledger_judgeSite (before : Hk) (s : State) (i : Nat) :
    (State.judgeSite before s i).ledger = s.ledger := by
  unfold State.judgeSite
  split <;> simp
@[simp] theorem State.ledger_judgeSites (s : State) : s.judgeSites.ledger = s.ledger := by
  unfold State.judgeSites
  simp only [State.ledger_ite, State.ledger_raiseThermal, State.ledger_modHk, ite_self]
  refine (ledger_foldl (State.ledger_judgeSite _) _ _).trans (ledger_foldl (fun s i => ?_) _ _)
  split
  · rfl
  · simp
@[simp] theorem State.ledger_judgeConditions (s : State) :
    (s.judgeConditions).ledger = s.ledger := by simp [State.judgeConditions]
@[simp] theorem State.ledger_housekeepingRound (s : State) (m : HkMeas) :
    (s.housekeepingRound m).ledger = s.ledger := by simp [State.housekeepingRound]
@[simp] theorem State.ledger_evalHk (s : State) : s.evalHk.ledger = s.ledger := by
  unfold State.evalHk
  split
  · rfl
  · simp only [State.ledger_writeCell, State.ledger_writeF, ledger_foldl, implies_true]
    refine ledger_foldl (fun s i => ?_) _ _
    split <;> simp
@[simp] theorem State.ledger_unpowerField (s : State) :
    (s.unpowerField).ledger = s.ledger := by simp [State.unpowerField]
@[simp] theorem State.ledger_dropRecorder (s : State) : (s.dropRecorder).ledger = s.ledger := (rfl)
@[simp] theorem State.ledger_vinCrossing (s : State) (c : VinCrossing) (mv : Nat) :
    (s.vinCrossing c mv).ledger = s.ledger := by simp [State.vinCrossing]
@[simp] theorem State.ledger_crystal (s : State) (fail : Bool) :
    (s.crystal fail).ledger = s.ledger := by simp [State.crystal]

/-! ## Boot -/

@[simp] theorem State.ledger_modBoot (s : State) (f : Boot → Boot) : (s.modBoot f).ledger = s.ledger := (rfl)
@[simp] theorem State.ledger_modHost (s : State) (f : HostIf → HostIf) : (s.modHost f).ledger =
    ⟨(f s.host).sessions, s.sched, s.jobs, (f s.host).room, s.vinOn, (f s.host).alive, s.upd.activateAt, s.tick,
      s.checkpoint⟩ := (rfl)
@[simp] theorem State.ledger_abandonChange (s : State) : (s.abandonChange).ledger = s.ledger := by
  unfold State.abandonChange
  split <;> rfl
@[simp] theorem State.ledger_hostWake (s : State) : (s.hostWake).ledger = s.ledger := by simp [State.hostWake]
@[simp] theorem State.ledger_powerClear (s : State) : (s.powerClear).ledger = s.ledger := (rfl)
@[simp] theorem State.ledger_openJournal (s : State) (cause : Nat) (ok : Bool) :
    (s.openJournal cause ok).ledger = s.ledger := (rfl)
@[simp] theorem State.ledger_modJournal (s : State) (f : Journal → Journal) :
    (s.modJournal f).ledger = s.ledger := (rfl)
@[simp] theorem State.ledger_outcome (s : State) (step code : Nat) : (s.outcome step code).ledger = s.ledger := (rfl)
@[simp] theorem State.ledger_clearRetried (s : State) : (s.clearRetried).ledger = s.ledger := (rfl)
@[simp] theorem State.ledger_bootSlot (s : State) (r : BootReport) : (s.bootSlot r).2.ledger = s.ledger := by
  unfold State.bootSlot
  split
  · rfl
  · extract_lets u cur v
    have hu : u.ledger = s.ledger := by
      unfold u
      split <;> rfl
    have hv : v.ledger = s.ledger := hu
    split
    · rwa [State.ledger_outcome]
    · split
      · exact hu
      · split
        · rwa [State.ledger_outcome, State.ledger_runSlot, State.ledger_modUpd, ledger_eta]
        · exact hv
@[simp] theorem State.ledger_bootPages (s : State) (failed : List Nat) : (s.bootPages failed).ledger = s.ledger := by
  simp [State.bootPages]
@[simp] theorem State.ledger_bootStores (s : State) (r : BootReport) :
    (s.bootStores r).ledger = s.ledger := by simp [State.bootStores]
@[simp] theorem State.ledger_bootClock (s : State) (ok : Bool) :
    (s.bootClock ok).ledger = s.ledger := by simp [State.bootClock]
@[simp] theorem State.ledger_failGeneration (s : State) (n : Nat) : (s.failGeneration n).ledger = s.ledger := by
  unfold State.failGeneration
  split <;> rfl
@[simp] theorem State.ledger_bootConfig (s : State) (r : BootReport) :
    (s.bootConfig r).ledger = s.ledger := by simp [State.bootConfig]
@[simp] theorem State.ledger_supplyPresent (s : State) (code mv : Nat) (on : Bool) :
    (s.supplyPresent code mv on).ledger = s.ledger := by simp [State.supplyPresent]
@[simp] theorem State.ledger_bankFresh (s : State) (b mv : Nat) (uvlo low : Bool) :
    (s.bankFresh b mv uvlo low).ledger = s.ledger := by simp [State.bankFresh]
@[simp] theorem State.ledger_bankRelink (s : State) (b : Nat) :
    (s.bankRelink b).ledger = s.ledger := by simp [State.bankRelink]
@[simp] theorem State.ledger_bootBank (r : BootReport) (s : State) (b : Nat) :
    (State.bootBank r s b).ledger = s.ledger := by simp [State.bootBank]
@[simp] theorem State.ledger_relinkBank (keep : Bool) (r : BootReport) (s : State) (b : Nat) :
    (State.relinkBank keep r s b).ledger = s.ledger := by simp [State.relinkBank]
@[simp] theorem State.ledger_bootBanks (s : State) (short keep : Bool) (r : BootReport) :
    (s.bootBanks short keep r).ledger = s.ledger := by
  unfold State.bootBanks
  split <;> simp
@[simp] theorem State.ledger_bootFans (s : State) (short : Bool) (r : BootReport) :
    (s.bootFans short r).ledger = s.ledger := by simp [State.bootFans]
@[simp] theorem State.ledger_bootLinks (s : State) (r : BootReport) : (s.bootLinks r).ledger = s.ledger := by
  simp [State.bootLinks]
@[simp] theorem State.ledger_bootCombs (s : State) (r : BootReport) : (s.bootCombs r).ledger = s.ledger := by
  simp [State.bootCombs]
@[simp] theorem State.ledger_setUpUnits (s : State) : (s.setUpUnits).ledger = s.ledger := by simp [State.setUpUnits]
@[simp] theorem State.ledger_faultItems (s : State) : (s.faultItems).ledger = s.ledger := by simp [State.faultItems]
@[simp] theorem State.ledger_settle (s : State) : (s.settle).ledger = s.ledger := (rfl)
@[simp] theorem State.ledger_raiseStart (s : State) (cause : Nat) (halted : Option Nat) :
    (s.raiseStart cause halted).ledger = s.ledger := by
  unfold State.raiseStart
  split <;> simp
@[simp] theorem State.ledger_handedOver (s : State) : (s.handedOver).ledger = s.ledger := by simp [State.handedOver]

/-! ## Flags -/

@[simp] theorem State.ledger_reportAlign (s was : State) :
    (s.reportAlign was).ledger = s.ledger := by simp [State.reportAlign]
@[simp] theorem State.ledger_clearReadFlags (s : State) (slot : Nat) :
    (s.clearReadFlags slot).ledger = s.ledger := (rfl)

/-! ## Operands -/

@[simp] theorem State.ledger_seen (s : State) : (s.seen).ledger = s.ledger := (rfl)
@[simp] theorem State.ledger_modPending (s : State) (f : Content → Content) :
    (s.modPending f).ledger = s.ledger := (rfl)
@[simp] theorem State.ledger_applyWrite (s : State) (id inst : Nat) (v : Val) :
    (s.applyWrite id inst v).ledger = s.ledger := by
  unfold State.applyWrite
  dsimp only
  repeat' split
  all_goals simp
@[simp] theorem State.ledger_applyWrites (s : State) (payload : List Byte) :
    (s.applyWrites payload).ledger = s.ledger := by simp [State.applyWrites]

/-! ## Jobs -/

@[simp] theorem State.ledger_jobParts (s : State) (j : Job) :
    (s.jobParts j).2.ledger = s.ledger := by simp [State.jobParts, apply_ite Prod.snd]
@[simp] theorem State.ledger_setEnumerating (s : State) (j : Job) (on : Bool) :
    (s.setEnumerating j on).ledger = s.ledger := by simp [State.setEnumerating]
@[simp] theorem State.ledger_baudFallback (s : State) :
    (s.baudFallback).ledger = s.ledger := by simp [State.baudFallback]

/-! ## Reply -/

@[simp] theorem State.ledger_produce (s : State) (r : Reply) :
    (s.produce r).ledger = s.ledger := by simp [State.produce]
@[simp] theorem State.ledger_flushLine (s : State) : (s.flushLine).ledger = s.ledger := by simp [State.flushLine]
@[simp] theorem State.ledger_unreach (s : State) (n : Nat) : (s.unreach n).ledger = s.ledger := by simp [State.unreach]
@[simp] theorem State.ledger_replyTimeout (s : State) (n : Nat) :
    (s.replyTimeout n).ledger = s.ledger := by simp [State.replyTimeout]

/-! ## Boundary -/

@[simp] theorem State.ledger_holdEntry (s : State) (slot : Nat) : (s.holdEntry slot).ledger = s.ledger := by
  unfold State.holdEntry
  split <;> simp
@[simp] theorem State.ledger_faultEntry (s : State) (slot : Nat) : (s.faultEntry slot).ledger = s.ledger := by
  unfold State.faultEntry
  split <;> simp
@[simp] theorem State.ledger_windDown (s : State) (slot : Nat) :
    (s.windDown slot).ledger = s.ledger := by simp [State.windDown]
@[simp] theorem State.ledger_unitEvents (s : State) : (s.unitEvents).ledger = s.ledger := by simp [State.unitEvents]
@[simp] theorem State.ledger_calmDue (s : State) (t : Nat) : (s.calmDue t).ledger = s.ledger := by
  unfold State.calmDue
  split <;> simp
@[simp] theorem State.ledger_setWall (s : State) (payload : List Byte) : (s.setWall payload).ledger = s.ledger := (rfl)
@[simp] theorem State.ledger_hostWrite (s : State) (payload : List Byte) :
    (s.hostWrite payload).ledger = s.ledger := by simp [State.hostWrite]
@[simp] theorem State.ledger_programAct (s : State) (n : Nat) (e : Nat × Nat) :
    (s.programAct n e).ledger = s.ledger := by
  unfold State.programAct
  dsimp only
  repeat' split
  all_goals simp
@[simp] theorem State.ledger_programActions (s : State) (n : Nat) :
    (s.programActions n).ledger = s.ledger := by simp [State.programActions]
@[simp] theorem State.ledger_failBank (s : State) (t b : Nat) : (s.failBank t b).ledger = s.ledger := by
  unfold State.failBank
  dsimp only
  split <;> simp
@[simp] theorem State.ledger_pageFails (s : State) (page : Nat) :
    (s.pageFails page).ledger = s.ledger := by simp [State.pageFails]
@[simp] theorem State.ledger_retirePage (s : State) (p : Nat) : (s.retirePage p).ledger = s.ledger := by
  unfold State.retirePage
  dsimp only
  split <;> [skip; split] <;> simp
@[simp] theorem State.ledger_markSilent (s : State) (n : Nat) :
    (s.markSilent n).ledger = s.ledger := by simp [State.markSilent]
@[simp] theorem State.ledger_remoteDue (s : State) : (s.remoteDue).ledger = s.ledger := by simp [State.remoteDue]
@[simp] theorem State.ledger_stopForWatch (s : State) :
    (s.stopForWatch).ledger = s.ledger := by simp [State.stopForWatch]
@[simp] theorem State.ledger_wake (s : State) (t slot : Nat) : (s.wake t slot).ledger = s.ledger := by
  unfold State.wake
  split <;> simp
@[simp] theorem State.ledger_countUplink (s : State) (b : Nat) :
    (s.countUplink b).ledger = s.ledger := by simp [State.countUplink]
@[simp] theorem State.ledger_judgeSmoker (s : State) : (s.judgeSmoker).ledger = s.ledger := by simp [State.judgeSmoker]
@[simp] theorem State.ledger_countFanUplink (s : State) : (s.countFanUplink).ledger = s.ledger := (rfl)

/-! ## FieldEvents -/

@[simp] theorem State.ledger_releaseGuard (s : State) (b : Nat) :
    (s.releaseGuard b).ledger = s.ledger := by simp [State.releaseGuard]
@[simp] theorem State.ledger_pulseStatic (s : State) (ch : Nat) : (s.pulseStatic ch).ledger = s.ledger := by
  unfold State.pulseStatic
  dsimp only
  split <;> simp
@[simp] theorem State.ledger_refreshChan (s : State) (p : Plant) (ch : Nat) :
    (s.refreshChan p ch).ledger = s.ledger := by simp [State.refreshChan]
@[simp] theorem State.ledger_sendDown (s : State) (b : Nat) (intact : Bool) :
    (s.sendDown b intact).2.ledger = s.ledger := (rfl)
@[simp] theorem State.ledger_baseFrame (s : State) (b : Nat) (intact : Bool) :
    (s.baseFrame b intact).ledger = s.ledger := by simp [State.baseFrame]
@[simp] theorem State.ledger_fanFrame (s : State) (intact : Bool) :
    (s.fanFrame intact).ledger = s.ledger := by simp [State.fanFrame]
@[simp] theorem State.ledger_updateFrame (s : State) (b ch : Nat) :
    (s.updateFrame b ch).ledger = s.ledger := by simp [State.updateFrame]
@[simp] theorem State.ledger_guardExpiry (s : State) (b : Nat) :
    (s.guardExpiry b).ledger = s.ledger := by simp [State.guardExpiry]
@[simp] theorem State.ledger_fanGuardExpiry (s : State) :
    (s.fanGuardExpiry).ledger = s.ledger := by simp [State.fanGuardExpiry]
@[simp] theorem State.ledger_fieldShows (s : State) (ch : Nat) (t : Nat) (l : List Conv) (m : ChanMeas) :
    (s.fieldShows ch t l m).ledger = s.ledger := by simp [State.fieldShows]
@[simp] theorem State.ledger_formMeas (s : State) (b : Nat) (m : ChanMeas) : (s.formMeas b m).ledger = s.ledger := by
  unfold State.formMeas
  dsimp only
  repeat' split
  all_goals simp
@[simp] theorem State.ledger_takeFormed (s : State) (ch : Nat) : (s.takeFormed ch).ledger = s.ledger := by
  unfold State.takeFormed
  split <;> simp
@[simp] theorem State.ledger_takeFaultBit (s : State) (b : Nat) :
    (s.takeFaultBit b).ledger = s.ledger := by simp [State.takeFaultBit]
@[simp] theorem State.ledger_bankFrame (s : State) (b : Nat) (f : Uplink) :
    (s.bankFrame b f).ledger = s.ledger := by simp [State.bankFrame]
@[simp] theorem State.ledger_fanUplink (s : State) (f : Uplink) :
    (s.fanUplink f).ledger = s.ledger := by simp [State.fanUplink]
@[simp] theorem State.ledger_vfldReport (s : State) (b bit : Nat) (on : Bool) (mv : Nat) :
    (s.vfldReport b bit on mv).ledger = s.ledger := by simp [State.vfldReport]
@[simp] theorem State.ledger_vfldUvlo (s : State) (b : Nat) (on : Bool) (mv : Nat) :
    (s.vfldUvlo b on mv).ledger = s.ledger := by simp [State.vfldUvlo]
@[simp] theorem State.ledger_vfldLowCross (s : State) (b : Nat) (on : Bool) (mv : Nat) :
    (s.vfldLowCross b on mv).ledger = s.ledger := by simp [State.vfldLowCross]
@[simp] theorem State.ledger_vfanCross (s : State) (c : VfanCrossing) (mv : Nat) :
    (s.vfanCross c mv).ledger = s.ledger := by
  unfold State.vfanCross
  split <;> simp
@[simp] theorem State.ledger_bankReport (s : State) (b : Nat) (r : BankReport) :
    (s.bankReport b r).ledger = s.ledger := by simp [State.bankReport]
@[simp] theorem State.ledger_bankService (s : State) (b : Nat) (r : BankReport) :
    (s.bankService b r).ledger = s.ledger := by
  unfold State.bankService
  dsimp only
  split <;> simp
@[simp] theorem State.ledger_declareFailure (s : State) (b : Nat) (cause : BankFailCause) :
    (s.declareFailure b cause).ledger = s.ledger := by
  unfold State.declareFailure
  split <;> [skip; split] <;> simp
@[simp] theorem State.ledger_restartBank (s : State) (b : Nat) (passed : Bool) :
    (s.restartBank b passed).ledger = s.ledger := by simp [State.restartBank]
@[simp] theorem State.ledger_judgeLoad (s : State) (b : Nat) (unseen : List Nat) :
    (s.judgeLoad b unseen).ledger = s.ledger := by simp [State.judgeLoad]
@[simp] theorem State.ledger_edge (s : State) (ch : Nat) (rise : Bool) (fine : Nat) :
    (s.edge ch rise fine).ledger = s.ledger := by simp [State.edge]
@[simp] theorem State.ledger_tripChan (s : State) (ch code partner : Nat) :
    (s.tripChan ch code partner).ledger = s.ledger := by simp [State.tripChan]
@[simp] theorem State.ledger_overload (s : State) (ch : Nat) :
    (s.overload ch).ledger = s.ledger := by simp [State.overload]
@[simp] theorem State.ledger_backfeed (s : State) (ch : Nat) (switchedOn : List Nat) :
    (s.backfeed ch switchedOn).ledger = s.ledger := by
  unfold State.backfeed
  dsimp only
  split <;> [split; skip] <;> simp
@[simp] theorem State.ledger_imbalance (s : State) (ch : Nat) :
    (s.imbalance ch).ledger = s.ledger := by simp [State.imbalance]
@[simp] theorem State.ledger_openAoi (s : State) (ch : Nat) :
    (s.openAoi ch).ledger = s.ledger := by simp [State.openAoi]
@[simp] theorem State.ledger_aovTrip (s : State) (ch : Nat) :
    (s.aovTrip ch).ledger = s.ledger := by simp [State.aovTrip]
@[simp] theorem State.ledger_lineTrip (s : State) (ch code : Nat) :
    (s.lineTrip ch code).ledger = s.ledger := by simp [State.lineTrip]
@[simp] theorem State.ledger_periodEnd (s : State) (ch : Nat) : (s.periodEnd ch).ledger = s.ledger := by
  unfold State.periodEnd
  dsimp only
  split <;> simp
@[simp] theorem State.ledger_fanShort (s : State) (n : Nat) :
    (s.fanShort n).ledger = s.ledger := by simp [State.fanShort]

/-! ## Evaluate -/

@[simp] theorem State.ledger_evalChannel (s : State) (ch : Nat) : (s.evalChannel ch).ledger = s.ledger := by
  unfold State.evalChannel
  split <;> simp
@[simp] theorem State.ledger_evalHive (s : State) (slot : Nat) :
    (s.evalHive slot).ledger = s.ledger := by simp [State.evalHive]
@[simp] theorem State.ledger_evalUnit (s : State) (slot : Nat) : (s.evalUnit slot).ledger = s.ledger := by
  unfold State.evalUnit
  split <;> [skip; split] <;> simp
@[simp] theorem State.ledger_noteEdges (s : State) (e : Nat × List Stamp × List (Nat × Nat)) :
    (s.noteEdges e).ledger = s.ledger := by simp [State.noteEdges]
@[simp] theorem State.ledger_channelRecords (s : State) (ch : Nat) : (s.channelRecords ch).ledger = s.ledger := by
  unfold State.channelRecords
  dsimp only
  split <;> simp
@[simp] theorem State.ledger_gatherAll (s : State) : (s.gatherAll).ledger = s.ledger := by simp [State.gatherAll]
@[simp] theorem State.ledger_evaluate (s : State) : (s.evaluate).ledger = s.ledger := by simp [State.evaluate]
@[simp] theorem State.ledger_evaluateDue (s : State) : (s.evaluateDue).ledger = s.ledger := by simp [State.evaluateDue]
@[simp] theorem State.ledger_cutTick (s : State) : (s.cutTick).ledger = s.ledger := by simp [State.cutTick]
@[simp] theorem State.ledger_uncut (s : State) : (s.uncut).ledger = s.ledger := by
  unfold State.uncut
  split <;> simp
@[simp] theorem State.ledger_fifoAppend (s : State) (e : Nat × List Stamp × List (Nat × Nat)) :
    (s.fifoAppend e).ledger = s.ledger := by simp [State.fifoAppend]
@[simp] theorem State.ledger_redo (s : State) : (s.redo).ledger = s.ledger := by simp [State.redo]

/-! ## Events -/

@[simp] theorem State.ledger_calmAt (s : State) (t : Nat) : (s.calmAt t).ledger = s.ledger := by simp [State.calmAt]
@[simp] theorem State.ledger_unitBad (s : State) (slot : Nat) :
    (s.unitBad slot).ledger = s.ledger := by simp [State.unitBad]
@[simp] theorem State.ledger_cellBad (s : State) (ref : Nat) :
    (s.cellBad ref).ledger = s.ledger := by simp [State.cellBad]
@[simp] theorem State.ledger_countDiscard (s : State) (reason : DiscardReason) :
    (s.countDiscard reason).ledger = s.ledger := by
  unfold State.countDiscard
  split <;> rfl
@[simp] theorem State.ledger_uartKeeps (s : State) (r : Nat × Nat × List Byte) :
    (s.uartKeeps r).ledger = s.ledger := (rfl)
@[simp] theorem State.ledger_replyRead (s : State) : (s.replyRead).ledger = s.ledger := by
  unfold State.replyRead
  split <;> rfl

/-! ## Host -/

@[simp] theorem State.ledger_feedSmoker (s : State) : (s.feedSmoker).ledger = s.ledger := (rfl)
@[simp] theorem State.ledger_admitPacket (s : State) (p : Packet) :
    (s.admitPacket p).2.ledger = s.ledger := by simp [State.admitPacket, apply_ite Prod.snd]

/-! ## HostUnits -/

@[simp] theorem State.ledger_actOnGrafts (s : State) (c : Ctx) :
    (s.actOnGrafts c).ledger = s.ledger := by simp [State.actOnGrafts]

/-! ## HostCfg -/

@[simp] theorem State.ledger_diagRead (s : State) (b : Nat) :
    (s.diagRead b).ledger = s.ledger := by simp [State.diagRead]

/-! ## LinkEvents -/

@[simp] theorem State.ledger_sendReply (s : State) (session seq : BitVec 16) (packet : List Byte) :
    (s.sendReply session seq packet).ledger = s.ledger := by simp [State.sendReply]
@[simp] theorem State.ledger_feedNode (s : State) (n : Nat) :
    (s.feedNode n).ledger = s.ledger := by simp [State.feedNode]

/-! ## Replay -/

@[simp] theorem State.ledger_overlay (s : State) (area : List Byte) (off : Nat) (d : List Byte) :
    (s.overlay area off d).2.ledger = s.ledger := (rfl)
@[simp] theorem State.ledger_replayCell (first : Bool) (s : State) (e : List Byte) :
    (State.replayCell first s e).ledger = s.ledger := (rfl)
@[simp] theorem State.ledger_replayCellError (s : State) (e : List Byte) :
    (s.replayCellError e).ledger = s.ledger := (rfl)
@[simp] theorem State.ledger_replayService (s : State) (u : Nat) (off : Bool) :
    (s.replayService u off).ledger = s.ledger := (rfl)
@[simp] theorem State.ledger_replayCapacity (s : State) (e : List Byte) : (s.replayCapacity e).ledger = s.ledger := by
  unfold State.replayCapacity
  split <;> simp
@[simp] theorem State.ledger_replayHold (s : State) (e : List Byte) : (s.replayHold e).ledger = s.ledger := (rfl)
@[simp] theorem State.ledger_replayGather (s : State) (scope : List Nat) :
    (s.replayGather scope).ledger = s.ledger := by simp [State.replayGather]

/-! ## Timers -/

@[simp] theorem State.ledger_chainTrip (s : State) (n i code : Nat) : (s.chainTrip n i code).ledger = s.ledger := by
  unfold State.chainTrip
  split <;> simp

/-! ## Step -/

@[simp] theorem State.ledger_withFetchWord (s : State) (nbits w : Nat) :
    (s.withFetchWord nbits w).ledger = s.ledger := (rfl)

end Sys2Proof.Machine
end

section
/-! # Operations that take something out of the ledger (R63, R69, R78, R79)

What a ledger covers, it covers after each of these operations too; in the order of the model. -/

namespace Sys2Proof.Machine

/-- A ledger with no more in it than `l` has: as many sessions, waiting commands and jobs at most, and an event queue
that keeps to its places if it did. -/
structure Ledger.Covers (l m : Ledger) : Prop where
  sessions : m.sessions.length ≤ l.sessions.length
  sched : m.sched.length ≤ l.sched.length
  jobs : m.jobs.length ≤ l.jobs.length
  room : l.room = true → m.room = true

@[simp] theorem Ledger.covers_self (l : Ledger) : l.Covers l := ⟨le_rfl, le_rfl, le_rfl, id⟩

theorem Ledger.Covers.trans {l m n : Ledger} (h : l.Covers m) (h' : m.Covers n) : l.Covers n :=
  ⟨h'.sessions.trans h.sessions, h'.sched.trans h.sched, h'.jobs.trans h.jobs, fun hr => h'.room (h.room hr)⟩

@[simp] theorem Ledger.covers_ite {l m n : Ledger} {c : Prop} [Decidable c] :
    l.Covers (if c then m else n) ↔ (c → l.Covers m) ∧ (¬c → l.Covers n) := by
  split <;> simp [*]

/-- Covering does not look at power and the clock. -/
@[simp] theorem Ledger.covers_clock {l : Ledger} {s : State} {vinOn alive : Bool} {activateAt : Option Nat} {tick : Nat}
    {checkpoint : Nat × Int} :
    l.Covers ⟨s.host.sessions, s.sched, s.jobs, s.host.room, vinOn, alive, activateAt, tick, checkpoint⟩ ↔
      l.Covers s.ledger :=
  ⟨fun ⟨h1, h2, h3, h4⟩ => ⟨h1, h2, h3, h4⟩, fun ⟨h1, h2, h3, h4⟩ => ⟨h1, h2, h3, h4⟩⟩

section
variable {l : Ledger} {s : State} (h : l.Covers s.ledger)
include h
theorem Ledger.Covers.sessions_le : s.host.sessions.length ≤ l.sessions.length := h.sessions
theorem Ledger.Covers.sched_le : s.sched.length ≤ l.sched.length := h.sched
theorem Ledger.Covers.jobs_le : s.jobs.length ≤ l.jobs.length := h.jobs
theorem Ledger.Covers.room_of : l.room = true → s.host.room = true := h.room
end

/-- What the steps of a walk stay within, the walk stays within. -/
theorem Ledger.covers_foldl {α : Type} {l : Ledger} {f : State → α → State}
    (hf : ∀ s a, l.Covers s.ledger → l.Covers (f s a).ledger) (xs : List α) {s : State} (h : l.Covers s.ledger) :
    l.Covers (xs.foldl f s).ledger :=
  List.foldlRecOn (motive := fun t => l.Covers (State.ledger t)) xs f h (fun t ht a _ => hf t a ht)

/-- A job can be taken out of the list. -/
theorem State.covers_filterJobs {l : Ledger} {s : State} (h : l.Covers s.ledger) (p : Job → Bool) :
    l.Covers ({ s with jobs := s.jobs.filter p } : State).ledger :=
  ⟨h.sessions, h.sched, (List.length_filter_le _ _).trans h.jobs_le, h.room⟩

/-- Jobs can change where they stand. -/
theorem State.covers_mapJobs {l : Ledger} {s : State} (h : l.Covers s.ledger) (f : Job → Job) :
    l.Covers ({ s with jobs := s.jobs.map f } : State).ledger :=
  ⟨h.sessions, h.sched, by simpa using h.jobs_le, h.room⟩

/-! ## Ops -/

@[simp] theorem State.covers_modJob {l : Ledger} {s : State} (h : l.Covers s.ledger) (k : Nat) (f : Job → Job) :
    l.Covers (s.modJob k f).ledger :=
  ⟨h.sessions, h.sched, by simpa [State.modJob] using h.jobs_le, h.room⟩

@[simp] theorem State.covers_endJob {l : Ledger} {s : State} (h : l.Covers s.ledger) (k : Nat) (st : JobState)
    (status detail : Nat) (data : List Byte) : l.Covers (s.endJob k st status detail data).ledger := by
  unfold State.endJob
  split
  · exact h
  · dsimp only
    split
    · exact State.covers_filterJobs (by simp [h]) _
    · simp [h]

/-! ## Recorder -/

@[simp] theorem State.covers_overwritten {l : Ledger} {s : State} (h : l.Covers s.ledger) (seq : Nat) :
    l.Covers (s.overwritten seq).ledger :=
  Ledger.covers_foldl (fun _ _ hs => State.covers_endJob hs _ _ _ _ _) _ h

@[simp] theorem State.covers_reachSector {l : Ledger} {s : State} (h : l.Covers s.ledger) (healthOk : Bool)
    (x : Summary) :
    l.Covers (State.reachSector healthOk s x).ledger := by
  unfold State.reachSector
  split <;> simp [h]

@[simp] theorem State.covers_writeSummary {l : Ledger} {s : State} (h : l.Covers s.ledger) (programOk healthOk : Bool) :
    l.Covers (s.writeSummary programOk healthOk).ledger := by
  unfold State.writeSummary
  dsimp only
  split
  · exact h
  · split
    · exact h
    · split
      · simpa using h
      · split
        · simpa using h
        · exact Ledger.covers_foldl (fun s x hs => State.covers_reachSector hs _ x) _ (by simpa using h)

@[simp] theorem State.covers_clearRecorder {l : Ledger} {s : State} (h : l.Covers s.ledger) (e : Nat) :
    l.Covers (s.clearRecorder e).ledger := by
  have hdropped := fun f => State.covers_mapJobs h f
  unfold State.clearRecorder
  dsimp only
  split
  · rw [State.ledger_openInterval]
    exact hdropped _
  · exact hdropped _

/-! ## Generations -/

@[simp] theorem State.covers_endChange {l : Ledger} {s : State} (h : l.Covers s.ledger) (j : Job) (st : JobState)
    (status detail : Nat) (data : List Byte) :
    l.Covers (s.endChange j st status detail data).ledger := by simp [State.endChange, h]

@[simp] theorem State.covers_validationDone {l : Ledger} {s : State} (h : l.Covers s.ledger) (j : Job) :
    l.Covers (s.validationDone j).ledger := by
  unfold State.validationDone
  dsimp only
  repeat' split
  all_goals simp [h]

/-! ## InRec -/

@[simp] theorem State.covers_recOverwritten {l : Ledger} {s : State} (h : l.Covers s.ledger) (gone : List (List Byte)) :
    l.Covers (s.recOverwritten gone).ledger :=
  Ledger.covers_foldl (fun _ _ hs => State.covers_endJob hs _ _ _ _ _) _ h

@[simp] theorem State.covers_append {l : Ledger} {s : State} (h : l.Covers s.ledger) (es : List (List Byte)) :
    l.Covers (s.append es).ledger := by simp [State.append, h]

@[simp] theorem State.covers_closeWindow {l : Ledger} {s : State} (h : l.Covers s.ledger) (t : Nat) :
    l.Covers (s.closeWindow t).ledger := by simp [State.closeWindow, h]

@[simp] theorem State.covers_beginSegment {l : Ledger} {s : State} (h : l.Covers s.ledger) (t : Nat) :
    l.Covers (s.beginSegment t).ledger := by simp [State.beginSegment, h]

@[simp] theorem State.covers_endSegment {l : Ledger} {s : State} (h : l.Covers s.ledger) (t last reason : Nat) :
    l.Covers (s.endSegment t last reason).ledger := by simp [State.endSegment, h]

@[simp] theorem State.covers_appendTick {l : Ledger} {s : State} (h : l.Covers s.ledger) (t : Nat) (due : Nat → Bool)
    (cut : List Byte) :
    l.Covers (s.appendTick t due cut).ledger := by simp [State.appendTick, h]

@[simp] theorem State.covers_recBoundary {l : Ledger} {s : State} (h : l.Covers s.ledger) (t : Nat)
    (changed power : Bool) :
    l.Covers (s.recBoundary t changed power).ledger := by simp [State.recBoundary, h]

@[simp] theorem State.covers_recordGap {l : Ledger} {s : State} (h : l.Covers s.ledger) (t last : Nat) :
    l.Covers (s.recordGap t last).ledger := by simp [State.recordGap, h]

@[simp] theorem State.covers_resizeRing {l : Ledger} {s : State} (h : l.Covers s.ledger) (t : Nat) :
    l.Covers (s.resizeRing t).ledger := by simp [State.resizeRing, h]

/-! ## Capacity -/

@[simp] theorem State.covers_activate {l : Ledger} {s : State} (h : l.Covers s.ledger) (t : Nat) :
    l.Covers (s.activate t).ledger := by
  have hend : ∀ (js : List Job) {u : State}, l.Covers u.ledger →
      l.Covers (js.foldl (fun s j => s.endChange j .done stOk 0 j.data) u).ledger :=
    fun js u hu => Ledger.covers_foldl (fun s j hs => State.covers_endChange hs j _ _ _ _) js hu
  unfold State.activate
  split
  · exact h
  · split
    · exact h
    · dsimp only
      split
      · exact h
      · simp only [State.ledger_syncHives, State.ledger_switchLink]
        refine State.covers_resizeRing ?_ t
        rw [ledger_foldl State.ledger_vfldFlags]
        simp only [State.ledger_mk, ledger_eta, State.ledger_switchUnits]
        refine hend _ ?_
        simp [h]

/-! ## Update -/

@[simp] theorem State.covers_updBegin {l : Ledger} {s : State} (h : l.Covers s.ledger) (who : UpdOwner)
    (m : List Byte) :
    l.Covers (s.updBegin who m).2.ledger := by
  unfold State.updBegin
  dsimp only
  repeat' split
  all_goals simp [h]

@[simp] theorem State.covers_verifyDone {l : Ledger} {s : State} (h : l.Covers s.ledger) (j : Job) :
    l.Covers (s.verifyDone j).ledger := by simp [State.verifyDone, h]

@[simp] theorem State.covers_verifyStopped {l : Ledger} {s : State} (h : l.Covers s.ledger) :
    l.Covers (s.verifyStopped).ledger := by simp [State.verifyStopped, h]

@[simp] theorem State.covers_updActivate {l : Ledger} {s : State} (h : l.Covers s.ledger) (who : UpdOwner) :
    l.Covers (s.updActivate who).2.ledger := by
  unfold State.updActivate
  split
  · exact h
  · split
    · exact h
    · split <;> simpa using h

@[simp] theorem State.covers_updConfirm {l : Ledger} {s : State} (h : l.Covers s.ledger) (who : UpdOwner) :
    l.Covers (s.updConfirm who).2.ledger := by
  unfold State.updConfirm
  split <;> [skip; split] <;> simp [h]

@[simp] theorem State.covers_updAbort {l : Ledger} {s : State} (h : l.Covers s.ledger) (who : UpdOwner) :
    l.Covers (s.updAbort who).2.ledger := by
  unfold State.updAbort
  split
  · exact h
  · split
    case h_1 => exact h
    case h_2 =>
      rw [State.ledger_modUpd]
      exact Ledger.covers_clock.mpr (State.covers_mapJobs h _)
    case h_3 => simpa using h
    case h_4 => simpa using h

@[simp] theorem State.covers_fallBack {l : Ledger} {s : State} (h : l.Covers s.ledger) (reason : Nat) :
    l.Covers (s.fallBack reason).ledger := by simp [State.fallBack, h]

/-! ## Housekeeping -/

@[simp] theorem State.covers_thermalShutdown {l : Ledger} {s : State} (h : l.Covers s.ledger) (t : Nat) :
    l.Covers (s.thermalShutdown t).ledger := by simp [State.thermalShutdown, h]

/-! ## Boot -/

/-- A stop leaves no session, no command and no job. -/
@[simp] theorem State.covers_stopLogic {l : Ledger} {s : State} (h : l.Covers s.ledger) (n : Nat) :
    l.Covers (s.stopLogic n).ledger := by
  have hroom : (s.stopLogic n).host.room = s.host.room := by
    unfold State.stopLogic State.abandonChange
    dsimp only
    split <;> rfl
  exact ⟨Nat.zero_le _, Nat.zero_le _, Nat.zero_le _, fun hr => hroom.trans (h.room_of hr)⟩

@[simp] theorem State.covers_stopFor {l : Ledger} {s : State} (h : l.Covers s.ledger) (closed cause : Nat) :
    l.Covers (s.stopFor closed cause).ledger := by simp [State.stopFor, h]

@[simp] theorem State.covers_hostReset {l : Ledger} {s : State} (h : l.Covers s.ledger) :
    l.Covers (s.hostReset).ledger := by simp [State.hostReset, h]

@[simp] theorem State.covers_restartLogic {l : Ledger} {s : State} (h : l.Covers s.ledger) :
    l.Covers (s.restartLogic).ledger := by simp [State.restartLogic, h]

@[simp] theorem State.covers_vinFail {l : Ledger} {s : State} (h : l.Covers s.ledger) :
    l.Covers (s.vinFail).ledger := by simp [State.vinFail, h]

@[simp] theorem State.covers_vinReturn {l : Ledger} {s : State} (h : l.Covers s.ledger) (uart : Bool) :
    l.Covers (s.vinReturn uart).ledger := by simp [State.vinReturn, h]

@[simp] theorem State.covers_endStart {l : Ledger} {s : State} (h : l.Covers s.ledger) (cause : Nat) :
    l.Covers (s.endStart cause).ledger := by simp [State.endStart, h]

@[simp] theorem State.covers_bootHold {l : Ledger} {s : State} (h : l.Covers s.ledger) (cause b : Nat) :
    l.Covers (s.bootHold cause b).ledger := by simp [State.bootHold, h]

/-- A start begins with an empty event queue. -/
@[simp] theorem State.covers_beginStart {l : Ledger} {s : State} (h : l.Covers s.ledger) (cause : Nat)
    (r : BootReport) :
    l.Covers (s.beginStart cause r).ledger := by
  unfold State.beginStart
  simp only [State.ledger_openJournal, State.ledger_clearRetried, State.ledger_modHk, State.ledger_mk, ledger_eta,
    State.ledger_modBoot, State.ledger_modHost]
  exact ⟨h.sessions, h.sched, h.jobs, fun _ => rfl⟩

@[simp] theorem State.covers_fallsAtStart {l : Ledger} {s : State} (h : l.Covers s.ledger) (reason : Nat) :
    l.Covers (s.fallsAtStart reason).ledger := by simp [State.fallsAtStart, h]

@[simp] theorem State.covers_bootRest {l : Ledger} {s : State} (h : l.Covers s.ledger) (cause : Nat) (r : BootReport) :
    l.Covers (s.bootRest cause r).ledger := by simp [State.bootRest, h]

@[simp] theorem State.covers_bootStart {l : Ledger} {s : State} (h : l.Covers s.ledger) (c : StartCause)
    (r : BootReport) :
    l.Covers (s.bootStart c r).ledger := by
  have hslot : l.Covers (((s.beginStart (startCode c) r).outcome 1 0).bootSlot r).2.ledger := by simp [h]
  unfold State.bootStart
  dsimp only
  split
  · exact h
  · split
    · split <;> simp [h]
    · split <;> rename_i heq <;> rw [heq] at hslot
      · exact State.covers_fallsAtStart hslot _
      · exact State.covers_bootHold hslot _ _
      · exact State.covers_bootRest hslot _ _

@[simp] theorem State.covers_shortStart {l : Ledger} {s : State} (h : l.Covers s.ledger) (cause : Nat) (keep : Bool)
    (r : BootReport) :
    l.Covers (s.shortStart cause keep r).ledger := by simp [State.shortStart, h]

@[simp] theorem State.covers_activationPause {l : Ledger} {s : State} (h : l.Covers s.ledger) (resumeAt : Nat)
    (r : BootReport) : l.Covers (s.activationPause resumeAt r).ledger := by
  unfold State.activationPause
  split
  · exact h
  · split
    · exact h
    · extract_lets back first sched calmed stopped mark paused new unmarked begun cause started keep
      have hpaused : l.Covers paused.ledger := by
        rw [State.ledger_mk, Ledger.covers_clock]
        exact State.covers_stopLogic h 0
      have hbegun : l.Covers begun.ledger := by
        unfold begun
        split
        · exact State.covers_fallBack hpaused 3
        · rw [State.ledger_runSlot]
          exact Ledger.covers_clock.mpr hpaused
      have hstarted : l.Covers started.ledger := by
        rw [State.ledger_modJournal]
        exact State.covers_beginStart hbegun cause r
      have hslot : l.Covers ((started.outcome 1 0).bootSlot r).2.ledger := by simp [hstarted]
      split
      · split <;> simp [hstarted]
      · split <;> rename_i heq <;> rw [heq] at hslot
        · exact State.covers_fallsAtStart hslot _
        · exact State.covers_bootHold hslot _ _
        · extract_lets stores resumed moved
          have hstores : l.Covers stores.ledger := by simpa [stores] using hslot
          have hresumed : l.Covers resumed.ledger := State.covers_shortStart hstores cause keep r
          split
          · split
            · exact State.covers_fallsAtStart hstores 2
            · exact State.covers_bootHold hstores cause 5
          · split
            · exact ⟨hresumed.sessions, h.sched_le, hresumed.jobs, hresumed.room⟩
            · exact hresumed

/-! ## Operands -/

@[simp] theorem State.covers_modSession {l : Ledger} {s : State} (h : l.Covers s.ledger) (id : BitVec 16)
    (f : Session → Session) : l.Covers (s.modSession id f).ledger :=
  ⟨by simpa [State.modSession] using h.sessions_le, h.sched, h.jobs, h.room⟩

/-! ## Jobs -/

@[simp] theorem State.covers_runJob {l : Ledger} {s : State} (h : l.Covers s.ledger) (j : Job) :
    l.Covers (s.runJob j).ledger := by
  unfold State.runJob
  split <;> [skip; split] <;> simp [h]

@[simp] theorem State.covers_finishJob {l : Ledger} {s : State} (h : l.Covers s.ledger) (j : Job) (st : JobState)
    (status detail : Nat) (data : List Byte) :
    l.Covers (s.finishJob j st status detail data).ledger := by simp [State.finishJob, h]

@[simp] theorem State.covers_cancelNow {l : Ledger} {s : State} (h : l.Covers s.ledger) (j : Job) :
    l.Covers (s.cancelNow j).ledger := by simp [State.cancelNow, h]

@[simp] theorem State.covers_runNext {l : Ledger} (k : Nat) {s : State} (h : l.Covers s.ledger) :
    l.Covers (State.runNext k s).ledger := by
  induction k generalizing s with
  | zero => exact h
  | succ k ih =>
    unfold State.runNext
    split
    · exact h
    · split
      · exact h
      · exact ih (State.covers_runJob h _)

@[simp] theorem State.covers_dispatchJobs {l : Ledger} {s : State} (h : l.Covers s.ledger) :
    l.Covers s.dispatchJobs.ledger :=
  State.covers_runNext 8 (Ledger.covers_foldl (fun _ j hs => State.covers_cancelNow hs j) _ h)

@[simp] theorem State.covers_checkpointJob {l : Ledger} {s : State} (h : l.Covers s.ledger) (k progress : Nat) :
    l.Covers (s.checkpointJob k progress).ledger := by
  unfold State.checkpointJob
  split
  · exact h
  · split
    · exact h
    · have hat := State.covers_modJob h k (fun j => { j with progress := Nat.min 1000 progress })
      dsimp only
      split
      · exact State.covers_dispatchJobs (State.covers_cancelNow hat _)
      · split
        · refine State.covers_dispatchJobs ?_
          split
          · exact State.covers_verifyStopped (State.covers_modJob hat k _)
          · exact State.covers_modJob hat k _
        · split
          · exact State.covers_dispatchJobs (State.covers_modJob hat k _)
          · exact hat

/-- The completion of a job's work covers what the work itself covers. -/
theorem State.covers_completeJob {l : Ledger} {s : State} (h : l.Covers s.ledger) (k opcode : Nat)
    {f : State → Job → State} (hf : ∀ j, l.Covers (f s j).ledger) : l.Covers (s.completeJob k opcode f).ledger := by
  unfold State.completeJob
  split
  · exact h
  · split
    · exact h
    · split
      · exact State.covers_checkpointJob h _ _
      · exact State.covers_dispatchJobs (hf _)

@[simp] theorem State.covers_orphanJob {l : Ledger} {s : State} (h : l.Covers s.ledger) (j : Job) :
    l.Covers (s.orphanJob j).ledger := by
  unfold State.orphanJob
  split
  · exact State.covers_filterJobs h _
  · dsimp only
    split <;> simp [h]

@[simp] theorem State.covers_releaseSender {l : Ledger} {s : State} (h : l.Covers s.ledger) (sid : BitVec 16)
    (who : UpdOwner) : l.Covers (s.releaseSender sid who).ledger := by
  unfold State.releaseSender
  extract_lets dropped orphaned left
  have horphaned : l.Covers orphaned.ledger :=
    Ledger.covers_foldl (fun s j hs => State.covers_orphanJob hs j) _ (by simpa [dropped] using h)
  have hleft : l.Covers left.ledger := by
    unfold left
    split
    · rw [State.ledger_modUpd]
      exact Ledger.covers_clock.mpr horphaned
    · exact horphaned
  exact State.covers_dispatchJobs hleft

@[simp] theorem State.covers_closeSession {l : Ledger} {s : State} (h : l.Covers s.ledger) (id : BitVec 16)
    (raise : Bool) :
    l.Covers (s.closeSession id raise).ledger := by
  unfold State.closeSession
  split
  · exact h
  · have hreleased := State.covers_releaseSender h id (.session id)
    have hclosed : l.Covers ((s.releaseSender id (.session id)).modHost
        (fun x => { x with sessions := x.sessions.filter (fun y => y.id != id) })).ledger := by
      rw [State.ledger_modHost]
      exact ⟨(List.length_filter_le _ _).trans hreleased.sessions_le, hreleased.sched, hreleased.jobs, hreleased.room⟩
    dsimp only
    split
    · rw [State.ledger_raise]
      exact hclosed
    · exact hclosed

@[simp] theorem State.covers_closeIdle {l : Ledger} {s : State} (h : l.Covers s.ledger) (t : Nat) :
    l.Covers (s.closeIdle t).ledger :=
  Ledger.covers_foldl (fun _ x hs => State.covers_closeSession hs x.id true) _ h

/-! ## Boundary -/

@[simp] theorem State.covers_commandEffect {l : Ledger} {s : State} (h : l.Covers s.ledger) (x : Sched) :
    l.Covers (s.commandEffect x).ledger := by
  unfold State.commandEffect
  split <;> simp [h]

@[simp] theorem State.covers_applyCommand {l : Ledger} {s : State} (h : l.Covers s.ledger) (x : Sched) :
    l.Covers (s.applyCommand x).ledger := by
  unfold State.applyCommand
  split <;> [split; skip] <;> simp [h]

@[simp] theorem State.covers_commandsDue {l : Ledger} {s : State} (h : l.Covers s.ledger) (t : Nat) :
    l.Covers (s.commandsDue t).2.ledger := by
  have hrest : l.Covers ({ s with sched := s.sched.filter (fun x => decide (t < x.at_)) } : State).ledger :=
    ⟨h.sessions, (List.length_filter_le _ _).trans h.sched_le, h.jobs, h.room⟩
  exact List.foldlRecOn (motive := fun r : Option Power × State => l.Covers r.2.ledger) _ _ hrest
    (fun r hr x _ => State.covers_applyCommand hr x)

@[simp] theorem State.covers_loseDue {l : Ledger} {s : State} (h : l.Covers s.ledger) (n : Nat) :
    l.Covers (s.loseDue n).ledger := by simp [State.loseDue, h]

@[simp] theorem State.covers_enterDormant {l : Ledger} {s : State} (h : l.Covers s.ledger) :
    l.Covers (s.enterDormant).ledger := by simp [State.enterDormant, h]

@[simp] theorem State.covers_enterPower {l : Ledger} {s : State} (h : l.Covers s.ledger) (t : Nat) (target : Power) :
    l.Covers (s.enterPower t target).ledger := by simp [State.enterPower, h]

@[simp] theorem State.covers_boundaryEvents {l : Ledger} {s : State} (h : l.Covers s.ledger) (t : Nat) :
    l.Covers (s.boundaryEvents t).ledger := by
  have hlost : ∀ (ns : List Nat) {u : State}, l.Covers u.ledger → l.Covers (ns.foldl State.loseDue u).ledger :=
    fun ns u hu => Ledger.covers_foldl (fun s n hs => State.covers_loseDue hs n) ns hu
  unfold State.boundaryEvents
  extract_lets called due acted failed heard changed active returned joined marked lost swept retired was entered
  have hactive : l.Covers active.ledger := State.covers_activate (by
    rw [State.ledger_syncHives, State.ledger_remoteDue, ledger_foldl (fun s b => State.ledger_failBank s t b),
      ledger_foldl State.ledger_programActions]
    exact State.covers_commandsDue (by simp [called, h]) t) t
  have hmarked : l.Covers marked.ledger := by
    rw [ledger_foldl State.ledger_markSilent, ledger_foldl (fun s n => by split <;> simp),
      ledger_foldl (fun s ch => State.ledger_returnEnds s t ch)]
    exact hactive
  have hretired : l.Covers retired.ledger := by
    rw [ledger_foldl State.ledger_retirePage, State.ledger_recExtremes, State.ledger_checkRounds,
      State.ledger_syncHives]
    exact hlost _ hmarked
  have hentered : l.Covers entered.ledger := by
    unfold entered
    split
    · exact State.covers_enterPower hretired t _
    · exact hretired
  split
  · exact hentered
  · exact State.covers_recBoundary (by rwa [State.ledger_recExtremes]) t _ _

/-- Work done as of another tick covers what the work itself covers. -/
theorem State.covers_atTick {l : Ledger} {s : State} (h : l.Covers s.ledger) (t : Nat) {f : State → State}
    (hf : ∀ u : State, l.Covers u.ledger → l.Covers (f u).ledger) : l.Covers (s.atTick t f).ledger := by
  have hwork : l.Covers (f { s with tick := t, workTick := t }).ledger := hf _ (by simpa using h)
  exact ⟨hwork.sessions, hwork.sched, hwork.jobs, hwork.room⟩

theorem State.covers_atBoundary {l : Ledger} {s : State} (h : l.Covers s.ledger) {f : Nat → State → State}
    (hf : ∀ (t : Nat) (u : State), l.Covers u.ledger → l.Covers (f t u).ledger) : l.Covers (s.atBoundary f).ledger := by
  unfold State.atBoundary
  split
  · exact h
  · have hdone := State.covers_atTick h (if s.committed then s.workTick + 1 else s.workTick)
      (hf (if s.committed then s.workTick + 1 else s.workTick))
    exact ⟨hdone.sessions, hdone.sched, hdone.jobs, hdone.room⟩

@[simp] theorem State.covers_openTick {l : Ledger} {s : State} (h : l.Covers s.ledger) :
    l.Covers s.openTick.ledger := by
  have hopen := State.covers_atTick (s := { s with evaluated := false, committed := false, skip := [] })
    (by simpa using h)
    (s.workTick + 1) (f := fun u => u.boundaryEvents (s.workTick + 1)) (fun u hu => State.covers_boundaryEvents hu _)
  unfold State.openTick
  dsimp only
  split
  · exact hopen
  · rw [ledger_foldl (fun s b => State.ledger_windowBoundary s _ b)]
    exact hopen

@[simp] theorem State.covers_writeCheckpoint {l : Ledger} {s : State} (h : l.Covers s.ledger) :
    l.Covers (s.writeCheckpoint).ledger := by simp [State.writeCheckpoint, h]

@[simp] theorem State.covers_hostClock {l : Ledger} {s : State} (h : l.Covers s.ledger) (t : Nat) :
    l.Covers (s.hostClock t).ledger := by
  unfold State.hostClock
  dsimp only
  repeat' split
  all_goals simp [h]

@[simp] theorem State.covers_houseClock {l : Ledger} {s : State} (h : l.Covers s.ledger) :
    l.Covers (s.houseClock).ledger := by simp [State.houseClock, h]

@[simp] theorem State.covers_tickBoundary {l : Ledger} {s : State} (h : l.Covers s.ledger) :
    l.Covers (s.tickBoundary).ledger := by simp [State.tickBoundary, h]

/-! ## Evaluate -/

@[simp] theorem State.covers_collectJob {l : Ledger} {s : State} (h : l.Covers s.ledger) (j : Job) :
    l.Covers (s.collectJob j).ledger := by
  unfold State.collectJob
  dsimp only
  repeat' split
  all_goals simp [h]

@[simp] theorem State.covers_commit {l : Ledger} {s : State} (h : l.Covers s.ledger) : l.Covers s.commit.ledger := by
  have hjobs : ∀ (js : List Job) {u : State}, l.Covers u.ledger → l.Covers (js.foldl State.collectJob u).ledger :=
    fun js u hu => Ledger.covers_foldl (fun s j hs => State.covers_collectJob hs j) js hu
  unfold State.commit
  simp only [State.ledger_mk, ledger_eta, State.ledger_sendCells]
  refine hjobs _ ?_
  rw [ledger_foldl State.ledger_fifoAppend]
  exact State.covers_appendTick (by simpa using h) _ _ _

@[simp] theorem State.covers_restartAfter {l : Ledger} {s : State} (h : l.Covers s.ledger) (closed : Nat)
    (c : StartCause) (report : BootReport) : l.Covers (s.restartAfter closed c report).ledger :=
  State.covers_bootStart (State.covers_stopFor h closed _) c report

/-! ## Events -/

@[simp] theorem State.covers_applyOne {l : Ledger} {s : State} (h : l.Covers s.ledger) (t : Nat) :
    l.Covers (s.applyOne t).ledger := by
  have hcalm : l.Covers (s.calmAt t).ledger := by simpa using h
  have hrest := fun x => show l.Covers ({ s.calmAt t with sched := (s.calmAt t).sched.erase x } : State).ledger from
    ⟨hcalm.sessions, List.length_erase_le.trans hcalm.sched_le, hcalm.jobs, hcalm.room⟩
  unfold State.applyOne
  dsimp only
  split
  · exact hcalm
  · have happlied := fun x => State.covers_applyCommand (hrest x) x
    split
    · simpa using happlied _
    · split <;> simp [happlied]

/-! ## Host -/

@[simp] theorem State.covers_accept {l : Ledger} {s : State} (h : l.Covers s.ledger) (p : Packet) :
    l.Covers (s.accept p).ledger := by simp [State.accept, h]

@[simp] theorem State.covers_acceptAgain {l : Ledger} {s : State} (h : l.Covers s.ledger) (p : Packet) :
    l.Covers (s.acceptAgain p).ledger := by simp [State.acceptAgain, h]

@[simp] theorem State.covers_cacheReply {l : Ledger} {s : State} (h : l.Covers s.ledger) (r : Reply) :
    l.Covers (s.cacheReply r).ledger := by simp [State.cacheReply, h]

@[simp] theorem State.covers_sendOn {l : Ledger} {s : State} (h : l.Covers s.ledger) (n : Nat) (p : Packet)
    (opcode : BitVec 16) (key : Option (List Byte)) (packet : List Byte) :
    l.Covers (s.sendOn n p opcode key packet).ledger := by simp [State.sendOn, h]

@[simp] theorem State.covers_refusePacket {l : Ledger} {s : State} (h : l.Covers s.ledger) (p : Packet)
    (opcode : BitVec 16) (a : Answer) :
    l.Covers (s.refusePacket p opcode a).ledger := by simp [State.refusePacket, h]

/-! ## HostStore -/

@[simp] theorem State.covers_setOemKey {l : Ledger} {s : State} (h : l.Covers s.ledger) (k : Option (List Byte)) :
    l.Covers (s.setOemKey k).ledger :=
  ⟨by simpa [State.setOemKey, State.modHost] using h.sessions_le, h.sched, h.jobs, h.room⟩

/-! ## LinkEvents -/

@[simp] theorem State.covers_onReply {l : Ledger} {s : State} (h : l.Covers s.ledger) (n : Nat) (r : ForwardedReply) :
    l.Covers (s.onReply n r).ledger := by
  unfold State.onReply
  dsimp only
  split <;> [skip; split] <;> simp [h]

/-! ## Replay -/

@[simp] theorem State.covers_replay {l : Ledger} {s : State} (h : l.Covers s.ledger) (stop : Bool)
    (entries : List (List Byte)) :
    l.Covers (s.replay stop entries).2.ledger := by simp [State.replay, h]

@[simp] theorem State.covers_loadDone {l : Ledger} {s : State} (h : l.Covers s.ledger) (j : Job) :
    l.Covers (s.loadDone j).ledger := by
  unfold State.loadDone
  dsimp only
  split <;> [split; skip] <;> simp [h]

@[simp] theorem State.covers_replayDone {l : Ledger} {s : State} (h : l.Covers s.ledger) (j : Job) :
    l.Covers (s.replayDone j).ledger := by
  unfold State.replayDone
  dsimp only
  split <;> simp [h]

@[simp] theorem State.covers_importDone {l : Ledger} {s : State} (h : l.Covers s.ledger) (j : Job) :
    l.Covers (s.importDone j).ledger := by
  unfold State.importDone
  dsimp only
  repeat' split
  all_goals simp [h]

@[simp] theorem State.covers_readDone {l : Ledger} {s : State} (h : l.Covers s.ledger) (j : Job) :
    l.Covers (s.readDone j).ledger := by
  unfold State.readDone
  split <;> simp [h]

@[simp] theorem State.covers_workDone {l : Ledger} {s : State} (h : l.Covers s.ledger) (j : Job) :
    l.Covers (s.workDone j).ledger := by
  unfold State.workDone
  split <;> simp [h]

@[simp] theorem State.covers_workFailed {l : Ledger} {s : State} (h : l.Covers s.ledger) (j : Job) (flash : Bool) :
    l.Covers (s.workFailed j flash).ledger := by simp [State.workFailed, h]

end Sys2Proof.Machine
end

section
/-! # Rows without a command packet of their own: none adds a session, a waiting command or a job -/

namespace Sys2Proof.Machine

/-- A row answers a next state, whose ledger stays within that of `s`. -/
def Keeps (s : State) (r : Result) : Prop := ∃ t, r = .next t ∧ s.ledger.Covers t.ledger
@[simp] theorem keeps_next {s t : State} : Keeps s (.next t) ↔ s.ledger.Covers t.ledger := by simp [Keeps]
@[simp] theorem keeps_ite {s : State} {c : Prop} [Decidable c] {a b : Result} :
    Keeps s (if c then a else b) ↔ (c → Keeps s a) ∧ (¬c → Keeps s b) := by
  split <;> simp [*]
@[simp] theorem keeps_onLink {s : State} {f : State → State} :
    Keeps s (s.onLink f) ↔ (s.logicRuns = true → s.ledger.Covers (f s).ledger) := by
  simp [State.onLink]

/-! ## What collections give, and the end of their jobs -/

/-- A collection gives a state with the same ledger, if it gives one. -/
theorem State.ledger_calOutcome {s t : State} {j : Job} (h : s.calOutcome j = .ok (some t)) : t.ledger = s.ledger := by
  unfold State.calOutcome at h
  grind [ledger_foldl, State.ledger_setFch]

theorem State.ledger_deleteSet {s t : State} {p : Nat} (h : s.deleteSet p = .ok (some t)) : t.ledger = s.ledger := by
  unfold State.deleteSet at h
  dsimp only at h
  split at h
  · cases h
  · cases h
    simp

theorem State.ledger_probeCalOutcome {s t : State} {j : Job} {sweeps : List RawSweep}
    (h : s.probeCalOutcome j sweeps = .ok (some t)) : t.ledger = s.ledger := by
  unfold State.probeCalOutcome at h
  dsimp only at h
  split at h
  · cases h
  · split at h
    · exact State.ledger_deleteSet h
    · split at h
      · cases h
      · split at h
        · cases h
        · cases h
          rfl

theorem State.ledger_enumerateOutcome {s t : State} {n : Nat} {answers : List (List ReadSlot)}
    (h : s.enumerateOutcome n answers = .ok (some t)) : t.ledger = s.ledger := by
  unfold State.enumerateOutcome at h
  dsimp only at h
  split at h
  · cases h
  · split at h
    · cases h
    · split at h
      · cases h
      · split at h
        · cases h
        · cases h
          simp
      · cases h

/-- A job ends in the state that its collection gave. -/
theorem State.covers_endWith {l : Ledger} {s : State} (h : l.Covers s.ledger) (j : Job)
    {r : Except (Nat × Nat) (Option State)} (hr : ∀ t, r = .ok (some t) → t.ledger = s.ledger) :
    l.Covers (s.endWith j r).ledger := by
  unfold State.endWith
  split
  case h_1 => exact h
  case h_2 t => exact State.covers_endJob (by rwa [hr t rfl]) _ _ _ _ _
  case h_3 => exact State.covers_endJob h _ _ _ _ _

/-! ## Rows with a case split or a walk -/

/-- An item of the boundary, as a row of its own. -/
theorem keeps_atBoundary (s : State) {f : Nat → State → State}
    (hf : ∀ (t : Nat) (u : State), s.ledger.Covers u.ledger → s.ledger.Covers (f t u).ledger) :
    Keeps s (.next (s.atBoundary f)) :=
  keeps_next.mpr (State.covers_atBoundary (Ledger.covers_self _) hf)

theorem keeps_execSmokerCalm (s : State) : Keeps s (execSmokerCalm s) :=
  keeps_atBoundary s (fun t u hu => by simp [hu])

theorem keeps_execScheduledCommandApply (s : State) : Keeps s (execScheduledCommandApply s) :=
  keeps_atBoundary s (fun t _ hu => State.covers_applyOne hu t)

theorem keeps_execWindDownComplete (slot : Fin 1024) (s : State) : Keeps s (execWindDownComplete slot s) :=
  keeps_atBoundary s (fun t u hu => by simp [hu])

theorem keeps_execGenerationActivate (s : State) : Keeps s (execGenerationActivate s) :=
  keeps_atBoundary s (fun t u hu => by
    split
    · split <;> simp [hu]
    · exact hu)

theorem keeps_execInrecSegmentBoundary (s : State) : Keeps s (execInrecSegmentBoundary s) :=
  keeps_atBoundary s (fun t u hu => by simp [hu])

theorem keeps_execRemoteCellApply (s : State) : Keeps s (execRemoteCellApply s) :=
  keeps_atBoundary s (fun t u hu => by simp [hu])

theorem keeps_execNodeJoin (node : Fin 8) (s : State) : Keeps s (execNodeJoin node s) :=
  keeps_atBoundary s (fun t u hu => by simp [hu])

theorem keeps_execNodeLost (node : Fin 8) (s : State) : Keeps s (execNodeLost node s) :=
  keeps_atBoundary s (fun t u hu => by simp [hu])

theorem keeps_execLinkLossTimeout (node : Fin 8) (s : State) : Keeps s (execLinkLossTimeout node s) := by
  unfold execLinkLossTimeout
  split
  · exact keeps_atBoundary s (fun t u hu => by simp [hu])
  · simp

theorem keeps_execPageRetire (page : Fin 2048) (s : State) : Keeps s (execPageRetire page s) := by
  unfold execPageRetire
  split
  · simp
  · rw [keeps_next]
    exact State.covers_atBoundary (by simp) (fun t u hu => by simp [hu])

theorem keeps_execProgramAction (prog : Fin 4) (s : State) : Keeps s (execProgramAction prog s) :=
  keeps_atBoundary s (fun t u hu => by simp [hu])

theorem keeps_execExcCurrentApply (ch : Fin 128) (s : State) : Keeps s (execExcCurrentApply ch s) := by
  unfold execExcCurrentApply
  split
  · exact keeps_next.mpr (State.covers_atTick (Ledger.covers_self _) _ (fun u hu => by simpa using hu))
  · simp

theorem keeps_execAuthProveBarEnd (s : State) : Keeps s (execAuthProveBarEnd s) := by
  unfold execAuthProveBarEnd
  split <;> simp

theorem keeps_execBaudFallback (s : State) : Keeps s (execBaudFallback s) := by
  unfold execBaudFallback
  split <;> simp

theorem keeps_execSessionIdleTimeout (session : BitVec 16) (s : State) :
    Keeps s (execSessionIdleTimeout session s) := by
  unfold execSessionIdleTimeout
  split <;> simp

theorem keeps_execPacketDiscard (bytes : List Byte) (s : State) : Keeps s (execPacketDiscard bytes s) := by
  unfold execPacketDiscard
  rw [keeps_ite, keeps_ite]
  refine ⟨fun _ => by simp, fun _ => ⟨fun _ => by simp, fun _ => ?_⟩⟩
  split
  · simp
  · split <;> simp

theorem keeps_execSpiRead (x : SpiTransfer) (s : State) : Keeps s (execSpiRead x s) := by
  unfold execSpiRead
  rw [keeps_ite]
  refine ⟨fun _ => by simp, fun _ => ?_⟩
  dsimp only
  split <;> simp

theorem keeps_execSummaryFlashWrite (programOk healthOk : Bool) (s : State) :
    Keeps s (execSummaryFlashWrite programOk healthOk s) := by
  unfold execSummaryFlashWrite
  split <;> simp

theorem keeps_execTickRedo (fault : RedoFault) (s : State) : Keeps s (execTickRedo fault s) := by
  have hpage : s.ledger.Covers (fault.page.elim s (fun p => s.pageFails p.val)).ledger := by cases fault.page <;> simp
  unfold execTickRedo
  rw [keeps_ite]
  refine ⟨fun _ => by simp, fun _ => ?_⟩
  rw [keeps_ite, keeps_next, keeps_next]
  exact ⟨fun _ => by simpa using hpage, fun _ => State.covers_restartAfter hpage _ _ _⟩

theorem keeps_execEccUncorrectableCommitted (fault : EccFault) (s : State) :
    Keeps s (execEccUncorrectableCommitted fault s) := by
  unfold execEccUncorrectableCommitted
  extract_lets u
  have hu : s.ledger.Covers u.ledger := by
    unfold u
    cases fault.page <;> simp
  clear_value u
  split
  case h_4 report =>
    rw [keeps_ite, keeps_next, keeps_next]
    exact ⟨fun _ => State.covers_restartAfter hu _ _ _, fun _ => hu⟩
  all_goals simp [hu]

theorem keeps_execCfgValidationDone (job : Nat) (s : State) : Keeps s (execCfgValidationDone job s) := by
  unfold execCfgValidationDone
  split
  · simp
  · rw [keeps_next, State.ledger_ite, Ledger.covers_ite]
    exact ⟨fun _ => State.covers_completeJob (by simp) _ _ (fun j => by simp), fun _ => by simp⟩

theorem keeps_execUpdVerifyDone (job : Nat) (s : State) : Keeps s (execUpdVerifyDone job s) :=
  keeps_next.mpr (State.covers_completeJob (Ledger.covers_self _) _ _ (fun j => by simp))

theorem keeps_execCalRunDone (job : Nat) (unit : Fin 1024) (action : Fin 3) (s : State) :
    Keeps s (execCalRunDone job unit action s) := by
  unfold execCalRunDone
  rw [keeps_next, State.ledger_ite, Ledger.covers_ite]
  exact ⟨fun _ => State.covers_completeJob (by simp) _ _
    (fun j => State.covers_endWith (by simp) j (fun t => State.ledger_calOutcome)), fun _ => by simp⟩

theorem keeps_execProbeCalDone (job : Nat) (sweeps : List RawSweep) (s : State) :
    Keeps s (execProbeCalDone job sweeps s) :=
  keeps_next.mpr (State.covers_completeJob (Ledger.covers_self _) _ _
    (fun j => State.covers_endWith (by simp) j (fun t => State.ledger_probeCalOutcome)))

theorem keeps_execCombEnumerateDone (job : Nat) (line : Fin 64) (answers : List (List ReadSlot)) (s : State) :
    Keeps s (execCombEnumerateDone job line answers s) := by
  unfold execCombEnumerateDone
  rw [keeps_next, State.ledger_ite, Ledger.covers_ite]
  refine ⟨fun _ => State.covers_completeJob (by simp) _ _ (fun j => ?_), fun _ => by simp⟩
  split
  · simp
  · refine State.covers_endWith (by simp) j (fun t ht => ?_)
    split at ht
    case h_1 u hu =>
      cases ht
      simp [State.ledger_enumerateOutcome hu]
    case h_2 => simp [State.ledger_enumerateOutcome ht]

theorem keeps_execJobEnd (job : Nat) (end_ : JobWork) (s : State) : Keeps s (execJobEnd job end_ s) := by
  unfold execJobEnd
  split
  · simp
  · rw [keeps_ite]
    refine ⟨fun _ => by simp, fun _ => ?_⟩
    cases end_ with
    | done =>
      rw [keeps_ite, keeps_next, keeps_next]
      exact ⟨fun _ => by simp, fun _ => State.covers_completeJob (by simp) _ _ (fun j => by simp)⟩
    | memoryError => simp
    | flashFailed => simp

/-! ## Rows of one operation -/

theorem keeps_execBankUplinkFrame (source : Fin 17) (f : Uplink) (s : State) :
    Keeps s (execBankUplinkFrame source f s) := by
  simp [execBankUplinkFrame]

theorem keeps_execBaseRefreshFrame (dest : Fin 17) (intact : Bool) (s : State) :
    Keeps s (execBaseRefreshFrame dest intact s) := by
  simp [execBaseRefreshFrame]

theorem keeps_execUpdateRefreshFrame (b : Fin 16) (ch : Fin 8) (s : State) :
    Keeps s (execUpdateRefreshFrame b ch s) := by
  simp [execUpdateRefreshFrame]

theorem keeps_execBankGuardExpiry (b : Fin 16) (s : State) : Keeps s (execBankGuardExpiry b s) := by
  simp [execBankGuardExpiry]

theorem keeps_execBankGuardRelease (b : Fin 16) (s : State) : Keeps s (execBankGuardRelease b s) := by
  simp [execBankGuardRelease]

theorem keeps_execFanGuardExpiry (s : State) : Keeps s (execFanGuardExpiry s) := by
  simp [execFanGuardExpiry]

theorem keeps_execBankInService (b : Fin 16) (r : BankReport) (s : State) : Keeps s (execBankInService b r s) := by
  simp [execBankInService]

theorem keeps_execBankFailure (b : Fin 16) (cause : BankFailCause) (s : State) :
    Keeps s (execBankFailure b cause s) := by
  simp [execBankFailure]

theorem keeps_execBankRestart (b : Fin 16) (passed : Bool) (s : State) : Keeps s (execBankRestart b passed s) := by
  simp [execBankRestart]

theorem keeps_execVfldUvloEntry (b : Fin 16) (mv : Nat) (s : State) : Keeps s (execVfldUvloEntry b mv s) := by
  simp [execVfldUvloEntry]

theorem keeps_execVfldUvloReturn (b : Fin 16) (mv : Nat) (s : State) : Keeps s (execVfldUvloReturn b mv s) := by
  simp [execVfldUvloReturn]

theorem keeps_execVfldLowSet (b : Fin 16) (mv : Nat) (s : State) : Keeps s (execVfldLowSet b mv s) := by
  simp [execVfldLowSet]

theorem keeps_execVfldLowClear (b : Fin 16) (mv : Nat) (s : State) : Keeps s (execVfldLowClear b mv s) := by
  simp [execVfldLowClear]

theorem keeps_execVfanCrossing (c : VfanCrossing) (mv : Nat) (s : State) : Keeps s (execVfanCrossing c mv s) := by
  simp [execVfanCrossing]

theorem keeps_execLoadClassUpdate (b : Fin 16) (unseen : List Nat) (s : State) :
    Keeps s (execLoadClassUpdate b unseen s) := by
  simp [execLoadClassUpdate]

theorem keeps_execDiEdgeAccepted (ch : Fin 128) (rise : Bool) (fine : Nat) (s : State) :
    Keeps s (execDiEdgeAccepted ch rise fine s) := by
  simp [execDiEdgeAccepted]

theorem keeps_execDoOverloadTrip (ch : Fin 128) (s : State) : Keeps s (execDoOverloadTrip ch s) := by
  simp [execDoOverloadTrip]

theorem keeps_execDoBackfeedTrip (ch : Fin 128) (on : List (Fin 8)) (s : State) :
    Keeps s (execDoBackfeedTrip ch on s) := by
  simp [execDoBackfeedTrip]

theorem keeps_execPairImbalanceTrip (ch : Fin 128) (s : State) : Keeps s (execPairImbalanceTrip ch s) := by
  simp [execPairImbalanceTrip]

theorem keeps_execAoiOpenLoop (ch : Fin 128) (s : State) : Keeps s (execAoiOpenLoop ch s) := by
  simp [execAoiOpenLoop]

theorem keeps_execAovCurrentLimitTrip (ch : Fin 128) (s : State) : Keeps s (execAovCurrentLimitTrip ch s) := by
  simp [execAovCurrentLimitTrip]

theorem keeps_execDoPulsePeriodEnd (ch : Fin 128) (s : State) : Keeps s (execDoPulsePeriodEnd ch s) := by
  simp [execDoPulsePeriodEnd]

theorem keeps_execCombLineShort (ch : Fin 128) (s : State) : Keeps s (execCombLineShort ch s) := by
  simp [execCombLineShort]

theorem keeps_execCombLineBackfeed (ch : Fin 128) (s : State) : Keeps s (execCombLineBackfeed ch s) := by
  simp [execCombLineBackfeed]

theorem keeps_execFanSupplyShort (fan : Fin 8) (s : State) : Keeps s (execFanSupplyShort fan s) := by
  simp [execFanSupplyShort]

theorem keeps_execProbeSweepStart (probe : Fin 64) (s : State) : Keeps s (execProbeSweepStart probe s) := by
  simp [execProbeSweepStart]

theorem keeps_execSweepRecord (probe : Fin 64) (m : SweepMeas) (s : State) : Keeps s (execSweepRecord probe m s) := by
  simp [execSweepRecord]

theorem keeps_execCombRoundStart (line : Fin 64) (m : LineMeas) (s : State) :
    Keeps s (execCombRoundStart line m s) := by
  simp [execCombRoundStart]

theorem keeps_execCombRoundRecord (line : Fin 64) (m : RoundMeas) (s : State) :
    Keeps s (execCombRoundRecord line m s) := by
  simp [execCombRoundRecord]

theorem keeps_execInputDeadline (s : State) : Keeps s (execInputDeadline s) := by
  simp [execInputDeadline]

theorem keeps_execSummaryCut (s : State) : Keeps s (execSummaryCut s) := by
  simp [execSummaryCut]

theorem keeps_execTickCommit (s : State) : Keeps s (execTickCommit s) := by
  simp [execTickCommit]

theorem keeps_execLagRestart (report : BootReport) (s : State) : Keeps s (execLagRestart report s) := by
  simp [execLagRestart]

theorem keeps_execTickBoundary (s : State) : Keeps s (execTickBoundary s) := by
  simp [execTickBoundary]

theorem keeps_execThermalShutdown (s : State) : Keeps s (execThermalShutdown s) := by
  simp [execThermalShutdown]

theorem keeps_execEccCorrected (page : Fin 2048) (address : Nat) (s : State) :
    Keeps s (execEccCorrected page address s) := by
  simp [execEccCorrected]

theorem keeps_execSramScrub (page : Fin 2048) (s : State) : Keeps s (execSramScrub page s) := by
  simp [execSramScrub]

theorem keeps_execTickCheckpoint (s : State) : Keeps s (execTickCheckpoint s) := by
  simp [execTickCheckpoint]

theorem keeps_execRecFreezeExpiry (s : State) : Keeps s (execRecFreezeExpiry s) := by
  simp [execRecFreezeExpiry]

theorem keeps_execRecClearEraseDone (s : State) : Keeps s (execRecClearEraseDone s) := by
  simp [execRecClearEraseDone]

theorem keeps_execFineClockLock (s : State) : Keeps s (execFineClockLock s) := by
  simp [execFineClockLock]

theorem keeps_execCrystalFailSet (s : State) : Keeps s (execCrystalFailSet s) := by
  simp [execCrystalFailSet]

theorem keeps_execCrystalFailClear (s : State) : Keeps s (execCrystalFailClear s) := by
  simp [execCrystalFailClear]

theorem keeps_execHostResetNAssert (s : State) : Keeps s (execHostResetNAssert s) := by
  simp [execHostResetNAssert]

theorem keeps_execBootStart (cause : StartCause) (report : BootReport) (s : State) :
    Keeps s (execBootStart cause report s) := by
  simp [execBootStart]

theorem keeps_execHostWake (s : State) : Keeps s (execHostWake s) := by
  simp [execHostWake]

theorem keeps_execVinPowerOn (millivolts : Nat) (uart : Bool) (s : State) :
    Keeps s (execVinPowerOn millivolts uart s) := by
  simp [execVinPowerOn]

theorem keeps_execVinPowerFail (s : State) : Keeps s (execVinPowerFail s) := by
  simp [execVinPowerFail]

theorem keeps_execVinThresholdCrossing (crossing : VinCrossing) (millivolts : Nat) (s : State) :
    Keeps s (execVinThresholdCrossing crossing millivolts s) := by
  simp [execVinThresholdCrossing]

theorem keeps_execHousekeepingRound (meas : HkMeas) (s : State) : Keeps s (execHousekeepingRound meas s) := by
  simp [execHousekeepingRound]

theorem keeps_execThermalAbort135 (site : Fin 6) (tenths : Int) (s : State) :
    Keeps s (execThermalAbort135 site tenths s) := by
  simp [execThermalAbort135]

theorem keeps_execUartByteGap (s : State) : Keeps s (execUartByteGap s) := by
  simp [execUartByteGap]

theorem keeps_execVioLow (inPacket : Bool) (s : State) : Keeps s (execVioLow inPacket s) := by
  simp [execVioLow]

theorem keeps_execVioReturn (s : State) : Keeps s (execVioReturn s) := by
  simp [execVioReturn]

theorem keeps_execJobCheckpoint (job progress : Nat) (s : State) : Keeps s (execJobCheckpoint job progress s) := by
  simp [execJobCheckpoint]

theorem keeps_execUpdBlockProgrammed (matched : Bool) (s : State) : Keeps s (execUpdBlockProgrammed matched s) := by
  simp [execUpdBlockProgrammed]

theorem keeps_execActivationPause (resumeAt : Nat) (report : BootReport) (s : State) :
    Keeps s (execActivationPause resumeAt report s) := by
  simp [execActivationPause]

theorem keeps_execPhyLinkUp (port : Fin 2) (amplitude : Amplitude) (s : State) :
    Keeps s (execPhyLinkUp port amplitude s) := by
  simp [execPhyLinkUp]

theorem keeps_execPhyLinkDown (port : Fin 2) (s : State) : Keeps s (execPhyLinkDown port s) := by
  simp [execPhyLinkDown]

theorem keeps_execXistaFrameDiscard (port : Fin 2) (reason : FrameDiscard) (s : State) :
    Keeps s (execXistaFrameDiscard port reason s) := by
  simp [execXistaFrameDiscard]

theorem keeps_execXistaRelay (port : Fin 2) (s : State) : Keeps s (execXistaRelay port s) := by
  simp [execXistaRelay]

theorem keeps_execHelloTimer (s : State) : Keeps s (execHelloTimer s) := by
  simp [execHelloTimer]

theorem keeps_execHello (port : Fin 2) (msg : HelloMsg) (s : State) : Keeps s (execHello port msg s) := by
  simp [execHello]

theorem keeps_execChallenge (port : Fin 2) (msg : ChallengeMsg) (s : State) : Keeps s (execChallenge port msg s) := by
  simp [execChallenge]

theorem keeps_execProof (port : Fin 2) (msg : ProofMsg) (s : State) : Keeps s (execProof port msg s) := by
  simp [execProof]

theorem keeps_execProofTimeout (node : Fin 8) (s : State) : Keeps s (execProofTimeout node s) := by
  simp [execProofTimeout]

theorem keeps_execAdmission (port : Fin 2) (queenTick : Nat) (queenFine : Nat) (s : State) :
    Keeps s (execAdmission port queenTick queenFine s) := by
  simp [execAdmission]

theorem keeps_execRefuse (port : Fin 2) (target : List Byte) (reason : Nat) (s : State) :
    Keeps s (execRefuse port target reason s) := by
  simp [execRefuse]

theorem keeps_execSyncReqTimer (s : State) : Keeps s (execSyncReqTimer s) := by
  simp [execSyncReqTimer]

theorem keeps_execSyncReq (node : Fin 8) (arrivalFine replyFine : Nat) (s : State) :
    Keeps s (execSyncReq node arrivalFine replyFine s) := by
  simp [execSyncReq]

theorem keeps_execSyncResp (q1 q2 s2 : Int) (s : State) : Keeps s (execSyncResp q1 q2 s2 s) := by
  simp [execSyncResp]

theorem keeps_execTickLengthen (s : State) : Keeps s (execTickLengthen s) := by
  simp [execTickLengthen]

theorem keeps_execSubscribe (fromTick : Nat) (cells : List (Fin 8192)) (s : State) :
    Keeps s (execSubscribe fromTick cells s) := by
  simp [execSubscribe]

theorem keeps_execCells (node : Fin 8) (entries : List CellEntry) (s : State) :
    Keeps s (execCells node entries s) := by
  simp [execCells]

theorem keeps_execXistaReply (node : Fin 8) (reply : ForwardedReply) (s : State) :
    Keeps s (execXistaReply node reply s) := by
  simp [execXistaReply]

theorem keeps_execLinkReplyTimeout (node : Fin 8) (s : State) : Keeps s (execLinkReplyTimeout node s) := by
  simp [execLinkReplyTimeout]

theorem keeps_execXistaStatus (node : Fin 8) (msg : StatusMsg) (s : State) :
    Keeps s (execXistaStatus node msg s) := by
  simp [execXistaStatus]

theorem keeps_execLeave (node : Fin 8) (reason : Nat) (s : State) : Keeps s (execLeave node reason s) := by
  simp [execLeave]

theorem keeps_execQueenSmokerFeed (s : State) : Keeps s (execQueenSmokerFeed s) := by
  simp [execQueenSmokerFeed]

theorem keeps_execFanKickEnd (fan : Fin 8) (s : State) : Keeps s (execFanKickEnd fan s) := by
  simp [execFanKickEnd]

theorem keeps_execFanStartTimeout (fan : Fin 8) (s : State) : Keeps s (execFanStartTimeout fan s) := by
  simp [execFanStartTimeout]

theorem keeps_execFanPauseEnd (fan : Fin 8) (s : State) : Keeps s (execFanPauseEnd fan s) := by
  simp [execFanPauseEnd]

theorem keeps_execFanSpeedFaultTimer (fan : Fin 8) (s : State) : Keeps s (execFanSpeedFaultTimer fan s) := by
  simp [execFanSpeedFaultTimer]

theorem keeps_execSubstLimitReached (ch : Fin 128) (s : State) : Keeps s (execSubstLimitReached ch s) := by
  simp [execSubstLimitReached]

theorem keeps_execStuckDetect (ch : Fin 128) (s : State) : Keeps s (execStuckDetect ch s) := by
  simp [execStuckDetect]

theorem keeps_execCountZeroTimeout (ch : Fin 128) (s : State) : Keeps s (execCountZeroTimeout ch s) := by
  simp [execCountZeroTimeout]

theorem keeps_execOpenLoadDetect (ch : Fin 128) (s : State) : Keeps s (execOpenLoadDetect ch s) := by
  simp [execOpenLoadDetect]

theorem keeps_execLoopInputLossFault (loop : Fin 256) (s : State) : Keeps s (execLoopInputLossFault loop s) := by
  simp [execLoopInputLossFault]

theorem keeps_execProfInputLossFault (prof : Fin 64) (s : State) : Keeps s (execProfInputLossFault prof s) := by
  simp [execProfInputLossFault]

theorem keeps_execObsInputLossFault (column : Fin 8) (s : State) : Keeps s (execObsInputLossFault column s) := by
  simp [execObsInputLossFault]

theorem keeps_execChurnFadeEnd (churn : Fin 32) (s : State) : Keeps s (execChurnFadeEnd churn s) := by
  simp [execChurnFadeEnd]

theorem keeps_execProgramStepTimeout (prog : Fin 4) (s : State) : Keeps s (execProgramStepTimeout prog s) := by
  simp [execProgramStepTimeout]

theorem keeps_execProgramInputLoss (prog : Fin 4) (s : State) : Keeps s (execProgramInputLoss prog s) := by
  simp [execProgramInputLoss]

theorem keeps_execChainProveTimeout (chain : Fin 32) (member : Fin 16) (s : State) :
    Keeps s (execChainProveTimeout chain member s) := by
  simp [execChainProveTimeout]

theorem keeps_execChainMotionLoss (chain : Fin 32) (member : Fin 16) (s : State) :
    Keeps s (execChainMotionLoss chain member s) := by
  simp [execChainMotionLoss]

theorem keeps_execChainPurgeEnd (chain : Fin 32) (member : Fin 16) (s : State) :
    Keeps s (execChainPurgeEnd chain member s) := by
  simp [execChainPurgeEnd]

theorem keeps_execBinSample (bin : Fin 64) (s : State) : Keeps s (execBinSample bin s) := by
  simp [execBinSample]

theorem keeps_execAerationHoldEnd (bin : Fin 64) (s : State) : Keeps s (execAerationHoldEnd bin s) := by
  simp [execAerationHoldEnd]

theorem keeps_execCombMissLimit (line : Fin 64) (position : Fin 48) (s : State) :
    Keeps s (execCombMissLimit line position s) := by
  simp [execCombMissLimit]

end Sys2Proof.Machine
end

section
/-! # The limits under every command (R63, R69, R78, R79)

What adds to the ledger looks at the limit first: a new session, a waiting command, a new job. The rest stays within
what the state before had. -/

namespace Sys2Proof.Machine

theorem Bounded.of_covers {s t : State} (h : Bounded s) (hc : s.ledger.Covers t.ledger) : Bounded t where
  sessions := hc.sessions_le.trans h.sessions
  sched := hc.sched_le.trans h.sched
  events := of_decide_eq_true (hc.room_of (decide_eq_true h.events))
  jobs := hc.jobs_le.trans h.jobs

/-! ## What adds to the ledger -/

/-- A command joins the waiting ones while fewer than 256 wait (R69). -/
theorem Bounded.schedule {s : State} (h : Bounded s) (c : Ctx) : Bounded (s.schedule c).2 := by
  unfold State.schedule
  split
  · exact h
  case isFalse hfree => exact ⟨h.sessions, by simp; omega, h.events, h.jobs⟩

/-- A job begins while fewer than 8 exist (R79). -/
theorem Bounded.newJob {s : State} (h : Bounded s) (c : Ctx) (f : Job → Job) : Bounded (s.newJob c f).2 := by
  unfold State.newJob
  split
  · exact h
  case isFalse hfree => exact ⟨h.sessions, h.sched, h.events, by simp [State.drawFree]; omega⟩

theorem Bounded.startJob {s : State} (h : Bounded s) (c : Ctx) (f : Job → Job) : Bounded (s.startJob c f).2 := by
  unfold State.startJob
  dsimp only
  split
  · exact (h.newJob c f).of_covers (by simp)
  · exact h.newJob c f

/-! ## Bodies -/

/-- The meaning of a command keeps the limits. -/
def Body.Keeps (b : Body) : Prop := ∀ s c, Bounded s → Bounded (b s c).2

theorem Body.keeps_of_covers {b : Body} (h : ∀ (s : State) (c : Ctx), s.ledger.Covers (b s c).2.ledger) :
    Body.Keeps b :=
  fun s c hs => hs.of_covers (h s c)

/-- What an answer says of the next state does not depend on what is answered. -/
theorem Bounded.ite {α : Type} {s : α × State} {t : α × State} {c : Prop} [Decidable c] (hs : c → Bounded s.2)
    (ht : ¬c → Bounded t.2) : Bounded (if c then s else t).2 := by
  split
  · exact hs ‹_›
  · exact ht ‹_›

section
variable {b : Body}

theorem exactly_keeps {n : Nat} (h : Body.Keeps b) : Body.Keeps (exactly n b) :=
  fun s c hs => Bounded.ite (fun _ => h s c hs) (fun _ => hs)

theorem reserved_keeps {off len : Nat} (h : Body.Keeps b) : Body.Keeps (reserved off len b) := by
  intro s c hs
  unfold reserved
  split
  · exact hs
  · exact h s c hs

theorem listForm_keeps {max : Nat} {f : List Nat → Body} (h : ∀ l, Body.Keeps (f l)) : Body.Keeps (listForm max f) := by
  intro s c hs
  unfold listForm
  split
  · exact hs
  · exact Bounded.ite (fun _ => hs) (fun _ => Bounded.ite (fun _ => hs) (fun _ => h _ s c hs))

theorem ofKind_keeps {kind off : Nat} {f : Nat → Body} (h : ∀ n, Body.Keeps (f n)) : Body.Keeps (ofKind kind off f) :=
  fun s c hs => Bounded.ite (fun _ => h _ s c hs) (fun _ => hs)

theorem ofBank_keeps {f : Nat → Body} (h : ∀ n, Body.Keeps (f n)) : Body.Keeps (ofBank f) :=
  fun s c hs => Bounded.ite (fun _ => h _ s c hs) (fun _ => hs)

theorem onJob_keeps {f : Job → Body} (h : ∀ j, Body.Keeps (f j)) : Body.Keeps (onJob f) :=
  exactly_keeps (fun s c hs => by
    split
    · exact hs
    · exact Bounded.ite (fun _ => h _ s c hs) (fun _ => hs))

end

/-! ### Sessions, authorisation, causes, time -/

theorem pingBody_keeps : Body.Keeps pingBody := Body.keeps_of_covers (fun s c => by unfold pingBody; split <;> simp)
theorem identifyBody_keeps : Body.Keeps identifyBody := exactly_keeps (fun _ _ hs => hs)
theorem sessionOpenBody_keeps : Body.Keeps sessionOpenBody :=
  exactly_keeps (fun _ _ hs => Bounded.ite (fun _ => hs) (fun _ => Bounded.ite (fun _ => hs) (fun hfree =>
    ⟨by simp [State.drawFree, State.modHost]; omega, hs.sched, hs.events, hs.jobs⟩)))
theorem sessionCloseBody_keeps : Body.Keeps sessionCloseBody :=
  exactly_keeps (Body.keeps_of_covers (fun s c => by simp))
theorem authBeginBody_keeps : Body.Keeps authBeginBody := exactly_keeps (Body.keeps_of_covers (fun s c => by simp))
theorem authProveBody_keeps : Body.Keeps authProveBody :=
  exactly_keeps (fun s c hs => Bounded.ite (fun _ => hs) (fun _ => by
    split
    · exact ⟨by simpa [State.modHost, State.modSession] using hs.sessions, hs.sched, hs.events, hs.jobs⟩
    · exact hs.of_covers (by simp)))
theorem lockBody_keeps (on : Bool) : Body.Keeps (lockBody on) :=
  exactly_keeps (fun s c hs => Bounded.ite (fun _ => hs) (fun _ => hs.of_covers (by simp)))
theorem setBaudBody_keeps : Body.Keeps setBaudBody :=
  exactly_keeps (fun s c hs => Bounded.ite (fun _ => hs.of_covers (by simp)) (fun _ => hs))
theorem smokerFeedBody_keeps : Body.Keeps smokerFeedBody := exactly_keeps (fun _ _ hs => hs)
theorem smokerClearBody_keeps : Body.Keeps smokerClearBody := exactly_keeps (fun _ c hs => hs.schedule c)
theorem irqStatusBody_keeps : Body.Keeps irqStatusBody := exactly_keeps (fun _ _ hs => hs)
theorem irqAckBody_keeps : Body.Keeps irqAckBody := exactly_keeps (Body.keeps_of_covers (fun s c => by simp))

/-- What READ_EVENTS leaves has fewer records, and the kept place is free once it has come below 255. -/
theorem readEventsBody_keeps : Body.Keeps readEventsBody :=
  exactly_keeps (fun s c hs => ⟨hs.sessions, hs.sched, by
    have hevents := hs.events
    simp only [State.modHost, List.length_drop, Bool.and_eq_true, decide_eq_true_eq]
    split at hevents <;> split <;> grind, hs.jobs⟩)
theorem getTickBody_keeps : Body.Keeps getTickBody := exactly_keeps (fun _ _ hs => hs)
theorem setWallTimeBody_keeps : Body.Keeps setWallTimeBody := exactly_keeps (fun _ c hs => hs.schedule c)
theorem powerStateBody_keeps : Body.Keeps powerStateBody :=
  exactly_keeps (fun _ c hs => Bounded.ite (fun _ => hs) (fun _ => Bounded.ite (fun _ => hs) (fun _ =>
    Bounded.ite (fun _ => hs) (fun _ => Bounded.ite (fun _ => hs) (fun _ => hs.schedule c)))))
theorem restartBody_keeps : Body.Keeps restartBody :=
  exactly_keeps (fun _ _ hs => Bounded.ite (fun _ => hs) (fun _ => hs))

/-! ### Parameters -/

theorem paramRead_keeps : Body.Keeps paramRead := Body.keeps_of_covers (fun s c => by
  unfold paramRead
  split
  · simp
  · dsimp only
    split
    · simp
    · split
      · simp
      · split <;> rw [ledger_foldl (fun s e => by split <;> simp)] <;> simp)

theorem paramReadBlock_keeps : Body.Keeps paramReadBlock := exactly_keeps (fun s c hs => by
  dsimp only
  split
  · exact hs
  · exact Bounded.ite (fun _ => hs) (fun _ => hs))

theorem paramWriteBlock_keeps : Body.Keeps paramWriteBlock := Body.keeps_of_covers (fun s c => by
  unfold paramWriteBlock
  split
  · simp
  · dsimp only
    split
    · simp
    · split
      · simp
      · split
        · simp
        · split
          · simp
          · split <;> simp)

theorem paramWrite_keeps : Body.Keeps paramWrite := by
  intro s c hs
  unfold paramWrite
  split
  · exact hs
  · refine Bounded.ite (fun _ => hs) (fun _ => Bounded.ite (fun _ => hs) (fun _ => ?_))
    split
    · exact hs
    case h_2 l _ =>
      have hwaits : Bounded (if l.any (fun e => e.target.info.eff != .commit) then s.schedule c else (okAns, s)).2 :=
        Bounded.ite (fun _ => hs.schedule c) (fun _ => hs)
      exact Bounded.ite (fun _ => hwaits) (fun _ => hwaits.of_covers (by
        rw [ledger_foldl (fun s e => by simp)]
        simp))

/-! ### Units and cells -/

theorem unitStatusBody_keeps : Body.Keeps unitStatusBody :=
  listForm_keeps (fun hs => Body.keeps_of_covers (fun s c => by
  split
  · simp
  · rw [ledger_foldl State.ledger_clearReadFlags]
    simp))

theorem unitAction_keeps (bar : State → Nat → Option Answer) : Body.Keeps (unitAction bar) :=
  exactly_keeps (fun s c hs => by
  refine Bounded.ite (fun _ => hs) (fun _ => ?_)
  split
  · exact hs
  · dsimp only
    split
    · exact (hs.schedule c).of_covers (by simp)
    · exact hs.schedule c)

theorem setManualBody_keeps : Body.Keeps setManualBody := exactly_keeps (fun s c hs => by
  refine Bounded.ite (fun _ => hs) (fun _ => Bounded.ite (fun _ => hs) (fun _ => ?_))
  split
  · exact hs
  · refine Bounded.ite (fun _ => hs) (fun _ => ?_)
    split
    · exact hs
    · exact Bounded.ite (fun _ => hs) (fun _ => Bounded.ite (fun _ => hs) (fun _ => hs.schedule c)))

theorem channelServiceBody_keeps : Body.Keeps channelServiceBody :=
  exactly_keeps (ofKind_keeps (fun _ _ c hs => Bounded.ite (fun _ => hs) (fun _ => hs.schedule c)))
theorem unitListBody_keeps : Body.Keeps unitListBody :=
  exactly_keeps (fun _ _ hs => Bounded.ite (fun _ => hs) (fun _ => hs))

theorem cellReadBody_keeps : Body.Keeps cellReadBody := listForm_keeps (fun refs s c hs => by
  split <;> exact hs)

theorem cellWriteBody_keeps : Body.Keeps cellWriteBody := by
  intro s c hs
  unfold cellWriteBody
  split
  · exact hs
  · refine Bounded.ite (fun _ => hs) (fun _ => Bounded.ite (fun _ => hs) (fun _ => ?_))
    split
    · exact hs
    · exact hs.schedule c

theorem cellForceBody_keeps : Body.Keeps cellForceBody := exactly_keeps (fun s c hs => by
  refine Bounded.ite (fun _ => hs) (fun _ => Bounded.ite (fun _ => hs) (fun _ => ?_))
  split
  · exact hs
  · exact hs.schedule c)

theorem cellReleaseBody_keeps : Body.Keeps cellReleaseBody :=
  exactly_keeps (fun _ c hs => Bounded.ite (fun _ => hs.schedule c) (fun _ => hs))

theorem cellResetBody_keeps : Body.Keeps cellResetBody := listForm_keeps (fun refs s c hs => by
  split
  · exact hs
  · exact hs.schedule c)

/-! ### Generations and banks -/

theorem cfgBeginBody_keeps : Body.Keeps cfgBeginBody :=
  exactly_keeps (fun _ _ hs => Bounded.ite (fun _ => hs) (fun _ => hs.of_covers (by simp)))
theorem cfgCommitBody_keeps : Body.Keeps cfgCommitBody :=
  exactly_keeps (fun _ c hs => Bounded.ite (fun _ => hs.startJob c _) (fun _ => hs))
theorem cfgRevertBody_keeps : Body.Keeps cfgRevertBody := exactly_keeps (fun _ c hs => hs.startJob c _)
theorem cfgListBody_keeps : Body.Keeps cfgListBody := exactly_keeps (fun _ _ hs => hs)
theorem cfgDiscardBody_keeps : Body.Keeps cfgDiscardBody := exactly_keeps (Body.keeps_of_covers (fun s c => by simp))
theorem cfgExportBody_keeps : Body.Keeps cfgExportBody := exactly_keeps (fun _ c hs => hs.startJob c _)

theorem chunkBody_keeps (size : Nat) : Body.Keeps (chunkBody size) := by
  intro s c hs
  unfold chunkBody
  refine Bounded.ite (fun _ => hs) (fun _ => Bounded.ite (fun _ => hs) (fun _ => ?_))
  split
  · exact hs
  · exact Bounded.ite (fun _ => hs) (fun _ => hs.startJob c _)

theorem bankDiagBody_keeps : Body.Keeps bankDiagBody :=
  exactly_keeps (ofBank_keeps (fun b => Body.keeps_of_covers (fun s c => by simp)))
theorem stampFifoBody_keeps : Body.Keeps stampFifoBody :=
  exactly_keeps (ofBank_keeps (fun b _ _ hs => Bounded.ite (fun _ => hs) (fun _ => hs.of_covers (by simp))))

/-! ### Jobs -/

theorem calRunBody_keeps : Body.Keeps calRunBody :=
  exactly_keeps (ofKind_keeps (fun _ => reserved_keeps (fun _ c hs =>
    Bounded.ite (fun _ => hs) (fun _ => hs.startJob c _))))
theorem probeCalBody_keeps : Body.Keeps probeCalBody :=
  exactly_keeps (ofKind_keeps (fun _ => reserved_keeps (fun _ c hs =>
    Bounded.ite (fun _ => hs) (fun _ => hs.startJob c _))))
theorem combEnumerateBody_keeps : Body.Keeps combEnumerateBody :=
  exactly_keeps (ofKind_keeps (fun _ => reserved_keeps (fun _ c hs => hs.startJob c _)))
theorem combNodemapBody_keeps : Body.Keeps combNodemapBody :=
  exactly_keeps (ofKind_keeps (fun _ => reserved_keeps (fun s c hs => by split <;> exact hs)))

theorem jobStatusBody_keeps : Body.Keeps jobStatusBody := onJob_keeps (fun j => Body.keeps_of_covers (fun s c => by
  split
  · exact State.covers_filterJobs (by simp) _
  · split
    · split <;> simp
    · simp))

theorem jobPauseBody_keeps : Body.Keeps jobPauseBody := onJob_keeps (fun j => Body.keeps_of_covers (fun s c => by
  split
  · simp
  · split
    · simp
    · split
      case h_1 =>
        dsimp only
        split <;> simp
      case h_2 => simp
      case h_3 => simp))

theorem jobResumeBody_keeps : Body.Keeps jobResumeBody :=
  onJob_keeps (fun j _ _ hs => Bounded.ite (fun _ => hs.of_covers (by simp)) (fun _ => hs))
theorem jobCancelBody_keeps : Body.Keeps jobCancelBody :=
  onJob_keeps (fun j _ _ hs => Bounded.ite (fun _ => hs) (fun _ =>
    Bounded.ite (fun _ => hs) (fun _ => hs.of_covers (by simp))))

theorem schedCancelBody_keeps : Body.Keeps schedCancelBody := exactly_keeps (fun s c hs => by
  dsimp only
  split
  · exact hs
  · exact Bounded.ite (fun _ => hs) (fun _ => Bounded.ite (fun _ => hs) (fun _ =>
      ⟨hs.sessions, List.length_erase_le.trans hs.sched, hs.events, hs.jobs⟩)))

/-! ### Recorder, replay, update, identity, link -/

theorem recFreezeBody_keeps : Body.Keeps recFreezeBody := exactly_keeps (Body.keeps_of_covers (fun s c => by simp))
theorem recReadBody_keeps : Body.Keeps recReadBody :=
  exactly_keeps (reserved_keeps (reserved_keeps (fun _ c hs => Bounded.ite (fun _ => hs) (fun _ => hs.startJob c _))))
theorem recThawBody_keeps : Body.Keeps recThawBody := exactly_keeps (Body.keeps_of_covers (fun s c => by simp))
theorem recClearBody_keeps : Body.Keeps recClearBody :=
  exactly_keeps (fun _ c hs => Bounded.ite (fun _ => hs.schedule c) (fun _ => hs.schedule c))
theorem recStatusBody_keeps : Body.Keeps recStatusBody := exactly_keeps (fun _ _ hs => hs)
theorem replayRunBody_keeps : Body.Keeps replayRunBody :=
  exactly_keeps (fun s c hs => Bounded.ite (fun _ => hs) (fun _ =>
    reserved_keeps (fun _ c hs => hs.startJob c _) s c hs))
theorem replayResultBody_keeps : Body.Keeps replayResultBody := exactly_keeps (fun _ _ hs => hs)
theorem inputRecordBody_keeps : Body.Keeps inputRecordBody := exactly_keeps (fun _ c hs => hs.startJob c _)
theorem updBeginBody_keeps : Body.Keeps updBeginBody := Body.keeps_of_covers (fun s c => by simp [updBeginBody])
theorem updBlockBody_keeps : Body.Keeps updBlockBody := Body.keeps_of_covers (fun s c => by simp [updBlockBody])

theorem updVerifyBody_keeps : Body.Keeps updVerifyBody :=
  exactly_keeps (fun s c hs => Bounded.ite (fun _ => hs) (fun _ => Bounded.ite (fun _ => hs) (fun _ =>
    Bounded.ite (fun _ => (hs.newJob c (fun j => j)).of_covers (by simp)) (fun _ => hs.newJob c _))))

theorem updActivateBody_keeps : Body.Keeps updActivateBody := exactly_keeps (Body.keeps_of_covers (fun s c => by simp))
theorem updConfirmBody_keeps : Body.Keeps updConfirmBody := exactly_keeps (Body.keeps_of_covers (fun s c => by simp))
theorem updAbortBody_keeps : Body.Keeps updAbortBody := exactly_keeps (Body.keeps_of_covers (fun s c => by simp))
theorem updStatusBody_keeps : Body.Keeps updStatusBody := exactly_keeps (fun _ _ hs => hs)
theorem certReadBody_keeps : Body.Keeps certReadBody := exactly_keeps (reserved_keeps (fun s c hs => by
  dsimp only
  split <;> exact hs))

theorem certInstallBody_keeps : Body.Keeps certInstallBody := Body.keeps_of_covers (fun s c => by
  unfold certInstallBody
  dsimp only
  split
  · simp
  · split
    · simp
    · split
      · simp
      · split
        · simp
        · split <;> simp)

theorem oemKeyBody_keeps : Body.Keeps oemKeyBody :=
  exactly_keeps (fun _ _ hs => Bounded.ite
    (fun _ => Bounded.ite (fun _ => hs) (fun _ => hs.of_covers (by simp)))
    (fun _ => Bounded.ite (fun _ => hs) (fun _ => hs.of_covers (by simp))))
theorem signChallengeBody_keeps : Body.Keeps signChallengeBody :=
  exactly_keeps (Body.keeps_of_covers (fun s c => by simp))
theorem linkStatusBody_keeps : Body.Keeps linkStatusBody := exactly_keeps (fun _ _ hs => hs)
theorem nodeForwardBody_keeps : Body.Keeps nodeForwardBody := by
  intro s c hs
  unfold nodeForwardBody
  split <;> exact hs

end Sys2Proof.Machine
end
section
namespace Sys2Proof.Machine

/-! ## The way of a packet -/

theorem Bounded.runBody {s : State} (h : Bounded s) {b : Body} (hb : Body.Keeps b) (r : OpInfo) (c : Ctx) (now : Nat)
    (etv : Bool) (low : Nat) : Bounded (s.runBody r b c now etv low).2 := by
  unfold State.runBody
  split
  · exact h
  · exact Bounded.ite (fun _ => h) (fun _ => hb s _ h)

/-- What follows a reply adds nothing. -/
def AfterReply (f : State → State) : Prop := ∀ s : State, s.ledger.Covers (f s).ledger

theorem Bounded.execute {s : State} (h : Bounded s) {b : Body} (hb : Body.Keeps b) {after : State → State}
    (ha : AfterReply after) (p : Packet) (r : OpInfo) : Bounded (s.execute p r b after) := by
  unfold State.execute
  extract_lets key c x e reply done
  have hx : Bounded x.2 := h.runBody hb r c _ _ _
  have hdone : Bounded done := hx.of_covers (by simp [done])
  split
  · exact hx.of_covers (by simp)
  · split
    · exact hdone.of_covers (ha _)
    · exact hdone

theorem Bounded.handle {s : State} (h : Bounded s) {b : Body} (hb : Body.Keeps b) {after : State → State}
    (ha : AfterReply after) (p : Packet) (r : OpInfo) (again : Bool) : Bounded (s.handle p r b after again) := by
  have hrefused : ∀ o a, Bounded (s.refusePacket p o a) := fun o a => h.of_covers (by simp)
  have haccepted : Bounded (if again then s.acceptAgain p else s.accept p) := h.of_covers (by simp)
  unfold State.handle
  extract_lets opcode key accepted
  split
  · exact h.of_covers (by simp)
  · split
    · exact hrefused _ _
    · split
      · split
        · exact hrefused _ _
        · exact haccepted.of_covers (State.covers_sendOn (Ledger.covers_self _) _ _ _ _ _)
      · split
        · exact hrefused _ _
        · split
          · exact hrefused _ _
          · split
            · exact haccepted.of_covers (State.covers_sendOn (Ledger.covers_self _) _ _ _ _ _)
            · exact hrefused _ _
          · exact h.execute hb ha p r

theorem Bounded.hostCommand {s : State} (h : Bounded s) {b : Body} (hb : Body.Keeps b) {after : State → State}
    (ha : AfterReply after) (p : Packet) (code : Nat) : Bounded (s.hostCommand p code b after) := by
  have hadmitted : Bounded (s.admitPacket p).2 := h.of_covers (by simp)
  unfold State.hostCommand
  extract_lets a u
  split
  · exact hadmitted
  · split
    · exact hadmitted
    · split
      · exact hadmitted
      · exact hadmitted.of_covers (by simp [u, a])
      · exact hadmitted.of_covers (by simp [u, a])
      · exact hadmitted.handle hb ha p _ true
      · exact hadmitted.handle hb ha p _ false

theorem afterReply_id : AfterReply (fun s => s) := fun _ => Ledger.covers_self _
theorem afterReply_restartLogic : AfterReply State.restartLogic := fun s => by simp
theorem afterReply_afterReply (code : Nat) : AfterReply (afterReply code) := fun s => by simp [afterReply]

/-! ## Commands from the link -/

theorem bodyOf_keeps {code : Nat} {b : Body} (h : bodyOf code = some b) : Body.Keeps b := by
  unfold bodyOf at h
  split at h <;> cases h
  · exact pingBody_keeps
  · exact identifyBody_keeps
  · exact sessionOpenBody_keeps
  · exact sessionCloseBody_keeps
  · exact authBeginBody_keeps
  · exact authProveBody_keeps
  · exact lockBody_keeps true
  · exact lockBody_keeps false
  · exact setBaudBody_keeps
  · exact smokerFeedBody_keeps
  · exact smokerClearBody_keeps
  · exact irqStatusBody_keeps
  · exact irqAckBody_keeps
  · exact readEventsBody_keeps
  · exact getTickBody_keeps
  · exact setWallTimeBody_keeps
  · exact powerStateBody_keeps
  · exact restartBody_keeps
  · exact paramRead_keeps
  · exact paramWrite_keeps
  · exact paramReadBlock_keeps
  · exact paramWriteBlock_keeps
  · exact unitStatusBody_keeps
  · exact unitAction_keeps barStart
  · exact unitAction_keeps barHousekeeping
  · exact unitAction_keeps barMode
  · exact unitAction_keeps barMode
  · exact unitAction_keeps barHousekeeping
  · exact setManualBody_keeps
  · exact channelServiceBody_keeps
  · exact unitListBody_keeps
  · exact cellReadBody_keeps
  · exact cellWriteBody_keeps
  · exact cellForceBody_keeps
  · exact cellReleaseBody_keeps
  · exact cellResetBody_keeps
  · exact cfgBeginBody_keeps
  · exact cfgCommitBody_keeps
  · exact cfgRevertBody_keeps
  · exact cfgListBody_keeps
  · exact cfgDiscardBody_keeps
  · exact cfgExportBody_keeps
  · exact chunkBody_keeps bundleMax
  · exact bankDiagBody_keeps
  · exact stampFifoBody_keeps
  · exact calRunBody_keeps
  · exact probeCalBody_keeps
  · exact combEnumerateBody_keeps
  · exact combNodemapBody_keeps
  · exact recFreezeBody_keeps
  · exact recReadBody_keeps
  · exact recThawBody_keeps
  · exact recClearBody_keeps
  · exact recStatusBody_keeps
  · exact chunkBody_keeps replayMax
  · exact replayRunBody_keeps
  · exact replayResultBody_keeps
  · exact inputRecordBody_keeps
  · exact updBeginBody_keeps
  · exact updBlockBody_keeps
  · exact updVerifyBody_keeps
  · exact updActivateBody_keeps
  · exact updConfirmBody_keeps
  · exact updAbortBody_keeps
  · exact updStatusBody_keeps
  · exact certReadBody_keeps
  · exact certInstallBody_keeps
  · exact oemKeyBody_keeps
  · exact signChallengeBody_keeps
  · exact linkStatusBody_keeps
  · exact nodeForwardBody_keeps
  · exact jobStatusBody_keeps
  · exact jobPauseBody_keeps
  · exact jobResumeBody_keeps
  · exact jobCancelBody_keeps
  · exact schedCancelBody_keeps

theorem Bounded.executeLink {s : State} (h : Bounded s) (m : ForwardedCmd) : Bounded (s.executeLink m).2.2 := by
  unfold State.executeLink
  split
  case h_1 r body _ _ hbody => exact h.runBody (bodyOf_keeps hbody) _ _ _ _ _
  all_goals exact h

theorem Bounded.onCommand {s : State} (h : Bounded s) (m : ForwardedCmd) : Bounded (s.onCommand m) := by
  unfold State.onCommand
  split
  · exact h
  · extract_lets heard x b done kept fed
    have hheard : Bounded heard := h.of_covers (by simp [heard])
    split
    · exact hheard.of_covers (by simp)
    · split
      · exact hheard.of_covers (by simp)
      · have hx : Bounded x.2.2 := hheard.executeLink m
        split
        · exact hx.of_covers (by simp [done])
        · have hfed : Bounded fed := hx.of_covers (by simp [fed, kept, done])
          split
          · exact hfed.of_covers (afterReply_afterReply _ _)
          · exact hfed

/-! ## The dispatch -/

/-- A command answers a next state, within the limits if the state before is. -/
def Answers (s : State) (r : Result) : Prop := ∃ t, r = .next t ∧ (Bounded s → Bounded t)

theorem Answers.host {s : State} {b : Body} (hb : Body.Keeps b) {after : State → State} (ha : AfterReply after)
    {p : Packet} {code : Nat} : Answers s (.next (s.hostCommand p code b after)) :=
  ⟨_, rfl, fun h => h.hostCommand hb ha p code⟩

theorem Keeps.answers {s : State} {r : Result} (h : Keeps s r) : Answers s r := by
  obtain ⟨t, rfl, ht⟩ := h
  exact ⟨t, rfl, fun hs => hs.of_covers ht⟩

theorem execXistaCommand_answers (s : State) (cmd : ForwardedCmd) : Answers s (execXistaCommand cmd s) :=
  ⟨_, rfl, fun h => by
    split
    · exact h.onCommand cmd
    · exact h⟩

theorem execBadOpcode_answers (s : State) (opcode : BitVec 16) (p : Packet) : Answers s (execBadOpcode opcode p s) := by
  refine Keeps.answers ?_
  have hadmitted : s.ledger.Covers (s.admitPacket p).2.ledger := by simp
  unfold execBadOpcode
  extract_lets a u
  split
  · simp
  · split
    · exact keeps_next.mpr hadmitted
    · split
      case h_1 => exact keeps_next.mpr hadmitted
      case h_2 => exact keeps_next.mpr (by simp [u, a])
      case h_3 => exact keeps_next.mpr (by simp [u, a])
      case h_4 => split <;> exact keeps_next.mpr (by simp [u, a])

/-- Each row answers a next state and keeps the limits. -/
theorem exec_answers (i : Instr) (s : State) : Answers s (exec i s) := by
  cases i with
  | ping p => exact .host pingBody_keeps afterReply_id
  | identify p => exact .host identifyBody_keeps afterReply_id
  | sessionOpen p => exact .host sessionOpenBody_keeps afterReply_id
  | sessionClose p => exact .host sessionCloseBody_keeps afterReply_id
  | authBegin p => exact .host authBeginBody_keeps afterReply_id
  | authProve p => exact .host authProveBody_keeps afterReply_id
  | authProveBarEnd => exact (keeps_execAuthProveBarEnd s).answers
  | lock p => exact .host (lockBody_keeps _) afterReply_id
  | unlock p => exact .host (lockBody_keeps _) afterReply_id
  | setBaud p => exact .host setBaudBody_keeps afterReply_id
  | baudFallback => exact (keeps_execBaudFallback s).answers
  | smokerFeed p => exact .host smokerFeedBody_keeps afterReply_id
  | smokerClear p => exact .host smokerClearBody_keeps afterReply_id
  | irqStatus p => exact .host irqStatusBody_keeps afterReply_id
  | irqAck p => exact .host irqAckBody_keeps afterReply_id
  | readEvents p => exact .host readEventsBody_keeps afterReply_id
  | getTick p => exact .host getTickBody_keeps afterReply_id
  | setWallTime p => exact .host setWallTimeBody_keeps afterReply_id
  | powerState p => exact .host powerStateBody_keeps afterReply_id
  | restart p => exact .host restartBody_keeps afterReply_restartLogic
  | paramRead p => exact .host paramRead_keeps afterReply_id
  | paramWrite p => exact .host paramWrite_keeps afterReply_id
  | paramReadBlock p => exact .host paramReadBlock_keeps afterReply_id
  | paramWriteBlock p => exact .host paramWriteBlock_keeps afterReply_id
  | prgGoto p => exact .host paramWrite_keeps afterReply_id
  | churnClear p => exact .host paramWrite_keeps afterReply_id
  | bootRetry p => exact .host paramWrite_keeps afterReply_id
  | unitStatus p => exact .host unitStatusBody_keeps afterReply_id
  | unitStart p => exact .host (unitAction_keeps _) afterReply_id
  | unitStop p => exact .host (unitAction_keeps _) afterReply_id
  | unitManual p => exact .host (unitAction_keeps _) afterReply_id
  | unitAuto p => exact .host (unitAction_keeps _) afterReply_id
  | unitClearFault p => exact .host (unitAction_keeps _) afterReply_id
  | unitSetManualValue p => exact .host setManualBody_keeps afterReply_id
  | channelService p => exact .host channelServiceBody_keeps afterReply_id
  | unitList p => exact .host unitListBody_keeps afterReply_id
  | cellRead p => exact .host cellReadBody_keeps afterReply_id
  | cellWrite p => exact .host cellWriteBody_keeps afterReply_id
  | cellForce p => exact .host cellForceBody_keeps afterReply_id
  | cellRelease p => exact .host cellReleaseBody_keeps afterReply_id
  | cellResetExtremes p => exact .host cellResetBody_keeps afterReply_id
  | cfgBegin p => exact .host cfgBeginBody_keeps afterReply_id
  | cfgCommit p => exact .host cfgCommitBody_keeps afterReply_id
  | cfgRevert p => exact .host cfgRevertBody_keeps afterReply_id
  | cfgValidationDone job => exact (keeps_execCfgValidationDone job s).answers
  | generationActivate => exact (keeps_execGenerationActivate s).answers
  | cfgList p => exact .host cfgListBody_keeps afterReply_id
  | cfgDiscard p => exact .host cfgDiscardBody_keeps afterReply_id
  | cfgExportSuccession p => exact .host cfgExportBody_keeps afterReply_id
  | cfgImportSuccession p => exact .host (chunkBody_keeps _) afterReply_id
  | bankDiagRead p => exact .host bankDiagBody_keeps afterReply_id
  | stampFifoRead p => exact .host stampFifoBody_keeps afterReply_id
  | calRun p => exact .host calRunBody_keeps afterReply_id
  | calRunDone job unit action => exact (keeps_execCalRunDone job unit action s).answers
  | probeCal p => exact .host probeCalBody_keeps afterReply_id
  | probeCalDone job sweeps => exact (keeps_execProbeCalDone job sweeps s).answers
  | combEnumerate p => exact .host combEnumerateBody_keeps afterReply_id
  | combEnumerateDone job line answers => exact (keeps_execCombEnumerateDone job line answers s).answers
  | combNodemapRead p => exact .host combNodemapBody_keeps afterReply_id
  | recFreeze p => exact .host recFreezeBody_keeps afterReply_id
  | recFreezeExpiry => exact (keeps_execRecFreezeExpiry s).answers
  | recThaw p => exact .host recThawBody_keeps afterReply_id
  | recRead p => exact .host recReadBody_keeps afterReply_id
  | recClear p => exact .host recClearBody_keeps afterReply_id
  | recClearEraseDone => exact (keeps_execRecClearEraseDone s).answers
  | recStatus p => exact .host recStatusBody_keeps afterReply_id
  | replayLoad p => exact .host (chunkBody_keeps _) afterReply_id
  | replayRun p => exact .host replayRunBody_keeps afterReply_id
  | replayResult p => exact .host replayResultBody_keeps afterReply_id
  | inputRecordRead p => exact .host inputRecordBody_keeps afterReply_id
  | updBegin p => exact .host updBeginBody_keeps afterReply_id
  | updBlock p => exact .host updBlockBody_keeps afterReply_id
  | updBlockProgrammed matched => exact (keeps_execUpdBlockProgrammed matched s).answers
  | updVerify p => exact .host updVerifyBody_keeps afterReply_id
  | updVerifyDone job => exact (keeps_execUpdVerifyDone job s).answers
  | updActivate p => exact .host updActivateBody_keeps afterReply_id
  | activationPause resumeAt report => exact (keeps_execActivationPause resumeAt report s).answers
  | updConfirm p => exact .host updConfirmBody_keeps afterReply_id
  | updAbort p => exact .host updAbortBody_keeps afterReply_id
  | updStatus p => exact .host updStatusBody_keeps afterReply_id
  | certRead p => exact .host certReadBody_keeps afterReply_id
  | certInstall p => exact .host certInstallBody_keeps afterReply_id
  | oemKeyInstall p => exact .host oemKeyBody_keeps afterReply_id
  | signChallenge p => exact .host signChallengeBody_keeps afterReply_id
  | linkStatus p => exact .host linkStatusBody_keeps afterReply_id
  | nodeForward p => exact .host nodeForwardBody_keeps afterReply_id
  | jobStatus p => exact .host jobStatusBody_keeps afterReply_id
  | jobPause p => exact .host jobPauseBody_keeps afterReply_id
  | jobResume p => exact .host jobResumeBody_keeps afterReply_id
  | jobCancel p => exact .host jobCancelBody_keeps afterReply_id
  | jobCheckpoint job progress => exact (keeps_execJobCheckpoint job progress s).answers
  | jobEnd job end_ => exact (keeps_execJobEnd job end_ s).answers
  | schedCancel p => exact .host schedCancelBody_keeps afterReply_id
  | badOpcode opcode p => exact execBadOpcode_answers s opcode p
  | packetDiscard bytes => exact (keeps_execPacketDiscard bytes s).answers
  | uartByteGap => exact (keeps_execUartByteGap s).answers
  | spiRead transfer => exact (keeps_execSpiRead transfer s).answers
  | sessionIdleTimeout session => exact (keeps_execSessionIdleTimeout session s).answers
  | smokerCalm => exact (keeps_execSmokerCalm s).answers
  | tickBoundary => exact (keeps_execTickBoundary s).answers
  | scheduledCommandApply => exact (keeps_execScheduledCommandApply s).answers
  | windDownComplete slot => exact (keeps_execWindDownComplete slot s).answers
  | inputDeadline => exact (keeps_execInputDeadline s).answers
  | substLimitReached ch => exact (keeps_execSubstLimitReached ch s).answers
  | binSample bin => exact (keeps_execBinSample bin s).answers
  | aerationHoldEnd bin => exact (keeps_execAerationHoldEnd bin s).answers
  | fanKickEnd fan => exact (keeps_execFanKickEnd fan s).answers
  | fanStartTimeout fan => exact (keeps_execFanStartTimeout fan s).answers
  | fanPauseEnd fan => exact (keeps_execFanPauseEnd fan s).answers
  | fanSpeedFaultTimer fan => exact (keeps_execFanSpeedFaultTimer fan s).answers
  | fanSupplyShort fan => exact (keeps_execFanSupplyShort fan s).answers
  | summaryCut => exact (keeps_execSummaryCut s).answers
  | summaryFlashWrite programOk healthOk => exact (keeps_execSummaryFlashWrite programOk healthOk s).answers
  | tickCommit => exact (keeps_execTickCommit s).answers
  | inrecSegmentBoundary => exact (keeps_execInrecSegmentBoundary s).answers
  | tickRedo fault => exact (keeps_execTickRedo fault s).answers
  | lagRestart report => exact (keeps_execLagRestart report s).answers
  | eccCorrected page address => exact (keeps_execEccCorrected page address s).answers
  | eccUncorrectableCommitted fault => exact (keeps_execEccUncorrectableCommitted fault s).answers
  | sramScrub page => exact (keeps_execSramScrub page s).answers
  | pageRetire page => exact (keeps_execPageRetire page s).answers
  | tickCheckpoint => exact (keeps_execTickCheckpoint s).answers
  | fineClockLock => exact (keeps_execFineClockLock s).answers
  | crystalFailSet => exact (keeps_execCrystalFailSet s).answers
  | crystalFailClear => exact (keeps_execCrystalFailClear s).answers
  | hostResetNAssert => exact (keeps_execHostResetNAssert s).answers
  | bootStart cause report => exact (keeps_execBootStart cause report s).answers
  | hostWake => exact (keeps_execHostWake s).answers
  | vinPowerOn millivolts uart => exact (keeps_execVinPowerOn millivolts uart s).answers
  | vinPowerFail => exact (keeps_execVinPowerFail s).answers
  | vinThresholdCrossing crossing millivolts => exact (keeps_execVinThresholdCrossing crossing millivolts s).answers
  | vioLow inPacket => exact (keeps_execVioLow inPacket s).answers
  | vfldUvloEntry bank millivolts => exact (keeps_execVfldUvloEntry bank millivolts s).answers
  | vfldUvloReturn bank millivolts => exact (keeps_execVfldUvloReturn bank millivolts s).answers
  | vfldLowSet bank millivolts => exact (keeps_execVfldLowSet bank millivolts s).answers
  | vfldLowClear bank millivolts => exact (keeps_execVfldLowClear bank millivolts s).answers
  | vfanCrossing crossing millivolts => exact (keeps_execVfanCrossing crossing millivolts s).answers
  | bankInService bank report => exact (keeps_execBankInService bank report s).answers
  | bankUplinkFrame source frame => exact (keeps_execBankUplinkFrame source frame s).answers
  | baseRefreshFrame dest intact => exact (keeps_execBaseRefreshFrame dest intact s).answers
  | updateRefreshFrame bank ch => exact (keeps_execUpdateRefreshFrame bank ch s).answers
  | bankGuardExpiry bank => exact (keeps_execBankGuardExpiry bank s).answers
  | bankGuardRelease bank => exact (keeps_execBankGuardRelease bank s).answers
  | bankFailure bank cause => exact (keeps_execBankFailure bank cause s).answers
  | bankRestart bank passed => exact (keeps_execBankRestart bank passed s).answers
  | loadClassUpdate bank unseen => exact (keeps_execLoadClassUpdate bank unseen s).answers
  | diEdgeAccepted ch rise fine => exact (keeps_execDiEdgeAccepted ch rise fine s).answers
  | stuckDetect ch => exact (keeps_execStuckDetect ch s).answers
  | countZeroTimeout ch => exact (keeps_execCountZeroTimeout ch s).answers
  | doOverloadTrip ch => exact (keeps_execDoOverloadTrip ch s).answers
  | doBackfeedTrip ch switchedOn => exact (keeps_execDoBackfeedTrip ch switchedOn s).answers
  | pairImbalanceTrip ch => exact (keeps_execPairImbalanceTrip ch s).answers
  | openLoadDetect ch => exact (keeps_execOpenLoadDetect ch s).answers
  | aoiOpenLoop ch => exact (keeps_execAoiOpenLoop ch s).answers
  | aovCurrentLimitTrip ch => exact (keeps_execAovCurrentLimitTrip ch s).answers
  | doPulsePeriodEnd ch => exact (keeps_execDoPulsePeriodEnd ch s).answers
  | excCurrentApply ch => exact (keeps_execExcCurrentApply ch s).answers
  | probeSweepStart probe => exact (keeps_execProbeSweepStart probe s).answers
  | sweepRecord probe meas => exact (keeps_execSweepRecord probe meas s).answers
  | combRoundStart line meas => exact (keeps_execCombRoundStart line meas s).answers
  | combRoundRecord line meas => exact (keeps_execCombRoundRecord line meas s).answers
  | combMissLimit line position => exact (keeps_execCombMissLimit line position s).answers
  | combLineShort ch => exact (keeps_execCombLineShort ch s).answers
  | combLineBackfeed ch => exact (keeps_execCombLineBackfeed ch s).answers
  | loopInputLossFault loop => exact (keeps_execLoopInputLossFault loop s).answers
  | profInputLossFault prof => exact (keeps_execProfInputLossFault prof s).answers
  | churnFadeEnd churn => exact (keeps_execChurnFadeEnd churn s).answers
  | obsInputLossFault column => exact (keeps_execObsInputLossFault column s).answers
  | programStepTimeout prog => exact (keeps_execProgramStepTimeout prog s).answers
  | programInputLoss prog => exact (keeps_execProgramInputLoss prog s).answers
  | programAction prog => exact (keeps_execProgramAction prog s).answers
  | chainProveTimeout chain member => exact (keeps_execChainProveTimeout chain member s).answers
  | chainMotionLoss chain member => exact (keeps_execChainMotionLoss chain member s).answers
  | chainPurgeEnd chain member => exact (keeps_execChainPurgeEnd chain member s).answers
  | housekeepingRound meas => exact (keeps_execHousekeepingRound meas s).answers
  | thermalShutdown => exact (keeps_execThermalShutdown s).answers
  | thermalAbort135 site tenths => exact (keeps_execThermalAbort135 site tenths s).answers
  | phyLinkUp port amplitude => exact (keeps_execPhyLinkUp port amplitude s).answers
  | phyLinkDown port => exact (keeps_execPhyLinkDown port s).answers
  | xistaFrameDiscard port reason => exact (keeps_execXistaFrameDiscard port reason s).answers
  | xistaRelay port => exact (keeps_execXistaRelay port s).answers
  | helloTimer => exact (keeps_execHelloTimer s).answers
  | hello port msg => exact (keeps_execHello port msg s).answers
  | challenge port msg => exact (keeps_execChallenge port msg s).answers
  | proof port msg => exact (keeps_execProof port msg s).answers
  | proofTimeout node => exact (keeps_execProofTimeout node s).answers
  | admission port queenTick queenFine => exact (keeps_execAdmission port queenTick queenFine s).answers
  | refuse port target reason => exact (keeps_execRefuse port target reason s).answers
  | syncReqTimer => exact (keeps_execSyncReqTimer s).answers
  | syncReq node arrivalFine replyFine => exact (keeps_execSyncReq node arrivalFine replyFine s).answers
  | syncResp q1 q2 s2 => exact (keeps_execSyncResp q1 q2 s2 s).answers
  | tickLengthen => exact (keeps_execTickLengthen s).answers
  | nodeJoin node => exact (keeps_execNodeJoin node s).answers
  | subscribe fromTick cells => exact (keeps_execSubscribe fromTick cells s).answers
  | cells node entries => exact (keeps_execCells node entries s).answers
  | remoteCellApply => exact (keeps_execRemoteCellApply s).answers
  | xistaCommand cmd => exact execXistaCommand_answers s cmd
  | xistaReply node reply => exact (keeps_execXistaReply node reply s).answers
  | linkReplyTimeout node => exact (keeps_execLinkReplyTimeout node s).answers
  | xistaStatus node msg => exact (keeps_execXistaStatus node msg s).answers
  | leave node reason => exact (keeps_execLeave node reason s).answers
  | linkLossTimeout node => exact (keeps_execLinkLossTimeout node s).answers
  | nodeLost node => exact (keeps_execNodeLost node s).answers
  | queenSmokerFeed => exact (keeps_execQueenSmokerFeed s).answers
  | vioReturn => exact (keeps_execVioReturn s).answers
  | fanGuardExpiry => exact (keeps_execFanGuardExpiry s).answers

end Sys2Proof.Machine
end

section
open Sys2Proof Sys2Proof.Machine

/-- Settles O2: each row answers `.next`. -/
theorem everyCommandRuns : Obligations.EveryCommandRuns := by
  unfold Obligations.EveryCommandRuns
  intro c s
  obtain ⟨t, ht, _⟩ := exec_answers c s
  exact ⟨t, ht⟩

/-- Settles O4, from the limits under each row. -/
theorem stepKeepsBounded : Obligations.StepKeepsBounded := by
  unfold Obligations.StepKeepsBounded
  intro s t h ht
  unfold step at ht
  split at ht
  · cases ht
    exact h
  case h_2 c rest _ =>
    obtain ⟨u, hu, hbounded⟩ := exec_answers c { s with pending := rest }
    rw [hu] at ht
    cases ht
    exact hbounded ⟨h.sessions, h.sched, h.events, h.jobs⟩

end

section
/-! # A start that finds boot hold set (R437, R439) -/

namespace Sys2Proof.Machine

/-- A report of a start in which no step fails. -/
def soundReport : BootReport :=
  { journalOk := true, otpOk := true, slotOk := true, otherSlotOk := true, pagesFailed := [], oemKeyOk := true
    checkpointOk := true, crystalOk := true, selfTestsOk := true, gensBad := [], handoverOk := true
    uartSelected := false, banksFailed := [], fansFailed := [], linksFailed := [], combsFailed := [], banksUvlo := []
    banksLow := [], supplies := [] }

/-- The module after reset, stopped with a restart to come, and with the mark of a boot hold. -/
def heldState : State := { State.reset with
  host := { State.reset.host with alive := false }
  boot := { State.reset.boot with hold := true, startDue := some 2 } }

/-- A start takes no boot hold back: the stop before it does (R439). -/
theorem heldState_bootStart_hold : (heldState.bootStart .restart soundReport).boot.hold = true := by decide +kernel

end Sys2Proof.Machine

open Sys2Proof Sys2Proof.Machine

/-- Refutes O33: its clause on a start in which no step fails wants boot hold gone, and does not ask that the state
before is without it. `heldState` meets the premises, and the start leaves `boot.hold` as it finds it. -/
theorem not_starts : ¬ Obligations.Starts := by
  unfold Obligations.Starts
  rintro ⟨-, hsound, -⟩
  obtain ⟨t, ht, -, -, -, -, -, -, -, -, -, hhold⟩ :=
    hsound heldState .restart soundReport rfl rfl rfl rfl rfl rfl rfl rfl rfl rfl rfl
  have hstart : exec (.bootStart .restart soundReport) heldState =
      .next (heldState.bootStart .restart soundReport) := rfl
  obtain rfl := Host.Outcome.next.inj (hstart.symm.trans ht)
  exact Bool.noConfusion (heldState_bootStart_hold.symm.trans hhold)

end

section
/-! # The short start of the activation pause (R408 to R411) -/

namespace Sys2Proof.Machine

/-- What a short start keeps: the update session, the tick and the tick of work. -/
def State.pace (s : State) : Update × Nat × Nat := (s.upd, s.tick, s.workTick)

@[simp] theorem State.pace_ite (c : Prop) [Decidable c] (s t : State) :
    (if c then s else t).pace = if c then s.pace else t.pace := apply_ite State.pace c s t

@[simp] theorem pace_foldl {α : Type} {f : State → α → State} (h : ∀ s a, (f s a).pace = s.pace) (l : List α)
    (s : State) : (l.foldl f s).pace = s.pace := foldl_keeps State.pace h l s

@[simp] theorem State.pace_mk (pending tick checkpoint fineValid wallDiff wallStale vinOn power id host smoker
    sched jobs gens topNumber activeGen awaiting pendGen importBuf order prev base work evaluated committed workTick inbufs
    deadlineAt skip banks fieldChans fprobes fcombs fanDom recorder inrec sram upd link boot hk draws drawsAt) :
    (State.mk pending tick checkpoint fineValid wallDiff wallStale vinOn power id host smoker sched jobs
    gens topNumber activeGen awaiting pendGen importBuf order prev base work evaluated committed workTick inbufs
    deadlineAt skip banks fieldChans fprobes fcombs fanDom recorder inrec sram upd link boot hk draws drawsAt).pace =
      (upd, tick, workTick) := (rfl)

@[simp] theorem pace_eta (s : State) : (s.upd, s.tick, s.workTick) = s.pace := (rfl)

section
variable (s : State)
@[simp] theorem State.pace_raise (cause handle code data : Nat) :
    (s.raise cause handle code data).pace = s.pace := (rfl)
@[simp] theorem State.pace_modWork (f : Plant → Plant) : (s.modWork f).pace = s.pace := (rfl)
@[simp] theorem State.pace_setFch (n : Nat) (x : FieldChan) : (s.setFch n x).pace = s.pace := (rfl)
@[simp] theorem State.pace_setFprobe (n : Nat) (x : FieldProbe) : (s.setFprobe n x).pace = s.pace := (rfl)
@[simp] theorem State.pace_setFcomb (n : Nat) (x : FieldComb) : (s.setFcomb n x).pace = s.pace := (rfl)
@[simp] theorem State.pace_setBank (n : Nat) (x : Bank) : (s.setBank n x).pace = s.pace := (rfl)
@[simp] theorem State.pace_setPeer (n : Nat) (x : Peer) : (s.setPeer n x).pace = s.pace := (rfl)
@[simp] theorem State.pace_modHk (f : Hk → Hk) : (s.modHk f).pace = s.pace := (rfl)
@[simp] theorem State.pace_modHost (f : HostIf → HostIf) : (s.modHost f).pace = s.pace := (rfl)
@[simp] theorem State.pace_modBoot (f : Boot → Boot) : (s.modBoot f).pace = s.pace := (rfl)
@[simp] theorem State.pace_modGen (n : Nat) (f : Generation → Generation) : (s.modGen n f).pace = s.pace := (rfl)
@[simp] theorem State.pace_modJournal (f : Journal → Journal) : (s.modJournal f).pace = s.pace := (rfl)
@[simp] theorem State.pace_outcome (step code : Nat) : (s.outcome step code).pace = s.pace := (rfl)
@[simp] theorem State.pace_convertFormats : s.convertFormats.pace = s.pace := (rfl)
@[simp] theorem State.pace_openInterval (t : Nat) : (s.openInterval t).pace = s.pace := (rfl)
@[simp] theorem State.pace_clearRetried : s.clearRetried.pace = s.pace := (rfl)
@[simp] theorem State.pace_openJournal (cause : Nat) (ok : Bool) : (s.openJournal cause ok).pace = s.pace := (rfl)
@[simp] theorem State.pace_settle : s.settle.pace = s.pace := (rfl)
@[simp] theorem State.pace_raiseUpdate : s.raiseUpdate.pace = s.pace := (rfl)

@[simp] theorem State.pace_beginStart (cause : Nat) (r : BootReport) : (s.beginStart cause r).pace = s.pace := by
  simp [State.beginStart]

@[simp] theorem State.pace_channelOut (ch : Nat) : (s.channelOut ch).pace = s.pace := by
  change (s.channelOut ch).besidePlant.pace = s.besidePlant.pace
  rw [s.besidePlant_channelOut ch]

@[simp] theorem State.pace_bankFlag (b bit : Nat) (on : Bool) : (s.bankFlag b bit on).pace = s.pace := by
  simp [State.bankFlag]

@[simp] theorem State.pace_vfldFlags (b : Nat) : (s.vfldFlags b).pace = s.pace := by simp [State.vfldFlags]

@[simp] theorem State.pace_loseAlign : s.loseAlign.pace = s.pace := by simp [State.loseAlign]

@[simp] theorem State.pace_crystal (fail : Bool) : (s.crystal fail).pace = s.pace := by simp [State.crystal]

@[simp] theorem State.pace_bootClock (ok : Bool) : (s.bootClock ok).pace = s.pace := by simp [State.bootClock]

@[simp] theorem State.pace_bootStores (r : BootReport) : (s.bootStores r).pace = s.pace := by simp [State.bootStores]

@[simp] theorem State.pace_failGeneration (n : Nat) : (s.failGeneration n).pace = s.pace := by
  unfold State.failGeneration
  split <;> simp

@[simp] theorem State.pace_bootConfig (r : BootReport) : (s.bootConfig r).pace = s.pace := by simp [State.bootConfig]

@[simp] theorem State.pace_supplyPresent (code mv : Nat) (on : Bool) : (s.supplyPresent code mv on).pace = s.pace := by
  simp [State.supplyPresent]

@[simp] theorem State.pace_bootFans (short : Bool) (r : BootReport) : (s.bootFans short r).pace = s.pace := by
  simp [State.bootFans]

@[simp] theorem State.pace_handedOver : s.handedOver.pace = s.pace := by simp [State.handedOver]

@[simp] theorem State.pace_raiseStart (cause : Nat) (halted : Option Nat) :
    (s.raiseStart cause halted).pace = s.pace := by
  unfold State.raiseStart
  split <;> simp

@[simp] theorem State.pace_endStart (cause : Nat) : (s.endStart cause).pace = s.pace := by simp [State.endStart]
end

@[simp] theorem State.pace_relinkBank (keep : Bool) (r : BootReport) (s : State) (b : Nat) :
    (State.relinkBank keep r s b).pace = s.pace := by simp [State.relinkBank]

@[simp] theorem State.pace_bootBanks (s : State) (keep : Bool) (r : BootReport) :
    (s.bootBanks true keep r).pace = s.pace := by simp [State.bootBanks]

/-- The short start with a handover begins its work at the tick that stands. -/
theorem State.pace_shortStart (s : State) (cause : Nat) (r : BootReport) :
    (s.shortStart cause true r).pace = (s.upd, s.tick, s.tick) := by simp [State.shortStart]

theorem State.pace_eq {s : State} {u : Update} {t w : Nat} (h : s.pace = (u, t, w)) :
    s.upd = u ∧ s.tick = t ∧ s.workTick = w :=
  ⟨congrArg Prod.fst h, congrArg (fun p => p.2.1) h, congrArg (fun p => p.2.2) h⟩

theorem State.upd_of_pace {s t : State} (h : s.pace = t.pace) : s.upd = t.upd := congrArg Prod.fst h
theorem State.tick_of_pace {s t : State} (h : s.pace = t.pace) : s.tick = t.tick := congrArg (fun p => p.2.1) h

end Sys2Proof.Machine
end

section
/-! # The stages of an update (R402, R403, R408 to R411) -/

namespace Sys2Proof.Machine

/-! ## The stop and the switch of an activation -/

theorem State.upd_stopLogic (s : State) (n : Nat) : (s.stopLogic n).upd = s.upd.interrupt := by
  unfold State.stopLogic State.abandonChange
  dsimp only
  split <;> rfl

/-- A stop ends an attempt under way, and leaves what the slots hold. -/
theorem Update.interrupt_slots (u : Update) :
    u.interrupt.slotB = u.slotB ∧ u.interrupt.manifests = u.manifests ∧ u.interrupt.secVersion = u.secVersion ∧
      u.interrupt.slotBad = u.slotBad := by
  unfold Update.interrupt
  dsimp only
  split <;> exact ⟨rfl, rfl, rfl, rfl⟩

/-- The module stopped for an activation, at the end of tick `t` (R408). -/
def State.pausedAt (s : State) (t : Nat) : State :=
  { s.stopLogic 0 with
    tick := t
    checkpoint := if (s.stopLogic 0).tick < t / 65536 * 65536 then (t / 65536 * 65536, (s.stopLogic 0).wallDiff)
      else (s.stopLogic 0).checkpoint }

/-- The new slot on trial, the old one as fallback (R410). -/
def Update.onTrial (u : Update) : Update :=
  { u.writeBoot with
    state := .trial
    fallbackB := u.slotB
    slotB := !u.slotB
    slotBad := u.slotBad.set (slotIndex !u.slotB) false
    trial := true
    trialsLeft := 3 }

/-- The selection switches to the other slot, whose mark is dropped. -/
def State.switchSlot (s : State) : State :=
  ((s.modBoot (fun b => { b with marksSlot := b.marksSlot.filter (fun i => i != slotIndex !s.upd.slotB) })).modUpd
    Update.onTrial).runSlot

/-- The slot that runs gives the firmware version, and nothing else of the update session. -/
theorem State.upd_runSlot (s : State) : ∃ v, s.runSlot.upd = { s.upd with fwVersion := v } := by
  unfold State.runSlot
  extract_lets m
  split
  · exact ⟨0x01000000, rfl⟩
  · exact ⟨field m 8 4, rfl⟩

/-- The slot that runs is seen in the update session and in the identity. -/
theorem State.runSlot_beside (s : State) : s.runSlot = { s with upd := s.runSlot.upd, id := s.runSlot.id } := by
  unfold State.runSlot
  extract_lets m
  split <;> rfl

theorem State.boot_runSlot (s : State) : s.runSlot.boot = s.boot := by rw [s.runSlot_beside]
theorem State.tick_runSlot (s : State) : s.runSlot.tick = s.tick := by rw [s.runSlot_beside]

theorem State.upd_switchSlot (s : State) : ∃ v, s.switchSlot.upd = { s.upd.onTrial with fwVersion := v } :=
  State.upd_runSlot _

theorem State.marksSlot_switchSlot (s : State) : slotIndex (!s.upd.slotB) ∉ s.switchSlot.boot.marksSlot := by
  have hmarks : s.switchSlot.boot.marksSlot = s.boot.marksSlot.filter (fun i => i != slotIndex !s.upd.slotB) :=
    congrArg Boot.marksSlot (State.boot_runSlot _)
  simp [hmarks]

theorem State.upd_modJournal (s : State) (f : Journal → Journal) : (s.modJournal f).upd = s.upd := rfl
theorem State.upd_outcome (s : State) (step code : Nat) : (s.outcome step code).upd = s.upd := rfl
theorem State.marksSlot_modJournal (s : State) (f : Journal → Journal) :
    (s.modJournal f).boot.marksSlot = s.boot.marksSlot := rfl
theorem State.marksSlot_outcome (s : State) (step code : Nat) :
    (s.outcome step code).boot.marksSlot = s.boot.marksSlot := rfl
theorem State.upd_beginStart (s : State) (cause : Nat) (r : BootReport) : (s.beginStart cause r).upd = s.upd :=
  State.upd_of_pace (s.pace_beginStart cause r)

theorem State.marksSlot_beginStart (s : State) (cause : Nat) (r : BootReport) :
    (s.beginStart cause r).boot.marksSlot = s.boot.marksSlot := rfl

/-- The new slot begins its trial with the start that `r` reports (steps B0 and B1). -/
def State.trialBegun (s : State) (e t : Nat) (r : BootReport) : State :=
  ((((s.pausedAt t).switchSlot).beginStart 5 r).modJournal (fun j => { j with tick := Nat.min e t })).outcome 1 0

theorem State.upd_trialBegun (s : State) (e t : Nat) (r : BootReport) :
    ∃ v, (s.trialBegun e t r).upd = { s.upd.interrupt.onTrial with fwVersion := v } := by
  obtain ⟨v, hv⟩ := (s.pausedAt t).upd_switchSlot
  have hpaused : (s.pausedAt t).upd = s.upd.interrupt := s.upd_stopLogic 0
  rw [hpaused] at hv
  exact ⟨v, by rw [State.trialBegun, State.upd_outcome, State.upd_modJournal, State.upd_beginStart, hv]⟩

theorem State.marksSlot_trialBegun (s : State) (e t : Nat) (r : BootReport) :
    (s.trialBegun e t r).boot.marksSlot = (s.pausedAt t).switchSlot.boot.marksSlot := by
  rw [State.trialBegun, State.marksSlot_outcome, State.marksSlot_modJournal, State.marksSlot_beginStart]

/-- What lets a slot start: no mark, a valid image, a SEC_VERSION that is not below the OTP's. -/
theorem State.slotStarts_of {s : State} {b : Bool} (hm : slotIndex b ∉ s.boot.marksSlot)
    (hb : s.upd.slotBad.getD (slotIndex b) true = false)
    (hv : s.upd.secVersion ≤ field (s.upd.manifests.getD (slotIndex b) []) 7 1) : s.slotStarts b true = true := by
  simp [State.slotStarts, hm, hv, hb, -List.getD_eq_getElem?_getD]

theorem State.slotStarts_trialBegun {s : State} (e t : Nat) (r : BootReport)
    (hv : s.upd.secVersion ≤ field (s.upd.manifests.getD (slotIndex !s.upd.slotB) []) 7 1)
    (hb : s.upd.slotBad.length = 2) : (s.trialBegun e t r).slotStarts (!s.upd.slotB) true = true := by
  obtain ⟨v, hupd⟩ := s.upd_trialBegun e t r
  obtain ⟨hslotB, hmanifests, hversion, hbad⟩ := s.upd.interrupt_slots
  refine State.slotStarts_of ?marks ?bad ?version
  case marks =>
    have hpaused : (s.pausedAt t).upd.slotB = s.upd.slotB := (congrArg Update.slotB (s.upd_stopLogic 0)).trans hslotB
    rw [State.marksSlot_trialBegun, ← hpaused]
    exact (s.pausedAt t).marksSlot_switchSlot
  case bad =>
    have hindex : slotIndex (!s.upd.slotB) < s.upd.slotBad.length := by
      rw [hb]
      cases s.upd.slotB <;> decide
    rw [hupd]
    simp [Update.onTrial, Update.writeBoot, hslotB, hbad, List.getD_eq_getElem?_getD, hindex]
  case version =>
    rw [hupd]
    simpa [Update.onTrial, Update.writeBoot, hmanifests, hversion] using hv

/-- A trial is taken. -/
def Update.tryTaken (u : Update) : Update := { u.writeBoot with trialsLeft := u.trialsLeft - 1 }

/-- Step B2 in TRIAL takes one of the trials that are left. -/
theorem State.bootSlot_tries {s : State} {r : BootReport} (ht : s.upd.trial = true) (hn : s.upd.trialsLeft ≠ 0)
    (hs : s.slotStarts s.upd.slotB r.slotOk = true) :
    s.bootSlot r = (.runs, (s.modUpd Update.tryTaken).outcome 2 (if s.boot.marksSlot.isEmpty then 0 else 1)) := by
  unfold State.bootSlot
  rw [if_neg (fun h => hn h.2)]
  simp only [ht, if_true]
  exact if_pos hs

theorem State.bootSlot_trialBegun {s : State} (e t : Nat) {r : BootReport} (hs : r.slotOk = true)
    (hv : s.upd.secVersion ≤ field (s.upd.manifests.getD (slotIndex !s.upd.slotB) []) 7 1)
    (hb : s.upd.slotBad.length = 2) :
    ∃ code, (s.trialBegun e t r).bootSlot r =
      (.runs, ((s.trialBegun e t r).modUpd Update.tryTaken).outcome 2 code) := by
  obtain ⟨v, hupd⟩ := s.upd_trialBegun e t r
  have hslotB : (s.trialBegun e t r).upd.slotB = !s.upd.slotB := by
    rw [hupd, ← s.upd.interrupt_slots.1]
    rfl
  refine ⟨_, State.bootSlot_tries (by rw [hupd]; rfl) (by rw [hupd]; exact Nat.succ_ne_zero 2) ?_⟩
  rw [hs, hslotB]
  exact State.slotStarts_trialBegun e t r hv hb

/-- The short start of the new slot, with the handover (R409, R411). -/
def State.trialStart (s : State) (e t : Nat) (r : BootReport) : State :=
  ((((s.trialBegun e t r).bootSlot r).2.outcome 3 2).bootStores r).shortStart 5 true r

/-- What the handover carries beside the plant: the commands that wait, and the calm (R409). -/
def State.handsOver (s u : State) : State :=
  { u with
    sched := s.sched
    smoker := { u.smoker with calmed := s.smoker.calmed } }

theorem State.activationPause_eq {s : State} {e resumeAt : Nat} {r : BootReport} (ha : s.upd.activateAt = some e)
    (hf : s.upd.fallbackDue = false) (hc : s.committed = true) (he : s.tick + 1 = e) (hmin : e ≤ resumeAt)
    (hmax : resumeAt ≤ e + 256) (ho : r.otpOk = true) (hs : r.slotOk = true) (ht : r.selfTestsOk = true)
    (hh : r.handoverOk = true)
    (hv : s.upd.secVersion ≤ field (s.upd.manifests.getD (slotIndex !s.upd.slotB) []) 7 1)
    (hb : s.upd.slotBad.length = 2) :
    s.activationPause resumeAt r =
      s.handsOver (s.trialStart e (resumeAt - 1) r) := by
  have hfirst : Nat.max (Nat.max e (s.tick + 1)) (Nat.min resumeAt (e + 256)) = resumeAt := by
    change max (max e (s.tick + 1)) (min resumeAt (e + 256)) = resumeAt
    omega
  obtain ⟨code, hslot⟩ := State.bootSlot_trialBegun e (resumeAt - 1) hs hv hb
  unfold State.activationPause
  split
  case h_1 hnone => cases ha.symm.trans hnone
  case h_2 e' hsome =>
    obtain rfl := Option.some.inj (ha.symm.trans hsome)
    rw [if_neg (by simp [hc, he])]
    extract_lets back first sched calmed stopped mark paused new unmarked begun cause started keep
    have hback : back = false := hf
    have hpaused : paused = s.pausedAt (resumeAt - 1) := by
      unfold paused mark
      rw [show first = resumeAt from hfirst]
      rfl
    have hbegun : begun = (s.pausedAt (resumeAt - 1)).switchSlot := by
      unfold begun
      rw [if_neg (by simp [hback])]
      unfold unmarked new
      rw [hpaused]
      rfl
    have hcause : cause = 5 := if_neg (by simp [hback])
    have hkeep : keep = true := by simp [keep, hback, hh]
    have hstarted : started.outcome 1 0 = s.trialBegun e (resumeAt - 1) r := by
      unfold started
      rw [hbegun, hcause, show first = resumeAt from hfirst]
      rfl
    rw [if_neg (by simp [ho])]
    split <;> rename_i heq <;> rw [hstarted, hslot] at heq
    · cases heq
    · cases heq
    · obtain rfl := (Prod.mk.inj heq).2
      rw [if_neg (by simp [ht]), hkeep, hcause, if_pos rfl]
      refine congrArg s.handsOver ?_
      rw [State.trialStart, hslot]

/-! ## What the trial's start leaves -/

theorem State.tick_beginStart (s : State) (cause : Nat) (r : BootReport) : (s.beginStart cause r).tick = s.tick :=
  State.tick_of_pace (s.pace_beginStart cause r)
theorem State.tick_modJournal (s : State) (f : Journal → Journal) : (s.modJournal f).tick = s.tick := rfl
theorem State.tick_outcome (s : State) (step code : Nat) : (s.outcome step code).tick = s.tick := rfl

theorem State.tick_trialBegun (s : State) (e t : Nat) (r : BootReport) : (s.trialBegun e t r).tick = t := by
  rw [State.trialBegun, State.tick_outcome, State.tick_modJournal, State.tick_beginStart]
  exact State.tick_runSlot _

theorem State.committed_raise (s : State) (cause handle code data : Nat) :
    (s.raise cause handle code data).committed = s.committed := (rfl)

theorem State.committed_raiseStart (s : State) (cause : Nat) (halted : Option Nat) :
    (s.raiseStart cause halted).committed = s.committed := by
  unfold State.raiseStart
  extract_lets j alternates begun ready opened cleared
  have hready : ready.committed = s.committed := by cases halted <;> rfl
  have hopened : opened.committed = ready.committed :=
    foldl_keeps State.committed (fun s _ => State.committed_raise s _ _ _ _) ready.boot.sessionsOpen ready
  split <;> exact hopened.trans hready

/-- A start that ends leaves the interface listening. -/
theorem State.alive_endStart (s : State) (cause : Nat) : (s.endStart cause).host.alive = true :=
  congrArg Ledger.alive (State.ledger_raiseStart _ cause none)

theorem State.committed_endStart (s : State) (cause : Nat) : (s.endStart cause).committed = s.committed :=
  State.committed_raiseStart _ cause none

/-- The short start leaves the interface listening and the plant committed. -/
theorem State.shortStart_ends (s : State) (cause : Nat) (keep : Bool) (r : BootReport) :
    (s.shortStart cause keep r).host.alive = true ∧ (s.shortStart cause keep r).committed = true :=
  ⟨State.alive_endStart _ cause, State.committed_endStart _ cause⟩

/-- A stop leaves neither session nor job, and the trial's start adds none. -/
theorem State.covers_trialStart (s : State) (e t : Nat) (r : BootReport) :
    (s.stopLogic 0).ledger.Covers (s.trialStart e t r).ledger := by
  have hpaused : (s.stopLogic 0).ledger.Covers (s.pausedAt t).ledger := ⟨le_rfl, le_rfl, le_rfl, fun h => h⟩
  have hswitched : (s.stopLogic 0).ledger.Covers (s.pausedAt t).switchSlot.ledger := by
    rw [State.switchSlot, State.ledger_runSlot, State.ledger_modUpd]
    exact Ledger.covers_clock.mpr hpaused
  have hbegun : (s.stopLogic 0).ledger.Covers (s.trialBegun e t r).ledger := by
    rw [State.trialBegun, State.ledger_outcome, State.ledger_modJournal]
    exact State.covers_beginStart hswitched 5 r
  refine State.covers_shortStart ?_ 5 true r
  rwa [State.ledger_bootStores, State.ledger_outcome, State.ledger_bootSlot]

end Sys2Proof.Machine
end

section
/-! # Programming and verification of an image (R402, R403) -/

namespace Sys2Proof.Machine

/-! ## A staged block -/

/-- The oldest staged block `b` counts as verified; `l` stay staged. -/
def Update.blockVerified (u : Update) (b : Nat × List Byte) (l : List (Nat × List Byte)) : Update :=
  { u with
    staged := l
    verified := u.verified + 1
    image := u.image ++ [b.2]
    sectorFails := if blockSector (u.verified + 1) = blockSector u.verified then u.sectorFails else 0 }

section
variable {s : State} {b : Nat × List Byte} {l : List (Nat × List Byte)}

theorem State.blockProgrammed_more (hr : s.upd.state = .receiving) (hs : s.upd.staged = b :: l)
    (hv : s.upd.verified + 1 ≠ s.upd.blockCount) :
    s.blockProgrammed true = { s with upd := s.upd.blockVerified b l } := by
  simp [State.blockProgrammed, hr, hs, hv, Update.blockVerified]

theorem State.blockProgrammed_last (hr : s.upd.state = .receiving) (hs : s.upd.staged = b :: l)
    (hv : s.upd.verified + 1 = s.upd.blockCount) :
    s.blockProgrammed true =
      ({ s with upd := { s.upd.blockVerified b l with state := .received } } : State).raiseUpdate := by
  simp [State.blockProgrammed, hr, hs, hv, Update.blockVerified]

theorem State.blockProgrammed_again (hr : s.upd.state = .receiving) (hs : s.upd.staged = b :: l)
    (hf : s.upd.sectorFails < 2) :
    s.blockProgrammed false = { s with upd := { s.upd with
      staged := [], nextBlock := s.upd.verified, sectorFails := s.upd.sectorFails + 1 } } := by
  simp [State.blockProgrammed, hr, hs, Nat.not_le.mpr hf]

theorem State.blockProgrammed_fails (hr : s.upd.state = .receiving) (hs : s.upd.staged = b :: l)
    (hf : 2 ≤ s.upd.sectorFails) :
    s.blockProgrammed false = ({ s with upd := { s.upd with
      state := .failed, staged := []
      lastStatus := BitVec.ofNat 8 stInternal, lastDetail := 0 } } : State).raiseUpdate := by
  simp [State.blockProgrammed, hr, hs, hf]

theorem State.blockProgrammed_none (m : Bool) (h : s.upd.staged = [] ∨ s.upd.state ≠ .receiving) :
    s.blockProgrammed m = s := by
  unfold State.blockProgrammed
  dsimp only
  split
  · rfl
  case h_2 c t hs =>
    rw [if_pos (h.resolve_left (by rw [hs]; exact List.cons_ne_nil c t))]

end

theorem State.raiseUpdate_beside (s : State) : s.raiseUpdate = { s with host := s.raiseUpdate.host } := rfl

theorem State.hasCause_raiseUpdate (s : State) : s.raiseUpdate.hasCause causeUpdate :=
  State.hasCause_raise s _ _ _ (by decide)

/-! ## The end of UPD_VERIFY -/

/-- The end of a job is seen in its record and in the events. -/
theorem State.endJob_beside (s : State) (h : Nat) (st : JobState) (status detail : Nat) (data : List Byte) :
    s.endJob h st status detail data = { s with
      host := (s.endJob h st status detail data).host, jobs := (s.endJob h st status detail data).jobs } := by
  unfold State.endJob
  split
  · rfl
  · extract_lets marked raised
    split <;> rfl

theorem State.hasCause_endJob {s : State} {h : Nat} {j : Job} (hj : s.job h = some j) (st : JobState)
    (status detail : Nat) (data : List Byte) : (s.endJob h st status detail data).hasCause causeJobDone := by
  have hraised : ∀ u : State, ∀ code, (u.raise causeJobDone 0xFFFF h code).hasCause causeJobDone :=
    fun u code => State.hasCause_raise u _ _ _ (by decide)
  unfold State.endJob
  rw [hj]
  dsimp only
  split
  · exact hraised _ _
  · exact hraised _ _

/-- A record after the end of job `h` is that of the ended job, or one that was there. -/
theorem State.mem_endJob {s : State} {h : Nat} {j k : Job} (hj : s.job h = some j) {st : JobState} {status detail : Nat}
    {data : List Byte} (hk : k ∈ (s.endJob h st status detail data).jobs) :
    k.handle = h ∧ k.state = st ∧ k.status = BitVec.ofNat 8 status ∧ k.cancelDue = false ∨
      k.handle ≠ h ∧ k ∈ s.jobs := by
  have hmarked : k ∈ s.jobs.map (fun j => if j.handle = h then { j with
      state := st, status := BitVec.ofNat 8 status, detail := BitVec.ofNat 8 detail, data := data
      progress := if st = .done then 1000 else j.progress, pauseDue := false, cancelDue := false } else j) := by
    unfold State.endJob at hk
    rw [hj] at hk
    dsimp only at hk
    split at hk
    · exact (List.mem_filter.mp hk).1
    · exact hk
  obtain ⟨i, hi, rfl⟩ := List.mem_map.mp hmarked
  split
  case isTrue hh => exact .inl ⟨hh, rfl, rfl, rfl⟩
  case isFalse hh => exact .inr ⟨hh, hi⟩

/-- The work of a running job that nothing waits for. -/
theorem State.completeJob_runs {s : State} {h opcode : Nat} {j : Job} {f : State → Job → State} (hj : s.job h = some j)
    (ho : j.occupies = true) (hc : j.cancelDue = false) (hp : j.pauseDue = false) (hop : j.opcode.toNat = opcode) :
    s.completeJob h opcode f = (f s j).dispatchJobs := by
  simp [State.completeJob, hj, ho, hc, hp, hop]

/-- What the end of a verification leaves, by the state `st` it gives the job and what `f` makes of the update
session. -/
def VerifyEnds (s t : State) (h : Nat) (st : JobState) (status : Nat) (f : Update → Update) : Prop :=
  t.hasCause causeUpdate ∧ t.hasCause causeJobDone ∧ t.upd = f s.upd ∧
    (∀ k, t.job h = some k → k.state = st ∧ k.status = BitVec.ofNat 8 status) ∧
    t = { s with upd := t.upd, host := t.host, jobs := t.jobs }

theorem exec_updVerifyDone {s : State} {h : Nat} {j : Job} (hj : s.job h = some j) (ho : j.occupies = true)
    (hc : j.cancelDue = false) (hp : j.pauseDue = false) (hop : j.opcode = 0x0803#16)
    (hidle : ∀ k ∈ s.jobs, k.state ≠ .queued ∧ k.cancelDue = false) {st : JobState} {status detail : Nat}
    {f : Update → Update} (hst : st ≠ .queued)
    (hdone : s.verifyDone j = ((s.endJob h st status detail []).modUpd f).raiseUpdate) :
    ∃ t, exec (.updVerifyDone h) s = .next t ∧ VerifyEnds s t h st status f := by
  have hended : s.completeJob h 0x0803 State.verifyDone = ((s.endJob h st status detail []).modUpd f).raiseUpdate := by
    rw [State.completeJob_runs hj ho hc hp (by rw [hop]; rfl), hdone]
    refine State.dispatchJobs_idle fun k hk => ?_
    obtain ⟨-, hstate, -, hcancel⟩ | ⟨-, hmem⟩ := State.mem_endJob hj hk
    · exact ⟨hstate ▸ hst, hcancel⟩
    · exact hidle k hmem
  refine ⟨_, congrArg Host.Outcome.next hended, State.hasCause_raiseUpdate _, ?done, ?upd, ?record, ?frame⟩
  case done =>
    have hended : ((s.endJob h st status detail []).modUpd f).hasCause causeJobDone := State.hasCause_endJob hj _ _ _ _
    exact hended.raise _ _ _ _
  case upd => exact congrArg f (by rw [s.endJob_beside h st status detail []])
  case record =>
    intro k hk
    obtain ⟨-, hstate, hstatus, -⟩ | ⟨hother, -⟩ := State.mem_endJob hj (List.mem_of_find?_eq_some hk)
    · exact ⟨hstate, hstatus⟩
    · exact absurd (by simpa using List.find?_some hk) hother
  case frame =>
    rw [State.raiseUpdate_beside, State.modUpd, s.endJob_beside h st status detail []]

/-! ## The activation pause -/

theorem State.upd_modUpd (s : State) (f : Update → Update) : (s.modUpd f).upd = f s.upd := rfl
theorem State.tick_modUpd (s : State) (f : Update → Update) : (s.modUpd f).tick = s.tick := rfl

/-- What the pause leaves of the update session: the new slot on trial, one trial taken, the old slot as fallback. -/
theorem State.upd_trialStart {s : State} {e t : Nat} {r : BootReport} (hs : r.slotOk = true)
    (hv : s.upd.secVersion ≤ field (s.upd.manifests.getD (slotIndex !s.upd.slotB) []) 7 1)
    (hb : s.upd.slotBad.length = 2) :
    (s.trialStart e t r).upd.slotB = (!s.upd.slotB) ∧ (s.trialStart e t r).upd.trial = true ∧
      (s.trialStart e t r).upd.state = .trial ∧ (s.trialStart e t r).upd.trialsLeft = 2 ∧
      (s.trialStart e t r).upd.fallbackB = s.upd.slotB ∧ (s.trialStart e t r).tick = t ∧
      (s.trialStart e t r).workTick = t := by
  obtain ⟨code, hslot⟩ := State.bootSlot_trialBegun e t hs hv hb
  obtain ⟨v, hupd⟩ := s.upd_trialBegun e t r
  have hpace : (s.trialStart e t r).pace = ((s.trialBegun e t r).upd.tryTaken, t, t) := by
    have hbefore : (((((s.trialBegun e t r).modUpd Update.tryTaken).outcome 2 code).outcome 3 2).bootStores r).pace =
        ((s.trialBegun e t r).modUpd Update.tryTaken).pace := by
      rw [State.pace_bootStores, State.pace_outcome, State.pace_outcome]
    rw [State.trialStart, State.pace_shortStart, hslot, State.upd_of_pace hbefore, State.tick_of_pace hbefore,
      State.upd_modUpd, State.tick_modUpd, s.tick_trialBegun]
  obtain ⟨hu, htick, hwork⟩ := State.pace_eq hpace
  rw [hu, hupd, htick, hwork]
  obtain ⟨hslotB, -⟩ := s.upd.interrupt_slots
  exact ⟨congrArg not hslotB, rfl, rfl, rfl, hslotB, rfl, rfl⟩

end Sys2Proof.Machine

open Sys2Proof Sys2Proof.Machine

/-- Settles O53: block by block, then the end of UPD_VERIFY, then the pause (`activationPause_eq`). -/
theorem updateStages : Obligations.UpdateStages := by
  unfold Obligations.UpdateStages
  refine ⟨⟨fun s b l hr hs hv => congrArg Host.Outcome.next (State.blockProgrammed_more hr hs hv),
    fun s b l hr hs hv => ⟨_, congrArg Host.Outcome.next (State.blockProgrammed_last hr hs hv),
      State.hasCause_raiseUpdate _, rfl, rfl⟩,
    fun s b l hr hs hf => congrArg Host.Outcome.next (State.blockProgrammed_again hr hs hf),
    fun s b l hr hs hf => ⟨_, congrArg Host.Outcome.next (State.blockProgrammed_fails hr hs hf),
      State.hasCause_raiseUpdate _, rfl, rfl⟩,
    fun s m h => congrArg Host.Outcome.next (State.blockProgrammed_none m h),
    fun s j h hj ho hc hp hop hu hidle => ?verified, fun s h hj => ?noJob⟩,
    fun s e resumeAt r ha hf hc he hmin hmax ho hs ht hh hv hb => ?resumes, fun s resumeAt r h => ?notDue⟩
  case verified =>
    have hhandle : j.handle = h := by simpa using List.find?_some hj
    cases hok : s.upd.imageOk with
    | true =>
      exact exec_updVerifyDone hj ho hc hp hop hidle (st := .done) (status := stOk)
        (f := fun u => { u with state := .verified }) (by decide)
        (by rw [State.verifyDone, if_neg (not_not.mpr hu), if_pos hok, hhandle])
    | false =>
      exact exec_updVerifyDone hj ho hc hp hop hidle (st := .failed) (status := stVerifyFailed)
        (f := fun u => { u with
          state := .failed, lastStatus := BitVec.ofNat 8 stVerifyFailed, lastDetail := 0xFF#8 }) (by decide)
        (by rw [State.verifyDone, if_neg (not_not.mpr hu), if_neg (by simp [hok]), hhandle])
  case noJob => exact congrArg Host.Outcome.next (by rw [State.completeJob, hj])
  case resumes =>
    refine ⟨_, congrArg Host.Outcome.next (State.activationPause_eq ha hf hc he hmin hmax ho hs ht hh hv hb), ?_⟩
    have hcovers := s.covers_trialStart e (resumeAt - 1) r
    obtain ⟨halive, hcommitted⟩ : (s.trialStart e (resumeAt - 1) r).host.alive = true ∧
      (s.trialStart e (resumeAt - 1) r).committed = true := State.shortStart_ends _ 5 true r
    obtain ⟨hslotB, htrial, hstate, hleft, hback, htick, hwork⟩ :=
      State.upd_trialStart (e := e) (t := resumeAt - 1) hs hv hb
    generalize s.trialStart e (resumeAt - 1) r = u at *
    exact ⟨hslotB, htrial, hstate, hleft, hback, htick, hwork, rfl,
      List.length_eq_zero_iff.mp (Nat.le_zero.mp hcovers.sessions_le),
      List.length_eq_zero_iff.mp (Nat.le_zero.mp hcovers.jobs_le), halive, hcommitted⟩
  case notDue =>
    refine congrArg Host.Outcome.next ?_
    unfold State.activationPause
    split
    · rfl
    case h_2 e he =>
      refine if_pos ?_
      obtain hnone | hopen | ⟨e', he', hlater⟩ := h
      · cases he.symm.trans hnone
      · simp [hopen]
      · obtain rfl := Option.some.inj (he.symm.trans he')
        simp [hlater]

end

section
/-! # Power and the clock through every operation (R89)

Beside a tick boundary, the activation pause, and the loss and return of VIN, no operation moves the clock: the relation
`Ledger.Follows` says so, and that without power none starts the logic domain or sets an activation. -/

namespace Sys2Proof.Machine

/-- A ledger with power, the tick and its checkpoint as in `l`, which without power stays as dark as `l` is. -/
structure Ledger.Follows (l m : Ledger) : Prop where
  vinOn : m.vinOn = l.vinOn
  tick : m.tick = l.tick
  checkpoint : m.checkpoint = l.checkpoint
  dark : l.vinOn = false → (l.alive = false → m.alive = false) ∧ (l.activateAt = none → m.activateAt = none)

@[simp] theorem Ledger.follows_self (l : Ledger) : l.Follows l := ⟨rfl, rfl, rfl, fun _ => ⟨id, id⟩⟩

theorem Ledger.Follows.trans {l m n : Ledger} (h : l.Follows m) (h' : m.Follows n) : l.Follows n where
  vinOn := h'.vinOn.trans h.vinOn
  tick := h'.tick.trans h.tick
  checkpoint := h'.checkpoint.trans h.checkpoint
  dark hoff := by
    obtain ⟨ha, hu⟩ := h.dark hoff
    obtain ⟨ha', hu'⟩ := h'.dark (h.vinOn.trans hoff)
    exact ⟨ha' ∘ ha, hu' ∘ hu⟩

@[simp] theorem Ledger.follows_ite {l m n : Ledger} {c : Prop} [Decidable c] :
    l.Follows (if c then m else n) ↔ (c → l.Follows m) ∧ (¬c → l.Follows n) := by
  split <;> simp [*]

/-- What follows need not look at sessions, waiting commands, jobs or events. -/
@[simp] theorem Ledger.follows_clock {l : Ledger} {s : State} {sessions : List Session} {sched : List Sched}
    {jobs : List Job} {room : Bool} :
    l.Follows ⟨sessions, sched, jobs, room, s.vinOn, s.host.alive, s.upd.activateAt, s.tick, s.checkpoint⟩ ↔
      l.Follows s.ledger :=
  ⟨fun ⟨h1, h2, h3, h4⟩ => ⟨h1, h2, h3, h4⟩, fun ⟨h1, h2, h3, h4⟩ => ⟨h1, h2, h3, h4⟩⟩

/-- Power, the logic domain, the activation, the tick and its checkpoint. -/
def Ledger.clock (l : Ledger) : Bool × Bool × Option Nat × Nat × Nat × Int :=
  (l.vinOn, l.alive, l.activateAt, l.tick, l.checkpoint)

theorem Ledger.Follows.same {l m n : Ledger} (h : l.Follows m) (hc : n.clock = m.clock) : l.Follows n := by
  obtain ⟨_, _, _, _, v, a, u, t, c⟩ := m
  obtain ⟨_, _, _, _, v', a', u', t', c'⟩ := n
  cases hc
  exact ⟨h.vinOn, h.tick, h.checkpoint, h.dark⟩

theorem State.follows_withJobs {l : Ledger} {s : State} (h : l.Follows s.ledger) (js : List Job) :
    l.Follows ({ s with jobs := js } : State).ledger := h.same rfl

/-- A change of power state moves no clock. -/
theorem State.follows_asleep {l : Ledger} {s : State} (h : l.Follows s.ledger) (p : Power) (fine : Bool) :
    l.Follows ({ s with power := p, fineValid := fine } : State).ledger := h.same rfl

/-- The logic domain may stop, and an activation may be given up. -/
theorem Ledger.Follows.dim {l : Ledger} {s : State} (h : l.Follows s.ledger) {sessions : List Session}
    {sched : List Sched} {jobs : List Job} {room alive : Bool} {activateAt : Option Nat}
    (ha : alive = s.host.alive ∨ alive = false) (hu : activateAt = s.upd.activateAt ∨ activateAt = none) :
    l.Follows ⟨sessions, sched, jobs, room, s.vinOn, alive, activateAt, s.tick, s.checkpoint⟩ where
  vinOn := h.vinOn
  tick := h.tick
  checkpoint := h.checkpoint
  dark hoff := by
    obtain ⟨halive, hact⟩ := h.dark hoff
    refine ⟨fun hl => ?_, fun hl => ?_⟩
    · rcases ha with rfl | rfl
      · exact halive hl
      · rfl
    · rcases hu with rfl | rfl
      · exact hact hl
      · rfl

/-- While there is power, the logic domain may start, and an activation may be set. -/
theorem Ledger.Follows.on {l : Ledger} (hon : l.vinOn = true) {s : State} (h : l.Follows s.ledger)
    {sessions : List Session} {sched : List Sched} {jobs : List Job} {room alive : Bool} {activateAt : Option Nat} :
    l.Follows ⟨sessions, sched, jobs, room, s.vinOn, alive, activateAt, s.tick, s.checkpoint⟩ :=
  ⟨h.vinOn, h.tick, h.checkpoint, fun hoff => by rw [hon] at hoff; cases hoff⟩

/-- A ledger with power and the tick as in `l`, whose checkpoint is that of `l` or was written at that tick. -/
structure Ledger.Stays (l m : Ledger) : Prop where
  vinOn : m.vinOn = l.vinOn
  tick : m.tick = l.tick
  marked : m.checkpoint = l.checkpoint ∨ m.checkpoint.1 = l.tick

theorem Ledger.Follows.stays {l m : Ledger} (h : l.Follows m) : l.Stays m := ⟨h.vinOn, h.tick, .inl h.checkpoint⟩

theorem Ledger.Stays.trans {l m n : Ledger} (h : l.Stays m) (h' : m.Stays n) : l.Stays n where
  vinOn := h'.vinOn.trans h.vinOn
  tick := h'.tick.trans h.tick
  marked := by
    rcases h'.marked with hc | hc
    · rw [hc]
      exact h.marked
    · exact .inr (hc.trans h.tick)

/-- What the steps of a walk follow, the walk follows. -/
theorem Ledger.follows_foldl {α : Type} {l : Ledger} {f : State → α → State}
    (hf : ∀ s a, l.Follows s.ledger → l.Follows (f s a).ledger) (xs : List α) {s : State} (h : l.Follows s.ledger) :
    l.Follows (xs.foldl f s).ledger :=
  List.foldlRecOn (motive := fun t => l.Follows (State.ledger t)) xs f h (fun t ht a _ => hf t a ht)

/-! ## Ops -/

@[simp] theorem State.follows_modJob {l : Ledger} {s : State} (h : l.Follows s.ledger) (k : Nat) (f : Job → Job) :
    l.Follows (s.modJob k f).ledger :=
  h.same rfl

@[simp] theorem State.follows_endJob {l : Ledger} {s : State} (h : l.Follows s.ledger) (k : Nat) (st : JobState)
    (status detail : Nat) (data : List Byte) : l.Follows (s.endJob k st status detail data).ledger := by
  unfold State.endJob
  split
  · exact h
  · dsimp only
    split
    · exact State.follows_withJobs (by simp [h]) _
    · simp [h]

/-! ## Recorder -/

@[simp] theorem State.follows_overwritten {l : Ledger} {s : State} (h : l.Follows s.ledger) (seq : Nat) :
    l.Follows (s.overwritten seq).ledger :=
  Ledger.follows_foldl (fun _ _ hs => State.follows_endJob hs _ _ _ _ _) _ h

@[simp] theorem State.follows_reachSector {l : Ledger} {s : State} (h : l.Follows s.ledger) (healthOk : Bool)
    (x : Summary) :
    l.Follows (State.reachSector healthOk s x).ledger := by
  unfold State.reachSector
  split <;> simp [h]

@[simp] theorem State.follows_writeSummary {l : Ledger} {s : State} (h : l.Follows s.ledger)
    (programOk healthOk : Bool) :
    l.Follows (s.writeSummary programOk healthOk).ledger := by
  unfold State.writeSummary
  dsimp only
  split
  · exact h
  · split
    · exact h
    · split
      · simpa using h
      · split
        · simpa using h
        · exact Ledger.follows_foldl (fun s x hs => State.follows_reachSector hs _ x) _ (by simpa using h)

@[simp] theorem State.follows_clearRecorder {l : Ledger} {s : State} (h : l.Follows s.ledger) (e : Nat) :
    l.Follows (s.clearRecorder e).ledger := by
  unfold State.clearRecorder
  dsimp only
  split
  · rw [State.ledger_openInterval]
    exact h.same rfl
  · exact h.same rfl

/-! ## Generations -/

@[simp] theorem State.follows_endChange {l : Ledger} {s : State} (h : l.Follows s.ledger) (j : Job) (st : JobState)
    (status detail : Nat) (data : List Byte) :
    l.Follows (s.endChange j st status detail data).ledger := by simp [State.endChange, h]

@[simp] theorem State.follows_validationDone {l : Ledger} {s : State} (h : l.Follows s.ledger) (j : Job) :
    l.Follows (s.validationDone j).ledger := by
  unfold State.validationDone
  dsimp only
  repeat' split
  all_goals simp [h]

/-! ## InRec -/

@[simp] theorem State.follows_recOverwritten {l : Ledger} {s : State} (h : l.Follows s.ledger)
    (gone : List (List Byte)) :
    l.Follows (s.recOverwritten gone).ledger :=
  Ledger.follows_foldl (fun _ _ hs => State.follows_endJob hs _ _ _ _ _) _ h

@[simp] theorem State.follows_append {l : Ledger} {s : State} (h : l.Follows s.ledger) (es : List (List Byte)) :
    l.Follows (s.append es).ledger := by simp [State.append, h]

@[simp] theorem State.follows_closeWindow {l : Ledger} {s : State} (h : l.Follows s.ledger) (t : Nat) :
    l.Follows (s.closeWindow t).ledger := by simp [State.closeWindow, h]

@[simp] theorem State.follows_beginSegment {l : Ledger} {s : State} (h : l.Follows s.ledger) (t : Nat) :
    l.Follows (s.beginSegment t).ledger := by simp [State.beginSegment, h]

@[simp] theorem State.follows_endSegment {l : Ledger} {s : State} (h : l.Follows s.ledger) (t last reason : Nat) :
    l.Follows (s.endSegment t last reason).ledger := by simp [State.endSegment, h]

@[simp] theorem State.follows_appendTick {l : Ledger} {s : State} (h : l.Follows s.ledger) (t : Nat) (due : Nat → Bool)
    (cut : List Byte) :
    l.Follows (s.appendTick t due cut).ledger := by simp [State.appendTick, h]

@[simp] theorem State.follows_recBoundary {l : Ledger} {s : State} (h : l.Follows s.ledger) (t : Nat)
    (changed power : Bool) :
    l.Follows (s.recBoundary t changed power).ledger := by simp [State.recBoundary, h]

@[simp] theorem State.follows_recordGap {l : Ledger} {s : State} (h : l.Follows s.ledger) (t last : Nat) :
    l.Follows (s.recordGap t last).ledger := by simp [State.recordGap, h]

@[simp] theorem State.follows_resizeRing {l : Ledger} {s : State} (h : l.Follows s.ledger) (t : Nat) :
    l.Follows (s.resizeRing t).ledger := by simp [State.resizeRing, h]

/-! ## Capacity -/

@[simp] theorem State.follows_activate {l : Ledger} {s : State} (h : l.Follows s.ledger) (t : Nat) :
    l.Follows (s.activate t).ledger := by
  have hend : ∀ (js : List Job) {u : State}, l.Follows u.ledger →
      l.Follows (js.foldl (fun s j => s.endChange j .done stOk 0 j.data) u).ledger :=
    fun js u hu => Ledger.follows_foldl (fun s j hs => State.follows_endChange hs j _ _ _ _) js hu
  unfold State.activate
  split
  · exact h
  · split
    · exact h
    · dsimp only
      split
      · exact h
      · simp only [State.ledger_syncHives, State.ledger_switchLink]
        refine State.follows_resizeRing ?_ t
        rw [ledger_foldl State.ledger_vfldFlags]
        simp only [State.ledger_mk, ledger_eta, State.ledger_switchUnits]
        refine hend _ ?_
        simp [h]

/-! ## Update -/

/-- An update session that ends gives up its activation. -/
@[simp] theorem State.follows_modUpd_close {l : Ledger} {s : State} (h : l.Follows s.ledger) {f : Update → Update}
    (hf : (f s.upd).activateAt = none) : l.Follows (s.modUpd f).ledger := h.dim (.inl rfl) (.inr hf)

@[simp] theorem State.follows_updBegin {l : Ledger} {s : State} (h : l.Follows s.ledger) (who : UpdOwner)
    (m : List Byte) :
    l.Follows (s.updBegin who m).2.ledger := by
  unfold State.updBegin
  dsimp only
  split
  · exact h
  · split
    · split
      · exact h
      · exact h.dim (.inl rfl) (.inr rfl)
    · split
      · exact h
      · split
        · exact h
        · exact h.same rfl

@[simp] theorem State.follows_verifyDone {l : Ledger} {s : State} (h : l.Follows s.ledger) (j : Job) :
    l.Follows (s.verifyDone j).ledger := by simp [State.verifyDone, h]

@[simp] theorem State.follows_verifyStopped {l : Ledger} {s : State} (h : l.Follows s.ledger) :
    l.Follows (s.verifyStopped).ledger := by
  unfold State.verifyStopped
  rw [State.ledger_raiseUpdate]
  split
  · exact State.follows_modUpd_close h rfl
  · exact h.same rfl

@[simp] theorem State.follows_updConfirm {l : Ledger} {s : State} (h : l.Follows s.ledger) (who : UpdOwner) :
    l.Follows (s.updConfirm who).2.ledger := by
  unfold State.updConfirm
  split
  · exact h
  · split
    · exact h
    · dsimp only
      rw [State.ledger_raiseUpdate]
      exact h.dim (.inl rfl) (.inr rfl)

@[simp] theorem State.follows_fallBack {l : Ledger} {s : State} (h : l.Follows s.ledger) (reason : Nat) :
    l.Follows (s.fallBack reason).ledger := by
  unfold State.fallBack
  dsimp only
  rw [State.ledger_runSlot]
  exact h.dim (.inl rfl) (.inr rfl)

/-! ## Housekeeping -/

@[simp] theorem State.follows_thermalShutdown {l : Ledger} {s : State} (h : l.Follows s.ledger) (t : Nat) :
    l.Follows (s.thermalShutdown t).ledger := by simp [State.thermalShutdown, h]

/-! ## Boot -/

/-- An interrupted update session waits for no activation. -/
theorem Update.interrupt_activateAt (u : Update) : u.interrupt.activateAt = none := by
  unfold Update.interrupt
  dsimp only
  split <;> rfl

/-- A stop leaves no logic domain and no activation, and the clock as it was. -/
theorem State.ledger_stopLogic (s : State) (n : Nat) : (s.stopLogic n).ledger =
    ⟨[], [], [], (s.stopLogic n).host.room, s.vinOn, false, none, s.tick, s.checkpoint⟩ := by
  rw [← s.upd.interrupt_activateAt]
  unfold State.stopLogic State.abandonChange
  dsimp only
  split <;> rfl

@[simp] theorem State.follows_stopLogic {l : Ledger} {s : State} (h : l.Follows s.ledger) (n : Nat) :
    l.Follows (s.stopLogic n).ledger := by
  rw [State.ledger_stopLogic]
  exact h.dim (.inr rfl) (.inr rfl)

@[simp] theorem State.follows_stopFor {l : Ledger} {s : State} (h : l.Follows s.ledger) (closed cause : Nat) :
    l.Follows (s.stopFor closed cause).ledger := by simp [State.stopFor, h]

@[simp] theorem State.follows_hostReset {l : Ledger} {s : State} (h : l.Follows s.ledger) :
    l.Follows (s.hostReset).ledger := by
  have hstop := State.follows_stopFor h 0 1
  unfold State.hostReset
  split
  · exact h
  · split
    · exact h.same rfl
    · exact hstop.same rfl

@[simp] theorem State.follows_restartLogic {l : Ledger} {s : State} (h : l.Follows s.ledger) :
    l.Follows (s.restartLogic).ledger := by simp [State.restartLogic, h]

@[simp] theorem State.follows_beginStart {l : Ledger} {s : State} (h : l.Follows s.ledger) (cause : Nat)
    (r : BootReport) :
    l.Follows (s.beginStart cause r).ledger := by
  unfold State.beginStart
  simp only [State.ledger_openJournal, State.ledger_clearRetried, State.ledger_modHk, State.ledger_mk, ledger_eta,
    State.ledger_modBoot, State.ledger_modHost]
  exact h.same rfl

@[simp] theorem State.follows_fallsAtStart {l : Ledger} {s : State} (h : l.Follows s.ledger) (reason : Nat) :
    l.Follows (s.fallsAtStart reason).ledger := by simp [State.fallsAtStart, h]

section
variable {l : Ledger} (hon : l.vinOn = true)
include hon

/-- With power an activation may be set. -/
theorem State.follows_modUpd_on {s : State} (h : l.Follows s.ledger) (f : Update → Update) :
    l.Follows (s.modUpd f).ledger := .on hon h

theorem State.follows_updActivate {s : State} (h : l.Follows s.ledger) (who : UpdOwner) :
    l.Follows (s.updActivate who).2.ledger := by
  unfold State.updActivate
  split
  · exact h
  · split
    · exact h
    · split
      · exact h
      · exact State.follows_modUpd_on hon h _

theorem State.follows_updAbort {s : State} (h : l.Follows s.ledger) (who : UpdOwner) :
    l.Follows (s.updAbort who).2.ledger := by
  unfold State.updAbort
  split
  · exact h
  · split
    case h_1 => exact h
    case h_2 => exact h.same rfl
    case h_3 => exact State.follows_modUpd_on hon h _
    case h_4 =>
      rw [State.ledger_raiseUpdate]
      exact State.follows_modUpd_on hon h _

theorem State.follows_endStart {s : State} (h : l.Follows s.ledger) (cause : Nat) :
    l.Follows (s.endStart cause).ledger := by
  unfold State.endStart
  extract_lets closed journal started begins ended
  have hjournal : l.Follows journal.ledger := by simpa [journal, closed] using h
  clear_value journal
  rw [State.ledger_raiseStart]
  exact .on hon hjournal

theorem State.follows_bootHold {s : State} (h : l.Follows s.ledger) (cause b : Nat) :
    l.Follows (s.bootHold cause b).ledger := by
  have hdark : l.Follows (s.unpowerField.outcome b 3).ledger := by simpa using h
  unfold State.bootHold
  dsimp only
  rw [State.ledger_raiseStart, State.ledger_settle]
  generalize s.unpowerField.outcome b 3 = dark at hdark
  exact .on hon hdark

/-- A start that halts ends in boot hold, or falls back in a trial. -/
theorem State.follows_halted {s : State} (h : l.Follows s.ledger) (c : Prop) [Decidable c] (cause b reason : Nat) :
    l.Follows (if c then s.fallsAtStart reason else s.bootHold cause b).ledger := by
  split
  · exact State.follows_fallsAtStart h reason
  · exact State.follows_bootHold hon h cause b

theorem State.follows_bootRest {s : State} (h : l.Follows s.ledger) (cause : Nat) (r : BootReport) :
    l.Follows (s.bootRest cause r).ledger := by
  have hpages : l.Follows (s.bootPages r.pagesFailed).ledger := by simpa using h
  unfold State.bootRest
  extract_lets trial halt pages stores clocked converted configured lines set ended
  have hset : l.Follows set.ledger := by
    have hconverted : converted.ledger = pages.ledger := by
      unfold converted
      split <;> simp [clocked, stores]
    simpa only [set, lines, configured, State.ledger_settle, State.ledger_syncHives, State.ledger_faultItems,
      State.ledger_setUpUnits, State.ledger_bootCombs, State.ledger_bootLinks, State.ledger_bootFans,
      State.ledger_bootBanks, State.ledger_outcome, State.ledger_bootConfig, hconverted] using hpages
  have hstores : l.Follows stores.ledger := by simpa only [stores, State.ledger_bootStores] using hpages
  clear_value set
  have hended : l.Follows ended.ledger := State.follows_endStart hon hset cause
  clear_value ended stores
  split
  · exact State.follows_halted hon hpages _ _ _ _
  · split
    · exact State.follows_halted hon hstores _ _ _ _
    · split
      · exact State.follows_thermalShutdown hended _
      · exact hended

theorem State.follows_bootStart {s : State} (h : l.Follows s.ledger) (c : StartCause) (r : BootReport) :
    l.Follows (s.bootStart c r).ledger := by
  have hbegun : l.Follows (s.beginStart (startCode c) r).ledger := by simp [h]
  have hslot : l.Follows (((s.beginStart (startCode c) r).outcome 1 0).bootSlot r).2.ledger := by simp [h]
  unfold State.bootStart
  dsimp only
  split
  · exact h
  · split
    · exact State.follows_halted hon hbegun _ _ _ _
    · split <;> rename_i heq <;> rw [heq] at hslot
      · exact State.follows_fallsAtStart hslot _
      · exact State.follows_bootHold hon hslot _ _
      · exact State.follows_bootRest hon hslot _ _

theorem State.follows_shortStart {s : State} (h : l.Follows s.ledger) (cause : Nat) (keep : Bool) (r : BootReport) :
    l.Follows (s.shortStart cause keep r).ledger := by
  unfold State.shortStart
  extract_lets clocked converted configured links handed set
  have hset : l.Follows set.ledger := by
    have hlinks : l.Follows links.ledger := by simpa [links, configured, converted, clocked] using h
    unfold set
    split
    · split <;> simpa [handed] using hlinks
    · simpa using hlinks
  exact State.follows_endStart hon (by simpa using hset) cause

end

/-! ## Operands -/

@[simp] theorem State.follows_modSession {l : Ledger} {s : State} (h : l.Follows s.ledger) (id : BitVec 16)
    (f : Session → Session) : l.Follows (s.modSession id f).ledger :=
  h.same rfl

/-! ## Jobs -/

@[simp] theorem State.follows_runJob {l : Ledger} {s : State} (h : l.Follows s.ledger) (j : Job) :
    l.Follows (s.runJob j).ledger := by
  unfold State.runJob
  split <;> [skip; split] <;> simp [h]

@[simp] theorem State.follows_finishJob {l : Ledger} {s : State} (h : l.Follows s.ledger) (j : Job) (st : JobState)
    (status detail : Nat) (data : List Byte) :
    l.Follows (s.finishJob j st status detail data).ledger := by simp [State.finishJob, h]

@[simp] theorem State.follows_cancelNow {l : Ledger} {s : State} (h : l.Follows s.ledger) (j : Job) :
    l.Follows (s.cancelNow j).ledger := by simp [State.cancelNow, h]

@[simp] theorem State.follows_runNext {l : Ledger} (k : Nat) {s : State} (h : l.Follows s.ledger) :
    l.Follows (State.runNext k s).ledger := by
  induction k generalizing s with
  | zero => exact h
  | succ k ih =>
    unfold State.runNext
    split
    · exact h
    · split
      · exact h
      · exact ih (State.follows_runJob h _)

@[simp] theorem State.follows_dispatchJobs {l : Ledger} {s : State} (h : l.Follows s.ledger) :
    l.Follows s.dispatchJobs.ledger :=
  State.follows_runNext 8 (Ledger.follows_foldl (fun _ j hs => State.follows_cancelNow hs j) _ h)

@[simp] theorem State.follows_checkpointJob {l : Ledger} {s : State} (h : l.Follows s.ledger) (k progress : Nat) :
    l.Follows (s.checkpointJob k progress).ledger := by
  unfold State.checkpointJob
  split
  · exact h
  · split
    · exact h
    · have hat := State.follows_modJob h k (fun j => { j with progress := Nat.min 1000 progress })
      dsimp only
      split
      · exact State.follows_dispatchJobs (State.follows_cancelNow hat _)
      · split
        · refine State.follows_dispatchJobs ?_
          split
          · exact State.follows_verifyStopped (State.follows_modJob hat k _)
          · exact State.follows_modJob hat k _
        · split
          · exact State.follows_dispatchJobs (State.follows_modJob hat k _)
          · exact hat

/-- The completion of a job's work covers what the work itself covers. -/
theorem State.follows_completeJob {l : Ledger} {s : State} (h : l.Follows s.ledger) (k opcode : Nat)
    {f : State → Job → State} (hf : ∀ j, l.Follows (f s j).ledger) : l.Follows (s.completeJob k opcode f).ledger := by
  unfold State.completeJob
  split
  · exact h
  · split
    · exact h
    · split
      · exact State.follows_checkpointJob h _ _
      · exact State.follows_dispatchJobs (hf _)

@[simp] theorem State.follows_orphanJob {l : Ledger} {s : State} (h : l.Follows s.ledger) (j : Job) :
    l.Follows (s.orphanJob j).ledger := by
  unfold State.orphanJob
  split
  · exact h.same rfl
  · dsimp only
    split <;> simp [h]

@[simp] theorem State.follows_releaseSender {l : Ledger} {s : State} (h : l.Follows s.ledger) (sid : BitVec 16)
    (who : UpdOwner) : l.Follows (s.releaseSender sid who).ledger := by
  unfold State.releaseSender
  extract_lets dropped orphaned left
  have horphaned : l.Follows orphaned.ledger :=
    Ledger.follows_foldl (fun s j hs => State.follows_orphanJob hs j) _ (by simpa [dropped] using h)
  have hleft : l.Follows left.ledger := by
    unfold left
    split
    · rw [State.ledger_modUpd]
      exact Ledger.follows_clock.mpr horphaned
    · exact horphaned
  exact State.follows_dispatchJobs hleft

@[simp] theorem State.follows_closeSession {l : Ledger} {s : State} (h : l.Follows s.ledger) (id : BitVec 16)
    (raise : Bool) :
    l.Follows (s.closeSession id raise).ledger := by
  unfold State.closeSession
  split
  · exact h
  · have hreleased := State.follows_releaseSender h id (.session id)
    have hclosed : l.Follows ((s.releaseSender id (.session id)).modHost
        (fun x => { x with sessions := x.sessions.filter (fun y => y.id != id) })).ledger := by
      rw [State.ledger_modHost]
      exact hreleased.same rfl
    dsimp only
    split
    · rw [State.ledger_raise]
      exact hclosed
    · exact hclosed

@[simp] theorem State.follows_closeIdle {l : Ledger} {s : State} (h : l.Follows s.ledger) (t : Nat) :
    l.Follows (s.closeIdle t).ledger :=
  Ledger.follows_foldl (fun _ x hs => State.follows_closeSession hs x.id true) _ h

/-! ## Boundary -/

@[simp] theorem State.follows_commandEffect {l : Ledger} {s : State} (h : l.Follows s.ledger) (x : Sched) :
    l.Follows (s.commandEffect x).ledger := by
  unfold State.commandEffect
  split <;> simp [h]

@[simp] theorem State.follows_applyCommand {l : Ledger} {s : State} (h : l.Follows s.ledger) (x : Sched) :
    l.Follows (s.applyCommand x).ledger := by
  unfold State.applyCommand
  split <;> [split; skip] <;> simp [h]

@[simp] theorem State.follows_commandsDue {l : Ledger} {s : State} (h : l.Follows s.ledger) (t : Nat) :
    l.Follows (s.commandsDue t).2.ledger := by
  have hrest : l.Follows ({ s with sched := s.sched.filter (fun x => decide (t < x.at_)) } : State).ledger :=
    h.same rfl
  exact List.foldlRecOn (motive := fun r : Option Power × State => l.Follows r.2.ledger) _ _ hrest
    (fun r hr x _ => State.follows_applyCommand hr x)

@[simp] theorem State.follows_loseDue {l : Ledger} {s : State} (h : l.Follows s.ledger) (n : Nat) :
    l.Follows (s.loseDue n).ledger := by simp [State.loseDue, h]

@[simp] theorem State.follows_enterDormant {l : Ledger} {s : State} (h : l.Follows s.ledger) :
    l.Follows (s.enterDormant).ledger := by
  unfold State.enterDormant
  dsimp only
  refine State.follows_asleep ?_ _ _
  rw [State.ledger_modBoot]
  exact State.follows_stopLogic (by simp [h]) 0

@[simp] theorem State.follows_enterPower {l : Ledger} {s : State} (h : l.Follows s.ledger) (t : Nat) (target : Power) :
    l.Follows (s.enterPower t target).ledger := by simp [State.enterPower, h]

@[simp] theorem State.follows_boundaryEvents {l : Ledger} {s : State} (h : l.Follows s.ledger) (t : Nat) :
    l.Follows (s.boundaryEvents t).ledger := by
  have hlost : ∀ (ns : List Nat) {u : State}, l.Follows u.ledger → l.Follows (ns.foldl State.loseDue u).ledger :=
    fun ns u hu => Ledger.follows_foldl (fun s n hs => State.follows_loseDue hs n) ns hu
  unfold State.boundaryEvents
  extract_lets called due acted failed heard changed active returned joined marked lost swept retired was entered
  have hactive : l.Follows active.ledger := State.follows_activate (by
    rw [State.ledger_syncHives, State.ledger_remoteDue, ledger_foldl (fun s b => State.ledger_failBank s t b),
      ledger_foldl State.ledger_programActions]
    exact State.follows_commandsDue (by simp [called, h]) t) t
  have hmarked : l.Follows marked.ledger := by
    rw [ledger_foldl State.ledger_markSilent, ledger_foldl (fun s n => by split <;> simp),
      ledger_foldl (fun s ch => State.ledger_returnEnds s t ch)]
    exact hactive
  have hretired : l.Follows retired.ledger := by
    rw [ledger_foldl State.ledger_retirePage, State.ledger_recExtremes, State.ledger_checkRounds,
      State.ledger_syncHives]
    exact hlost _ hmarked
  have hentered : l.Follows entered.ledger := by
    unfold entered
    split
    · exact State.follows_enterPower hretired t _
    · exact hretired
  split
  · exact hentered
  · exact State.follows_recBoundary (by rwa [State.ledger_recExtremes]) t _ _

@[simp] theorem State.follows_hostClock {l : Ledger} {s : State} (h : l.Follows s.ledger) (t : Nat) :
    l.Follows (s.hostClock t).ledger := by
  unfold State.hostClock
  dsimp only
  repeat' split
  all_goals simp [h]

/-- Work done as of another tick leaves the tick counter where it was; entry into DORMANT writes the checkpoint. -/
theorem State.stays_atTick (s : State) (t : Nat) {f : State → State} (hf : ∀ u : State, u.ledger.Follows (f u).ledger) :
    s.ledger.Stays (s.atTick t f).ledger := by
  have hwork := hf { s with tick := t, workTick := t }
  refine ⟨hwork.vinOn, rfl, ?_⟩
  have hcheck : (s.atTick t f).checkpoint = if (f { s with tick := t, workTick := t }).power = .dormant ∧
      s.power ≠ .dormant then (s.tick, (f { s with tick := t, workTick := t }).wallDiff)
      else (f { s with tick := t, workTick := t }).checkpoint := rfl
  by_cases hd : (f { s with tick := t, workTick := t }).power = .dormant ∧ s.power ≠ .dormant
  · exact .inr (congrArg Prod.fst (hcheck.trans (if_pos hd)))
  · exact .inl ((hcheck.trans (if_neg hd)).trans hwork.checkpoint)

theorem State.stays_atBoundary (s : State) {f : Nat → State → State}
    (hf : ∀ (t : Nat) (u : State), u.ledger.Follows (f t u).ledger) : s.ledger.Stays (s.atBoundary f).ledger := by
  unfold State.atBoundary
  split
  · exact (Ledger.follows_self _).stays
  · obtain ⟨hv, ht, hc⟩ := s.stays_atTick (if s.committed then s.workTick + 1 else s.workTick) (hf _)
    exact ⟨hv, ht, hc⟩

theorem State.stays_openTick (s : State) : s.ledger.Stays s.openTick.ledger := by
  have hopen := State.stays_atTick { s with evaluated := false, committed := false, skip := [] }
    (s.workTick + 1) (f := fun u => u.boundaryEvents (s.workTick + 1))
    (fun u => State.follows_boundaryEvents (Ledger.follows_self _) _)
  unfold State.openTick
  dsimp only
  split
  · exact hopen
  · rw [ledger_foldl (fun s b => State.ledger_windowBoundary s _ b)]
    exact hopen

/-- The housekeeper writes a checkpoint at a multiple of 65,536 ticks. -/
theorem State.houseClock_marks {s : State} (h : s.tick % 65536 = 0) :
    s.houseClock.checkpoint = (s.tick, s.wallDiff) := by
  unfold State.houseClock
  dsimp only
  rw [if_pos h]
  split <;> rfl

theorem State.stays_houseClock (s : State) : s.ledger.Stays s.houseClock.ledger := by
  unfold State.houseClock
  dsimp only
  split <;> split
  · exact ⟨rfl, rfl, .inr rfl⟩
  · exact ⟨rfl, rfl, .inr rfl⟩
  · exact ⟨rfl, rfl, .inl rfl⟩
  · exact ⟨rfl, rfl, .inl rfl⟩

/-! ## Evaluate -/

@[simp] theorem State.follows_collectJob {l : Ledger} {s : State} (h : l.Follows s.ledger) (j : Job) :
    l.Follows (s.collectJob j).ledger := by
  unfold State.collectJob
  dsimp only
  repeat' split
  all_goals simp [h]

@[simp] theorem State.follows_commit {l : Ledger} {s : State} (h : l.Follows s.ledger) : l.Follows s.commit.ledger := by
  have hjobs : ∀ (js : List Job) {u : State}, l.Follows u.ledger → l.Follows (js.foldl State.collectJob u).ledger :=
    fun js u hu => Ledger.follows_foldl (fun s j hs => State.follows_collectJob hs j) js hu
  unfold State.commit
  simp only [State.ledger_mk, ledger_eta, State.ledger_sendCells]
  refine hjobs _ ?_
  rw [ledger_foldl State.ledger_fifoAppend]
  exact State.follows_appendTick (by simpa using h) _ _ _

theorem State.follows_restartAfter {l : Ledger} (hon : l.vinOn = true) {s : State} (h : l.Follows s.ledger)
    (closed : Nat) (c : StartCause) (report : BootReport) : l.Follows (s.restartAfter closed c report).ledger :=
  State.follows_bootStart hon (State.follows_stopFor h closed _) c report

/-! ## Events -/

@[simp] theorem State.follows_applyOne {l : Ledger} {s : State} (h : l.Follows s.ledger) (t : Nat) :
    l.Follows (s.applyOne t).ledger := by
  have hcalm : l.Follows (s.calmAt t).ledger := by simpa using h
  have hrest := fun x => show l.Follows ({ s.calmAt t with sched := (s.calmAt t).sched.erase x } : State).ledger from
    hcalm.same rfl
  unfold State.applyOne
  dsimp only
  split
  · exact hcalm
  · have happlied := fun x => State.follows_applyCommand (hrest x) x
    split
    · simpa using happlied _
    · split <;> simp [happlied]

/-! ## Host -/

@[simp] theorem State.follows_accept {l : Ledger} {s : State} (h : l.Follows s.ledger) (p : Packet) :
    l.Follows (s.accept p).ledger := by simp [State.accept, h]

@[simp] theorem State.follows_acceptAgain {l : Ledger} {s : State} (h : l.Follows s.ledger) (p : Packet) :
    l.Follows (s.acceptAgain p).ledger := by simp [State.acceptAgain, h]

@[simp] theorem State.follows_cacheReply {l : Ledger} {s : State} (h : l.Follows s.ledger) (r : Reply) :
    l.Follows (s.cacheReply r).ledger := by simp [State.cacheReply, h]

@[simp] theorem State.follows_sendOn {l : Ledger} {s : State} (h : l.Follows s.ledger) (n : Nat) (p : Packet)
    (opcode : BitVec 16) (key : Option (List Byte)) (packet : List Byte) :
    l.Follows (s.sendOn n p opcode key packet).ledger := by simp [State.sendOn, h]

@[simp] theorem State.follows_refusePacket {l : Ledger} {s : State} (h : l.Follows s.ledger) (p : Packet)
    (opcode : BitVec 16) (a : Answer) :
    l.Follows (s.refusePacket p opcode a).ledger := by simp [State.refusePacket, h]

/-! ## HostStore -/

@[simp] theorem State.follows_setOemKey {l : Ledger} {s : State} (h : l.Follows s.ledger) (k : Option (List Byte)) :
    l.Follows (s.setOemKey k).ledger :=
  h.same rfl

/-! ## LinkEvents -/

@[simp] theorem State.follows_onReply {l : Ledger} {s : State} (h : l.Follows s.ledger) (n : Nat) (r : ForwardedReply) :
    l.Follows (s.onReply n r).ledger := by
  unfold State.onReply
  dsimp only
  split <;> [skip; split] <;> simp [h]

/-! ## Replay -/

@[simp] theorem State.follows_replay {l : Ledger} {s : State} (h : l.Follows s.ledger) (stop : Bool)
    (entries : List (List Byte)) :
    l.Follows (s.replay stop entries).2.ledger := by simp [State.replay, h]

@[simp] theorem State.follows_loadDone {l : Ledger} {s : State} (h : l.Follows s.ledger) (j : Job) :
    l.Follows (s.loadDone j).ledger := by
  unfold State.loadDone
  dsimp only
  split <;> [split; skip] <;> simp [h]

@[simp] theorem State.follows_replayDone {l : Ledger} {s : State} (h : l.Follows s.ledger) (j : Job) :
    l.Follows (s.replayDone j).ledger := by
  unfold State.replayDone
  dsimp only
  split <;> simp [h]

@[simp] theorem State.follows_importDone {l : Ledger} {s : State} (h : l.Follows s.ledger) (j : Job) :
    l.Follows (s.importDone j).ledger := by
  unfold State.importDone
  dsimp only
  repeat' split
  all_goals simp [h]

@[simp] theorem State.follows_readDone {l : Ledger} {s : State} (h : l.Follows s.ledger) (j : Job) :
    l.Follows (s.readDone j).ledger := by
  unfold State.readDone
  split <;> simp [h]

@[simp] theorem State.follows_workDone {l : Ledger} {s : State} (h : l.Follows s.ledger) (j : Job) :
    l.Follows (s.workDone j).ledger := by
  unfold State.workDone
  split <;> simp [h]

@[simp] theorem State.follows_workFailed {l : Ledger} {s : State} (h : l.Follows s.ledger) (j : Job) (flash : Bool) :
    l.Follows (s.workFailed j flash).ledger := by simp [State.workFailed, h]

end Sys2Proof.Machine
end

section
/-! # Power and the clock through the commands of host and link (R89) -/

namespace Sys2Proof.Machine

/-- The meaning of a command moves no clock. -/
def Body.Steady (l : Ledger) (b : Body) : Prop := ∀ s c, l.Follows s.ledger → l.Follows (b s c).2.ledger

/-- What an answer says of the next state does not depend on what is answered. -/
theorem Ledger.Follows.pick {α : Type} {l : Ledger} {s : α × State} {t : α × State} {c : Prop} [Decidable c]
    (hs : c → l.Follows s.2.ledger) (ht : ¬c → l.Follows t.2.ledger) :
    l.Follows (if c then s else t).2.ledger := by
  split
  · exact hs ‹_›
  · exact ht ‹_›

theorem State.follows_modUpd_state {l : Ledger} {s : State} (h : l.Follows s.ledger) {st : UpdState} :
    l.Follows (s.modUpd (fun u => { u with state := st })).ledger := h.same rfl

section
variable {l : Ledger} {s : State} (h : l.Follows s.ledger) (c : Ctx)
include h

theorem Ledger.Follows.schedule : l.Follows (s.schedule c).2.ledger := by
  unfold State.schedule
  split
  · exact h
  · exact h.same rfl

theorem Ledger.Follows.newJob (f : Job → Job) : l.Follows (s.newJob c f).2.ledger := by
  unfold State.newJob
  split
  · exact h
  · exact h.same rfl

theorem Ledger.Follows.startJob (f : Job → Job) : l.Follows (s.startJob c f).2.ledger := by
  unfold State.startJob
  dsimp only
  split
  · exact State.follows_dispatchJobs (h.newJob c f)
  · exact h.newJob c f

end

variable {l : Ledger}

section
variable {l : Ledger} {b : Body}

theorem exactly_steady {n : Nat} (h : Body.Steady l b) : Body.Steady l (exactly n b) :=
  fun s c hs => .pick (fun _ => h s c hs) (fun _ => hs)

theorem reserved_steady {off len : Nat} (h : Body.Steady l b) : Body.Steady l (reserved off len b) := by
  intro s c hs
  unfold reserved
  split
  · exact hs
  · exact h s c hs

theorem listForm_steady {max : Nat} {f : List Nat → Body} (h : ∀ xs, Body.Steady l (f xs)) :
    Body.Steady l (listForm max f) := by
  intro s c hs
  unfold listForm
  split
  · exact hs
  · exact .pick (fun _ => hs) (fun _ => .pick (fun _ => hs) (fun _ => h _ s c hs))

theorem ofKind_steady {kind off : Nat} {f : Nat → Body} (h : ∀ n, Body.Steady l (f n)) :
    Body.Steady l (ofKind kind off f) :=
  fun s c hs => .pick (fun _ => h _ s c hs) (fun _ => hs)

theorem ofBank_steady {f : Nat → Body} (h : ∀ n, Body.Steady l (f n)) : Body.Steady l (ofBank f) :=
  fun s c hs => .pick (fun _ => h _ s c hs) (fun _ => hs)

theorem onJob_steady {f : Job → Body} (h : ∀ j, Body.Steady l (f j)) : Body.Steady l (onJob f) :=
  exactly_steady (fun s c hs => by
    split
    · exact hs
    · exact .pick (fun _ => h _ s c hs) (fun _ => hs))

end

/-! ### Sessions, authorisation, causes, time -/

theorem pingBody_steady : Body.Steady l pingBody := (fun s c hs => by
  unfold pingBody
  split <;> exact hs)
theorem identifyBody_steady : Body.Steady l identifyBody := exactly_steady (fun _ _ hs => hs)
theorem sessionOpenBody_steady : Body.Steady l sessionOpenBody :=
  exactly_steady (fun _ _ hs => .pick (fun _ => hs) (fun _ => .pick (fun _ => hs) (fun _ => hs.same rfl)))
theorem sessionCloseBody_steady : Body.Steady l sessionCloseBody :=
  exactly_steady (fun s c hs => by simp [hs])
theorem authBeginBody_steady : Body.Steady l authBeginBody := exactly_steady (fun s c hs => by simp [hs])
theorem authProveBody_steady : Body.Steady l authProveBody :=
  exactly_steady (fun s c hs => .pick (fun _ => hs) (fun _ => by
    split
    · exact hs.same rfl
    · simp [hs]))
theorem lockBody_steady (on : Bool) : Body.Steady l (lockBody on) :=
  exactly_steady (fun s c hs => .pick (fun _ => hs) (fun _ => (by simp [hs])))
theorem setBaudBody_steady : Body.Steady l setBaudBody :=
  exactly_steady (fun s c hs => .pick (fun _ => (by simp [hs])) (fun _ => hs))
theorem smokerFeedBody_steady : Body.Steady l smokerFeedBody := exactly_steady (fun _ _ hs => hs)
theorem smokerClearBody_steady : Body.Steady l smokerClearBody := exactly_steady (fun _ c hs => hs.schedule c)
theorem irqStatusBody_steady : Body.Steady l irqStatusBody := exactly_steady (fun _ _ hs => hs)
theorem irqAckBody_steady : Body.Steady l irqAckBody := exactly_steady (fun s c hs => by simp [hs])

theorem readEventsBody_steady : Body.Steady l readEventsBody := exactly_steady (fun _ _ hs => hs.same rfl)
theorem getTickBody_steady : Body.Steady l getTickBody := exactly_steady (fun _ _ hs => hs)
theorem setWallTimeBody_steady : Body.Steady l setWallTimeBody := exactly_steady (fun _ c hs => hs.schedule c)
theorem powerStateBody_steady : Body.Steady l powerStateBody :=
  exactly_steady (fun _ c hs => .pick (fun _ => hs) (fun _ => .pick (fun _ => hs) (fun _ =>
    .pick (fun _ => hs) (fun _ => .pick (fun _ => hs) (fun _ => hs.schedule c)))))
theorem restartBody_steady : Body.Steady l restartBody :=
  exactly_steady (fun _ _ hs => .pick (fun _ => hs) (fun _ => hs))

/-! ### Parameters -/

theorem paramRead_steady : Body.Steady l paramRead := (fun s c hs => by
  unfold paramRead
  split
  · exact hs
  · dsimp only
    split
    · exact hs
    · split
      · exact hs
      · split <;> rw [ledger_foldl (fun s e => by split <;> simp)] <;> exact hs)

theorem paramReadBlock_steady : Body.Steady l paramReadBlock := exactly_steady (fun s c hs => by
  dsimp only
  split
  · exact hs
  · exact .pick (fun _ => hs) (fun _ => hs))

theorem paramWriteBlock_steady : Body.Steady l paramWriteBlock := (fun s c hs => by
  unfold paramWriteBlock
  split
  · exact hs
  · dsimp only
    split
    · exact hs
    · split
      · exact hs
      · split
        · exact hs
        · split
          · exact hs
          · split <;> simp [hs])

theorem paramWrite_steady : Body.Steady l paramWrite := by
  intro s c hs
  unfold paramWrite
  split
  · exact hs
  · refine .pick (fun _ => hs) (fun _ => .pick (fun _ => hs) (fun _ => ?_))
    split
    · exact hs
    case h_2 xs _ =>
      have hwaits : l.Follows (if xs.any (fun e => e.target.info.eff != .commit) then s.schedule c
          else (okAns, s)).2.ledger := .pick (fun _ => hs.schedule c) (fun _ => hs)
      exact .pick (fun _ => hwaits) (fun _ => by
        rw [ledger_foldl (fun s e => by simp)]
        exact hwaits)

/-! ### Units and cells -/

theorem unitStatusBody_steady : Body.Steady l unitStatusBody :=
  listForm_steady (fun _ s c hs => by
  split
  · exact hs
  · rw [ledger_foldl State.ledger_clearReadFlags]
    exact hs)

theorem unitAction_steady (bar : State → Nat → Option Answer) : Body.Steady l (unitAction bar) :=
  exactly_steady (fun s c hs => by
  refine .pick (fun _ => hs) (fun _ => ?_)
  split
  · exact hs
  · dsimp only
    split
    · exact (by simp [(hs.schedule c)])
    · exact hs.schedule c)

theorem setManualBody_steady : Body.Steady l setManualBody := exactly_steady (fun s c hs => by
  refine .pick (fun _ => hs) (fun _ => .pick (fun _ => hs) (fun _ => ?_))
  split
  · exact hs
  · refine .pick (fun _ => hs) (fun _ => ?_)
    split
    · exact hs
    · exact .pick (fun _ => hs) (fun _ => .pick (fun _ => hs) (fun _ => hs.schedule c)))

theorem channelServiceBody_steady : Body.Steady l channelServiceBody :=
  exactly_steady (ofKind_steady (fun _ _ c hs => .pick (fun _ => hs) (fun _ => hs.schedule c)))
theorem unitListBody_steady : Body.Steady l unitListBody :=
  exactly_steady (fun _ _ hs => .pick (fun _ => hs) (fun _ => hs))

theorem cellReadBody_steady : Body.Steady l cellReadBody := listForm_steady (fun refs s c hs => by
  split <;> exact hs)

theorem cellWriteBody_steady : Body.Steady l cellWriteBody := by
  intro s c hs
  unfold cellWriteBody
  split
  · exact hs
  · refine .pick (fun _ => hs) (fun _ => .pick (fun _ => hs) (fun _ => ?_))
    split
    · exact hs
    · exact hs.schedule c

theorem cellForceBody_steady : Body.Steady l cellForceBody := exactly_steady (fun s c hs => by
  refine .pick (fun _ => hs) (fun _ => .pick (fun _ => hs) (fun _ => ?_))
  split
  · exact hs
  · exact hs.schedule c)

theorem cellReleaseBody_steady : Body.Steady l cellReleaseBody :=
  exactly_steady (fun _ c hs => .pick (fun _ => hs.schedule c) (fun _ => hs))

theorem cellResetBody_steady : Body.Steady l cellResetBody := listForm_steady (fun refs s c hs => by
  split
  · exact hs
  · exact hs.schedule c)

/-! ### Generations and banks -/

theorem cfgBeginBody_steady : Body.Steady l cfgBeginBody :=
  exactly_steady (fun _ _ hs => .pick (fun _ => hs) (fun _ => (by simp [hs])))
theorem cfgCommitBody_steady : Body.Steady l cfgCommitBody :=
  exactly_steady (fun _ c hs => .pick (fun _ => hs.startJob c _) (fun _ => hs))
theorem cfgRevertBody_steady : Body.Steady l cfgRevertBody := exactly_steady (fun _ c hs => hs.startJob c _)
theorem cfgListBody_steady : Body.Steady l cfgListBody := exactly_steady (fun _ _ hs => hs)
theorem cfgDiscardBody_steady : Body.Steady l cfgDiscardBody := exactly_steady (fun s c hs => by simp [hs])
theorem cfgExportBody_steady : Body.Steady l cfgExportBody := exactly_steady (fun _ c hs => hs.startJob c _)

theorem chunkBody_steady (size : Nat) : Body.Steady l (chunkBody size) := by
  intro s c hs
  unfold chunkBody
  refine .pick (fun _ => hs) (fun _ => .pick (fun _ => hs) (fun _ => ?_))
  split
  · exact hs
  · exact .pick (fun _ => hs) (fun _ => hs.startJob c _)

theorem bankDiagBody_steady : Body.Steady l bankDiagBody :=
  exactly_steady (ofBank_steady (fun b => (fun s c hs => by simp [hs])))
theorem stampFifoBody_steady : Body.Steady l stampFifoBody :=
  exactly_steady (ofBank_steady (fun b _ _ hs => .pick (fun _ => hs) (fun _ => (by simp [hs]))))

/-! ### Jobs -/

theorem calRunBody_steady : Body.Steady l calRunBody :=
  exactly_steady (ofKind_steady (fun _ => reserved_steady (fun _ c hs =>
    .pick (fun _ => hs) (fun _ => hs.startJob c _))))
theorem probeCalBody_steady : Body.Steady l probeCalBody :=
  exactly_steady (ofKind_steady (fun _ => reserved_steady (fun _ c hs =>
    .pick (fun _ => hs) (fun _ => hs.startJob c _))))
theorem combEnumerateBody_steady : Body.Steady l combEnumerateBody :=
  exactly_steady (ofKind_steady (fun _ => reserved_steady (fun _ c hs => hs.startJob c _)))
theorem combNodemapBody_steady : Body.Steady l combNodemapBody :=
  exactly_steady (ofKind_steady (fun _ => reserved_steady (fun s c hs => by split <;> exact hs)))

theorem jobStatusBody_steady : Body.Steady l jobStatusBody := onJob_steady (fun j s c hs => by
  split
  · exact hs.same rfl
  · split
    · split
      · exact State.follows_modJob hs _ _
      · exact hs
    · exact hs)

theorem jobPauseBody_steady : Body.Steady l jobPauseBody := onJob_steady (fun j s c hs => by
  split
  · exact hs
  · split
    · exact hs
    · split
      case h_1 =>
        dsimp only
        split <;> simp [hs]
      case h_2 => exact State.follows_modJob hs _ _
      case h_3 => exact hs)

theorem jobResumeBody_steady : Body.Steady l jobResumeBody :=
  onJob_steady (fun j _ _ hs => .pick (fun _ => (by simp [hs])) (fun _ => hs))
theorem jobCancelBody_steady : Body.Steady l jobCancelBody :=
  onJob_steady (fun j _ _ hs => .pick (fun _ => hs) (fun _ =>
    .pick (fun _ => hs) (fun _ => (by simp [hs]))))

theorem schedCancelBody_steady : Body.Steady l schedCancelBody := exactly_steady (fun s c hs => by
  dsimp only
  split
  · exact hs
  · exact .pick (fun _ => hs) (fun _ => .pick (fun _ => hs) (fun _ => hs.same rfl)))

/-! ### Recorder, replay, update, identity, link -/

theorem recFreezeBody_steady : Body.Steady l recFreezeBody := exactly_steady (fun s c hs => by simp [hs])
theorem recReadBody_steady : Body.Steady l recReadBody :=
  exactly_steady (reserved_steady (reserved_steady (fun _ c hs => .pick (fun _ => hs) (fun _ => hs.startJob c _))))
theorem recThawBody_steady : Body.Steady l recThawBody := exactly_steady (fun s c hs => by simp [hs])
theorem recClearBody_steady : Body.Steady l recClearBody :=
  exactly_steady (fun _ c hs => .pick (fun _ => hs.schedule c) (fun _ => hs.schedule c))
theorem recStatusBody_steady : Body.Steady l recStatusBody := exactly_steady (fun _ _ hs => hs)
theorem replayRunBody_steady : Body.Steady l replayRunBody :=
  exactly_steady (fun s c hs => .pick (fun _ => hs) (fun _ =>
    reserved_steady (fun _ c hs => hs.startJob c _) s c hs))
theorem replayResultBody_steady : Body.Steady l replayResultBody := exactly_steady (fun _ _ hs => hs)
theorem inputRecordBody_steady : Body.Steady l inputRecordBody := exactly_steady (fun _ c hs => hs.startJob c _)
theorem updBeginBody_steady : Body.Steady l updBeginBody := (fun s c hs => by simp [updBeginBody, hs])
theorem updBlockBody_steady : Body.Steady l updBlockBody := (fun s c hs => by simp [updBlockBody, hs])

theorem updVerifyBody_steady : Body.Steady l updVerifyBody :=
  exactly_steady (fun _ c hs => .pick (fun _ => hs) (fun _ => .pick (fun _ => hs) (fun _ =>
    .pick (fun _ => State.follows_dispatchJobs (State.follows_modUpd_state (hs.newJob c (fun j => j))))
      (fun _ => hs.newJob c _))))

theorem updActivateBody_steady (hon : l.vinOn = true) : Body.Steady l updActivateBody :=
  exactly_steady (fun _ c hs => State.follows_updActivate hon hs c.who)
theorem updConfirmBody_steady : Body.Steady l updConfirmBody := exactly_steady (fun s c hs => by simp [hs])
theorem updAbortBody_steady (hon : l.vinOn = true) : Body.Steady l updAbortBody :=
  exactly_steady (fun _ c hs => State.follows_dispatchJobs (State.follows_updAbort hon hs c.who))
theorem updStatusBody_steady : Body.Steady l updStatusBody := exactly_steady (fun _ _ hs => hs)
theorem certReadBody_steady : Body.Steady l certReadBody := exactly_steady (reserved_steady (fun s c hs => by
  dsimp only
  split <;> exact hs))

theorem certInstallBody_steady : Body.Steady l certInstallBody := (fun s c hs => by
  unfold certInstallBody
  dsimp only
  split
  · exact hs
  · split
    · exact hs
    · split
      · exact hs
      · split
        · exact hs
        · split <;> simp [hs])

theorem oemKeyBody_steady : Body.Steady l oemKeyBody :=
  exactly_steady (fun _ _ hs => .pick
    (fun _ => .pick (fun _ => hs) (fun _ => (by simp [hs])))
    (fun _ => .pick (fun _ => hs) (fun _ => (by simp [hs]))))
theorem signChallengeBody_steady : Body.Steady l signChallengeBody :=
  exactly_steady (fun s c hs => by simp [hs])
theorem linkStatusBody_steady : Body.Steady l linkStatusBody := exactly_steady (fun _ _ hs => hs)
theorem nodeForwardBody_steady : Body.Steady l nodeForwardBody := by
  intro s c hs
  unfold nodeForwardBody
  split <;> exact hs

/-! ## The way of a packet -/

theorem Ledger.Follows.runBody {s : State} (h : l.Follows s.ledger) {b : Body} (hb : Body.Steady l b) (r : OpInfo)
    (c : Ctx) (now : Nat) (etv : Bool) (low : Nat) : l.Follows (s.runBody r b c now etv low).2.ledger := by
  unfold State.runBody
  split
  · exact h
  · exact .pick (fun _ => h) (fun _ => hb s _ h)

/-- What follows a reply moves no clock. -/
def SteadyAfter (l : Ledger) (f : State → State) : Prop := ∀ s : State, l.Follows s.ledger → l.Follows (f s).ledger

theorem Ledger.Follows.execute {s : State} (h : l.Follows s.ledger) {b : Body} (hb : Body.Steady l b)
    {after : State → State} (ha : SteadyAfter l after) (p : Packet) (r : OpInfo) :
    l.Follows (s.execute p r b after).ledger := by
  unfold State.execute
  extract_lets key c x e reply done
  have hx : l.Follows x.2.ledger := h.runBody hb r c _ _ _
  have hdone : l.Follows done.ledger := by simp [done, hx]
  split
  · simp [hx]
  · split
    · exact ha _ hdone
    · exact hdone

theorem Ledger.Follows.handle {s : State} (h : l.Follows s.ledger) {b : Body} (hb : Body.Steady l b)
    {after : State → State} (ha : SteadyAfter l after) (p : Packet) (r : OpInfo) (again : Bool) :
    l.Follows (s.handle p r b after again).ledger := by
  have hrefused : ∀ o a, l.Follows (s.refusePacket p o a).ledger := fun o a => by simp [h]
  have haccepted : l.Follows (if again then s.acceptAgain p else s.accept p).ledger := by simp [h]
  unfold State.handle
  extract_lets opcode key accepted
  split
  · simp [h]
  · split
    · exact hrefused _ _
    · split
      · split
        · exact hrefused _ _
        · exact State.follows_sendOn haccepted _ _ _ _ _
      · split
        · exact hrefused _ _
        · split
          · exact hrefused _ _
          · split
            · exact State.follows_sendOn haccepted _ _ _ _ _
            · exact hrefused _ _
          · exact h.execute hb ha p r

/-- An interface without power takes no packet. -/
theorem State.admitPacket_dark {s : State} (hoff : s.vinOn = false) (p : Packet) : s.admitPacket p = (false, s) := by
  simp [State.admitPacket, State.hostListens, State.logicPowered, hoff]

theorem State.follows_hostCommand (s : State) {b : Body} (hb : s.vinOn = true → Body.Steady s.ledger b)
    {after : State → State} (ha : SteadyAfter s.ledger after) (p : Packet) (code : Nat) :
    s.ledger.Follows (s.hostCommand p code b after).ledger := by
  have hadmitted : s.ledger.Follows (s.admitPacket p).2.ledger := by simp
  unfold State.hostCommand
  extract_lets a u
  split
  · exact hadmitted
  case isFalse htaken =>
    have hon : s.vinOn = true := by
      by_contra hoff
      exact htaken (by simp [a, State.admitPacket_dark (Bool.eq_false_of_not_eq_true hoff)])
    split
    · exact hadmitted
    · split
      · exact hadmitted
      · simp [u, a]
      · simp [u, a]
      · exact hadmitted.handle (hb hon) ha p _ true
      · exact hadmitted.handle (hb hon) ha p _ false

theorem steadyAfter_id : SteadyAfter l (fun s => s) := fun _ hs => hs
theorem steadyAfter_restartLogic : SteadyAfter l State.restartLogic := fun _ hs => by simp [hs]
theorem steadyAfter_afterReply (code : Nat) : SteadyAfter l (afterReply code) := fun _ hs => by simp [afterReply, hs]

/-! ## Commands from the link -/

theorem bodyOf_steady {code : Nat} {b : Body} (hon : l.vinOn = true) (h : bodyOf code = some b) : Body.Steady l b := by
  unfold bodyOf at h
  split at h <;> cases h
  · exact pingBody_steady
  · exact identifyBody_steady
  · exact sessionOpenBody_steady
  · exact sessionCloseBody_steady
  · exact authBeginBody_steady
  · exact authProveBody_steady
  · exact lockBody_steady true
  · exact lockBody_steady false
  · exact setBaudBody_steady
  · exact smokerFeedBody_steady
  · exact smokerClearBody_steady
  · exact irqStatusBody_steady
  · exact irqAckBody_steady
  · exact readEventsBody_steady
  · exact getTickBody_steady
  · exact setWallTimeBody_steady
  · exact powerStateBody_steady
  · exact restartBody_steady
  · exact paramRead_steady
  · exact paramWrite_steady
  · exact paramReadBlock_steady
  · exact paramWriteBlock_steady
  · exact unitStatusBody_steady
  · exact unitAction_steady barStart
  · exact unitAction_steady barHousekeeping
  · exact unitAction_steady barMode
  · exact unitAction_steady barMode
  · exact unitAction_steady barHousekeeping
  · exact setManualBody_steady
  · exact channelServiceBody_steady
  · exact unitListBody_steady
  · exact cellReadBody_steady
  · exact cellWriteBody_steady
  · exact cellForceBody_steady
  · exact cellReleaseBody_steady
  · exact cellResetBody_steady
  · exact cfgBeginBody_steady
  · exact cfgCommitBody_steady
  · exact cfgRevertBody_steady
  · exact cfgListBody_steady
  · exact cfgDiscardBody_steady
  · exact cfgExportBody_steady
  · exact chunkBody_steady bundleMax
  · exact bankDiagBody_steady
  · exact stampFifoBody_steady
  · exact calRunBody_steady
  · exact probeCalBody_steady
  · exact combEnumerateBody_steady
  · exact combNodemapBody_steady
  · exact recFreezeBody_steady
  · exact recReadBody_steady
  · exact recThawBody_steady
  · exact recClearBody_steady
  · exact recStatusBody_steady
  · exact chunkBody_steady replayMax
  · exact replayRunBody_steady
  · exact replayResultBody_steady
  · exact inputRecordBody_steady
  · exact updBeginBody_steady
  · exact updBlockBody_steady
  · exact updVerifyBody_steady
  · exact updActivateBody_steady hon
  · exact updConfirmBody_steady
  · exact updAbortBody_steady hon
  · exact updStatusBody_steady
  · exact certReadBody_steady
  · exact certInstallBody_steady
  · exact oemKeyBody_steady
  · exact signChallengeBody_steady
  · exact linkStatusBody_steady
  · exact nodeForwardBody_steady
  · exact jobStatusBody_steady
  · exact jobPauseBody_steady
  · exact jobResumeBody_steady
  · exact jobCancelBody_steady
  · exact schedCancelBody_steady

theorem Ledger.Follows.executeLink (hon : l.vinOn = true) {s : State} (h : l.Follows s.ledger) (m : ForwardedCmd) :
    l.Follows (s.executeLink m).2.2.ledger := by
  unfold State.executeLink
  split
  case h_1 r body _ _ hbody => exact h.runBody (bodyOf_steady hon hbody) _ _ _ _ _
  all_goals exact h

theorem Ledger.Follows.onCommand (hon : l.vinOn = true) {s : State} (h : l.Follows s.ledger) (m : ForwardedCmd) :
    l.Follows (s.onCommand m).ledger := by
  unfold State.onCommand
  split
  · exact h
  · extract_lets heard x b done kept fed
    have hheard : l.Follows heard.ledger := by simp [heard, h]
    split
    · simp [hheard]
    · split
      · simp [hheard]
      · have hx : l.Follows x.2.2.ledger := hheard.executeLink hon m
        split
        · simp [done, hx]
        · have hfed : l.Follows fed.ledger := by simp [fed, kept, done, hx]
          split
          · exact steadyAfter_afterReply _ _ hfed
          · exact hfed

end Sys2Proof.Machine
end

section
/-! # Each row moves the tick counter forward, or leaves it (R89) -/

namespace Sys2Proof.Machine

/-- A row answers a next state; where the clock's part of the invariant stands it stands again, and the tick has not
gone back. -/
def Onward (s : State) (r : Result) : Prop := ∃ t, r = .next t ∧ (ClockKept s → s.tick ≤ t.tick ∧ ClockKept t)

/-- Where nothing moves the clock the invariant stands. -/
theorem ClockKept.follows {s t : State} (hs : ClockKept s) (h : s.ledger.Follows t.ledger) :
    s.tick ≤ t.tick ∧ ClockKept t := by
  have htick : t.tick = s.tick := h.tick
  refine ⟨htick.ge, fun hoff => ?_⟩
  have hsoff : s.vinOn = false := h.vinOn.symm.trans hoff
  obtain ⟨halive, hact, hcheck⟩ := hs hsoff
  obtain ⟨hdim, hgone⟩ := h.dark hsoff
  have hmark : t.checkpoint = s.checkpoint := h.checkpoint
  exact ⟨hdim halive, hgone hact, by rw [htick, hmark]; exact hcheck⟩

/-- With power no part of the invariant is to be shown. -/
theorem ClockKept.of_on {t : State} (h : t.vinOn = true) : ClockKept t := fun hoff => by rw [h] at hoff; cases hoff

theorem Onward.of_follows {s t : State} (h : s.ledger.Follows t.ledger) : Onward s (.next t) :=
  ⟨t, rfl, fun hs => hs.follows h⟩

theorem Onward.of_kept {s t : State} (h : ClockKept s → s.ledger.Follows t.ledger) : Onward s (.next t) :=
  ⟨t, rfl, fun hs => hs.follows (h hs)⟩

/-- A logic domain that runs has power. -/
theorem ClockKept.on_of_alive {s : State} (hs : ClockKept s) (h : s.host.alive = true) : s.vinOn = true := by
  by_contra hoff
  rw [(hs (Bool.eq_false_of_not_eq_true hoff)).1] at h
  cases h

theorem State.alive_of_runs {s : State} (h : s.logicRuns = true) : s.host.alive = true := by
  simp only [State.logicRuns, Bool.and_eq_true] at h
  exact h.1.1

/-- What happens with power, and leaves it and the tick. -/
theorem Onward.of_stays {s t : State} (hon : ClockKept s → s.vinOn = true) (h : s.ledger.Stays t.ledger) :
    Onward s (.next t) :=
  ⟨t, rfl, fun hs => ⟨(show t.tick = s.tick from h.tick).ge, .of_on (h.vinOn.trans (hon hs))⟩⟩

/-- What happens while the logic domain runs happens with power. -/
theorem Onward.of_runs {s t : State} {c : Prop} [Decidable c] (hc : c → s.logicRuns = true)
    (h : c → s.vinOn = true → s.ledger.Stays t.ledger) : Onward s (.next (if c then t else s)) := by
  refine ⟨_, rfl, fun hs => ?_⟩
  split
  case isTrue hruns =>
    have hon : s.vinOn = true := hs.on_of_alive (State.alive_of_runs (hc hruns))
    have hstays := h hruns hon
    exact ⟨(show t.tick = s.tick from hstays.tick).ge, .of_on (hstays.vinOn.trans hon)⟩
  case isFalse => exact ⟨le_rfl, hs⟩

@[simp] theorem onward_next_self (s : State) : Onward s (.next s) := .of_follows (by simp)
@[simp] theorem onward_ite {s : State} {c : Prop} [Decidable c] {a b : Result} :
    Onward s (if c then a else b) ↔ (c → Onward s a) ∧ (¬c → Onward s b) := by
  split <;> simp [*]

theorem Onward.host {s : State} {b : Body} (hb : s.vinOn = true → Body.Steady s.ledger b) {after : State → State}
    (ha : SteadyAfter s.ledger after) {p : Packet} {code : Nat} : Onward s (.next (s.hostCommand p code b after)) :=
  .of_follows (s.follows_hostCommand hb ha p code)

theorem Onward.command {s : State} {b : Body} (hb : Body.Steady s.ledger b) {p : Packet} {code : Nat} :
    Onward s (.next (s.hostCommand p code b)) := .host (fun _ => hb) steadyAfter_id

theorem Onward.onLink {s : State} {f : State → State} (h : s.vinOn = true → s.ledger.Follows (f s).ledger) :
    Onward s (s.onLink f) := .of_runs id (fun _ hon => (h hon).stays)

/-! ## Jobs and walks -/

theorem State.follows_endWith {l : Ledger} {s : State} (h : l.Follows s.ledger) (j : Job)
    {r : Except (Nat × Nat) (Option State)} (hr : ∀ t, r = .ok (some t) → t.ledger = s.ledger) :
    l.Follows (s.endWith j r).ledger := by
  unfold State.endWith
  split
  case h_1 => exact h
  case h_2 t => exact State.follows_endJob (by rwa [hr t rfl]) _ _ _ _ _
  case h_3 => exact State.follows_endJob h _ _ _ _ _

/-- An item of the boundary, as a row of its own. -/
theorem Onward.atBoundary {s u : State} (hu : u.ledger = s.ledger) (hr : u.logicRuns = true → s.logicRuns = true)
    {f : Nat → State → State}
    (hf : ∀ (t : Nat) (u : State), u.ledger.Follows (f t u).ledger) : Onward s (.next (u.atBoundary f)) := by
  by_cases hl : u.logicRuns = true
  · refine .of_stays (fun hs => hs.on_of_alive (State.alive_of_runs (hr hl))) ?_
    rw [← hu]
    exact u.stays_atBoundary hf
  · have hidle : u.atBoundary f = u := by simp [State.atBoundary, hl]
    exact .of_follows (by simp [hidle, hu])

/-! ## Rows that move the tick, or write its checkpoint -/

/-- The state under the clock of the next tick, as the housekeeper leaves it. -/
def State.ticked (s : State) : State :=
  ({ s with tick := s.tick + 1, link := { s.link with thisLong := 0 } } : State).houseClock

theorem State.stays_ticked (s : State) : ({ s with tick := s.tick + 1 } : State).ledger.Stays s.ticked.ledger :=
  State.stays_houseClock { s with tick := s.tick + 1, link := { s.link with thisLong := 0 } }

/-- Whatever a tick boundary brings, it is one tick on, and no checkpoint is written but at that tick. -/
theorem State.stays_tickBoundary {s : State} (hon : s.vinOn = true) :
    s.ticked.ledger.Stays s.tickBoundary.ledger := by
  unfold State.tickBoundary
  extract_lets link ticked clocked counted fields frozen judged lagging opened
  have hclocked : s.ticked.ledger.Follows clocked.ledger := State.follows_hostClock (Ledger.follows_self _) _
  clear_value clocked
  have hjudged : s.ticked.ledger.Follows judged.ledger := by
    simpa only [judged, frozen, fields, counted, State.ledger_judgeSmoker, State.ledger_freezeExpiry,
      ledger_foldl (fun s b => State.ledger_fieldBoundary s _ b), State.ledger_countFanUplink,
      ledger_foldl State.ledger_countUplink] using hclocked
  clear_value judged
  have hopened : s.ticked.ledger.Stays opened.ledger := by
    unfold opened
    split
    · exact hjudged.stays.trans judged.stays_openTick
    · exact (hjudged.same rfl).stays
  clear_value opened
  split
  · rename_i hoff
    rw [hon] at hoff
    cases hoff
  · split
    · exact hclocked.stays
    · split
      · exact ⟨hclocked.vinOn, hclocked.tick, .inl hclocked.checkpoint⟩
      · split
        · exact (State.follows_stopFor hclocked _ _).stays
        · split
          · exact hopened
          · split
            · exact hopened.trans (State.follows_thermalShutdown (Ledger.follows_self _) _).stays
            · exact hopened

theorem onward_execTickBoundary (s : State) : Onward s (execTickBoundary s) := by
  refine ⟨_, rfl, fun hs => ?_⟩
  by_cases hon : s.vinOn = true
  · have h := s.stays_ticked.trans (State.stays_tickBoundary hon)
    have htick : s.tickBoundary.tick = s.tick + 1 := h.tick
    exact ⟨by omega, .of_on (h.vinOn.trans hon)⟩
  · have hidle : s.tickBoundary = s := by simp [State.tickBoundary, hon]
    rw [hidle]
    exact ⟨le_rfl, hs⟩

/-- The loss of power keeps the tick at its checkpoint, and stops the logic domain. -/
theorem State.vinFail_on {s : State} (hon : s.vinOn = true) : s.vinFail.tick = s.tick ∧ s.vinFail.vinOn = false ∧
    s.vinFail.checkpoint = (s.tick, s.wallDiff) ∧ s.vinFail.host.alive = false ∧ s.vinFail.upd.activateAt = none := by
  have hstop := State.ledger_stopLogic { s with checkpoint := (s.tick, s.wallDiff) } 2
  rw [State.vinFail, if_neg (by simp [hon])]
  exact ⟨congrArg Ledger.tick hstop, rfl, congrArg Ledger.checkpoint hstop, congrArg Ledger.alive hstop,
    congrArg Ledger.activateAt hstop⟩

theorem onward_execVinPowerFail (s : State) : Onward s (execVinPowerFail s) := by
  refine ⟨_, rfl, fun hs => ?_⟩
  by_cases hon : s.vinOn = true
  · obtain ⟨htick, _, hcheck, halive, hact⟩ := State.vinFail_on hon
    refine ⟨htick.ge, fun _ => ⟨halive, hact, ?_⟩⟩
    rw [htick, hcheck]
    omega
  · have hidle : s.vinFail = s := by simp [State.vinFail, hon]
    rw [hidle]
    exact ⟨le_rfl, hs⟩

/-- Power returns 131,072 ticks after the checkpoint. -/
theorem State.vinReturn_off {s : State} (hoff : s.vinOn = false) (uart : Bool) :
    (s.vinReturn uart).tick = s.checkpoint.1 + 131072 ∧ (s.vinReturn uart).vinOn = true := by
  have hstop : (s.stopLogic s.boot.closed).checkpoint = s.checkpoint :=
    congrArg Ledger.checkpoint (s.ledger_stopLogic s.boot.closed)
  simp only [State.vinReturn, hoff, Bool.false_eq_true, if_false]
  exact ⟨congrArg (·.1 + 131072) hstop, trivial⟩

theorem onward_execVinPowerOn (millivolts : Nat) (uart : Bool) (s : State) :
    Onward s (execVinPowerOn millivolts uart s) := by
  refine ⟨_, rfl, fun hs => ?_⟩
  split
  · by_cases hon : s.vinOn = true
    · have hidle : s.vinReturn uart = s := by simp [State.vinReturn, hon]
      rw [hidle]
      exact ⟨le_rfl, hs⟩
    · have hoff : s.vinOn = false := Bool.eq_false_of_not_eq_true hon
      obtain ⟨htick, hback⟩ := State.vinReturn_off hoff uart
      exact ⟨by rw [htick]; exact (hs hoff).2.2, .of_on hback⟩
  · exact ⟨le_rfl, hs⟩

theorem onward_execTickCheckpoint (s : State) : Onward s (execTickCheckpoint s) := by
  refine ⟨_, rfl, fun hs => ?_⟩
  split
  case isTrue h => exact ⟨le_rfl, .of_on (Bool.and_eq_true_iff.mp h).1⟩
  case isFalse => exact ⟨le_rfl, hs⟩

/-- The activation pause goes on to a tick that is not before it, with power as it was. -/
theorem State.activationPause_on {s : State} (hon : s.vinOn = true) (resumeAt : Nat) (r : BootReport) :
    s.tick ≤ (s.activationPause resumeAt r).tick ∧ (s.activationPause resumeAt r).vinOn = true := by
  have hself : s.tick ≤ s.tick ∧ s.vinOn = true := ⟨le_rfl, hon⟩
  unfold State.activationPause
  split
  · exact hself
  · split
    · exact hself
    · extract_lets back first sched calmed stopped mark paused new unmarked begun cause started keep
      have hfirst : s.tick ≤ first - 1 := by
        have : s.tick + 1 ≤ first := (Nat.le_max_right _ _).trans (Nat.le_max_left _ _)
        omega
      have hstopped : stopped.vinOn = true := (State.follows_stopLogic (Ledger.follows_self s.ledger) 0).vinOn.trans hon
      have hpaused : paused.ledger.vinOn = true := hstopped
      have hbegun : paused.ledger.Follows begun.ledger := by
        unfold begun
        split
        · exact State.follows_fallBack (Ledger.follows_self _) 3
        · rw [State.ledger_runSlot]
          exact (Ledger.follows_self _).same rfl
      have hstarted : paused.ledger.Follows started.ledger := by
        rw [State.ledger_modJournal]
        exact State.follows_beginStart hbegun cause r
      have hslot : paused.ledger.Follows ((started.outcome 1 0).bootSlot r).2.ledger := by simp [hstarted]
      have hend {t : State} (ht : paused.ledger.Follows t.ledger) : s.tick ≤ t.tick ∧ t.vinOn = true :=
        ⟨by rw [show t.tick = first - 1 from ht.tick]; exact hfirst, ht.vinOn.trans hpaused⟩
      clear_value paused started
      split
      · exact hend (State.follows_halted hpaused hstarted _ _ _ _)
      · split <;> rename_i heq <;> rw [heq] at hslot
        · exact hend (State.follows_fallsAtStart hslot _)
        · exact hend (State.follows_bootHold hpaused hslot _ _)
        · extract_lets stores resumed moved
          have hstores : paused.ledger.Follows stores.ledger := by simpa [stores] using hslot
          have hresumed : paused.ledger.Follows resumed.ledger := State.follows_shortStart hpaused hstores cause keep r
          clear_value stores resumed
          split
          · exact hend (State.follows_halted hpaused hstores _ _ _ _)
          · split
            · exact hend (hresumed.same rfl)
            · exact hend hresumed

theorem onward_execActivationPause (resumeAt : Nat) (report : BootReport) (s : State) :
    Onward s (execActivationPause resumeAt report s) := by
  refine ⟨_, rfl, fun hs => ?_⟩
  by_cases hon : s.vinOn = true
  · obtain ⟨htick, hback⟩ := State.activationPause_on hon resumeAt report
    exact ⟨htick, .of_on hback⟩
  · have hidle : s.activationPause resumeAt report = s := by
      simp [State.activationPause, (hs (Bool.eq_false_of_not_eq_true hon)).2.1]
    rw [hidle]
    exact ⟨le_rfl, hs⟩

/-! ## Rows of the running logic domain -/

theorem onward_execTickCommit (s : State) : Onward s (execTickCommit s) := by
  have hcommit : s.ledger.Follows s.commit.ledger := by simp
  unfold execTickCommit
  rw [onward_ite]
  refine ⟨fun _ => onward_next_self s, fun hruns => .of_stays (fun hs => ?_) ?_⟩
  · simp only [Bool.not_eq_true, Bool.not_eq_false', Bool.and_eq_true] at hruns
    exact hs.on_of_alive (State.alive_of_runs hruns.1.1)
  · split
    · rw [State.ledger_evaluateDue]
      exact hcommit.stays.trans (State.stays_openTick _)
    · exact hcommit.stays

theorem onward_execExcCurrentApply (ch : Fin 128) (s : State) : Onward s (execExcCurrentApply ch s) :=
  .of_runs (fun h => by
    simp only [Bool.and_eq_true] at h
    exact h.1.1) (fun _ _ => State.stays_atTick _ _ (fun u => by simp))

theorem onward_execXistaCommand (cmd : ForwardedCmd) (s : State) : Onward s (execXistaCommand cmd s) :=
  .onLink fun hon => (Ledger.follows_self s.ledger).onCommand hon cmd

theorem State.follows_restart {s : State} (hon : s.vinOn = true) (closed : Nat) (c : StartCause) (r : BootReport) :
    s.ledger.Follows (s.restartAfter closed c r).ledger :=
  State.follows_restartAfter hon (Ledger.follows_self _) closed c r

theorem onward_execLagRestart (report : BootReport) (s : State) : Onward s (execLagRestart report s) := by
  unfold execLagRestart
  rw [onward_ite]
  refine ⟨fun h => .of_kept fun hs => ?_, fun _ => onward_next_self s⟩
  simp only [Bool.and_eq_true] at h
  exact State.follows_restart (hs.on_of_alive (State.alive_of_runs h.1.1)) 0 .lag report

theorem onward_execTickRedo (fault : RedoFault) (s : State) : Onward s (execTickRedo fault s) := by
  have hpage : s.ledger.Follows (fault.page.elim s (fun p => s.pageFails p.val)).ledger := by cases fault.page <;> simp
  unfold execTickRedo
  rw [onward_ite]
  refine ⟨fun _ => onward_next_self s, fun h => ?_⟩
  rw [onward_ite]
  refine ⟨fun _ => .of_follows (by simpa using hpage), fun _ => .of_kept fun hs => ?_⟩
  simp only [Bool.not_eq_true, Bool.not_eq_false', Bool.and_eq_true] at h
  exact State.follows_restartAfter (hs.on_of_alive (State.alive_of_runs h.1.1)) hpage _ _ _

theorem onward_execBootStart (cause : StartCause) (report : BootReport) (s : State) :
    Onward s (execBootStart cause report s) :=
  .of_kept fun _ => by
    by_cases hon : s.vinOn = true
    · exact State.follows_bootStart hon (Ledger.follows_self _) cause report
    · have hidle : s.bootStart cause report = s := by simp [State.bootStart, hon]
      simp [hidle]

theorem onward_execThermalShutdown (s : State) : Onward s (execThermalShutdown s) := by
  unfold execThermalShutdown
  rw [onward_ite]
  exact ⟨fun _ => onward_next_self s, fun _ => .of_follows (by simp)⟩

/-! ## Items of the boundary -/

theorem onward_execSmokerCalm (s : State) : Onward s (execSmokerCalm s) := .atBoundary rfl id (fun _ _ => by simp)

theorem onward_execScheduledCommandApply (s : State) : Onward s (execScheduledCommandApply s) :=
  .atBoundary rfl id (fun t _ => State.follows_applyOne (Ledger.follows_self _) t)

theorem onward_execWindDownComplete (slot : Fin 1024) (s : State) : Onward s (execWindDownComplete slot s) :=
  .atBoundary rfl id (fun _ _ => by simp)

theorem onward_execGenerationActivate (s : State) : Onward s (execGenerationActivate s) :=
  .atBoundary rfl id (fun t u => by
    split
    · split <;> simp
    · simp)

theorem onward_execInrecSegmentBoundary (s : State) : Onward s (execInrecSegmentBoundary s) :=
  .atBoundary rfl id (fun _ _ => by simp)

theorem onward_execRemoteCellApply (s : State) : Onward s (execRemoteCellApply s) :=
  .atBoundary rfl id (fun _ _ => by simp)

theorem onward_execNodeJoin (node : Fin 8) (s : State) : Onward s (execNodeJoin node s) :=
  .atBoundary rfl id (fun _ _ => by simp)

theorem onward_execNodeLost (node : Fin 8) (s : State) : Onward s (execNodeLost node s) :=
  .atBoundary rfl id (fun _ _ => by simp)

theorem onward_execProgramAction (prog : Fin 4) (s : State) : Onward s (execProgramAction prog s) :=
  .atBoundary rfl id (fun _ _ => by simp)

theorem onward_execLinkLossTimeout (node : Fin 8) (s : State) : Onward s (execLinkLossTimeout node s) := by
  unfold execLinkLossTimeout
  split
  · exact .atBoundary rfl id (fun _ _ => by simp)
  · exact onward_next_self s

theorem onward_execPageRetire (page : Fin 2048) (s : State) : Onward s (execPageRetire page s) := by
  unfold execPageRetire
  rw [onward_ite]
  refine ⟨fun _ => onward_next_self s, fun h => ?_⟩
  exact .atBoundary (by simp) (fun _ => by simpa using h) (fun _ _ => by simp)

/-! ## Memory -/

theorem onward_execEccUncorrectableCommitted (fault : EccFault) (s : State) :
    Onward s (execEccUncorrectableCommitted fault s) := by
  unfold execEccUncorrectableCommitted
  extract_lets u
  have hu : s.ledger.Follows u.ledger := by
    unfold u
    cases fault.page <;> simp
  clear_value u
  split
  case h_4 report =>
    rw [onward_ite]
    refine ⟨fun h => .of_follows ?_, fun _ => .of_follows hu⟩
    simp only [State.logicPowered, Bool.and_eq_true] at h
    exact State.follows_restartAfter (hu.vinOn.symm.trans h.1.1) hu _ _ _
  all_goals exact .of_follows (by simp [hu])

theorem onward_execEccCorrected (page : Fin 2048) (address : Nat) (s : State) :
    Onward s (execEccCorrected page address s) := by
  unfold execEccCorrected
  rw [onward_ite]
  exact ⟨fun _ => onward_next_self s, fun _ => .of_follows (by simp)⟩

/-! ## The interface -/

theorem onward_execAuthProveBarEnd (s : State) : Onward s (execAuthProveBarEnd s) := by
  unfold execAuthProveBarEnd
  split <;> exact .of_follows (by simp)

theorem onward_execBaudFallback (s : State) : Onward s (execBaudFallback s) := by
  unfold execBaudFallback
  split <;> exact .of_follows (by simp)

theorem onward_execSessionIdleTimeout (session : BitVec 16) (s : State) :
    Onward s (execSessionIdleTimeout session s) := by
  unfold execSessionIdleTimeout
  split <;> exact .of_follows (by simp)

theorem onward_execPacketDiscard (bytes : List Byte) (s : State) : Onward s (execPacketDiscard bytes s) := by
  unfold execPacketDiscard
  rw [onward_ite, onward_ite]
  refine ⟨fun _ => onward_next_self s, fun _ => ⟨fun _ => .of_follows (by simp), fun _ => ?_⟩⟩
  split
  · exact onward_next_self s
  · split <;> exact .of_follows (by simp)

theorem onward_execSpiRead (x : SpiTransfer) (s : State) : Onward s (execSpiRead x s) := by
  unfold execSpiRead
  rw [onward_ite]
  refine ⟨fun _ => onward_next_self s, fun _ => ?_⟩
  dsimp only
  split <;> exact .of_follows (by simp)

theorem onward_execBadOpcode (opcode : BitVec 16) (p : Packet) (s : State) : Onward s (execBadOpcode opcode p s) := by
  have hadmitted : s.ledger.Follows (s.admitPacket p).2.ledger := by simp
  unfold execBadOpcode
  extract_lets a u
  split
  · exact onward_next_self s
  · split
    · exact .of_follows hadmitted
    · split
      case h_1 => exact .of_follows hadmitted
      case h_2 => exact .of_follows (by simp [u, a])
      case h_3 => exact .of_follows (by simp [u, a])
      case h_4 => split <;> exact .of_follows (by simp [u, a])

/-! ## Evaluation, recorder and fans -/

theorem onward_execInputDeadline (s : State) : Onward s (execInputDeadline s) := by
  unfold execInputDeadline
  rw [onward_ite]
  exact ⟨fun _ => onward_next_self s, fun _ => .of_follows (by simp)⟩

theorem onward_execSummaryFlashWrite (programOk healthOk : Bool) (s : State) :
    Onward s (execSummaryFlashWrite programOk healthOk s) := by
  unfold execSummaryFlashWrite
  split
  · split <;> exact .of_follows (by simp)
  · exact onward_next_self s

theorem onward_execFanStartTimeout (fan : Fin 8) (s : State) : Onward s (execFanStartTimeout fan s) := by
  unfold execFanStartTimeout
  dsimp only
  split <;> exact .of_follows (by simp)

theorem onward_execFanSpeedFaultTimer (fan : Fin 8) (s : State) : Onward s (execFanSpeedFaultTimer fan s) := by
  unfold execFanSpeedFaultTimer
  dsimp only
  split
  · split
    · exact .of_follows (by simp)
    · split <;> exact .of_follows (by simp)
  · exact onward_next_self s

/-! ## The end of jobs -/

theorem State.follows_completes (s : State) (k opcode : Nat) {f : State → Job → State}
    (hf : ∀ j, s.ledger.Follows (f s j).ledger) : s.ledger.Follows (s.completeJob k opcode f).ledger :=
  State.follows_completeJob (Ledger.follows_self _) k opcode hf

theorem onward_execCfgValidationDone (job : Nat) (s : State) : Onward s (execCfgValidationDone job s) := by
  unfold execCfgValidationDone
  split
  · exact onward_next_self s
  · refine .of_follows ?_
    split
    · exact s.follows_completes _ _ (fun j => by simp)
    · simp

theorem onward_execUpdVerifyDone (job : Nat) (s : State) : Onward s (execUpdVerifyDone job s) :=
  .of_follows (s.follows_completes _ _ (fun j => by simp))

theorem onward_execCalRunDone (job : Nat) (unit : Fin 1024) (action : Fin 3) (s : State) :
    Onward s (execCalRunDone job unit action s) :=
  .of_follows (by
    split
    · exact s.follows_completes _ _ (fun j => State.follows_endWith (by simp) j (fun t => State.ledger_calOutcome))
    · simp)

theorem onward_execProbeCalDone (job : Nat) (sweeps : List RawSweep) (s : State) :
    Onward s (execProbeCalDone job sweeps s) :=
  .of_follows (s.follows_completes _ _
    (fun j => State.follows_endWith (by simp) j (fun t => State.ledger_probeCalOutcome)))

theorem onward_execCombEnumerateDone (job : Nat) (line : Fin 64) (answers : List (List ReadSlot)) (s : State) :
    Onward s (execCombEnumerateDone job line answers s) := by
  unfold execCombEnumerateDone
  refine .of_follows ?_
  split
  · refine s.follows_completes _ _ (fun j => ?_)
    split
    · simp
    · refine State.follows_endWith (by simp) j (fun t ht => ?_)
      split at ht
      case h_1 u hu =>
        cases ht
        simp [State.ledger_enumerateOutcome hu]
      case h_2 => simp [State.ledger_enumerateOutcome ht]
  · simp

theorem onward_execJobEnd (job : Nat) (end_ : JobWork) (s : State) : Onward s (execJobEnd job end_ s) := by
  unfold execJobEnd
  split
  · exact onward_next_self s
  · rw [onward_ite]
    refine ⟨fun _ => onward_next_self s, fun _ => ?_⟩
    cases end_ with
    | done =>
      rw [onward_ite]
      exact ⟨fun _ => .of_follows (by simp), fun _ => .of_follows (s.follows_completes _ _ (fun j => by simp))⟩
    | memoryError => exact .of_follows (by simp)
    | flashFailed => exact .of_follows (by simp)

/-! ## Every row -/

/-- No row lowers the tick counter, and each keeps the clock's part of the invariant. -/
theorem exec_onward (i : Instr) (s : State) : Onward s (exec i s) := by
  cases i with
  | ping p => exact .command pingBody_steady
  | identify p => exact .command identifyBody_steady
  | sessionOpen p => exact .command sessionOpenBody_steady
  | sessionClose p => exact .command sessionCloseBody_steady
  | authBegin p => exact .command authBeginBody_steady
  | authProve p => exact .command authProveBody_steady
  | authProveBarEnd => exact onward_execAuthProveBarEnd s
  | lock p => exact .command (lockBody_steady _)
  | unlock p => exact .command (lockBody_steady _)
  | setBaud p => exact .command setBaudBody_steady
  | baudFallback => exact onward_execBaudFallback s
  | smokerFeed p => exact .command smokerFeedBody_steady
  | smokerClear p => exact .command smokerClearBody_steady
  | irqStatus p => exact .command irqStatusBody_steady
  | irqAck p => exact .command irqAckBody_steady
  | readEvents p => exact .command readEventsBody_steady
  | getTick p => exact .command getTickBody_steady
  | setWallTime p => exact .command setWallTimeBody_steady
  | powerState p => exact .command powerStateBody_steady
  | restart p => exact .host (fun _ => restartBody_steady) steadyAfter_restartLogic
  | paramRead p => exact .command paramRead_steady
  | paramWrite p => exact .command paramWrite_steady
  | paramReadBlock p => exact .command paramReadBlock_steady
  | paramWriteBlock p => exact .command paramWriteBlock_steady
  | prgGoto p => exact .command paramWrite_steady
  | churnClear p => exact .command paramWrite_steady
  | bootRetry p => exact .command paramWrite_steady
  | unitStatus p => exact .command unitStatusBody_steady
  | unitStart p => exact .command (unitAction_steady _)
  | unitStop p => exact .command (unitAction_steady _)
  | unitManual p => exact .command (unitAction_steady _)
  | unitAuto p => exact .command (unitAction_steady _)
  | unitClearFault p => exact .command (unitAction_steady _)
  | unitSetManualValue p => exact .command setManualBody_steady
  | channelService p => exact .command channelServiceBody_steady
  | unitList p => exact .command unitListBody_steady
  | cellRead p => exact .command cellReadBody_steady
  | cellWrite p => exact .command cellWriteBody_steady
  | cellForce p => exact .command cellForceBody_steady
  | cellRelease p => exact .command cellReleaseBody_steady
  | cellResetExtremes p => exact .command cellResetBody_steady
  | cfgBegin p => exact .command cfgBeginBody_steady
  | cfgCommit p => exact .command cfgCommitBody_steady
  | cfgRevert p => exact .command cfgRevertBody_steady
  | cfgValidationDone job => exact onward_execCfgValidationDone _ s
  | generationActivate => exact onward_execGenerationActivate s
  | cfgList p => exact .command cfgListBody_steady
  | cfgDiscard p => exact .command cfgDiscardBody_steady
  | cfgExportSuccession p => exact .command cfgExportBody_steady
  | cfgImportSuccession p => exact .command (chunkBody_steady _)
  | bankDiagRead p => exact .command bankDiagBody_steady
  | stampFifoRead p => exact .command stampFifoBody_steady
  | calRun p => exact .command calRunBody_steady
  | calRunDone job unit action => exact onward_execCalRunDone _ _ _ s
  | probeCal p => exact .command probeCalBody_steady
  | probeCalDone job sweeps => exact onward_execProbeCalDone _ _ s
  | combEnumerate p => exact .command combEnumerateBody_steady
  | combEnumerateDone job line answers => exact onward_execCombEnumerateDone _ _ _ s
  | combNodemapRead p => exact .command combNodemapBody_steady
  | recFreeze p => exact .command recFreezeBody_steady
  | recFreezeExpiry => exact .of_follows (by simp)
  | recThaw p => exact .command recThawBody_steady
  | recRead p => exact .command recReadBody_steady
  | recClear p => exact .command recClearBody_steady
  | recClearEraseDone => exact .of_follows (by simp)
  | recStatus p => exact .command recStatusBody_steady
  | replayLoad p => exact .command (chunkBody_steady _)
  | replayRun p => exact .command replayRunBody_steady
  | replayResult p => exact .command replayResultBody_steady
  | inputRecordRead p => exact .command inputRecordBody_steady
  | updBegin p => exact .command updBeginBody_steady
  | updBlock p => exact .command updBlockBody_steady
  | updBlockProgrammed matched => exact .of_follows (by simp)
  | updVerify p => exact .command updVerifyBody_steady
  | updVerifyDone job => exact onward_execUpdVerifyDone _ s
  | updActivate p => exact .host (fun hon => updActivateBody_steady hon) steadyAfter_id
  | activationPause resumeAt report => exact onward_execActivationPause _ _ s
  | updConfirm p => exact .command updConfirmBody_steady
  | updAbort p => exact .host (fun hon => updAbortBody_steady hon) steadyAfter_id
  | updStatus p => exact .command updStatusBody_steady
  | certRead p => exact .command certReadBody_steady
  | certInstall p => exact .command certInstallBody_steady
  | oemKeyInstall p => exact .command oemKeyBody_steady
  | signChallenge p => exact .command signChallengeBody_steady
  | linkStatus p => exact .command linkStatusBody_steady
  | nodeForward p => exact .command nodeForwardBody_steady
  | jobStatus p => exact .command jobStatusBody_steady
  | jobPause p => exact .command jobPauseBody_steady
  | jobResume p => exact .command jobResumeBody_steady
  | jobCancel p => exact .command jobCancelBody_steady
  | jobCheckpoint job progress => exact .of_follows (by simp)
  | jobEnd job end_ => exact onward_execJobEnd _ _ s
  | schedCancel p => exact .command schedCancelBody_steady
  | badOpcode opcode p => exact onward_execBadOpcode _ _ s
  | packetDiscard bytes => exact onward_execPacketDiscard _ s
  | uartByteGap => exact .of_follows (by simp)
  | spiRead transfer => exact onward_execSpiRead _ s
  | sessionIdleTimeout session => exact onward_execSessionIdleTimeout _ s
  | smokerCalm => exact onward_execSmokerCalm s
  | tickBoundary => exact onward_execTickBoundary s
  | scheduledCommandApply => exact onward_execScheduledCommandApply s
  | windDownComplete slot => exact onward_execWindDownComplete _ s
  | inputDeadline => exact onward_execInputDeadline s
  | substLimitReached ch => exact .of_follows (by simp)
  | binSample bin => exact .of_follows (by simp)
  | aerationHoldEnd bin => exact .of_follows (by simp)
  | fanKickEnd fan => exact .of_follows (by simp)
  | fanStartTimeout fan => exact onward_execFanStartTimeout _ s
  | fanPauseEnd fan => exact .of_follows (by simp)
  | fanSpeedFaultTimer fan => exact onward_execFanSpeedFaultTimer _ s
  | fanSupplyShort fan => exact .of_follows (by simp)
  | summaryCut => exact .of_follows (by simp)
  | summaryFlashWrite programOk healthOk => exact onward_execSummaryFlashWrite _ _ s
  | tickCommit => exact onward_execTickCommit s
  | inrecSegmentBoundary => exact onward_execInrecSegmentBoundary s
  | tickRedo fault => exact onward_execTickRedo _ s
  | lagRestart report => exact onward_execLagRestart _ s
  | eccCorrected page address => exact onward_execEccCorrected _ _ s
  | eccUncorrectableCommitted fault => exact onward_execEccUncorrectableCommitted _ s
  | sramScrub page => exact .of_follows (by simp)
  | pageRetire page => exact onward_execPageRetire _ s
  | tickCheckpoint => exact onward_execTickCheckpoint s
  | fineClockLock => exact .of_follows (by simp)
  | crystalFailSet => exact .of_follows (by simp)
  | crystalFailClear => exact .of_follows (by simp)
  | hostResetNAssert => exact .of_follows (by simp)
  | bootStart cause report => exact onward_execBootStart _ _ s
  | hostWake => exact .of_follows (by simp)
  | vinPowerOn millivolts uart => exact onward_execVinPowerOn _ _ s
  | vinPowerFail => exact onward_execVinPowerFail s
  | vinThresholdCrossing crossing millivolts => exact .of_follows (by simp)
  | vioLow inPacket => exact .of_follows (by simp)
  | vfldUvloEntry bank millivolts => exact .of_follows (by simp)
  | vfldUvloReturn bank millivolts => exact .of_follows (by simp)
  | vfldLowSet bank millivolts => exact .of_follows (by simp)
  | vfldLowClear bank millivolts => exact .of_follows (by simp)
  | vfanCrossing crossing millivolts => exact .of_follows (by simp)
  | bankInService bank report => exact .of_follows (by simp)
  | bankUplinkFrame source frame => exact .of_follows (by simp)
  | baseRefreshFrame dest intact => exact .of_follows (by simp)
  | updateRefreshFrame bank ch => exact .of_follows (by simp)
  | bankGuardExpiry bank => exact .of_follows (by simp)
  | bankGuardRelease bank => exact .of_follows (by simp)
  | bankFailure bank cause => exact .of_follows (by simp)
  | bankRestart bank passed => exact .of_follows (by simp)
  | loadClassUpdate bank unseen => exact .of_follows (by simp)
  | diEdgeAccepted ch rise fine => exact .of_follows (by simp)
  | stuckDetect ch => exact .of_follows (by simp)
  | countZeroTimeout ch => exact .of_follows (by simp)
  | doOverloadTrip ch => exact .of_follows (by simp)
  | doBackfeedTrip ch switchedOn => exact .of_follows (by simp)
  | pairImbalanceTrip ch => exact .of_follows (by simp)
  | openLoadDetect ch => exact .of_follows (by simp)
  | aoiOpenLoop ch => exact .of_follows (by simp)
  | aovCurrentLimitTrip ch => exact .of_follows (by simp)
  | doPulsePeriodEnd ch => exact .of_follows (by simp)
  | excCurrentApply ch => exact onward_execExcCurrentApply _ s
  | probeSweepStart probe => exact .of_follows (by simp)
  | sweepRecord probe meas => exact .of_follows (by simp)
  | combRoundStart line meas => exact .of_follows (by simp)
  | combRoundRecord line meas => exact .of_follows (by simp)
  | combMissLimit line position => exact .of_follows (by simp)
  | combLineShort ch => exact .of_follows (by simp)
  | combLineBackfeed ch => exact .of_follows (by simp)
  | loopInputLossFault loop => exact .of_follows (by simp)
  | profInputLossFault prof => exact .of_follows (by simp)
  | churnFadeEnd churn => exact .of_follows (by simp)
  | obsInputLossFault column => exact .of_follows (by simp)
  | programStepTimeout prog => exact .of_follows (by simp)
  | programInputLoss prog => exact .of_follows (by simp)
  | programAction prog => exact onward_execProgramAction _ s
  | chainProveTimeout chain member => exact .of_follows (by simp)
  | chainMotionLoss chain member => exact .of_follows (by simp)
  | chainPurgeEnd chain member => exact .of_follows (by simp)
  | housekeepingRound meas => exact .of_follows (by simp)
  | thermalShutdown => exact onward_execThermalShutdown s
  | thermalAbort135 site tenths => exact .of_follows (by simp)
  | phyLinkUp port amplitude => exact .of_follows (by simp)
  | phyLinkDown port => exact .of_follows (by simp)
  | xistaFrameDiscard port reason => exact .of_follows (by simp)
  | xistaRelay port => exact .of_follows (by simp)
  | helloTimer => exact .of_follows (by simp)
  | hello port msg => exact .of_follows (by simp)
  | challenge port msg => exact .of_follows (by simp)
  | proof port msg => exact .of_follows (by simp)
  | proofTimeout node => exact .of_follows (by simp)
  | admission port queenTick queenFine => exact .of_follows (by simp)
  | refuse port target reason => exact .of_follows (by simp)
  | syncReqTimer => exact .of_follows (by simp)
  | syncReq node arrivalFine replyFine => exact .of_follows (by simp)
  | syncResp q1 q2 s2 => exact .of_follows (by simp)
  | tickLengthen => exact .of_follows (by simp)
  | nodeJoin node => exact onward_execNodeJoin _ s
  | subscribe fromTick cells => exact .of_follows (by simp)
  | cells node entries => exact .of_follows (by simp)
  | remoteCellApply => exact onward_execRemoteCellApply s
  | xistaCommand cmd => exact onward_execXistaCommand _ s
  | xistaReply node reply => exact .of_follows (by simp)
  | linkReplyTimeout node => exact .of_follows (by simp)
  | xistaStatus node msg => exact .of_follows (by simp)
  | leave node reason => exact .of_follows (by simp)
  | linkLossTimeout node => exact onward_execLinkLossTimeout _ s
  | nodeLost node => exact onward_execNodeLost _ s
  | queenSmokerFeed => exact .of_follows (by simp)
  | vioReturn => exact .of_follows (by simp)
  | fanGuardExpiry => exact .of_follows (by simp)

/-- At a multiple of 65,536 ticks the boundary leaves the tick in the checkpoint. -/
theorem State.tickBoundary_marks {s : State} (hon : s.vinOn = true)
    (h : (s.tick + 1) % 65536 = 0) : s.tickBoundary.checkpoint.1 = s.tick + 1 := by
  have hticked : s.ticked.tick = s.tick + 1 := s.stays_ticked.tick
  have hmark : s.ticked.checkpoint = (s.tick + 1, s.wallDiff) :=
    State.houseClock_marks (s := { s with tick := s.tick + 1, link := { s.link with thisLong := 0 } }) h
  rcases (State.stays_tickBoundary hon).marked with hc | hc
  · exact congrArg Prod.fst (hc.trans hmark)
  · exact hc.trans hticked

end Sys2Proof.Machine
end

section
open Sys2Proof Sys2Proof.Machine

/-- Settles O5: each row moves the tick on or leaves it, and the checkpoint bounds it without power. -/
theorem tickNeverGoesBack : Obligations.TickNeverGoesBack := by
  unfold Obligations.TickNeverGoesBack
  refine ⟨fun s t hs ht => ?step, fun s hon hmult => ?boundary, fun s mv uart hon hmv => ?power, fun s hoff => ?off⟩
  case step =>
    unfold step at ht
    split at ht
    · cases ht
      exact ⟨le_rfl, hs⟩
    case h_2 c rest _ =>
      obtain ⟨u, hu, honward⟩ := exec_onward c { s with pending := rest }
      rw [hu] at ht
      cases ht
      exact honward hs
  case boundary => exact ⟨_, rfl, State.tickBoundary_marks hon hmult⟩
  case power =>
    obtain ⟨htick, hfail, hcheck, _⟩ := State.vinFail_on hon
    obtain ⟨hback, _⟩ := State.vinReturn_off hfail uart
    refine ⟨_, _, rfl, hcheck, congrArg Host.Outcome.next (if_pos hmv), hback, ?_⟩
    rw [hback, hcheck]
    omega
  case off => exact congrArg Host.Outcome.next (by simp [State.tickBoundary, hoff])

end

section
/-! # The timers of channels -/

namespace Sys2Proof.Machine

/-- A channel flag that is set stands in the channel's flags. -/
theorem State.chanFlag_flags (s : State) (ch bit : Nat) :
    ((s.chanFlag ch bit true).fch ch).flags = (s.fch ch).flags ||| BitVec.ofNat 16 (2 ^ bit) := by
  unfold State.chanFlag State.chanFlagAt
  dsimp only
  split <;> simp [State.fch, State.setFch, State.setBank, Tab.get_put, setBit16]

/-- A channel flag is a matter of the banks and of the field's channels. -/
theorem State.chanFlag_eq (s : State) (ch bit : Nat) (on : Bool) :
    s.chanFlag ch bit on =
      { s with banks := (s.chanFlag ch bit on).banks, fieldChans := (s.chanFlag ch bit on).fieldChans } := by
  unfold State.chanFlag State.chanFlagAt
  dsimp only
  split <;> rfl

/-- A row that records a condition of a channel and sets its flag changes no more than that. -/
theorem State.chanFlag_modWork (s : State) (f : Plant → Plant) (ch bit : Nat) :
    ((s.modWork f).chanFlag ch bit true).work = f s.work ∧
      (((s.modWork f).chanFlag ch bit true).fch ch).flags = (s.fch ch).flags ||| BitVec.ofNat 16 (2 ^ bit) ∧
      (s.modWork f).chanFlag ch bit true = { s with
        work := ((s.modWork f).chanFlag ch bit true).work
        banks := ((s.modWork f).chanFlag ch bit true).banks
        fieldChans := ((s.modWork f).chanFlag ch bit true).fieldChans } := by
  have heq := State.chanFlag_eq (s.modWork f) ch bit true
  have hwork : ((s.modWork f).chanFlag ch bit true).work = f s.work := congrArg State.work heq
  refine ⟨hwork, State.chanFlag_flags _ ch bit, ?_⟩
  rw [hwork]
  exact heq

end Sys2Proof.Machine
end

section
open Sys2Proof Sys2Proof.Machine

/-- Settles O43: each row is its condition with the change that the condition brings. -/
theorem channelTimers : Obligations.ChannelTimers := by
  unfold Obligations.ChannelTimers
  refine ⟨fun s ch => rfl, fun s ch hlim hrun => ?stuck, fun s ch h => ?notStuck, fun s ch => rfl,
    fun s ch hen hrun => ?openLoad, fun s ch h => ?notOpen⟩
  case stuck => exact ⟨_, congrArg Host.Outcome.next (if_pos ⟨hlim, hrun⟩), State.chanFlag_modWork s _ ch.val 0⟩
  case notStuck => exact congrArg Host.Outcome.next (if_neg (by omega))
  case openLoad => exact ⟨_, congrArg Host.Outcome.next (if_pos ⟨hen, hrun⟩), State.chanFlag_modWork s _ ch.val 6⟩
  case notOpen => exact congrArg Host.Outcome.next (if_neg (by omega))

end

section
/-! # Restarts of the logic domain -/

namespace Sys2Proof.Machine

/-- What a stop without a fallback leaves: the start that is due, and nothing of the host's side. -/
theorem State.stopFor_leaves {s : State} (closed cause : Nat) (h : s.upd.fallbackDue = false) :
    (s.stopFor closed cause).boot.startDue = some cause ∧ (s.stopFor closed cause).host.alive = false ∧
      (s.stopFor closed cause).host.sessions = [] ∧ (s.stopFor closed cause).jobs = [] ∧
      (s.stopFor closed cause).sched = [] ∧ (s.stopFor closed cause).tick = s.tick ∧
      (s.stopFor closed cause).id = s.id := by
  have hledger := State.ledger_stopLogic s closed
  rw [State.stopFor_eq closed cause h]
  exact ⟨rfl, congrArg Ledger.alive hledger, congrArg Ledger.sessions hledger, congrArg Ledger.jobs hledger,
    congrArg Ledger.sched hledger, congrArg Ledger.tick hledger, State.id_stopLogic s closed⟩

end Sys2Proof.Machine
end

section
open Sys2Proof Sys2Proof.Machine

/-- Settles O37: under its guard each row is the stop followed by the start. -/
theorem lagAndRedoRestarts : Obligations.LagAndRedoRestarts := by
  unfold Obligations.LagAndRedoRestarts
  refine ⟨fun s report hruns hopen hlag => ?lag, fun s report hruns heval hopen hredo => ?redo,
    fun s report hon hpower halive => ?system, fun s cause hback => State.stopFor_leaves 0 cause hback,
    fun s report hdone => ?done⟩
  case lag => exact if_pos (by simp [hruns, hopen, hlag])
  case redo =>
    have hrest : ¬ s.sram.redoRun < 2 := by omega
    exact (if_neg (by simp [hruns, heval, hopen])).trans (if_neg hrest)
  case system =>
    have hlogic : s.logicPowered = true := by simp [State.logicPowered, hon, hpower]
    show execEccUncorrectableCommitted ⟨none, .system report⟩ s = _
    simp [execEccUncorrectableCommitted, hlogic, halive, State.restartAfter, startCode]
  case done => exact if_neg (by simp [hdone])

end

section
/-! # The redo of a tick -/

namespace Sys2Proof.Machine

/-! ## What a failing page and a discarded cut change -/

theorem State.pageFails_eq (s : State) (p : Nat) : s.pageFails p = { s with sram := (s.pageFails p).sram } := by
  unfold State.pageFails
  split <;> rfl

/-- A failing page is noted in the SRAM's record, which keeps all else. -/
theorem State.pageFails_sram (s : State) (p : Nat) :
    (s.pageFails p).sram = { s.sram with retireDue := (s.pageFails p).sram.retireDue } := by
  unfold State.pageFails
  split <;> rfl

theorem State.mem_retireDue_pageFails {s : State} {p : Nat} (h : s.sram.retired.contains p = false) :
    p ∈ (s.pageFails p).sram.retireDue := by
  have hp : s.pageFails p =
      { s with sram := { s.sram with retireDue := insertSorted s.sram.retireDue p } } := if_neg (by rw [h]; decide)
  rw [hp]
  exact mem_insertSorted.mpr (.inl rfl)

theorem State.uncut_eq (s : State) : s.uncut = { s with recorder := s.uncut.recorder } := by
  unfold State.uncut
  split
  · split <;> rfl
  · rfl

/-- A redo evaluates the committed copy with its draws, beside another recorder and another record; of what it finds
outside the working copy it changes those two and the counts of the redo. -/
theorem State.redo_eq (s : State) : ∃ (recorder : RecStore) (found left : InRec) (again : Plant),
    again = ({ s with recorder := recorder, inrec := found, work := s.base, draws := s.drawsAt } : State).evaluate.work ∧
    s.redo = { s with
      recorder := recorder
      inrec := left
      work := again
      sram := { s.sram with
        redoCount := sat32 (s.sram.redoCount + 1), redoTick := s.workTick, redoRun := s.sram.redoRun + 1 } } := by
  unfold State.redo
  rw [s.uncut_eq]
  exact ⟨_, _, _, _, rfl, rfl⟩

end Sys2Proof.Machine
end

section
open Sys2Proof Sys2Proof.Machine

/-- Settles O36: the redo of the state in which the page, if any, is noted as failing. -/
theorem redoStartsFromCommitted : Obligations.RedoStartsFromCommitted := by
  unfold Obligations.RedoStartsFromCommitted
  intro s page report hruns heval hopen hrun
  obtain ⟨m, hm, hcount, hrunm, hdue⟩ : ∃ m : Sram, page.elim s (fun p => s.pageFails p.val) = { s with sram := m } ∧
      m.redoCount = s.sram.redoCount ∧ m.redoRun = s.sram.redoRun ∧
      ∀ p, page = some p → s.sram.retired.contains p.val = false → p.val ∈ m.retireDue := by
    cases page with
    | none => exact ⟨s.sram, rfl, rfl, rfl, fun p hp => by cases hp⟩
    | some p =>
      refine ⟨(s.pageFails p.val).sram, s.pageFails_eq p.val, ?_, ?_, fun q hq => ?_⟩
      · rw [s.pageFails_sram]
      · rw [s.pageFails_sram]
      · cases hq
        exact State.mem_retireDue_pageFails
  have hrow : exec (.tickRedo ⟨page, report⟩) s = .next ({ s with sram := m } : State).redo := by
    show execTickRedo ⟨page, report⟩ s = _
    unfold execTickRedo
    dsimp only
    rw [hm, if_neg (by simp [hruns, heval, hopen]), if_pos (by rw [hrunm]; exact hrun)]
  obtain ⟨recorder, found, left, again, hagain, heq⟩ := State.redo_eq { s with sram := m }
  refine ⟨_, hrow.trans (congrArg Host.Outcome.next heq), rfl, rfl, rfl, rfl, rfl, rfl,
    congrArg (fun n => sat32 (n + 1)) hcount, rfl, congrArg (· + 1) hrunm, rfl, rfl, hdue, rfl, ?_⟩
  exact ⟨{ s with recorder := recorder, inrec := found, sram := m }, rfl, hagain⟩

end

section
/-! # Where a tick stands, and the operations that leave it (R94 to R96, R379)

The tick of work, the phases it has passed, the committed copies, the SRAM's pages and the stored generations: `Turn`
holds them. The operations below leave it; those of a boundary leave at least `Turn.still` of it, or its phase. -/

namespace Sys2Proof.Machine

/-- Where the tick of work stands, with the committed copies, the SRAM and the stored generations. -/
structure Turn where
  workTick : Nat
  evaluated : Bool
  committed : Bool
  deadlineAt : Nat
  prev : Plant
  base : Plant
  sram : Sram
  gens : List Generation
  activeGen : Nat
  awaiting : Option Awaiting

def State.turn (s : State) : Turn :=
  ⟨s.workTick, s.evaluated, s.committed, s.deadlineAt, s.prev, s.base, s.sram, s.gens, s.activeGen, s.awaiting⟩

/-- The phase of the tick of work, and the stored generations. -/
structure Still where
  phase : Nat × Bool × Bool × Nat × Plant
  gens : List Generation
  activeGen : Nat
  awaiting : Option Awaiting

/-- What of the turn also the operations on units, cells and the link leave. -/
def Turn.still (t : Turn) : Still :=
  ⟨(t.workTick, t.evaluated, t.committed, t.deadlineAt, t.prev), t.gens, t.activeGen, t.awaiting⟩

@[simp] theorem State.turn_raise (s : State) (cause handle code data : Nat) :
    (s.raise cause handle code data).turn = s.turn := (rfl)

@[simp] theorem State.turn_ite (c : Prop) [Decidable c] (s t : State) :
    (if c then s else t).turn = if c then s.turn else t.turn := apply_ite State.turn c s t

@[simp] theorem turn_foldl {α : Type} {f : State → α → State} (h : ∀ s a, (f s a).turn = s.turn) (l : List α)
    (s : State) :
    (l.foldl f s).turn = s.turn := foldl_keeps State.turn h l s

@[simp] theorem State.turn_mk (pending tick checkpoint fineValid wallDiff wallStale vinOn power id host smoker
    sched jobs gens topNumber activeGen awaiting pendGen importBuf order prev base work evaluated committed workTick
    inbufs deadlineAt skip banks fieldChans fprobes fcombs fanDom recorder inrec sram upd link boot hk draws drawsAt) :
    (State.mk pending tick checkpoint fineValid wallDiff wallStale vinOn power id host smoker sched jobs
    gens topNumber activeGen awaiting pendGen importBuf order prev base work evaluated committed workTick inbufs
    deadlineAt skip banks fieldChans fprobes fcombs fanDom recorder inrec sram upd link boot hk draws drawsAt).turn =
      ⟨workTick, evaluated, committed, deadlineAt, prev, base, sram, gens, activeGen, awaiting⟩ := (rfl)

@[simp] theorem turn_eta (s : State) :
    Turn.mk s.workTick s.evaluated s.committed s.deadlineAt s.prev s.base s.sram s.gens s.activeGen s.awaiting =
      s.turn := (rfl)

@[simp] theorem Turn.still_ite (c : Prop) [Decidable c] (t u : Turn) :
    (if c then t else u).still = if c then t.still else u.still := apply_ite Turn.still c t u

@[simp] theorem Still.phase_ite (c : Prop) [Decidable c] (t u : Still) :
    (if c then t else u).phase = if c then t.phase else u.phase := apply_ite Still.phase c t u

@[simp] theorem still_foldl {α : Type} {f : State → α → State} (h : ∀ s a, (f s a).turn.still = s.turn.still)
    (l : List α) (s : State) : (l.foldl f s).turn.still = s.turn.still := foldl_keeps (fun s => s.turn.still) h l s

@[simp] theorem Turn.still_mk (workTick evaluated committed deadlineAt prev base sram gens activeGen awaiting) :
    (Turn.mk workTick evaluated committed deadlineAt prev base sram gens activeGen awaiting).still =
      ⟨(workTick, evaluated, committed, deadlineAt, prev), gens, activeGen, awaiting⟩ := (rfl)

@[simp] theorem phase_eta (s : State) :
    (s.workTick, s.evaluated, s.committed, s.deadlineAt, s.prev) = s.turn.still.phase := (rfl)

@[simp] theorem still_eta (s : State) :
    Still.mk s.turn.still.phase s.gens s.activeGen s.awaiting = s.turn.still := (rfl)

/-! ## Draws, events and writes to the state -/

@[simp] theorem State.turn_drawFree (s : State) : (s.drawFree).2.turn = s.turn := (rfl)
@[simp] theorem State.turn_modWork (s : State) (f : Plant → Plant) : (s.modWork f).turn = s.turn := (rfl)
@[simp] theorem State.still_modPlants (s : State) (f : Plant → Plant) :
    (s.modPlants f).turn.still = s.turn.still := (rfl)
@[simp] theorem State.turn_modUnit (s : State) (slot : Nat) (f : UnitRec → UnitRec) :
    (s.modUnit slot f).turn = s.turn := (rfl)
@[simp] theorem State.turn_setBank (s : State) (b : Nat) (x : Bank) : (s.setBank b x).turn = s.turn := (rfl)
@[simp] theorem State.turn_setFch (s : State) (n : Nat) (x : FieldChan) : (s.setFch n x).turn = s.turn := (rfl)
@[simp] theorem State.turn_setFprobe (s : State) (n : Nat) (x : FieldProbe) :
    (s.setFprobe n x).turn = s.turn := (rfl)
@[simp] theorem State.turn_setFcomb (s : State) (n : Nat) (x : FieldComb) :
    (s.setFcomb n x).turn = s.turn := (rfl)
@[simp] theorem State.turn_setInputs (s : State) (t : Nat) (x : InBuf) : (s.setInputs t x).turn = s.turn := (rfl)
@[simp] theorem State.turn_detect (s : State) (slot code : Nat) : (s.detect slot code).turn = s.turn := (rfl)
@[simp] theorem State.turn_writeCell (s : State) (slot ref : Nat) (type : Nat) (value : Val) (stamp : Nat)
    (conds : BitVec 8) :
    (s.writeCell slot ref type value stamp conds).turn = s.turn := by
  simp [State.writeCell]
@[simp] theorem State.turn_writeF (s : State) (slot ref : Nat) (x : F32) (stamp : Nat) (conds : BitVec 8) :
    (s.writeF slot ref x stamp conds).turn = s.turn := by simp [State.writeF]
@[simp] theorem State.turn_noteInputs (s : State) (slot : Nat) (subst unusable : Bool) :
    (s.noteInputs slot subst unusable).turn = s.turn := (rfl)
@[simp] theorem State.turn_newBaud (s : State) : (s.newBaud).turn = s.turn := by
  unfold State.newBaud
  split <;> rfl
@[simp] theorem State.turn_baudChange (s : State) (r : Reply) :
    (s.baudChange r).turn = s.turn := by simp [State.baudChange]
@[simp] theorem State.turn_send (s : State) (r : Reply) : (s.send r).turn = s.turn := by simp [State.send]
@[simp] theorem State.turn_note (s : State) (type ref : Nat) (payload : List Byte) :
    (s.note type ref payload).turn = s.turn := (rfl)

/-! ## The field side -/

@[simp] theorem State.turn_bankFlag (s : State) (b bit : Nat) (on : Bool) :
    (s.bankFlag b bit on).turn = s.turn := by simp [State.bankFlag]
@[simp] theorem State.turn_bankMark (s : State) (b bit : Nat) :
    (s.bankMark b bit).turn = s.turn := by simp [State.bankMark]
@[simp] theorem State.turn_chanFlagAt (s : State) (ch bit : Nat) (on : Bool) (t : Nat) :
    (s.chanFlagAt ch bit on t).turn = s.turn := by simp [State.chanFlagAt]
@[simp] theorem State.turn_chanFlag (s : State) (ch bit : Nat) (on : Bool) :
    (s.chanFlag ch bit on).turn = s.turn := by simp [State.chanFlag]
@[simp] theorem State.turn_chanMark (s : State) (ch bit : Nat) :
    (s.chanMark ch bit).turn = s.turn := by simp [State.chanMark]
@[simp] theorem State.turn_vfldFlags (s : State) (b : Nat) :
    (s.vfldFlags b).turn = s.turn := by simp [State.vfldFlags]
@[simp] theorem State.turn_latchStatus (s : State) (ch t : Nat) :
    (s.latchStatus ch t).turn = s.turn := by simp [State.latchStatus]
@[simp] theorem State.still_beginSettle (s : State) (ch windows t : Nat) :
    (s.beginSettle ch windows t).turn.still = s.turn.still := by simp [State.beginSettle]
@[simp] theorem State.turn_endWindow (s : State) (ch t : Nat) :
    (s.endWindow ch t).turn = s.turn := by simp [State.endWindow]
@[simp] theorem State.turn_applyExc (s : State) (ch t : Nat) :
    (s.applyExc ch t).turn = s.turn := by simp [State.applyExc]
@[simp] theorem State.turn_beginWindow (s : State) (ch t : Nat) :
    (s.beginWindow ch t).turn = s.turn := by simp [State.beginWindow]
@[simp] theorem State.turn_latchDi (s : State) (ch t : Nat) : (s.latchDi ch t).turn = s.turn := (rfl)
@[simp] theorem State.turn_latchStamps (s : State) (b : Nat) :
    (s.latchStamps b).turn = s.turn := by simp [State.latchStamps]
@[simp] theorem State.turn_holdStamps (s : State) (b : Nat) :
    (s.holdStamps b).turn = s.turn := by simp [State.holdStamps]
@[simp] theorem State.turn_railStep (s : State) (b : Nat) :
    (s.railStep b).turn = s.turn := by simp [State.railStep]
@[simp] theorem State.turn_fieldFlags (s : State) (ch : Nat) :
    (s.fieldFlags ch).turn = s.turn := by simp [State.fieldFlags]
@[simp] theorem State.turn_bankFlags (s : State) (b : Nat) :
    (s.bankFlags b).turn = s.turn := by simp [State.bankFlags]
@[simp] theorem State.turn_applyLoad (s : State) (t b : Nat) : (s.applyLoad t b).turn = s.turn := by
  unfold State.applyLoad
  dsimp only
  split <;> simp
@[simp] theorem State.turn_fieldBoundary (s : State) (t b : Nat) :
    (s.fieldBoundary t b).turn = s.turn := by simp [State.fieldBoundary]
@[simp] theorem State.turn_windowBoundary (s : State) (t b : Nat) :
    (s.windowBoundary t b).turn = s.turn := by simp [State.windowBoundary]

/-! ## Channels -/

@[simp] theorem State.turn_gather (s : State) (ch : Nat) : (s.gather ch).turn = s.turn := by simp [State.gather]
@[simp] theorem State.turn_countSubst (s : State) (ch : Nat) :
    (s.countSubst ch).turn = s.turn := by simp [State.countSubst]
@[simp] theorem State.turn_openLoadRecord (s : State) (ch : Nat) : (s.openLoadRecord ch).turn = s.turn := by
  unfold State.openLoadRecord
  dsimp only
  split <;> simp
@[simp] theorem State.turn_recordFaults (s : State) (ch : Nat) : (s.recordFaults ch).turn = s.turn := by
  unfold State.recordFaults
  dsimp only
  repeat' split
  all_goals simp
@[simp] theorem State.turn_evalDi (s : State) (ch : Nat) : (s.evalDi ch).turn = s.turn := by
  unfold State.evalDi
  dsimp only
  split <;> simp
@[simp] theorem State.turn_evalCount (s : State) (ch : Nat) : (s.evalCount ch).turn = s.turn := by
  unfold State.evalCount
  dsimp only
  split <;> simp
@[simp] theorem State.turn_evalSource (s : State) (ch : Nat) : (s.evalSource ch).turn = s.turn := (rfl)
@[simp] theorem State.turn_evalDo (s : State) (ch : Nat) : (s.evalDo ch).turn = s.turn := by
  unfold State.evalDo
  dsimp only
  split <;> simp
@[simp] theorem State.turn_evalAo (s : State) (ch : Nat) : (s.evalAo ch).turn = s.turn := by
  unfold State.evalAo
  dsimp only
  split <;> simp
@[simp] theorem State.turn_selectPaths (s : State) (ch : Nat) :
    (s.selectPaths ch).2.turn = s.turn := by simp [State.selectPaths]
@[simp] theorem State.turn_evalAi (s : State) (ch : Nat) : (s.evalAi ch).turn = s.turn := by
  unfold State.evalAi
  dsimp only
  split <;> simp
@[simp] theorem State.turn_selectRes (s : State) (ch : Nat) : (s.selectRes ch).turn = s.turn := by
  unfold State.selectRes
  dsimp only
  split <;> simp
@[simp] theorem State.turn_writeOffline (s : State) (slot ref type t : Nat) :
    (s.writeOffline slot ref type t).turn = s.turn := by simp [State.writeOffline]
@[simp] theorem State.turn_evalRes (s : State) (ch : Nat) : (s.evalRes ch).turn = s.turn := by
  unfold State.evalRes
  dsimp only
  repeat' split
  all_goals simp

/-! ## Probes -/

@[simp] theorem State.still_detectNow (s : State) (slot code : Nat) :
    (s.detectNow slot code).turn.still = s.turn.still := (rfl)
@[simp] theorem State.still_engineFound (s : State) (b : Nat) (ok : Bool) :
    (s.engineFound b ok).turn.still = s.turn.still := by simp [State.engineFound]
@[simp] theorem State.turn_takeSweep (s : State) (p w : Nat) : (s.takeSweep p w).turn = s.turn := by
  unfold State.takeSweep
  dsimp only
  split <;> simp
@[simp] theorem State.turn_sweepMember (s : State) (ch t : Nat) (r : Conv) :
    (s.sweepMember ch t r).turn = s.turn := by
  unfold State.sweepMember
  refine turn_foldl (fun s p => ?_) _ _
  dsimp only
  split
  · split
    · split <;> simp
    · rfl
  · rfl
@[simp] theorem State.turn_evalDiel (s : State) (ch : Nat) : (s.evalDiel ch).turn = s.turn := by
  unfold State.evalDiel
  dsimp only
  split <;> simp
@[simp] theorem State.turn_evalProbe (s : State) (p : Nat) : (s.evalProbe p).turn = s.turn := by
  unfold State.evalProbe
  dsimp only
  repeat' split
  all_goals simp

/-! ## Comb lines -/

@[simp] theorem State.turn_abandonRound (s : State) (l : Nat) : (s.abandonRound l).turn = s.turn := by
  unfold State.abandonRound
  dsimp only
  split <;> simp
@[simp] theorem State.turn_dropRound (s : State) (l : Nat) : (s.dropRound l).turn = s.turn := (rfl)
@[simp] theorem State.turn_checkRounds (s : State) : (s.checkRounds).turn = s.turn := by simp [State.checkRounds]
@[simp] theorem State.turn_takeRound (s : State) (l w : Nat) : (s.takeRound l w).turn = s.turn := by
  unfold State.takeRound
  dsimp only
  split <;> simp
@[simp] theorem State.turn_roundMember (s : State) (ch t : Nat) (r : Conv) :
    (s.roundMember ch t r).turn = s.turn := by simp [State.roundMember]
@[simp] theorem State.turn_feedCheck (s : State) (ch : Nat) : (s.feedCheck ch).turn = s.turn := by
  unfold State.feedCheck
  split <;> simp
@[simp] theorem State.turn_noteRound (s : State) (l : Nat) (r : RoundRec) :
    (s.noteRound l r).turn = s.turn := by simp [State.noteRound]
@[simp] theorem State.turn_evalCombChan (s : State) (ch : Nat) : (s.evalCombChan ch).turn = s.turn := by
  unfold State.evalCombChan
  dsimp only
  split <;> simp
@[simp] theorem State.turn_nodeOffline (s : State) (l pos t : Nat) :
    (s.nodeOffline l pos t).turn = s.turn := by simp [State.nodeOffline]
@[simp] theorem State.turn_nodeValues (s : State) (l : Nat) (e : MapEntry) (n : NodeEntry) (clamp : Bool) (t : Nat) :
    (s.nodeValues l e n clamp t).turn = s.turn := by simp [State.nodeValues]
@[simp] theorem State.turn_raiseMap (s : State) (l : Nat) (now : List Nat) :
    (s.raiseMap l now).turn = s.turn := by simp [State.raiseMap]
@[simp] theorem State.turn_nodeMissed (s : State) (l limit pos t : Nat) :
    (s.nodeMissed l limit pos t).turn = s.turn := by simp [State.nodeMissed]
@[simp] theorem State.turn_evalNode (s : State) (l t limit : Nat) (clamp : Bool) (e : MapEntry) (n : NodeEntry) :
    (s.evalNode l t limit clamp e n).turn = s.turn := by simp [State.evalNode]
@[simp] theorem State.turn_evalComb (s : State) (l : Nat) : (s.evalComb l).turn = s.turn := by
  unfold State.evalComb
  dsimp only
  split <;> simp

/-! ## Loops -/

@[simp] theorem State.turn_writeLoop (s : State) (n : Nat) (u : F32) (uc : BitVec 8) (e : F32) (ec : BitVec 8)
    (r : F32) (rc : BitVec 8) :
    (s.writeLoop n u uc e ec r rc).turn = s.turn := by
  simp [State.writeLoop]
@[simp] theorem State.turn_readLoop (s : State) (n : Nat) (mods : LoopMods) :
    (s.readLoop n mods).2.turn = s.turn := by
  unfold State.readLoop
  dsimp only
  split <;> simp
@[simp] theorem State.turn_stepLoop (s : State) (n : Nat) : (s.stepLoop n).turn = s.turn := by
  unfold State.stepLoop
  dsimp only
  split <;> simp
@[simp] theorem State.turn_windLoop (s : State) (n : Nat) : (s.windLoop n).turn = s.turn := by
  unfold State.windLoop
  dsimp only
  repeat' split
  all_goals simp
@[simp] theorem State.turn_evalLoop (s : State) (n : Nat) : (s.evalLoop n).turn = s.turn := by
  unfold State.evalLoop
  split <;> simp
@[simp] theorem State.turn_startLoop (s : State) (n : Nat) : (s.startLoop n).turn = s.turn := (rfl)
@[simp] theorem State.turn_evalOverride (s : State) (h : Nat) : (s.evalOverride h).turn = s.turn := by
  unfold State.evalOverride
  dsimp only
  split <;> simp
@[simp] theorem State.turn_evalProf (s : State) (n : Nat) :
    (s.evalProf n).turn = s.turn := by simp [State.evalProf]
@[simp] theorem State.turn_startProf (s : State) (n : Nat) : (s.startProf n).turn = s.turn := (rfl)
@[simp] theorem State.turn_evalChurn (s : State) (n : Nat) :
    (s.evalChurn n).turn = s.turn := by simp [State.evalChurn]
@[simp] theorem State.turn_startChurn (s : State) (n : Nat) : (s.startChurn n).turn = s.turn := (rfl)

/-! ## Profiles, churns, observers, programs, chains and bins -/

@[simp] theorem State.turn_obsUnready (s : State) (n : Nat) (more : BitVec 8) :
    (s.obsUnready n more).turn = s.turn := by simp [State.obsUnready]
@[simp] theorem State.turn_evalObs (s : State) (n : Nat) : (s.evalObs n).turn = s.turn := by simp [State.evalObs]
@[simp] theorem State.turn_startObs (s : State) (n : Nat) : (s.startObs n).turn = s.turn := (rfl)
@[simp] theorem State.turn_advanceProg (s : State) (n : Nat) (stopping : Bool) (st : PrgStep) (p : ProgState) :
    (s.advanceProg n stopping st p).turn = s.turn := by simp [State.advanceProg]
@[simp] theorem State.turn_writeProg (s : State) (n : Nat) :
    (s.writeProg n).turn = s.turn := by simp [State.writeProg]
@[simp] theorem State.turn_progLoss (s : State) (n : Nat) (p : ProgState) :
    (s.progLoss n p).2.turn = s.turn := by simp [State.progLoss, apply_ite Prod.snd]
@[simp] theorem State.turn_evalProg (s : State) (n : Nat) :
    (s.evalProg n).turn = s.turn := by simp [State.evalProg]
@[simp] theorem State.turn_startProg (s : State) (n : Nat) : (s.startProg n).turn = s.turn := (rfl)
@[simp] theorem State.turn_writeChain (s : State) (n : Nat) :
    (s.writeChain n).turn = s.turn := by simp [State.writeChain]
@[simp] theorem State.turn_chainDone (s : State) (n : Nat) :
    (s.chainDone n).turn = s.turn := by simp [State.chainDone]
@[simp] theorem State.turn_evalChain (s : State) (n : Nat) :
    (s.evalChain n).turn = s.turn := by simp [State.evalChain]
@[simp] theorem State.turn_startChain (s : State) (n : Nat) : (s.startChain n).turn = s.turn := (rfl)
@[simp] theorem State.turn_haltChain (s : State) (n : Nat) :
    (s.haltChain n).turn = s.turn := by simp [State.haltChain]
@[simp] theorem State.turn_binSample (s : State) (n : Nat) : (s.binSample n).turn = s.turn := (rfl)
@[simp] theorem State.turn_evalBin (s : State) (n : Nat) : (s.evalBin n).turn = s.turn := by simp [State.evalBin]
@[simp] theorem State.turn_startBin (s : State) (n : Nat) : (s.startBin n).turn = s.turn := (rfl)

/-! ## Fans -/

@[simp] theorem State.turn_gatherFan (s : State) (n : Nat) : (s.gatherFan n).turn = s.turn := by
  unfold State.gatherFan
  split <;> simp
@[simp] theorem State.turn_evalFan (s : State) (n : Nat) : (s.evalFan n).turn = s.turn := by
  unfold State.evalFan
  extract_lets slot st f recs f1 f2 off held w sup f3 seq f4 applied f5 s1 s2 s3 s4 t s5 s6 s7
  split
  · have hcode : s2.turn = s.turn := by
      unfold s2
      split <;> simp [s1]
    simp [s3, s4, s5, s6, s7, hcode]
  · rfl
@[simp] theorem State.turn_startFan (s : State) (n : Nat) : (s.startFan n).turn = s.turn := (rfl)
@[simp] theorem State.turn_resumeFan (s : State) (n : Nat) : (s.resumeFan n).turn = s.turn := (rfl)

/-! ## The link -/

@[simp] theorem State.turn_modLink (s : State) (f : Link → Link) : (s.modLink f).turn = s.turn := (rfl)
@[simp] theorem State.turn_setPeer (s : State) (n : Nat) (p : Peer) : (s.setPeer n p).turn = s.turn := (rfl)
@[simp] theorem State.turn_modPort (s : State) (i : Nat) (f : Port → Port) :
    (s.modPort i f).turn = s.turn := (rfl)
@[simp] theorem State.turn_raiseLink (s : State) (handle node reason : Nat) :
    (s.raiseLink handle node reason).turn = s.turn := by simp [State.raiseLink]
@[simp] theorem State.turn_sendMsg (s : State) (port type node : Nat) (up : Bool) (peer : Option Nat)
    (body : List Byte) :
    (s.sendMsg port type node up peer body).turn = s.turn := by
  unfold State.sendMsg
  split <;> simp
@[simp] theorem State.turn_sendPeer (s : State) (n type : Nat) (body : List Byte) :
    (s.sendPeer n type body).turn = s.turn := by simp [State.sendPeer]
@[simp] theorem State.turn_actOnNode (s : State) (session seq : BitVec 16) (opcode : Nat) (auth : Bool)
    (etick : Option Nat) (n : Nat) :
    (s.actOnNode session seq opcode auth etick n).turn = s.turn := by
  simp [State.actOnNode]
@[simp] theorem State.turn_sendSubscribe (s : State) (n : Nat) :
    (s.sendSubscribe n).turn = s.turn := by simp [State.sendSubscribe]
@[simp] theorem State.turn_nodeChanged (s : State) (n : Nat) :
    (s.nodeChanged n).turn = s.turn := by simp [State.nodeChanged]
@[simp] theorem State.turn_offlineNode (s : State) (n : Nat) : (s.offlineNode n).turn = s.turn := (rfl)
@[simp] theorem State.turn_loseQueen (s : State) : (s.loseQueen).turn = s.turn := by simp [State.loseQueen]
@[simp] theorem State.turn_loseNode (s : State) (n : Nat) :
    (s.loseNode n).turn = s.turn := by simp [State.loseNode]
@[simp] theorem State.turn_applySubscribe (s : State) :
    (s.applySubscribe).turn = s.turn := by simp [State.applySubscribe]
@[simp] theorem State.turn_sendCells (s : State) : (s.sendCells).turn = s.turn := by simp [State.sendCells]
@[simp] theorem State.turn_applyRemote (s : State) : (s.applyRemote).turn = s.turn := by simp [State.applyRemote]
@[simp] theorem State.turn_subscribeCells (s : State) :
    (s.subscribeCells).turn = s.turn := by simp [State.subscribeCells]
@[simp] theorem State.turn_joinNode (s : State) (n : Nat) : (s.joinNode n).turn = s.turn := by
  unfold State.joinNode
  dsimp only
  split <;> simp
@[simp] theorem State.turn_joinSelf (s : State) : (s.joinSelf).turn = s.turn := by
  unfold State.joinSelf
  dsimp only
  split <;> simp
@[simp] theorem State.turn_sendLeave (s : State) (n reason : Nat) :
    (s.sendLeave n reason).turn = s.turn := by simp [State.sendLeave]
@[simp] theorem State.turn_portDown (s : State) (i : Nat) :
    (s.portDown i).turn = s.turn := by simp [State.portDown]

/-! ## Starts -/

@[simp] theorem State.turn_modBoot (s : State) (f : Boot → Boot) : (s.modBoot f).turn = s.turn := (rfl)

/-! ## Jobs -/

/-- Jobs and what they touch are no matter of the turn. -/
theorem turn_of_jobs {s t : State} (h : t.besideJobs = s.besideJobs) : t.turn = s.turn :=
  (show t.besideJobs.turn = s.besideJobs.turn by rw [h])

@[simp] theorem State.turn_endChange (s : State) (j : Job) (st : JobState) (status detail : Nat) (data : List Byte) :
    (s.endChange j st status detail data).turn = s.turn := turn_of_jobs (by simp)
@[simp] theorem State.turn_dispatchJobs (s : State) : s.dispatchJobs.turn = s.turn := turn_of_jobs (by simp)
@[simp] theorem State.turn_releaseSender (s : State) (sid : BitVec 16) (who : UpdOwner) :
    (s.releaseSender sid who).turn = s.turn := turn_of_jobs (by simp)
@[simp] theorem State.turn_recOverwritten (s : State) (gone : List (List Byte)) :
    (s.recOverwritten gone).turn = s.turn := turn_of_jobs (by simp)
@[simp] theorem State.turn_modJob (s : State) (k : Nat) (f : Job → Job) : (s.modJob k f).turn = s.turn := (rfl)

/-! ## The recorder -/

@[simp] theorem State.turn_sampleHist (s : State) (h : Nat) :
    (s.sampleHist h).turn = s.turn := by simp [State.sampleHist]
@[simp] theorem State.turn_evalRec (s : State) : (s.evalRec).turn = s.turn := by simp [State.evalRec]
@[simp] theorem State.turn_openInterval (s : State) (t : Nat) : (s.openInterval t).turn = s.turn := (rfl)
@[simp] theorem State.turn_closeInterval (s : State) : (s.closeInterval).turn = s.turn := (rfl)
@[simp] theorem State.turn_endFreeze (s : State) (expiry : Bool) :
    (s.endFreeze expiry).turn = s.turn := by simp [State.endFreeze]
@[simp] theorem State.turn_freezeExpiry (s : State) :
    (s.freezeExpiry).turn = s.turn := by simp [State.freezeExpiry]
@[simp] theorem State.turn_cutSummary (s : State) (c : Content) (tEnd : Nat) (more : BitVec 8) :
    (s.cutSummary c tEnd more).turn = s.turn := by simp [State.cutSummary]
@[simp] theorem State.turn_recExtremes (s : State) (t : Nat) :
    (s.recExtremes t).turn = s.turn := by simp [State.recExtremes]

/-! ## Generations -/

/-! ## The input record -/

@[simp] theorem State.turn_append (s : State) (es : List (List Byte)) :
    (s.append es).turn = s.turn := by simp [State.append]
@[simp] theorem State.turn_closeWindow (s : State) (t : Nat) :
    (s.closeWindow t).turn = s.turn := by simp [State.closeWindow]
@[simp] theorem State.turn_beginSegment (s : State) (t : Nat) :
    (s.beginSegment t).turn = s.turn := by simp [State.beginSegment]
@[simp] theorem State.turn_endSegment (s : State) (t last reason : Nat) :
    (s.endSegment t last reason).turn = s.turn := by simp [State.endSegment]
@[simp] theorem State.turn_appendTick (s : State) (t : Nat) (due : Nat → Bool) (cut : List Byte) :
    (s.appendTick t due cut).turn = s.turn := by simp [State.appendTick]
@[simp] theorem State.turn_recBoundary (s : State) (t : Nat) (changed power : Bool) :
    (s.recBoundary t changed power).turn = s.turn := by simp [State.recBoundary]
@[simp] theorem State.still_recordGap (s : State) (t last : Nat) :
    (s.recordGap t last).turn.still = s.turn.still := by simp [State.recordGap]
@[simp] theorem State.still_resizeRing (s : State) (t : Nat) :
    (s.resizeRing t).turn.still = s.turn.still := by simp [State.resizeRing]

@[simp] theorem State.turn_noteCommand (s : State) (opcode : Nat) (payload : List Byte) :
    (s.noteCommand opcode payload).turn = s.turn := (rfl)

/-! ## Units -/

@[simp] theorem State.turn_setSt (s : State) (slot : Nat) (st : UState) : (s.setSt slot st).turn = s.turn := (rfl)
@[simp] theorem State.turn_enterHeld (s : State) (slot : Nat) (st : UState) (code : Nat) :
    (s.enterHeld slot st code).turn = s.turn := by simp [State.enterHeld]
@[simp] theorem State.turn_resetChan (s : State) (ch : Nat) : (s.resetChan ch).turn = s.turn := (rfl)
@[simp] theorem State.turn_beginStartSettle (s : State) (ch : Nat) :
    (s.beginStartSettle ch).turn = s.turn := (rfl)
@[simp] theorem State.turn_initUnit (s : State) (slot : Nat) : (s.initUnit slot).turn = s.turn := by
  unfold State.initUnit
  split <;> simp
@[simp] theorem State.turn_reinitUnit (s : State) (slot : Nat) : (s.reinitUnit slot).turn = s.turn := by
  unfold State.reinitUnit
  split <;> rfl
@[simp] theorem State.turn_absorbUnit (s : State) (slot : Nat) : (s.absorbUnit slot).turn = s.turn := by
  unfold State.absorbUnit
  split <;> rfl
@[simp] theorem State.turn_stopRecorder (s : State) (causes : BitVec 8) :
    (s.stopRecorder causes).turn = s.turn := by simp [State.stopRecorder]
@[simp] theorem State.turn_beginStop (s : State) (slot : Nat) : (s.beginStop slot).turn = s.turn := by
  unfold State.beginStop
  split <;> simp
@[simp] theorem State.turn_modUnitCells (s : State) (slot : Nat) (f : Cell → Cell) :
    (s.modUnitCells slot f).turn = s.turn := by simp [State.modUnitCells]
@[simp] theorem State.turn_capacityChanged (s : State) (slot : Nat) :
    (s.capacityChanged slot).turn = s.turn := by simp [State.capacityChanged]
@[simp] theorem State.still_returnChannel (s : State) (ch : Nat) :
    (s.returnChannel ch).turn.still = s.turn.still := by simp [State.returnChannel]
@[simp] theorem State.turn_returnEnds (s : State) (t ch : Nat) :
    (s.returnEnds t ch).turn = s.turn := by simp [State.returnEnds]
@[simp] theorem State.turn_lineBelowIdle (s : State) (ch : Nat) :
    (s.lineBelowIdle ch).2.turn = s.turn := by simp [State.lineBelowIdle, apply_ite Prod.snd]
@[simp] theorem State.turn_selfTest (s : State) : (s.selfTest).2.turn = s.turn := (rfl)
@[simp] theorem State.still_engineTest (s : State) (b : Nat) :
    (s.engineTest b).2.turn.still = s.turn.still := by simp [State.engineTest]
@[simp] theorem State.turn_chanCauseGone (s : State) (ch code : Nat) :
    (s.chanCauseGone ch code).2.turn = s.turn := by
  unfold State.chanCauseGone
  split <;> simp
@[simp] theorem State.still_causeGone (s : State) (slot : Nat) : (s.causeGone slot).2.turn.still = s.turn.still := by
  unfold State.causeGone
  dsimp only
  repeat' split
  all_goals simp
@[simp] theorem State.still_clearedUnit (s : State) (slot code : Nat) :
    (s.clearedUnit slot code).turn.still = s.turn.still := by
  unfold State.clearedUnit
  split <;> simp
@[simp] theorem State.turn_startUnit (s : State) (slot : Nat) : (s.startUnit slot).2.turn = s.turn := by
  unfold State.startUnit
  split
  · split <;> simp
  · simp
  all_goals rfl
@[simp] theorem State.turn_stopUnit (s : State) (slot : Nat) : (s.stopUnit slot).2.turn = s.turn := by
  unfold State.stopUnit
  split <;> simp
@[simp] theorem State.still_clearUnit (s : State) (slot : Nat) : (s.clearUnit slot).2.turn.still = s.turn.still := by
  unfold State.clearUnit
  dsimp only
  repeat' split
  all_goals simp
@[simp] theorem State.turn_toManual (s : State) (slot : Nat) : (s.toManual slot).turn = s.turn := by
  unfold State.toManual
  split <;> rfl
@[simp] theorem State.turn_endCalmSafe (s : State) (slot : Nat) : (s.endCalmSafe slot).turn = s.turn := by
  unfold State.endCalmSafe
  split <;> rfl
@[simp] theorem State.turn_toAuto (s : State) (slot : Nat) :
    (s.toAuto slot).turn = s.turn := by simp [State.toAuto]
@[simp] theorem State.turn_modeUnit (s : State) (slot : Nat) (dest : UState) :
    (s.modeUnit slot dest).2.turn = s.turn := by simp [State.modeUnit, apply_ite Prod.snd]
@[simp] theorem State.turn_valueUnit (s : State) (slot : Nat) (v : F32) :
    (s.valueUnit slot v).2.turn = s.turn := by
  unfold State.valueUnit
  split <;> [skip; split] <;> simp
@[simp] theorem State.still_actUnit (s : State) (slot : Nat) (a : Act) :
    (s.actUnit slot a).2.turn.still = s.turn.still := by
  unfold State.actUnit
  split <;> [skip; split] <;> simp
@[simp] theorem State.turn_syncHive (s : State) (hive : Nat) : (s.syncHive hive).turn = s.turn := by
  unfold State.syncHive
  dsimp only
  split <;> simp
@[simp] theorem State.turn_syncHives (s : State) : (s.syncHives).turn = s.turn := by simp [State.syncHives]
@[simp] theorem State.still_act (k : Nat) (s : State) (slot : Nat) (a : Act) :
    (State.act k s slot a).2.turn.still = s.turn.still := by
  induction k generalizing s slot a with
  | zero => rfl
  | succ k ih =>
    unfold State.act
    split
    · exact State.still_actUnit _ _ _
    · dsimp only
      split
      · split
        · rfl
        · simp [ih]
      · have hfold :
            ((s.orderedMembers slot).reverse.foldl (fun s u => (State.act k s u .stop).2) s).turn.still = s.turn.still :=
          still_foldl (fun s u => ih s u .stop) _ _
        split <;> [skip; split] <;> simpa using hfold
      · split
        · rfl
        · split <;> [split; skip] <;> simp [ih]
      · split <;> [split; skip] <;> simp [ih]
@[simp] theorem State.still_command (s : State) (slot : Nat) (a : Act) :
    (s.command slot a).turn.still = s.turn.still := by simp [State.command]

/-! ## Capacity -/

@[simp] theorem State.turn_channelOut (s : State) (ch : Nat) :
    (s.channelOut ch).turn = s.turn := by simp [State.channelOut]
@[simp] theorem State.still_channelService (s : State) (ch : Nat) (on : Bool) :
    (s.channelService ch on).turn.still = s.turn.still := by simp [State.channelService]
@[simp] theorem State.turn_calmUnit (s : State) (slot : Nat) : (s.calmUnit slot).turn = s.turn := by
  unfold State.calmUnit
  split <;> simp
@[simp] theorem State.turn_calm (s : State) : (s.calm).turn = s.turn := by simp [State.calm]
@[simp] theorem State.turn_removeUnit (s : State) (slot : Nat) : (s.removeUnit slot).turn = s.turn := by
  unfold State.removeUnit
  split <;> simp
@[simp] theorem State.still_enterMode (s : State) (ch t : Nat) :
    (s.enterMode ch t).turn.still = s.turn.still := by simp [State.enterMode]
@[simp] theorem State.still_keepChannel (s : State) (old : Content) (ch t : Nat) :
    (s.keepChannel old ch t).turn.still = s.turn.still := by simp [State.keepChannel]
@[simp] theorem State.turn_keepProbe (s : State) (old : Content) (p : Nat) :
    (s.keepProbe old p).turn = s.turn := by simp [State.keepProbe]
@[simp] theorem State.turn_keepComb (s : State) (old : Content) (l : Nat) :
    (s.keepComb old l).turn = s.turn := by simp [State.keepComb]
@[simp] theorem State.still_keepUnit (s : State) (old : Content) (t slot : Nat) :
    (s.keepUnit old t slot).turn.still = s.turn.still := by
  unfold State.keepUnit
  split <;> simp
@[simp] theorem State.still_addUnit (s : State) (t slot : Nat) :
    (s.addUnit t slot).turn.still = s.turn.still := by simp [State.addUnit]
@[simp] theorem State.turn_addHive (s : State) (hive : Nat) : (s.addHive hive).turn = s.turn := (rfl)
@[simp] theorem State.turn_switchLink (s : State) (old : Content) :
    (s.switchLink old).turn = s.turn := by simp [State.switchLink]
@[simp] theorem State.turn_noteCapacity (s : State) (a : Content) (gone fresh kept : List Nat) :
    (s.noteCapacity a gone fresh kept).turn = s.turn := by simp [State.noteCapacity]
@[simp] theorem State.still_switchUnits (s : State) (a : Content) (t : Nat) :
    (s.switchUnits a t).turn.still = s.turn.still := by simp [State.switchUnits]

/-! ## Housekeeping -/

@[simp] theorem State.turn_modHk (s : State) (f : Hk → Hk) : (s.modHk f).turn = s.turn := (rfl)
@[simp] theorem State.turn_raiseThermal (s : State) (code : Nat) (x : F32) (site : Nat) :
    (s.raiseThermal code x site).turn = s.turn := by simp [State.raiseThermal]
@[simp] theorem State.turn_evalHk (s : State) : s.evalHk.turn = s.turn := by
  unfold State.evalHk
  split
  · rfl
  · simp only [State.turn_writeCell, State.turn_writeF, turn_foldl, implies_true]
    refine turn_foldl (fun s i => ?_) _ _
    split <;> simp
@[simp] theorem State.turn_unpowerField (s : State) :
    (s.unpowerField).turn = s.turn := by simp [State.unpowerField]
@[simp] theorem State.turn_dropRecorder (s : State) : (s.dropRecorder).turn = s.turn := (rfl)

/-! ## Writes and waiting commands -/

@[simp] theorem State.turn_applyWrite (s : State) (id inst : Nat) (v : Val) :
    (s.applyWrite id inst v).turn = s.turn := by
  unfold State.applyWrite
  dsimp only
  repeat' split
  all_goals simp
@[simp] theorem State.turn_applyWrites (s : State) (payload : List Byte) :
    (s.applyWrites payload).turn = s.turn := by simp [State.applyWrites]

@[simp] theorem State.turn_flushLine (s : State) : (s.flushLine).turn = s.turn := by simp [State.flushLine]
@[simp] theorem State.turn_unreach (s : State) (n : Nat) : (s.unreach n).turn = s.turn := by simp [State.unreach]

/-! ## Boundary -/

@[simp] theorem State.turn_holdEntry (s : State) (slot : Nat) : (s.holdEntry slot).turn = s.turn := by
  unfold State.holdEntry
  split <;> simp
@[simp] theorem State.turn_faultEntry (s : State) (slot : Nat) : (s.faultEntry slot).turn = s.turn := by
  unfold State.faultEntry
  split <;> simp
@[simp] theorem State.turn_windDown (s : State) (slot : Nat) :
    (s.windDown slot).turn = s.turn := by simp [State.windDown]
@[simp] theorem State.turn_unitEvents (s : State) : (s.unitEvents).turn = s.turn := by simp [State.unitEvents]
@[simp] theorem State.turn_calmDue (s : State) (t : Nat) : (s.calmDue t).turn = s.turn := by
  unfold State.calmDue
  split <;> simp
@[simp] theorem State.turn_setWall (s : State) (payload : List Byte) : (s.setWall payload).turn = s.turn := (rfl)
@[simp] theorem State.turn_hostWrite (s : State) (payload : List Byte) :
    (s.hostWrite payload).turn = s.turn := by simp [State.hostWrite]
@[simp] theorem State.still_programAct (s : State) (n : Nat) (e : Nat × Nat) :
    (s.programAct n e).turn.still = s.turn.still := by
  unfold State.programAct
  dsimp only
  repeat' split
  all_goals simp
@[simp] theorem State.still_programActions (s : State) (n : Nat) :
    (s.programActions n).turn.still = s.turn.still := by simp [State.programActions]
@[simp] theorem State.turn_failBank (s : State) (t b : Nat) : (s.failBank t b).turn = s.turn := by
  unfold State.failBank
  dsimp only
  split <;> simp
@[simp] theorem State.still_retirePage (s : State) (p : Nat) : (s.retirePage p).turn.still = s.turn.still := by
  unfold State.retirePage
  dsimp only
  split <;> [skip; split] <;> simp
@[simp] theorem State.turn_markSilent (s : State) (n : Nat) :
    (s.markSilent n).turn = s.turn := by simp [State.markSilent]
@[simp] theorem State.turn_remoteDue (s : State) : (s.remoteDue).turn = s.turn := by simp [State.remoteDue]
@[simp] theorem State.turn_stopForWatch (s : State) :
    (s.stopForWatch).turn = s.turn := by simp [State.stopForWatch]
@[simp] theorem State.still_wake (s : State) (t slot : Nat) : (s.wake t slot).turn.still = s.turn.still := by
  unfold State.wake
  split <;> simp
@[simp] theorem State.turn_countUplink (s : State) (b : Nat) :
    (s.countUplink b).turn = s.turn := by simp [State.countUplink]
@[simp] theorem State.turn_judgeSmoker (s : State) : (s.judgeSmoker).turn = s.turn := by simp [State.judgeSmoker]
@[simp] theorem State.turn_countFanUplink (s : State) : (s.countFanUplink).turn = s.turn := (rfl)

/-! ## Evaluation -/

@[simp] theorem State.turn_evalChannel (s : State) (ch : Nat) : (s.evalChannel ch).turn = s.turn := by
  unfold State.evalChannel
  split <;> simp
@[simp] theorem State.turn_evalHive (s : State) (slot : Nat) :
    (s.evalHive slot).turn = s.turn := by simp [State.evalHive]
@[simp] theorem State.turn_evalUnit (s : State) (slot : Nat) : (s.evalUnit slot).turn = s.turn := by
  unfold State.evalUnit
  split <;> [skip; split] <;> simp
@[simp] theorem State.turn_noteEdges (s : State) (e : Nat × List Stamp × List (Nat × Nat)) :
    (s.noteEdges e).turn = s.turn := by simp [State.noteEdges]
@[simp] theorem State.turn_channelRecords (s : State) (ch : Nat) : (s.channelRecords ch).turn = s.turn := by
  unfold State.channelRecords
  dsimp only
  split <;> simp
@[simp] theorem State.turn_gatherAll (s : State) : (s.gatherAll).turn = s.turn := by simp [State.gatherAll]
@[simp] theorem State.turn_evaluate (s : State) : s.evaluate.turn = { s.turn with evaluated := true } := by
  have hmark (u : State) : ({ u with evaluated := true } : State).turn = { u.turn with evaluated := true } := rfl
  unfold State.evaluate
  dsimp only
  exact (hmark _).trans (congrArg (fun t : Turn => { t with evaluated := true }) (by simp))
@[simp] theorem State.turn_cutTick (s : State) : (s.cutTick).turn = s.turn := by simp [State.cutTick]
@[simp] theorem State.turn_fifoAppend (s : State) (e : Nat × List Stamp × List (Nat × Nat)) :
    (s.fifoAppend e).turn = s.turn := by simp [State.fifoAppend]
/-! ## What a boundary changes beside (R95) -/

@[simp] theorem State.turn_clearRecorder (s : State) (e : Nat) : (s.clearRecorder e).turn = s.turn := by
  simp [State.clearRecorder]
@[simp] theorem State.phase_activate (s : State) (t : Nat) : (s.activate t).turn.still.phase = s.turn.still.phase := by
  unfold State.activate
  split
  · rfl
  · split
    · rfl
    · dsimp only
      split
      · rfl
      · simp
@[simp] theorem State.turn_thermalShutdown (s : State) (t : Nat) : (s.thermalShutdown t).turn = s.turn := by
  simp [State.thermalShutdown]
@[simp] theorem State.phase_stopLogic (s : State) (n : Nat) :
    (s.stopLogic n).turn.still.phase = s.turn.still.phase := by
  unfold State.stopLogic State.abandonChange
  dsimp only
  split <;> rfl
@[simp] theorem State.still_commandEffect (s : State) (x : Sched) : (s.commandEffect x).turn.still = s.turn.still := by
  unfold State.commandEffect
  split <;> simp
@[simp] theorem State.still_applyCommand (s : State) (x : Sched) : (s.applyCommand x).turn.still = s.turn.still := by
  unfold State.applyCommand
  split <;> [split; skip] <;> simp
@[simp] theorem State.still_commandsDue (s : State) (t : Nat) : (s.commandsDue t).2.turn.still = s.turn.still :=
  List.foldlRecOn (motive := fun r : Option Power × State => r.2.turn.still = s.turn.still) _ _ rfl
    (fun _ hr x _ => (State.still_applyCommand _ x).trans hr)
@[simp] theorem State.turn_loseDue (s : State) (n : Nat) : (s.loseDue n).turn = s.turn := by simp [State.loseDue]
@[simp] theorem State.phase_enterDormant (s : State) : (s.enterDormant).turn.still.phase = s.turn.still.phase := by
  simp [State.enterDormant]
@[simp] theorem State.phase_enterPower (s : State) (t : Nat) (target : Power) :
    (s.enterPower t target).turn.still.phase = s.turn.still.phase := by simp [State.enterPower]
@[simp] theorem State.phase_boundaryEvents (s : State) (t : Nat) :
    (s.boundaryEvents t).turn.still.phase = s.turn.still.phase := by
  have hcommands := fun u : State => u.still_commandsDue t
  unfold State.boundaryEvents
  dsimp only
  split <;> split <;> simp
@[simp] theorem State.turn_collectJob (s : State) (j : Job) : (s.collectJob j).turn = s.turn := by
  unfold State.collectJob
  dsimp only
  repeat' split
  all_goals simp

end Sys2Proof.Machine
end

section
/-! # The tick boundary (R88, R95, R96) -/

namespace Sys2Proof.Machine

/-! ## The timeouts of the host interface -/

/-- The logic domain runs in `t` as in `s`, and no activation and no fallback waits there that did not in `s`. -/
structure State.Yields (s t : State) : Prop where
  alive : t.host.alive = s.host.alive
  activateAt : s.upd.activateAt = none → t.upd.activateAt = none
  fallbackDue : s.upd.fallbackDue = false → t.upd.fallbackDue = false

@[simp] theorem State.yields_self (s : State) : s.Yields s := ⟨rfl, fun h => h, fun h => h⟩

theorem State.Yields.trans {s t u : State} (h : s.Yields t) (h' : t.Yields u) : s.Yields u :=
  ⟨h'.alive.trans h.alive, h'.activateAt ∘ h.activateAt, h'.fallbackDue ∘ h.fallbackDue⟩

/-- A walk yields to what its steps yield to. -/
theorem State.yields_foldl {α : Type} {f : State → α → State}
    (hf : ∀ (s : State) (a : α), s.Yields (f s a)) (xs : List α) (s : State) : s.Yields (xs.foldl f s) :=
  List.foldlRecOn (motive := s.Yields) xs f s.yields_self (fun t ht a _ => ht.trans (hf t a))

theorem State.yields_raise (s : State) (cause handle code data : Nat) : s.Yields (s.raise cause handle code data) :=
  ⟨HostIf.place_alive _ _, fun h => h, fun h => h⟩

theorem State.yields_endJob (s : State) (k : Nat) (st : JobState) (status detail : Nat) (data : List Byte) :
    s.Yields (s.endJob k st status detail data) := by
  unfold State.endJob
  split
  · exact s.yields_self
  · dsimp only
    split <;> exact ⟨HostIf.place_alive _ _, fun h => h, fun h => h⟩

theorem State.yields_setEnumerating (s : State) (j : Job) (on : Bool) : s.Yields (s.setEnumerating j on) := by
  unfold State.setEnumerating
  split <;> exact ⟨rfl, fun h => h, fun h => h⟩

theorem State.yields_dropPending (s : State) (session : Option (BitVec 16)) : s.Yields (s.dropPending session) := by
  unfold State.dropPending
  split
  · split <;> exact ⟨rfl, fun h => h, fun h => h⟩
  · exact s.yields_self

theorem State.yields_endChange (s : State) (j : Job) (st : JobState) (status detail : Nat) (data : List Byte) :
    s.Yields (s.endChange j st status detail data) := by
  unfold State.endChange
  dsimp only
  split
  · exact (s.yields_dropPending _).trans (State.yields_endJob _ _ _ _ _ _)
  · exact s.yields_endJob _ _ _ _ _

theorem State.yields_verifyStopped (s : State) : s.Yields s.verifyStopped := by
  unfold State.verifyStopped State.raiseUpdate
  split
  · exact ⟨HostIf.place_alive _ _, fun _ => rfl, fun _ => rfl⟩
  · exact ⟨HostIf.place_alive _ _, fun h => h, fun h => h⟩

theorem State.yields_finishJob (s : State) (j : Job) (st : JobState) (status detail : Nat) (data : List Byte) :
    s.Yields (s.finishJob j st status detail data) := by
  unfold State.finishJob
  dsimp only
  split
  · exact s.yields_endChange _ _ _ _ _
  · split
    · exact s.yields_verifyStopped.trans (State.yields_endJob _ _ _ _ _ _)
    · exact s.yields_endJob _ _ _ _ _

theorem State.yields_cancelNow (s : State) (j : Job) : s.Yields (s.cancelNow j) :=
  (s.yields_setEnumerating j false).trans (State.yields_finishJob _ _ _ _ _ _)

theorem State.yields_jobParts (s : State) (j : Job) : s.Yields (s.jobParts j).2 := by
  unfold State.jobParts
  split
  · exact s.yields_self
  · split
    · exact s.yields_self
    · split <;> exact ⟨rfl, fun h => h, fun h => h⟩

theorem State.yields_runJob (s : State) (j : Job) : s.Yields (s.runJob j) := by
  unfold State.runJob
  split
  · exact s.yields_endJob _ _ _ _ _
  · split
    · exact s.yields_endJob _ _ _ _ _
    · extract_lets verifying
      have hverifying : s.Yields verifying := by
        unfold verifying
        split <;> exact ⟨rfl, fun h => h, fun h => h⟩
      split
      · have hparts := (State.yields_setEnumerating verifying j true).trans (State.yields_jobParts _ j)
        exact hverifying.trans (hparts.trans ⟨rfl, fun h => h, fun h => h⟩)
      · exact hverifying.trans ⟨rfl, fun h => h, fun h => h⟩

theorem State.yields_runNext (k : Nat) (s : State) : s.Yields (State.runNext k s) := by
  induction k generalizing s with
  | zero => exact s.yields_self
  | succ k ih =>
    unfold State.runNext
    split
    · exact s.yields_self
    · split
      · exact s.yields_self
      · exact (s.yields_runJob _).trans (ih _)

theorem State.yields_dispatchJobs (s : State) : s.Yields s.dispatchJobs :=
  (State.yields_foldl State.yields_cancelNow _ s).trans (State.yields_runNext 8 _)

theorem State.yields_orphanJob (s : State) (j : Job) : s.Yields (s.orphanJob j) := by
  unfold State.orphanJob
  split
  · exact ⟨rfl, fun h => h, fun h => h⟩
  · dsimp only
    split
    · exact ⟨rfl, fun h => h, fun h => h⟩
    · have hloose (f : Job → Job) : s.Yields (s.modJob j.handle f) := ⟨rfl, fun h => h, fun h => h⟩
      exact (hloose _).trans (State.yields_cancelNow _ _)

theorem State.yields_releaseSender (s : State) (sid : BitVec 16) (who : UpdOwner) :
    s.Yields (s.releaseSender sid who) := by
  unfold State.releaseSender
  extract_lets dropped orphaned left
  have horphaned : s.Yields orphaned :=
    (s.yields_dropPending _).trans (State.yields_foldl State.yields_orphanJob _ dropped)
  have hleft : orphaned.Yields left := by
    unfold left
    split <;> exact ⟨rfl, fun h => h, fun h => h⟩
  exact horphaned.trans (hleft.trans (State.yields_dispatchJobs left))

theorem State.yields_closeSession (s : State) (id : BitVec 16) (raise : Bool) : s.Yields (s.closeSession id raise) := by
  unfold State.closeSession
  split
  · exact s.yields_self
  · have hclosed (f : List Session → List Session) (u : State) :
        u.Yields (u.modHost (fun h => { h with sessions := f h.sessions })) := ⟨rfl, fun h => h, fun h => h⟩
    have hleft := (s.yields_releaseSender id (.session id)).trans (hclosed (·.filter (fun x => x.id != id)) _)
    dsimp only
    split
    · exact hleft.trans (State.yields_raise _ _ _ _ _)
    · exact hleft

theorem State.yields_baudFallback (s : State) : s.Yields s.baudFallback :=
  ⟨HostIf.place_alive _ _, fun h => h, fun h => h⟩

/-- The bar of R66 ends when its time is over. -/
def State.endBar (s : State) (t : Nat) : State :=
  match s.host.barUntil with
  | some b => if b ≤ t then s.modHost (fun h => { h with barUntil := none, authFails := 0 }) else s
  | none => s

/-- The rate falls back when no packet has come for 2 s. -/
def State.endBaud (s : State) (t : Nat) : State :=
  match s.host.baudAt with
  | some a => if a + 2048 < t then s.baudFallback else s
  | none => s

theorem State.hostClock_eq (s : State) (t : Nat) :
    s.hostClock t = if s.host.alive then ((s.closeIdle t).endBaud t).endBar t else s := by
  unfold State.hostClock State.endBar State.endBaud
  cases s.host.alive <;> rfl

theorem State.besideJobs_closeSession (s : State) (id : BitVec 16) (raise : Bool) :
    (s.closeSession id raise).besideJobs = s.besideJobs := by
  unfold State.closeSession
  split
  · rfl
  · dsimp only
    split
    · rw [State.besideJobs_raise, State.besideJobs_modHost, State.besideJobs_releaseSender]
    · rw [State.besideJobs_modHost, State.besideJobs_releaseSender]

/-- The timeouts of the host interface end sessions, their jobs, a rate and a bar. -/
theorem State.besideJobs_hostClock (s : State) (t : Nat) : (s.hostClock t).besideJobs = s.besideJobs := by
  have hidle : (s.closeIdle t).besideJobs = s.besideJobs :=
    foldl_keeps State.besideJobs (fun s (x : Session) => State.besideJobs_closeSession s x.id true) _ s
  have hbaud (u : State) : (u.endBaud t).besideJobs = u.besideJobs := by
    unfold State.endBaud
    split <;> [split; skip] <;> rfl
  have hbar (u : State) : (u.endBar t).besideJobs = u.besideJobs := by
    unfold State.endBar
    split <;> [split; skip] <;> rfl
  rw [State.hostClock_eq]
  split
  · rw [hbar, hbaud, hidle]
  · rfl

theorem State.yields_hostClock (s : State) (t : Nat) : s.Yields (s.hostClock t) := by
  have hidle : s.Yields (s.closeIdle t) :=
    State.yields_foldl (fun s (x : Session) => State.yields_closeSession s x.id true) _ s
  have hbaud (u : State) : u.Yields (u.endBaud t) := by
    unfold State.endBaud
    split
    · split
      · exact u.yields_baudFallback
      · exact u.yields_self
    · exact u.yields_self
  have hbar (u : State) : u.Yields (u.endBar t) := by
    unfold State.endBar
    split
    · split
      · exact ⟨rfl, fun h => h, fun h => h⟩
      · exact u.yields_self
    · exact u.yields_self
  rw [State.hostClock_eq]
  split
  · exact (hidle.trans (hbaud _)).trans (hbar _)
  · exact s.yields_self

/-! ## The state that a boundary finds -/

/-- The state under the clock of the next tick, with the timeouts of the interface. -/
def State.clocked (s : State) : State := s.ticked.hostClock (s.tick + 1)

theorem State.ticked_eq (s : State) : s.ticked = { s with
    tick := s.tick + 1
    link := { s.link with thisLong := 0 }
    hk := { s.hk with sent := s.hk.throttle }
    checkpoint := s.ticked.checkpoint
    sram := { s.sram with scrubbed := s.ticked.sram.scrubbed } } := by
  unfold State.ticked State.houseClock State.writeCheckpoint Sram.scrub
  dsimp only
  split <;> split <;> rfl

theorem State.ticked_besideJobs_clocked (s : State) : s.clocked.besideJobs = s.ticked.besideJobs :=
  State.besideJobs_hostClock s.ticked (s.tick + 1)

section
variable {s : State}

theorem State.turn_clocked : s.clocked.turn = { s.turn with sram := s.ticked.sram } := by
  have hturn : s.clocked.turn = s.ticked.turn := turn_of_jobs s.ticked_besideJobs_clocked
  rw [hturn, s.ticked_eq]
  rfl

theorem State.phase_clocked : s.clocked.turn.still.phase = s.turn.still.phase := by rw [State.turn_clocked]; rfl

theorem State.lagMax_clocked : s.clocked.sram.lagMax = s.sram.lagMax := by
  have hsram : s.clocked.sram = s.ticked.sram := congrArg Turn.sram State.turn_clocked
  rw [hsram, s.ticked_eq]

theorem State.yields_clocked : s.Yields s.clocked := by
  have hticked : s.Yields s.ticked := by
    rw [s.ticked_eq]
    exact ⟨rfl, fun h => h, fun h => h⟩
  exact hticked.trans (s.ticked.yields_hostClock _)

theorem State.tick_clocked : s.clocked.tick = s.tick + 1 := by
  have htick : s.clocked.besideJobs.tick = s.ticked.besideJobs.tick := by rw [s.ticked_besideJobs_clocked]
  exact htick.trans s.stays_ticked.tick

theorem State.logicRuns_clocked : s.clocked.logicRuns = s.logicRuns := by
  have hhk : s.clocked.besideJobs.hk = s.ticked.besideJobs.hk := by rw [s.ticked_besideJobs_clocked]
  have hboot : s.clocked.besideJobs.boot = s.ticked.besideJobs.boot := by rw [s.ticked_besideJobs_clocked]
  have hshut : s.clocked.hk.shutdown = s.hk.shutdown := by
    rw [show s.clocked.hk = s.ticked.hk from hhk, s.ticked_eq]
  have hhold : s.clocked.boot.hold = s.boot.hold := by
    rw [show s.clocked.boot = s.ticked.boot from hboot, s.ticked_eq]
  rw [State.logicRuns, State.yields_clocked.alive, hshut, hhold, State.logicRuns]

end

/-! ## The boundary by what it finds -/

/-- The field and the smoker as a tick begins. -/
def State.fieldTurned (s : State) : State :=
  let s := ((List.range s.bankCount).foldl State.countUplink s).countFanUplink
  ((List.range s.bankCount).foldl (fun s b => s.fieldBoundary s.tick b) s).freezeExpiry.judgeSmoker

/-- The lag of a tick of work that stays open is noted. -/
def State.lagNoted (s : State) : State :=
  { s with sram := { s.sram with lagMax := Nat.max s.sram.lagMax (s.tick - s.workTick) } }

/-- A thermal shutdown that is due, at the end of a boundary. -/
def State.shutAtEnd (s : State) : State :=
  if s.power = .dormant then s
  else if s.hk.shutdownDue ∧ !s.hk.shutdown then s.thermalShutdown s.tick else s

/-- With power and a logic domain that runs units, and without an activation that is due, a boundary stops the logic
domain for its lag, or turns the field and opens the next tick of work, or notes the lag. -/
theorem State.tickBoundary_eq {s : State} (hon : s.vinOn = true) (hruns : s.clocked.logicRuns = true)
    (hstay : s.clocked.pauseBegins = false) : s.tickBoundary =
      if !s.clocked.committed ∧ s.clocked.workTick + 7 < s.clocked.tick then s.clocked.stopFor 0 3
      else (if s.clocked.fieldTurned.committed then s.clocked.fieldTurned.openTick
        else s.clocked.fieldTurned.lagNoted).shutAtEnd := by
  have hon' : ¬(!s.vinOn) = true := by simp [hon]
  have hruns' : ¬(!s.clocked.logicRuns) = true := by simp [hruns]
  have hstay' : ¬s.clocked.pauseBegins = true := by simp [hstay]
  unfold State.tickBoundary
  extract_lets link ticked clocked counted fields frozen judged lagging opened
  have hclocked : clocked = s.clocked := rfl
  have hjudged : judged = s.clocked.fieldTurned := rfl
  rw [if_neg hon', hclocked, if_neg hruns', if_neg hstay']
  clear_value clocked judged
  subst hclocked hjudged
  rfl

/-! ## What it leaves of the turn -/

theorem State.turn_fieldTurned (s : State) : s.fieldTurned.turn = s.turn := by simp [State.fieldTurned]

theorem State.phase_lagNoted (s : State) : s.lagNoted.turn.still.phase = s.turn.still.phase := rfl

theorem State.lagMax_lagNoted (s : State) :
    s.lagNoted.sram.lagMax = Nat.max s.sram.lagMax (s.tick - s.workTick) := rfl

theorem State.turn_shutAtEnd (s : State) : s.shutAtEnd.turn = s.turn := by simp [State.shutAtEnd]

section
variable {s t : State} {p : Nat × Bool × Bool × Nat × Plant}

/-- What the phase says, field by field. -/
theorem State.workTick_of_phase (h : s.turn.still.phase = p) : s.workTick = p.1 := congrArg Prod.fst h
theorem State.workTick_of_same (h : s.turn.still.phase = t.turn.still.phase) : s.workTick = t.workTick :=
  congrArg Prod.fst h
theorem State.committed_of_same (h : s.turn.still.phase = t.turn.still.phase) : s.committed = t.committed :=
  congrArg (·.2.2.1) h
theorem State.sram_of_turn (h : s.turn = t.turn) : s.sram = t.sram := congrArg Turn.sram h

end

theorem State.tick_fieldTurned (s : State) : s.fieldTurned.tick = s.tick :=
  congrArg Ledger.tick (show s.fieldTurned.ledger = s.ledger by simp [State.fieldTurned])

/-- Boundary work under the clock of tick `t` leaves that tick as the tick of work. -/
theorem State.phase_atTick (s : State) (t : Nat) {f : State → State}
    (hf : ∀ u : State, (f u).turn.still.phase = u.turn.still.phase) :
    (s.atTick t f).turn.still.phase = (t, s.evaluated, s.committed, s.deadlineAt, s.prev) :=
  hf { s with tick := t, workTick := t }

/-- The next tick of work opens with nothing of it evaluated. -/
theorem State.phase_openTick (s : State) :
    s.openTick.turn.still.phase = (s.workTick + 1, false, false, s.deadlineAt, s.prev) := by
  have hopen := State.phase_atTick { s with evaluated := false, committed := false, skip := [] } (s.workTick + 1)
    (fun u => u.phase_boundaryEvents (s.workTick + 1))
  unfold State.openTick
  dsimp only
  split
  · exact hopen
  · rw [turn_foldl (fun s b => s.turn_windowBoundary _ b)]
    exact hopen

end Sys2Proof.Machine
end

section
open Sys2Proof Sys2Proof.Machine

/-- Settles O34: the boundary by what it finds, and what each of its parts leaves of the turn. -/
theorem tickAdvances : Obligations.TickAdvances := by
  unfold Obligations.TickAdvances
  have htick {s : State} (hon : s.vinOn = true) : s.tickBoundary.tick = s.tick + 1 :=
    (s.stays_ticked.trans (State.stays_tickBoundary hon)).tick
  have hwork (s : State) : s.clocked.workTick = s.workTick := State.workTick_of_same State.phase_clocked
  have hdone (s : State) : s.clocked.committed = s.committed := State.committed_of_same State.phase_clocked
  have hbusy {s : State} (hopen : s.committed = false) : s.clocked.pauseBegins = false := by
    unfold State.pauseBegins
    split <;> simp [hdone, hopen]
  refine ⟨fun s hon => ⟨_, rfl, htick hon⟩, fun s hon hruns hcommitted hact => ?opens,
    fun s hon hruns hopen hlag => ?lags, fun s hon hruns hopen hlag hback => ?stops, fun s hoff => ?off⟩
  case opens =>
    have hstay : s.clocked.pauseBegins = false := by
      rw [State.pauseBegins, State.yields_clocked.activateAt hact]
    refine ⟨_, rfl, htick hon, ?_⟩
    have hfield := congrArg (·.still.phase) s.clocked.turn_fieldTurned
    have hfieldDone : s.clocked.fieldTurned.committed = true :=
      (State.committed_of_same hfield).trans ((hdone s).trans hcommitted)
    have hopened :=
      (congrArg (·.still.phase) (State.turn_shutAtEnd _)).trans (State.phase_openTick s.clocked.fieldTurned)
    rw [State.tickBoundary_eq hon (State.logicRuns_clocked.trans hruns) hstay,
      if_neg (by simp [hdone, hcommitted]), if_pos hfieldDone, State.workTick_of_phase hopened,
      State.workTick_of_same hfield]
    exact congrArg (· + 1) (hwork s)
  case lags =>
    have hfield := s.clocked.turn_fieldTurned
    have hphase : s.clocked.fieldTurned.turn.still.phase = s.clocked.turn.still.phase := congrArg (·.still.phase) hfield
    have hfieldOpen : s.clocked.fieldTurned.committed = false :=
      (State.committed_of_same hphase).trans ((hdone s).trans hopen)
    have hfieldWork : s.clocked.fieldTurned.workTick = s.workTick := (State.workTick_of_same hphase).trans (hwork s)
    have hfieldTick : s.clocked.fieldTurned.tick = s.tick + 1 :=
      (State.tick_fieldTurned _).trans State.tick_clocked
    have hfieldLag : s.clocked.fieldTurned.sram.lagMax = s.sram.lagMax :=
      (congrArg Sram.lagMax (State.sram_of_turn hfield)).trans State.lagMax_clocked
    have hnoted := State.turn_shutAtEnd s.clocked.fieldTurned.lagNoted
    have hnotedPhase :
        s.clocked.fieldTurned.lagNoted.shutAtEnd.turn.still.phase = s.clocked.fieldTurned.turn.still.phase :=
      (congrArg (·.still.phase) hnoted).trans (State.phase_lagNoted _)
    have heq : s.tickBoundary = s.clocked.fieldTurned.lagNoted.shutAtEnd := by
      rw [State.tickBoundary_eq hon (State.logicRuns_clocked.trans hruns) (hbusy hopen),
        if_neg (by rw [hwork, State.tick_clocked]; omega), if_neg (by simp [hfieldOpen])]
    refine ⟨_, rfl, htick hon, ?_⟩
    rw [heq]
    refine ⟨(State.workTick_of_same hnotedPhase).trans hfieldWork,
      (State.committed_of_same hnotedPhase).trans hfieldOpen, ?_⟩
    rw [State.sram_of_turn hnoted, State.lagMax_lagNoted, hfieldLag, hfieldTick, hfieldWork]
  case stops =>
    have heq : s.tickBoundary = s.clocked.stopFor 0 3 := by
      rw [State.tickBoundary_eq hon (State.logicRuns_clocked.trans hruns) (hbusy hopen),
        if_pos (by rw [hwork, hdone, hopen, State.tick_clocked]; exact ⟨rfl, hlag⟩)]
    obtain ⟨hdue, halive, hsessions, hjobs, hsched, _⟩ :=
      State.stopFor_leaves 0 3 (State.yields_clocked.fallbackDue hback)
    refine ⟨_, rfl, htick hon, ?_⟩
    rw [heq]
    exact ⟨halive, hdue, hsessions, hjobs, hsched⟩
  case off => exact congrArg Host.Outcome.next (by simp [State.tickBoundary, hoff])

end

section
/-! # Deadline, evaluation and commit (R94, R96, R102, R200, R368) -/

namespace Sys2Proof.Machine

/-! ## The cut of a summary -/

/-- A freeze that ends leaves the summaries that wait, their number, and the working copy. -/
theorem State.freezeExpiry_eq (s : State) : ∃ host frozen, s.freezeExpiry =
    { s with host := host, recorder := { s.recorder with frozen := frozen } } := by
  unfold State.freezeExpiry State.endFreeze
  split
  · dsimp only
    split <;> exact ⟨_, _, rfl⟩
  · exact ⟨_, _, rfl⟩

section
variable {s : State} {c : Content} {t : Nat} {more : BitVec 8}

theorem State.cutSummary_idle (h : s.work.recAcc.causes ||| more = 0#8) : s.cutSummary c t more = s :=
  if_pos (.inl h)

/-- A cut puts one summary with the next number in the queue and opens the next interval. -/
theorem State.cutSummary_cuts (hopen : s.work.recAcc.opened = true) (hstart : s.work.recAcc.tStart ≤ t)
    (hcause : s.work.recAcc.causes ||| more ≠ 0#8) :
    ∃ x : Summary, (s.cutSummary c t more).recorder.queue = s.recorder.queue ++ [x] ∧ x.seq = s.recorder.nextSeq ∧
      (s.cutSummary c t more).recorder.nextSeq = s.recorder.nextSeq + 1 ∧
      (s.cutSummary c t more).work = { s.work with recAcc := { opened := true, tStart := t + 1 } } := by
  have hcut : ¬(s.work.recAcc.causes ||| more = 0#8 ∨ (!s.work.recAcc.opened) = true ∨ t < s.work.recAcc.tStart) := by
    simp only [hcause, hopen, Bool.not_true, Bool.false_eq_true, false_or]
    omega
  unfold State.cutSummary
  dsimp only
  rw [if_neg hcut]
  generalize hnext : State.openInterval _ (t + 1) = next
  obtain ⟨host, frozen, hexpiry⟩ := next.freezeExpiry_eq
  rw [hexpiry, ← hnext]
  exact ⟨_, rfl, rfl, rfl, rfl⟩

end

/-- The cells and the units of the working copy, and the inputs that wait. -/
def State.product (s : State) : Tab Cell × Tab UnitRec × Tab InBuf := (s.work.cells, s.work.units, s.inbufs)

@[simp] theorem State.product_mk (pending tick checkpoint fineValid wallDiff wallStale vinOn power id host smoker sched
    jobs gens topNumber activeGen awaiting pendGen importBuf order prev base work evaluated committed workTick inbufs
    deadlineAt skip banks fieldChans fprobes fcombs fanDom recorder inrec sram upd link boot hk draws drawsAt) :
    (State.mk pending tick checkpoint fineValid wallDiff wallStale vinOn power id host smoker sched jobs
    gens topNumber activeGen awaiting pendGen importBuf order prev base work evaluated committed workTick inbufs
    deadlineAt skip banks fieldChans fprobes fcombs fanDom recorder inrec sram upd link boot hk draws drawsAt).product =
      (work.cells, work.units, inbufs) := (rfl)

@[simp] theorem product_eta (s : State) : (s.work.cells, s.work.units, s.inbufs) = s.product := (rfl)

@[simp] theorem State.product_ite (c : Prop) [Decidable c] (s t : State) :
    (if c then s else t).product = if c then s.product else t.product := apply_ite State.product c s t

theorem State.cutSummary_product (s : State) (c : Content) (t : Nat) (more : BitVec 8) :
    (s.cutSummary c t more).product = s.product := by
  unfold State.cutSummary
  dsimp only
  split
  · rfl
  · generalize hnext : State.openInterval _ (t + 1) = next
    obtain ⟨host, frozen, hexpiry⟩ := next.freezeExpiry_eq
    rw [hexpiry, ← hnext]
    rfl

/-! ## What a commit leaves of the tick's work -/

@[simp] theorem State.product_append (s : State) (es : List (List Byte)) : (s.append es).product = s.product := by
  have hjobs (u : State) (gone : List (List Byte)) : (u.recOverwritten gone).product = u.product :=
    (show (u.recOverwritten gone).besideJobs.product = u.besideJobs.product by rw [u.besideJobs_recOverwritten gone])
  exact hjobs _ _

theorem State.product_appendTick (s : State) (t : Nat) (due : Nat → Bool) (cut : List Byte) :
    (s.appendTick t due cut).product = s.product := by simp [State.appendTick, State.closeWindow]

theorem State.product_fifoAppend (s : State) (e : Nat × List Stamp × List (Nat × Nat)) :
    (s.fifoAppend e).product = s.product := by
  unfold State.fifoAppend State.bankMark State.bankFlag
  simp [State.setBank]

/-- What a collection takes goes to its job. -/
theorem State.collectJob_eq (s : State) (j : Job) : ∃ jobs, s.collectJob j = { s with jobs := jobs } := by
  unfold State.collectJob State.modJob
  dsimp only
  repeat' split
  all_goals exact ⟨_, rfl⟩

theorem State.product_collectJob (s : State) (j : Job) : (s.collectJob j).product = s.product := by
  obtain ⟨jobs, h⟩ := s.collectJob_eq j
  rw [h]
  rfl

theorem State.product_sendCells (s : State) : s.sendCells.product = s.product := by
  have hlink {u v : State} (h : u.besideLink = v.besideLink) : u.product = v.product :=
    (show u.besideLink.product = v.besideLink.product by rw [h])
  unfold State.sendCells
  split
  · rfl
  · dsimp only
    split
    · rfl
    · exact hlink (State.besideLink_sendMsg ..)

/-- A commit is the state that the tick's record, stamps, collections and cells for the link leave, with its copies
switched. -/
theorem State.commit_eq (s : State) : ∃ r : State, r.product = s.product ∧ r.turn = s.turn ∧ s.commit = { r with
    prev := r.work
    base := r.work
    committed := true
    inbufs := r.inbufs.filter (fun e => decide (s.workTick ≤ e.1))
    hk := { r.hk with fresh := r.hk.fresh && s.workTick % 512 != 0 }
    sram := { r.sram with redoRun := 0 } } := by
  refine ⟨_, ?product, ?turn, rfl⟩
  case product =>
    rw [State.product_sendCells, foldl_keeps State.product State.product_collectJob,
      foldl_keeps State.product State.product_fifoAppend, State.product_appendTick]
    exact s.cutSummary_product _ _ _
  case turn => simp

/-! ## The deadline -/

section
variable {s : State} {p : Turn} (h : s.turn = p)
include h

/-- What the turn says, field by field. -/
theorem State.workTick_of_turn : s.workTick = p.workTick := congrArg Turn.workTick h
theorem State.evaluated_of_turn : s.evaluated = p.evaluated := congrArg Turn.evaluated h
theorem State.committed_of_turn : s.committed = p.committed := congrArg Turn.committed h
theorem State.deadlineAt_of_turn : s.deadlineAt = p.deadlineAt := congrArg Turn.deadlineAt h
theorem State.base_of_turn : s.base = p.base := congrArg Turn.base h
theorem State.prev_of_turn : s.prev = p.prev := congrArg Turn.prev h

end

theorem State.tick_of_stays {s t : State} (h : s.ledger.Stays t.ledger) : t.tick = s.tick := h.tick
theorem State.tick_of_ledger {s t : State} (h : s.ledger = t.ledger) : s.tick = t.tick := congrArg Ledger.tick h

/-- Stamp batches that are not complete are held back. -/
def State.stampsHeld (s : State) : State :=
  (List.range s.bankCount).foldl (fun s b => if (s.bank b).powered then s.holdStamps b else s) s

theorem State.logicRuns_stampsHeld (s : State) : s.stampsHeld.logicRuns = s.logicRuns := by
  refine foldl_keeps State.logicRuns (fun s b => ?_) _ s
  unfold State.holdStamps
  split
  · dsimp only
    split <;> rfl
  · rfl

theorem State.turn_stampsHeld (s : State) : s.stampsHeld.turn = s.turn := by simp [State.stampsHeld]

theorem State.tick_stampsHeld (s : State) : s.stampsHeld.tick = s.tick :=
  congrArg Ledger.tick (show s.stampsHeld.ledger = s.ledger by simp [State.stampsHeld])

theorem State.evaluateDue_eq {s : State} (hruns : s.logicRuns = true) (hnew : s.evaluated = false)
    (hdue : s.workTick ≤ s.deadlineAt) : s.evaluateDue = s.evaluate :=
  if_pos (by rw [hruns, hnew]; simpa using hdue)

/-- The deadline of a tick that is not evaluated evaluates it. -/
theorem execInputDeadline_evaluates {s : State} (hruns : s.logicRuns = true) (hlate : s.deadlineAt < s.tick)
    (hnew : s.evaluated = false) (hwork : s.workTick ≤ s.tick) :
    execInputDeadline s = .next ({ s.stampsHeld with deadlineAt := s.tick } : State).evaluate := by
  have hturn := s.turn_stampsHeld
  have hnew' : s.stampsHeld.evaluated = false := (State.evaluated_of_turn hturn).trans hnew
  have hwork' : s.stampsHeld.workTick ≤ s.tick := (State.workTick_of_turn hturn).trans_le hwork
  have hrow : execInputDeadline s = .next (State.evaluateDue { s.stampsHeld with deadlineAt := s.stampsHeld.tick }) :=
    if_neg (by simp [hruns, hlate])
  rw [hrow, s.tick_stampsHeld]
  exact congrArg Host.Outcome.next (State.evaluateDue_eq (s.logicRuns_stampsHeld.trans hruns) hnew' hwork')

/-- An evaluation marks its tick as evaluated, and leaves the rest of the turn and the tick counter. -/
theorem State.evaluate_leaves (s : State) : s.evaluate.evaluated = true ∧ s.evaluate.committed = s.committed ∧
    s.evaluate.deadlineAt = s.deadlineAt ∧ s.evaluate.base = s.base ∧ s.evaluate.prev = s.prev ∧
    s.evaluate.workTick = s.workTick ∧ s.evaluate.tick = s.tick := by
  have hturn := s.turn_evaluate
  exact ⟨State.evaluated_of_turn hturn, State.committed_of_turn hturn, State.deadlineAt_of_turn hturn,
    State.base_of_turn hturn, State.prev_of_turn hturn, State.workTick_of_turn hturn,
    State.tick_of_ledger s.ledger_evaluate⟩

theorem State.tick_commit (s : State) : s.commit.tick = s.tick :=
  State.tick_of_stays (State.follows_commit (Ledger.follows_self _)).stays

theorem State.workTick_commit (s : State) : s.commit.workTick = s.workTick := by
  obtain ⟨r, _, hturn, hcommit⟩ := s.commit_eq
  rw [hcommit]
  exact State.workTick_of_turn hturn

/-! ## Collections -/

/-- What a running calibration job takes, when all of its members take part and the quality is good enough. -/
theorem State.collectJob_running {s : State} {j : Job} (hcode : j.opcode = 0x0503#16) (haction : field j.args 2 1 ≠ 2)
    (hbar : j.bar = none) (hstate : j.state = .running) (hleft : j.coll.length < field j.args 8 2)
    (hactive : ∀ m ∈ s.calMembers (slotInst (field j.args 0 2)), (s.unit (chanSlot m)).st = .active)
    (hquality : (s.work.cell (chanSlot (slotInst (field j.args 0 2)))).own.quality ≤ 1) :
    s.collectJob j =
      if (s.calMembers (slotInst (field j.args 0 2))).any (fun m => (s.work.chan m).skip) then s
      else if j.tags.any
          (fun x => x != (Tab.get ((0, 0), []) (s.inputs (s.workTick - 1)).raws (slotInst (field j.args 0 2))).1) then
        s.modJob j.handle (fun k => { k with bar := some (stRange, 2) })
      else s.modJob j.handle (fun k => { k with
        tags := some (Tab.get ((0, 0), []) (s.inputs (s.workTick - 1)).raws (slotInst (field j.args 0 2))).1
        coll := k.coll ++ s.calValues (slotInst (field j.args 0 2)) (s.workTick - 1)
          (s.work.cell (chanSlot (slotInst (field j.args 0 2)))).own.quality }) := by
  have hall : (s.calMembers (slotInst (field j.args 0 2))).find? (fun m => (s.unit (chanSlot m)).st != .active) = none :=
    List.find?_eq_none.mpr (fun m hm => by simp [hactive m hm])
  unfold State.collectJob
  dsimp only
  rw [if_neg (by simp [hcode, haction, hbar, hstate, JobState.ended]), if_neg (by simp [hstate]),
    if_neg (by omega), hall]
  dsimp only
  rw [if_neg (show ¬1 < (s.work.cell (chanSlot (slotInst (field j.args 0 2)))).own.quality by omega)]

end Sys2Proof.Machine
end

section
open Sys2Proof Sys2Proof.Machine

/-- Settles O35: each phase of a tick by what it leaves of the turn and of the tick's work. -/
theorem evaluationAndCommit : Obligations.EvaluationAndCommit := by
  unfold Obligations.EvaluationAndCommit
  refine ⟨fun s hruns hlate hnew hwork => ?deadline, fun s hruns heval hopen htick => ?commit,
    fun s hruns heval hopen hlag => ?lag, fun s heval hopen hrun hstart hcause => ?cut, fun s hcause => ?uncut,
    fun s j hjob hcode haction hbar hstate hleft hactive hquality htags => ⟨?skipped, ?taken⟩⟩
  case deadline =>
    have hheld := s.turn_stampsHeld
    obtain ⟨hdone, hcommitted, hdeadline, hbase, hprev, hsame, htick⟩ :=
      State.evaluate_leaves { s.stampsHeld with deadlineAt := s.tick }
    exact ⟨_, execInputDeadline_evaluates hruns hlate hnew hwork, hdone,
      hcommitted.trans (State.committed_of_turn hheld), hdeadline, hbase.trans (State.base_of_turn hheld),
      hprev.trans (State.prev_of_turn hheld), hsame.trans (State.workTick_of_turn hheld), htick.trans s.tick_stampsHeld⟩
  case commit =>
    obtain ⟨r, hproduct, hturn, hcommit⟩ := s.commit_eq
    have hrow : execTickCommit s = .next s.commit := by
      refine (if_neg (by simp [hruns, heval, hopen])).trans (congrArg Host.Outcome.next (if_neg ?_))
      rw [s.workTick_commit, s.tick_commit]
      omega
    refine ⟨_, hrow, ?_⟩
    rw [s.tick_commit, hcommit]
    refine ⟨rfl, rfl, rfl, congrArg Prod.fst hproduct, congrArg (·.2.1) hproduct, State.workTick_of_turn hturn, rfl,
      ?_, rfl⟩
    exact congrArg (fun p : Tab Cell × Tab UnitRec × Tab InBuf => p.2.2.filter (fun e => decide (s.workTick ≤ e.1)))
      hproduct
  case lag =>
    have hopened : s.commit.openTick.workTick = s.workTick + 1 :=
      (State.workTick_of_phase (State.phase_openTick _)).trans (congrArg (· + 1) s.workTick_commit)
    have htick : s.commit.openTick.tick = s.tick := (State.tick_of_stays (State.stays_openTick _)).trans s.tick_commit
    have hrow : execTickCommit s = .next s.commit.openTick.evaluateDue := by
      refine (if_neg (by simp [hruns, heval, hopen])).trans (congrArg Host.Outcome.next (if_pos ?_))
      rw [s.workTick_commit, s.tick_commit]
      exact hlag
    refine ⟨_, hrow, ?_⟩
    generalize s.commit.openTick = u at hopened htick
    obtain ⟨_, _, _, _, _, hwork, hsame⟩ := u.evaluate_leaves
    unfold State.evaluateDue
    split
    · exact ⟨hwork.trans hopened, hsame.trans htick⟩
    · exact ⟨hopened, htick⟩
  case cut =>
    obtain ⟨x, hqueue, hseq, hnext, hwork⟩ :=
      State.cutSummary_cuts (c := s.content) hrun hstart hcause
    refine ⟨_, x, congrArg Host.Outcome.next (if_pos (by simp [heval, hopen])), hqueue, hseq, hnext, ?_, ?_⟩
    · exact congrArg Plant.recAcc hwork
    · exact (congrArg Plant.cells hwork).trans rfl
  case uncut =>
    have hidle : s.cutTick = s := State.cutSummary_idle hcause
    exact congrArg Host.Outcome.next (by rw [hidle, ite_self])
  case skipped =>
    intro hskip
    rw [State.collectJob_running hcode haction hbar hstate hleft hactive hquality,
      if_pos (List.any_eq_true.mpr hskip)]
  case taken =>
    intro hskip hfirst
    rw [State.collectJob_running hcode haction hbar hstate hleft hactive hquality,
      if_neg (by simpa using hskip), if_neg (by simp [hfirst])]

end

section
/-! # Clocks and housekeeping (R89, R90, R424, R427 to R436) -/

namespace Sys2Proof.Machine

/-! ## Sites -/

/-- The neighbours of a site, as Table 14-6 lists them. -/
def tableNeighbours (i : Nat) : List Nat :=
  match i with
  | 0 => [1, 2, 3, 4]
  | 1 => [0, 2, 4]
  | 2 => [0, 1, 3, 5]
  | 3 => [0, 2, 4, 5]
  | 4 => [0, 1, 3]
  | _ => [0, 2, 3]

theorem siteNeighbours_getD {i : Nat} (hi : i < 6) : siteNeighbours.getD i [] = tableNeighbours i := by
  interval_cases i <;> rfl

/-- A site that stands off from its neighbours' median for the third round is excluded, with THERMAL, CODE 7. -/
theorem State.judgeSite_excludes {before : Hk} {s : State} {i : Nat} {x m : F32}
    (hsite : validSite (before.sites.getD i none) = some x) (hin : before.excluded.getD i false = false)
    (hmedian : medianF (((siteNeighbours.getD i []).filter before.included).filterMap
      (fun n => validSite (before.sites.getD n none))) = some m)
    (hoff : flt (fOfNat 15) (fabs (fsub x m)) = true) (hrun : before.devRun.getD i 0 = 2) :
    s.judgeSite before i = (s.modHk (fun h => { h with
      devRun := h.devRun.set i 0
      backRun := h.backRun.set i 0
      excluded := h.excluded.set i true })).raiseThermal 7 x i := by
  unfold State.judgeSite
  rw [hsite]
  dsimp only
  rw [hmedian, hin]
  simp only [Bool.false_eq_true, if_false, hoff, if_true, hrun]
  rfl

/-! ## A round -/

/-- The state beside the housekeeper and the host interface, with what a round measures. -/
def State.measured (s : State) : State × Nat × F32 × F32 × Bool :=
  ({ s with hk := {}, host := {} }, s.hk.rounds, s.hk.vin, s.hk.vfan, s.hk.fresh)

/-- What a round measures of a housekeeper. -/
def Hk.measures (h : Hk) : Nat × F32 × F32 × Bool := (h.rounds, h.vin, h.vfan, h.fresh)

theorem Hk.measures_derive (h : Hk) : h.derive.measures = h.measures := rfl
theorem Hk.measures_runTests (h : Hk) : h.runTests.measures = h.measures := rfl

theorem State.measured_modHk (s : State) {f : Hk → Hk} (h : (f s.hk).measures = s.hk.measures) :
    (s.modHk f).measured = s.measured := congrArg (Prod.mk { s with hk := {}, host := {} }) h

@[simp] theorem State.measured_raiseThermal (s : State) (code : Nat) (x : F32) (site : Nat) :
    (s.raiseThermal code x site).measured = s.measured := rfl

theorem State.measured_judgeSite (before : Hk) (s : State) (i : Nat) : (s.judgeSite before i).measured = s.measured := by
  unfold State.judgeSite
  split
  · rfl
  · extract_lets near out hit runs run flip marked
    have hmarked : marked.measured = s.measured := s.measured_modHk rfl
    clear_value marked
    split <;> exact hmarked

theorem State.measured_judgeSites (s : State) : s.judgeSites.measured = s.measured := by
  unfold State.judgeSites
  extract_lets fallen before judged fault marked
  have hfallen : fallen.measured = s.measured := by
    refine foldl_keeps State.measured (fun s i => ?_) _ s
    split
    · rfl
    · dsimp only
      split
      · exact s.measured_modHk rfl
      · rw [State.measured_raiseThermal]
        exact s.measured_modHk rfl
  have hjudged : judged.measured = s.measured :=
    (foldl_keeps State.measured (State.measured_judgeSite before) _ fallen).trans hfallen
  clear_value judged fault
  split
  · exact hjudged
  · rw [State.measured_raiseThermal]
    exact (judged.measured_modHk rfl).trans hjudged

/-- A condition that is set or cleared, with its event, is none of what a round measures. -/
theorem State.measured_condition (s : State) (c d : Prop) [Decidable c] [Decidable d] (code code' site : Nat)
    (x x' : F32) {f f' : Hk → Hk} (hf : (f s.hk).measures = s.hk.measures) (hf' : (f' s.hk).measures = s.hk.measures) :
    (if c then (s.modHk f).raiseThermal code x site
      else if d then (s.modHk f').raiseThermal code' x' site else s).measured = s.measured := by
  split
  · exact s.measured_modHk hf
  · split
    · exact s.measured_modHk hf'
    · rfl

/-- The conditions of a round end with the throttle factor. -/
theorem State.judgeConditions_eq (s : State) : ∃ u : State, u.measured = s.measured ∧
    s.judgeConditions = u.modHk (fun h => { h with throttle := h.factor }) := by
  unfold State.judgeConditions
  extract_lets ran set clear rated throttled shut
  refine ⟨shut, ?_, rfl⟩
  have hran : ran.measured = s.measured := s.measured_modHk s.hk.measures_runTests
  clear_value set clear ran
  have hrated : rated.measured = ran.measured := ran.measured_condition _ _ _ _ _ _ _ rfl rfl
  clear_value rated
  have hthrottled : throttled.measured = rated.measured := rated.measured_condition _ _ _ _ _ _ _ rfl rfl
  clear_value throttled
  have hshut : shut.measured = throttled.measured := by
    unfold shut
    split
    · exact throttled.measured_modHk rfl
    · rfl
  rw [hshut, hthrottled, hrated, hran]

/-- A round takes its measures and sets the throttle factor by its temperatures. -/
theorem State.housekeepingRound_eq (s : State) (m : HkMeas) : ∃ u : State,
    u.measured = ({ s with hk := {}, host := {} }, (s.hk.rounds + 1) % 2 ^ 32, m.vin, m.vfan, true) ∧
    s.housekeepingRound m = u.modHk (fun h => { h with throttle := h.factor }) := by
  unfold State.housekeepingRound
  dsimp only
  generalize htaken : s.modHk _ = taken
  have hmeasured : taken.measured =
      ({ s with hk := {}, host := {} }, (s.hk.rounds + 1) % 2 ^ 32, m.vin, m.vfan, true) := htaken ▸ rfl
  obtain ⟨u, hu, heq⟩ := (taken.judgeSites.modHk Hk.derive).judgeConditions_eq
  refine ⟨u, hu.trans ?_, heq⟩
  have hderive : (taken.judgeSites.modHk Hk.derive).measured = taken.judgeSites.measured :=
    State.measured_modHk _ (Hk.measures_derive _)
  rw [hderive, State.measured_judgeSites, hmeasured]

end Sys2Proof.Machine
end

section
open Sys2Proof Sys2Proof.Machine

/-- Settles O30: each row by its guard, and a round by what it measures and the factor it ends with. -/
theorem clocksAndHousekeeping : Obligations.ClocksAndHousekeeping := by
  unfold Obligations.ClocksAndHousekeeping
  refine ⟨⟨fun s hon hpower hgood => ?lock, fun s hon hgood hpeer => ?fails, fun s hon hbad => ?clears,
      fun s hon => ?checkpoint⟩,
    fun s m hon => ?round, fun before s i x m hi hsite hin _ => ?site, fun s i x hon hin hhot => ?abort,
    fun s i x hout => ?noAbort⟩
  case lock => exact congrArg Host.Outcome.next (if_pos (by simp [State.logicPowered, hon, hpower, hgood]))
  case fails =>
    have hfails : s.crystal true =
        ({ s with hk := { s.hk with crystalFail := true }, fineValid := false } : State).raise
          causeSupply 0xFFFF 18 1 := by
      rw [State.crystal, if_neg (by simp [hgood])]
      extract_lets known marked aligned
      have hstill : ¬(true && (marked.peer 0).state != 0) = true := by
        rw [show (marked.peer 0).state = 0 from hpeer]
        decide
      rw [show aligned = marked from if_neg hstill]
      rfl
    have hsame : (s.crystal true).reportAlign s = s.crystal true := by
      have hpeers : (s.crystal true).peer 0 = s.peer 0 := by rw [hfails]; rfl
      rw [State.reportAlign, hpeers, bne_self_eq_false]
      rfl
    exact (congrArg Host.Outcome.next (if_pos hon)).trans (congrArg Host.Outcome.next (hsame.trans hfails))
  case clears =>
    have hclears : s.crystal false =
        ({ s with hk := { s.hk with crystalFail := false } } : State).raise causeSupply 0xFFFF 18 0 := by
      rw [State.crystal, if_neg (by simp [hbad])]
      rfl
    exact (congrArg Host.Outcome.next (if_pos hon)).trans (congrArg Host.Outcome.next hclears)
  case checkpoint =>
    refine congrArg Host.Outcome.next ?_
    by_cases hmult : s.tick % 65536 = 0 <;> simp [hon, hmult, State.writeCheckpoint]
  case round =>
    obtain ⟨u, hmeasured, heq⟩ := s.housekeepingRound_eq m
    have hbeside : ({ u with hk := {}, host := {} } : State) = { s with hk := {}, host := {} } :=
      congrArg Prod.fst hmeasured
    refine ⟨_, congrArg Host.Outcome.next (if_pos hon), ?_⟩
    rw [heq]
    refine ⟨congrArg (·.2.1) hmeasured, congrArg (·.2.2.1) hmeasured, congrArg (·.2.2.2.1) hmeasured,
      congrArg (·.2.2.2.2) hmeasured, rfl, ?_⟩
    exact congrArg (fun v : State =>
      { v with hk := (u.modHk (fun h => { h with throttle := h.factor })).hk, host := u.host }) hbeside
  case site =>
    intro near hmedian hoff hrun
    have hnear : siteNeighbours.getD i [] = near := siteNeighbours_getD hi
    rw [State.judgeSite_excludes hsite hin (by rw [hnear]; exact hmedian) hoff hrun]
    exact ⟨rfl, rfl⟩
  case abort => exact congrArg Host.Outcome.next (if_pos (by simp [hon, hin, hhot]))
  case noAbort => exact congrArg Host.Outcome.next (if_neg (by simp [hout]))

end

section
/-! # What the stores do at a boundary (R118, R119, R125, R354, R379) -/

namespace Sys2Proof.Machine

/-! ## The generation that becomes active -/

/-- A change of generations that keeps their numbers and contents keeps what each number stands for. -/
theorem State.generation_modGen (s : State) (n m : Nat) {f : Generation → Generation}
    (hf : ∀ g, (f g).number = g.number ∧ (f g).content = g.content) :
    ((s.modGen n f).generation m).map Generation.content = (s.generation m).map Generation.content := by
  have hnumber : ∀ g, (if g.number = n then f g else g).number = g.number := fun g => by
    split
    · exact (hf g).1
    · rfl
  have hcontent : ∀ g, (if g.number = n then f g else g).content = g.content := fun g => by
    split
    · exact (hf g).2
    · rfl
  unfold State.generation
  rw [State.modGen_gens, List.find?_map, Option.map_map]
  simp only [Function.comp_def, hnumber, hcontent]

theorem State.content_of_generation {s : State} {c : Content}
    (h : (s.generation s.activeGen).map Generation.content = some c) : s.content = c := by
  obtain ⟨g, hg, hc⟩ := Option.map_eq_some_iff.mp h
  rw [State.content, hg]
  exact hc

/-- The generations tell the content of the active one. -/
def Still.content (t : Still) : Content :=
  match t.gens.find? (fun g => g.number == t.activeGen) with
  | some g => g.content
  | none => []

section
variable {s : State} {a : Awaiting} {g : Generation}

/-- The generation that awaits boundary `t` becomes active there, with its content, and nothing awaits then. -/
theorem State.activate_due {t : Nat} (ha : s.awaiting = some a) (hg : s.generation a.number = some g)
    (ht : a.at_ = t) : (s.activate t).turn.still.activeGen = a.number ∧
      (s.activate t).turn.still.awaiting = none ∧ (s.activate t).turn.still.content = g.content := by
  unfold State.activate
  simp -zeta only [ha, hg]
  rw [if_neg (fun h => h ht)]
  extract_lets old cut was stored active named ended switched resized flagged
  have hcut : cut.turn = s.turn := by
    unfold cut
    simp
  have hnamed : (named.generation a.number).map Generation.content = some g.content := by
    have hgens : cut.gens = s.gens := congrArg Turn.gens hcut
    have hcutGen : cut.generation a.number = some g := by rw [State.generation, hgens]; exact hg
    have hactive : (active.generation a.number).map Generation.content = some g.content := by
      have hmarked : (active.generation a.number).map Generation.content =
          (stored.generation a.number).map Generation.content :=
        State.generation_modGen stored _ _ (fun g => ⟨rfl, rfl⟩)
      have hstored : (stored.generation a.number).map Generation.content =
          (cut.generation a.number).map Generation.content :=
        State.generation_modGen cut _ _ (fun g => ⟨rfl, rfl⟩)
      rw [hmarked, hstored, hcutGen]
      rfl
    exact hactive
  have hstill : ((flagged.resizeRing t).switchLink old).syncHives.turn.still = named.turn.still := by
    have hended : ended.turn = named.turn := turn_foldl (fun s j => s.turn_endChange _ _ _ _ _) _ _
    have hswitched : switched.turn.still = ended.turn.still := ended.still_switchUnits old t
    clear_value switched
    have hresized : resized.turn.still = switched.turn.still := rfl
    have hflagged : flagged.turn = resized.turn := turn_foldl State.turn_vfldFlags _ _
    rw [State.turn_syncHives, State.turn_switchLink, State.still_resizeRing, hflagged, hresized, hswitched, hended]
  rw [hstill]
  exact ⟨rfl, rfl, State.content_of_generation (s := named) hnamed⟩

end

/-! ## Segments of the input record -/

/-- The state beside the input record, the host interface and what jobs touch. -/
def State.besideRecord (s : State) : State := { s.besideJobs with inrec := {} }

/-- What of the input record the entries of a segment do not change. -/
def InRec.segment (r : InRec) : Bool × Nat × Nat := (r.open_, r.t0, r.scope)

theorem State.besideRecord_recOverwritten (s : State) (gone : List (List Byte)) :
    (s.recOverwritten gone).besideRecord = s.besideRecord :=
  congrArg (fun v : State => { v with inrec := {} }) (s.besideJobs_recOverwritten gone)

theorem State.inrec_recOverwritten (s : State) (gone : List (List Byte)) :
    (s.recOverwritten gone).inrec = s.inrec :=
  (show (s.recOverwritten gone).besideJobs.inrec = s.besideJobs.inrec by rw [s.besideJobs_recOverwritten gone])

theorem State.besideRecord_append (s : State) (es : List (List Byte)) : (s.append es).besideRecord = s.besideRecord :=
  State.besideRecord_recOverwritten _ _

theorem State.segment_append (s : State) (es : List (List Byte)) :
    (s.append es).inrec.segment = s.inrec.segment := by
  rw [State.append, State.inrec_recOverwritten]
  rfl

theorem State.besideRecord_closeWindow (s : State) (t : Nat) : (s.closeWindow t).besideRecord = s.besideRecord :=
  State.besideRecord_append _ _

/-- A segment that ends is no longer open. -/
theorem State.open_endSegment {s : State} (t last reason : Nat) (h : s.inrec.open_ = true) :
    (s.endSegment t last reason).inrec.open_ = false := by
  unfold State.endSegment
  rw [if_neg (by simp [h])]

theorem State.besideRecord_endSegment (s : State) (t last reason : Nat) :
    (s.endSegment t last reason).besideRecord = s.besideRecord := by
  have hended (u : State) (es : List (List Byte)) (f : InRec → InRec) :
      ({ u.append es with inrec := f (u.append es).inrec } : State).besideRecord = u.besideRecord :=
    u.besideRecord_append es
  unfold State.endSegment
  split
  · rfl
  · dsimp only
    split
    · exact (hended _ _ (fun r => { r with open_ := false })).trans (s.besideRecord_closeWindow _)
    · exact hended _ _ (fun r => { r with open_ := false })

theorem State.besideRecord_beginSegment (s : State) (t : Nat) : (s.beginSegment t).besideRecord = s.besideRecord :=
  State.besideRecord_append _ _

theorem State.segment_beginSegment (s : State) (t : Nat) :
    (s.beginSegment t).inrec.segment = (true, t, s.run P.INREC_SCOPE 0) := State.segment_append _ _

theorem State.recWanted_of {s t : State} (h : t.besideRecord = s.besideRecord) : t.recWanted = s.recWanted :=
  (show t.besideRecord.recWanted = s.besideRecord.recWanted by rw [h])

theorem State.work_of_besideRecord {s t : State} (h : t.besideRecord = s.besideRecord) : t.work = s.work :=
  (show t.besideRecord.work = s.besideRecord.work by rw [h])

theorem State.run_of_besideRecord {s t : State} (h : t.besideRecord = s.besideRecord) (id inst : Nat) :
    t.run id inst = s.run id inst := (show t.besideRecord.run id inst = s.besideRecord.run id inst by rw [h])

/-- A record that is wanted needs HUSH or RUN. -/
theorem State.power_of_recWanted {s : State} (h : s.recWanted = true) : s.power = .run ∨ s.power = .hush := by
  simp only [State.recWanted, Bool.and_eq_true, Bool.or_eq_true, beq_iff_eq] at h
  exact h.2

theorem State.awake_of_recWanted {s : State} (h : s.recWanted = true) : ¬s.power = .dormant := by
  rcases State.power_of_recWanted h with hp | hp <;> simp [hp]

section
variable {s : State} {t : Nat} (hwanted : s.recWanted = true)
include hwanted

/-- A segment that is wanted begins where none is open. -/
theorem State.recBoundary_begins (hclosed : s.inrec.open_ = false) :
    s.recBoundary t false false = s.beginSegment t := by
  unfold State.recBoundary
  simp [hclosed, hwanted]

/-- A segment that has run its ticks ends, and the next one begins. -/
theorem State.recBoundary_turns (hopen : s.inrec.open_ = true) (hscope : s.inrec.scope = s.run P.INREC_SCOPE 0)
    (hmode : s.run P.INREC_MODE 0 ≠ 2) (hbegan : s.inrec.t0 ≠ t)
    (hfull : s.inrec.t0 + s.run P.INREC_SEGMENT_TICKS 0 ≤ t) :
    s.recBoundary t false false = (s.endSegment (t - 1) (t - 1) 0).beginSegment t := by
  have hended := s.besideRecord_endSegment (t - 1) (t - 1) 0
  have hclosed := State.open_endSegment (t - 1) (t - 1) 0 hopen
  have hmode' : (s.endSegment (t - 1) (t - 1) 0).run P.INREC_MODE 0 ≠ 2 := by
    rwa [State.run_of_besideRecord hended]
  have hwanted' : (s.endSegment (t - 1) (t - 1) 0).recWanted = true := (State.recWanted_of hended).trans hwanted
  have hpower : (s.power != .run && s.power != .hush) = false := by
    rcases State.power_of_recWanted hwanted with h | h <;> simp [h]
  unfold State.recBoundary
  simp [hopen, hbegan, hpower, hwanted, hscope, hfull, hmode', hclosed, hwanted']

end

/-! ## Cells of other nodes -/

/-- The cell of an entry takes its value, with the node's root hive as SOURCE. -/
def State.remoteWritten (s : State) (r : RemoteEntry) : State :=
  s.modWork (fun p => p.setCell r.ref ((p.cell r.ref).write
    ⟨r.entry.value, r.entry.stamp, 8192 * (r.ref / 8192), r.entry.quality, r.entry.conditions, r.entry.type⟩))

/-- What a boundary does with remote entries: those that are due leave the queue and are written; then the subscription
that is due comes into force. -/
theorem State.remoteDue_eq (s : State) : s.remoteDue =
    (((s.link.remote.filter (fun e => decide (e.due ≤ s.tick))).foldl insertByStamp []).foldl State.remoteWritten
      (s.modLink (fun l => { l with remote := l.remote.filter (fun e => decide (s.tick < e.due)) }))).applySubscribe :=
  rfl

theorem State.applySubscribe_keeps (s : State) :
    s.applySubscribe.work = s.work ∧ s.applySubscribe.link.remote = s.link.remote := by
  unfold State.applySubscribe
  split <;> exact ⟨rfl, rfl⟩

/-- Entries that are due leave the queue, and no unit is changed by them. -/
theorem State.remoteDue_keeps (s : State) : s.remoteDue.work.units = s.work.units ∧
    s.remoteDue.link.remote = s.link.remote.filter (fun e => decide (s.tick < e.due)) := by
  obtain ⟨hwork, hremote⟩ := State.applySubscribe_keeps
    (((s.link.remote.filter (fun e => decide (e.due ≤ s.tick))).foldl insertByStamp []).foldl State.remoteWritten
      (s.modLink (fun l => { l with remote := l.remote.filter (fun e => decide (s.tick < e.due)) })))
  rw [State.remoteDue_eq, hwork, hremote]
  exact ⟨foldl_keeps (f := State.remoteWritten) (fun s => s.work.units) (fun _ _ => rfl) _ _,
    foldl_keeps (f := State.remoteWritten) (fun s => s.link.remote) (fun _ _ => rfl) _ _⟩

/-- The only entry that is due is written. -/
theorem State.remoteDue_one {s : State} {r : RemoteEntry}
    (h : s.link.remote.filter (fun e => decide (e.due ≤ s.tick)) = [r]) :
    s.remoteDue.work = (s.remoteWritten r).work := by
  rw [State.remoteDue_eq, h, (State.applySubscribe_keeps _).1]
  rfl

/-! ## A replay's start -/

/-- What an entry's header and the bytes after it tell. -/
theorem recEntry_reads (type ref tick : Nat) (payload : List Byte) :
    entryType (recEntry type ref tick payload) = type % 256 ∧ entryRef (recEntry type ref tick payload) = ref % 65536 ∧
      (recEntry type ref tick payload).drop 8 = payload := by
  have href : recEntry type ref tick payload =
      [BitVec.ofNat 8 type, BitVec.ofNat 8 payload.length] ++ (le 2 ref ++ (le 4 tick ++ payload)) := by
    simp [recEntry]
  refine ⟨by simp [entryType, recEntry, field, bytesAt, ofLe], ?_, rfl⟩
  rw [entryRef, href, field_append (off := 2) rfl (length_le 2 ref), ofLe_le]
  rfl

/-- Pieces that are enough of them put together are what was cut. -/
theorem flatten_chunks {n : Nat} (k : Nat) (b : List Byte) (h : b.length ≤ n * k) :
    (chunks n k b).flatten = b := by
  induction k generalizing b with
  | zero =>
    rw [List.eq_nil_of_length_eq_zero (Nat.le_zero.mp h)]
    rfl
  | succ k ih =>
    cases b with
    | nil => rfl
    | cons x b =>
      have hrest : ((x :: b).drop n).length ≤ n * k := by
        rw [List.length_drop]
        rw [Nat.mul_succ] at h
        omega
      rw [chunks, List.flatten_cons, ih _ hrest, List.take_append_drop]
      simp

/-- The SNAPSHOT entries of a unit give back the block that they were formed from. -/
theorem snapEntries_block (c : Content) (p : Plant) (tick : Nat) {u : Nat} (hu : u < 65536) :
    ((ofType 0x03 (snapEntries c p tick u)).filter (fun e => entryRef e == u)).flatMap (·.drop 8) =
      padTo (snapshotSize c u) (snapPack p u) := by
  have hkept : (ofType 0x03 (snapEntries c p tick u)).filter (fun e => entryRef e == u) = snapEntries c p tick u := by
    rw [ofType, List.filter_filter, List.filter_eq_self]
    intro e he
    obtain ⟨b, _, rfl⟩ := List.mem_map.mp he
    obtain ⟨htype, href, _⟩ := recEntry_reads 0x03 u tick b
    simp [htype, href, Nat.mod_eq_of_lt hu]
  rw [hkept, snapEntries]
  simp only [List.flatMap_map, (recEntry_reads _ _ _ _).2.2]
  rw [List.flatMap_id']
  exact flatten_chunks _ _ (by omega)

/-- A replay of one unit begins with its state as the SNAPSHOT entries hold it. -/
theorem State.replayStart_one (s : State) (u hive t0 : Nat) (es : List (Nat × List Byte)) :
    ∃ q, (s.replayStart [u] hive t0 es).work =
      snapUnpack (((ofType 0x03 (es.map (·.2))).filter (fun e => entryRef e == u)).flatMap (·.drop 8)) u q :=
  ⟨s.drawFree.2.view, rfl⟩

end Sys2Proof.Machine
end

section
open Sys2Proof Sys2Proof.Machine

/-- Settles O40: each store by what its one thing at the boundary leaves. -/
theorem boundaryStores : Obligations.BoundaryStores := by
  unfold Obligations.BoundaryStores
  refine ⟨fun s a g hruns hdone ha hat hg => ?activates, fun s hruns hdone hnone => ?waits,
    fun s hruns hdone hwanted hclosed => ?begins,
    fun s hruns hdone hwanted hopen hscope hmode hbegan hfull => ?turns, fun s hruns hdone => ?remote,
    fun s r hruns hdone hdue => ?cell, fun same hsnap s c p u hive t0 tick es hu hes => ?replay⟩
  case activates =>
    obtain ⟨hnumber, hnone, hcontent⟩ := State.activate_due (s := s.atNext) ha hg hat
    have hrow : exec .generationActivate s = .next (s.afterBoundary
        (((s.atNext.activate (s.workTick + 1)).syncHives).recBoundary (s.workTick + 1) true false)) := by
      refine congrArg Host.Outcome.next ((State.atBoundary_committed _ hruns hdone).trans (congrArg s.afterBoundary ?_))
      rw [show s.atNext.awaiting = some a from ha]
      exact if_pos hat
    generalize hr : ((s.atNext.activate (s.workTick + 1)).syncHives).recBoundary (s.workTick + 1) true false = r at hrow
    have hstill : r.turn.still = (s.atNext.activate (s.workTick + 1)).turn.still := by
      rw [← hr, State.turn_recBoundary, State.turn_syncHives]
    rw [← hstill] at hnumber hnone hcontent
    exact ⟨_, hrow, hnumber, hnone, hcontent, rfl⟩
  case waits =>
    refine congrArg Host.Outcome.next ((State.atBoundary_committed _ hruns hdone).trans ?_)
    rw [← s.afterBoundary_atNext]
    refine congrArg s.afterBoundary ?_
    cases ha : s.awaiting with
    | none => rw [show s.atNext.awaiting = none from ha]
    | some a =>
      rw [show s.atNext.awaiting = some a from ha]
      exact if_neg (hnone a ha)
  case begins =>
    have hrow : exec .inrecSegmentBoundary s = .next (s.afterBoundary (s.atNext.beginSegment (s.workTick + 1))) := by
      refine congrArg Host.Outcome.next ((State.atBoundary_committed _ hruns hdone).trans (congrArg s.afterBoundary ?_))
      rw [if_neg (State.awake_of_recWanted (s := s.atNext) hwanted)]
      exact State.recBoundary_begins (s := s.atNext) hwanted hclosed
    have hsegment := s.atNext.segment_beginSegment (s.workTick + 1)
    have hwork : (s.atNext.beginSegment (s.workTick + 1)).work = s.atNext.work :=
      State.work_of_besideRecord (s.atNext.besideRecord_beginSegment _)
    exact ⟨_, hrow, congrArg Prod.fst hsegment, congrArg (·.2.1) hsegment, congrArg (·.2.2) hsegment, hwork⟩
  case turns =>
    have hbegan' : s.inrec.t0 ≠ s.workTick + 1 := by omega
    have hrow : exec .inrecSegmentBoundary s = .next (s.afterBoundary
        ((s.atNext.endSegment s.workTick s.workTick 0).beginSegment (s.workTick + 1))) := by
      refine congrArg Host.Outcome.next ((State.atBoundary_committed _ hruns hdone).trans (congrArg s.afterBoundary ?_))
      rw [if_neg (State.awake_of_recWanted (s := s.atNext) hwanted)]
      exact State.recBoundary_turns (s := s.atNext) hwanted hopen hscope hmode hbegan' hfull
    have hsegment := (s.atNext.endSegment s.workTick s.workTick 0).segment_beginSegment (s.workTick + 1)
    have hwork : ((s.atNext.endSegment s.workTick s.workTick 0).beginSegment (s.workTick + 1)).work = s.atNext.work :=
      (State.work_of_besideRecord (State.besideRecord_beginSegment _ _)).trans
        (State.work_of_besideRecord (s.atNext.besideRecord_endSegment _ _ _))
    exact ⟨_, hrow, congrArg Prod.fst hsegment, congrArg (·.2.1) hsegment, hwork⟩
  case remote =>
    refine ⟨_, congrArg Host.Outcome.next (State.atBoundary_committed _ hruns hdone), ?_⟩
    obtain ⟨hunits, hremote⟩ := s.atNext.remoteDue_keeps
    exact ⟨hremote, hunits⟩
  case cell =>
    refine ⟨_, congrArg Host.Outcome.next (State.atBoundary_committed _ hruns hdone), ?_⟩
    have hwork : (s.afterBoundary s.atNext.remoteDue).work = (s.atNext.remoteWritten r).work :=
      State.remoteDue_one (s := s.atNext) hdue
    rw [hwork]
    simp only [State.remoteWritten, State.modWork_work, Plant.cell_setCell, if_true]
    refine ⟨Cell.write_written _ _, Cell.write_own _ _, fun q hq => ?_⟩
    rw [if_neg (fun h => hq h.symm)]
    rfl
  case replay =>
    obtain ⟨q, hwork⟩ := s.replayStart_one u hive t0 es
    rw [hwork, hes, snapEntries_block c p tick (by omega)]
    exact hsnap c p q u

end

section
/-! # Memory errors: corrected words, pages that are retired, stored data that are lost (R105, R106, R111, R112) -/

namespace Sys2Proof.Machine

/-! ## Corrected words -/

/-- Corrections of a page within the window of R111, with one of `address` now. -/
def State.corrections (s : State) (page address : Nat) : List (Nat × Nat) :=
  (Tab.get [] s.sram.corrected page).filter (fun e => e.1 != address && decide (s.tick ≤ e.2 + 1048576)) ++
    [(address, s.tick)]

/-- The state in which a correction is counted. -/
def State.corrected (s : State) (page address : Nat) : State :=
  { s with sram := { s.sram with
    corrCount := sat32 (s.sram.corrCount + 1)
    corrected := Tab.put [] s.sram.corrected page (s.corrections page address) } }

theorem execEccCorrected_counts {s : State} (hp : s.logicPowered = true) (page : Fin 2048) (address : Nat) :
    exec (.eccCorrected page address) s = .next (if 4 ≤ (s.corrections page.val address).length
      then (s.corrected page.val address).pageFails page.val else s.corrected page.val address) :=
  if_neg (by simp [hp])

theorem State.mem_retireDue_pageFails_iff (s : State) (p : Nat) :
    p ∈ (s.pageFails p).sram.retireDue ↔ p ∈ s.sram.retireDue ∨ s.sram.retired.contains p = false := by
  unfold State.pageFails
  cases h : s.sram.retired.contains p with
  | true => rw [if_pos rfl]; simp
  | false => rw [if_neg (by decide)]; simp [mem_insertSorted]

/-! ## Retirement of a page -/

theorem mem_sortNats {l : List Nat} {x : Nat} : x ∈ sortNats l ↔ x ∈ l := by
  simpa [sortNats] using (foldl_insertSorted l [] List.Pairwise.nil).2.1 x

/-- A page that is retired: the pages in service change, not the list of those that are due. -/
theorem Sram.retire_some {m r : Sram} {p : Nat} (h : m.retire p = some r) :
    r.retired = sortNats (p :: m.retired) ∧ r.retireDue = m.retireDue := by
  unfold Sram.retire at h
  split at h
  · split at h
    · cases h
    · cases h; exact ⟨rfl, rfl⟩
  · cases h; exact ⟨rfl, rfl⟩

/-- Which page takes a retired page's place does not depend on the pages that are due. -/
theorem Sram.retire_retireDue (m : Sram) (due : List Nat) (p : Nat) :
    ({ m with retireDue := due } : Sram).retire p = (m.retire p).map (fun r => { r with retireDue := due }) := by
  unfold Sram.retire
  rw [show ({ m with retireDue := due } : Sram).pool = m.pool from rfl]
  dsimp only
  split
  · split <;> rfl
  · rfl

/-- PAGE_RETIRE after a commit: the page is retired at the boundary, whatever pages are due there. -/
theorem execPageRetire_committed {s : State} (page : Fin 2048) (hl : s.logicRuns = true) (hc : s.committed = true) :
    ∃ m : Sram, m = { s.sram with retireDue := m.retireDue } ∧
      exec (.pageRetire page) s = .next
        (({ s with sram := m } : State).afterBoundary (({ s with sram := m } : State).atNext.retirePage page.val)) := by
  refine ⟨(s.pageFails page.val).sram, s.pageFails_sram page.val, ?_⟩
  show execPageRetire page s = _
  unfold execPageRetire
  rw [if_neg (by simp [hl]), ← s.pageFails_eq page.val, State.atBoundary_committed]
  · rw [s.pageFails_eq page.val]
    exact hl
  · rw [s.pageFails_eq page.val]
    exact hc

/-- A page that can be retired leaves the list of those that are due. -/
theorem State.retirePage_some {s : State} {p : Nat} {m : Sram} (hin : s.sram.retired.contains p = false)
    (hm : s.sram.retire p = some m) :
    s.retirePage p = { s with sram := { m with retireDue := s.sram.retireDue.filter (fun x => x != p) } } := by
  unfold State.retirePage
  dsimp only
  rw [if_neg (by rw [hin]; decide), Sram.retire_retireDue, hm]
  rfl

/-- A page for which the pool has none is marked for the next start. -/
theorem State.retirePage_none {s : State} {p : Nat} (hin : s.sram.retired.contains p = false)
    (hm : s.sram.retire p = none) :
    s.retirePage p = ({ s with
      sram := { s.sram with retireDue := s.sram.retireDue.filter (fun x => x != p) }
      boot := { s.boot with marksPages := sortNats (p :: s.boot.marksPages) } } : State).raise
        causeSupply 0xFFFF 19 p := by
  unfold State.retirePage
  dsimp only
  rw [if_neg (by rw [hin]; decide), Sram.retire_retireDue, hm]
  rfl

/-- A boundary that ends in the power state it began in, seen from the state before it. -/
theorem State.afterBoundary_of_power {s r : State} (h : r.power = s.power) :
    s.afterBoundary r = { r with tick := s.tick, workTick := s.workTick, base := r.work } := by
  have hstay : ¬(r.power = .dormant ∧ s.power ≠ .dormant) := fun hd => hd.2 (h ▸ hd.1)
  simp only [State.afterBoundary, if_neg hstay]

theorem pageRetire_some {s : State} {page : Fin 2048} {m : Sram} (hl : s.logicRuns = true) (hc : s.committed = true)
    (hin : s.sram.retired.contains page.val = false) (hm : s.sram.retire page.val = some m) :
    ∃ due, page.val ∉ due ∧
      exec (.pageRetire page) s = .next { s with sram := { m with retireDue := due }, base := s.work } := by
  obtain ⟨found, hfound, hrow⟩ := execPageRetire_committed page hl hc
  have hret : found.retire page.val = some { m with retireDue := found.retireDue } := by
    rw [hfound, Sram.retire_retireDue, hm]
    rfl
  have hout : found.retired.contains page.val = false := by rw [hfound]; exact hin
  refine ⟨found.retireDue.filter (fun x => x != page.val), by simp, hrow.trans (congrArg Host.Outcome.next ?_)⟩
  have hpage := State.retirePage_some (s := ({ s with sram := found } : State).atNext) hout hret
  exact (congrArg _ hpage).trans (State.afterBoundary_of_power rfl)

theorem pageRetire_none {s : State} {page : Fin 2048} (hl : s.logicRuns = true) (hc : s.committed = true)
    (hin : s.sram.retired.contains page.val = false) (hm : s.sram.retire page.val = none) :
    ∃ due, exec (.pageRetire page) s = .next (({ s with
      sram := { s.sram with retireDue := due }
      base := s.work
      boot := { s.boot with marksPages := sortNats (page.val :: s.boot.marksPages) } } : State).raiseAt
        (s.workTick + 1) causeSupply 0xFFFF 19 page.val) := by
  obtain ⟨found, hfound, hrow⟩ := execPageRetire_committed page hl hc
  have hret : found.retire page.val = none := by
    rw [hfound, Sram.retire_retireDue, hm]
    rfl
  have hout : found.retired.contains page.val = false := by rw [hfound]; exact hin
  refine ⟨found.retireDue.filter (fun x => x != page.val), hrow.trans (congrArg Host.Outcome.next ?_)⟩
  have hpage := State.retirePage_none (s := ({ s with sram := found } : State).atNext) hout hret
  have hsame (due : List Nat) : ({ s.sram with retireDue := due } : Sram) = { found with retireDue := due } := by
    rw [hfound]
  rw [hsame]
  exact (congrArg _ hpage).trans (State.afterBoundary_of_power rfl)

/-! ## Uncorrectable errors -/

/-- The state in which the page of an uncorrectable error is noted as failing. -/
def State.badPage (s : State) (page : Option (Fin 2048)) : State :=
  if s.logicPowered then page.elim s (fun p => s.pageFails p.val) else s

theorem State.badPage_none (s : State) : s.badPage none = s := ite_self s

theorem State.badPage_eq (s : State) (page : Option (Fin 2048)) : ∃ m, s.badPage page = { s with sram := m } := by
  unfold State.badPage
  split
  · cases page with
    | none => exact ⟨s.sram, rfl⟩
    | some p => exact ⟨_, s.pageFails_eq p.val⟩
  · exact ⟨s.sram, rfl⟩

theorem State.mem_retireDue_badPage {s : State} {p : Fin 2048} (hp : s.logicPowered = true)
    (hin : s.sram.retired.contains p.val = false) : p.val ∈ (s.badPage (some p)).sram.retireDue := by
  rw [State.badPage, if_pos hp]
  exact State.mem_retireDue_pageFails hin

/-- What an error does to the place in which it is found, but for system data (Table 03-4). -/
def State.spoil (s : State) : EccPlace → State
  | .unit slot => s.unitBad slot.val
  | .cell index => s.cellBad index.val
  | .record => s.recordGap s.workTick (if s.committed then s.workTick else s.workTick - 1)
  | .system _ => s
  | .replyCache id => s.modSession id (fun x => { x with cached := none, awaits := x.awaits || x.cached.isSome })
  | .linkReply id => { s with link := { s.link with replies := s.link.replies.filter (fun r => r.1 != id) } }
  | .heldSummary seq => s.heldLost seq
  | .flashSummary founding seq => s.summaryBad founding seq
  | .update block => s.stagedBad block

theorem exec_eccUncorrectable (s : State) (page : Option (Fin 2048)) {place : EccPlace}
    (h : ∀ report, place ≠ .system report) :
    exec (.eccUncorrectableCommitted ⟨page, place⟩) s = .next ((s.badPage page).spoil place) := by
  cases place with
  | system report => exact absurd rfl (h report)
  | _ => rfl

theorem exec_eccUncorrectable_none (s : State) {place : EccPlace} (h : ∀ report, place ≠ .system report) :
    exec (.eccUncorrectableCommitted ⟨none, place⟩) s = .next (s.spoil place) := by
  rw [exec_eccUncorrectable s none h, State.badPage_none]

/-! ## Cells and units -/

/-- A plant in which a cell reads VALUE 0 with BAD. -/
def Plant.spoilCell (p : Plant) (ref : Nat) : Plant :=
  p.setCell ref { p.cell ref with own := (p.cell ref).own.spoiled, forced := (p.cell ref).forced.map CellVal.spoiled }

theorem Plant.own_spoilCell (p : Plant) (ref : Nat) : ((p.spoilCell ref).cell ref).own = (p.cell ref).own.spoiled := by
  simp only [Plant.spoilCell, Plant.setCell, Plant.cell, Tab.get_put, if_true]

/-- The state in which a written cell has been found bad. -/
def State.cellSpoiled (s : State) (ref : Nat) : State :=
  { s with
    prev := s.prev.spoilCell ref
    base := s.base.spoilCell ref
    work := if s.work.cell ref = s.base.cell ref then s.work.spoilCell ref else s.work }.note 0x32 ref []

theorem State.cellBad_eq (s : State) (ref : Nat) :
    s.cellBad ref = if !s.logicRuns || !(s.base.cell ref).written then s else s.cellSpoiled ref := by
  unfold State.cellBad State.cellSpoiled
  simp only [decide_eq_true_eq]
  rfl

/-- The state in which a unit's committed state has been found bad. -/
def State.unitHeld (s : State) (slot : Nat) : State :=
  { s with
    draws := s.draws + 1
    work := s.work.modUnit slot (fun u => { u with holdDue := some (Config.draw s.draws % 256) })
    base := s.base.modUnit slot (fun u => { u with holdDue := some (Config.draw s.draws % 256) })
    inrec := { s.inrec with notes := s.inrec.notes ++ [(0x31, slot, code4 (Config.draw s.draws % 256))] } }

theorem State.unitBad_committed {s : State} {slot : Nat} (hl : s.logicRuns = true) (hu : s.has slot = true)
    (hc : s.committed = true) : s.unitBad slot = s.unitHeld slot := by
  unfold State.unitBad
  rw [if_neg (by simp [hl, hu])]
  exact if_pos hc

theorem State.unitBad_waits {s : State} {slot : Nat} (hl : s.logicRuns = true) (hu : s.has slot = true)
    (hc : s.committed = false) (he : s.evaluated = false) :
    s.unitBad slot = { s.unitHeld slot with skip := insertSorted s.skip slot } := by
  unfold State.unitBad
  rw [if_neg (by simp [hl, hu])]
  exact (if_neg (by exact Bool.eq_false_iff.mp hc)).trans (if_pos (congrArg (!·) he))

theorem State.holdDue_unitHeld (s : State) (slot : Nat) : ((s.unitHeld slot).work.unit slot).holdDue.isSome = true := by
  simp only [State.unitHeld, Plant.modUnit, Plant.unit, Tab.get_put, if_true, Option.isSome_some]

/-- A unit in the list of those to be skipped is not evaluated. -/
theorem State.evalUnit_skipped {s : State} {slot : Nat} (h : slot ∈ s.skip) : s.evalUnit slot = s :=
  if_pos (by simp [h])

/-! ## The pages that are due, beside the place of the error -/

theorem State.sram_unitBad (s : State) (slot : Nat) : (s.unitBad slot).sram = s.sram := by
  unfold State.unitBad
  split
  · rfl
  · dsimp only
    split
    · rfl
    · split
      · rfl
      · rw [State.uncut_eq]
        rfl

theorem State.sram_cellBad (s : State) (ref : Nat) : (s.cellBad ref).sram = s.sram := by
  rw [State.cellBad_eq]
  split <;> rfl

theorem State.sram_of_besideRecord {s t : State} (h : t.besideRecord = s.besideRecord) : t.sram = s.sram :=
  (show t.besideRecord.sram = s.besideRecord.sram by rw [h])

theorem State.besideRecord_gap (s : State) (t last : Nat) :
    ((s.append [recEntry 0x37 0 t []]).endSegment t last 4).besideRecord = s.besideRecord :=
  (State.besideRecord_endSegment _ _ _ _).trans (s.besideRecord_append _)

theorem State.sram_recordGap (s : State) (t last : Nat) : (s.recordGap t last).sram = s.sram := by
  have hgap := State.sram_of_besideRecord (s.besideRecord_gap t last)
  unfold State.recordGap
  split
  · rfl
  · dsimp only
    split <;> exact hgap

theorem State.recordGap_open {s : State} (t last : Nat) (ho : s.inrec.open_ = true) (hm : s.run P.INREC_MODE 0 ≠ 2) :
    s.recordGap t last = (s.append [recEntry 0x37 0 t []]).endSegment t last 4 := by
  unfold State.recordGap
  rw [if_neg (by simp [ho])]
  exact if_neg (by rw [State.run_of_besideRecord (s.besideRecord_gap t last)]; exact hm)

theorem State.sram_heldLost (s : State) (seq : Nat) : (s.heldLost seq).sram = s.sram := by
  unfold State.heldLost
  split <;> rfl

theorem State.sram_summaryBad (s : State) (founding : Bool) (seq : Nat) :
    (s.summaryBad founding seq).sram = s.sram := by
  unfold State.summaryBad
  exact (apply_ite State.sram _ _ _).trans (ite_self _)

theorem State.sram_stagedBad (s : State) (n : Nat) : (s.stagedBad n).sram = s.sram := by
  unfold State.stagedBad
  dsimp only
  split <;> rfl

/-- What an error does to the place in which it is found leaves the pages as they are. -/
theorem State.sram_spoil (s : State) (place : EccPlace) : (s.spoil place).sram = s.sram := by
  cases place with
  | unit slot => exact s.sram_unitBad slot.val
  | cell index => exact s.sram_cellBad index.val
  | record => exact s.sram_recordGap _ _
  | heldSummary seq => exact s.sram_heldLost seq
  | flashSummary founding seq => exact s.sram_summaryBad founding seq
  | update block => exact s.sram_stagedBad block
  | system _ | replyCache _ | linkReply _ => rfl

/-! ## Sessions and summaries -/

/-- A session found by its ID is found there after a change that leaves the IDs. -/
theorem State.session_modSession {s : State} {id : BitVec 16} {f : Session → Session} (hf : ∀ x, (f x).id = x.id) :
    (s.modSession id f).session id = (s.session id).map f := by
  have hid (x : Session) : (if x.id = id then f x else x).id = x.id := by
    split
    · exact hf x
    · rfl
  unfold State.session State.modSession
  dsimp only
  have hsame : ((fun x : Session => x.id == id) ∘ fun x => if x.id = id then f x else x) = fun x => x.id == id :=
    funext fun x => by simp only [Function.comp_apply, hid]
  rw [List.find?_map, hsame]
  cases h : s.host.sessions.find? (fun x => x.id == id) with
  | none => rfl
  | some x =>
    have hx : x.id = id := by simpa using List.find?_some h
    exact congrArg some (if_pos hx)

/-- A summary marked with the sector in which it was found unreadable. -/
def Summary.markBad (seq sector : Nat) (x : Summary) : Summary :=
  if x.seq = seq then { x with unreadable := some sector } else x

theorem Summary.find_markBad {l : List Summary} {seq : Nat} {x : Summary} (sector : Nat)
    (h : l.find? (fun x => x.seq == seq) = some x) :
    (l.map (Summary.markBad seq sector)).find? (fun x => x.seq == seq) = some { x with unreadable := some sector } := by
  have hseq (x : Summary) : (x.markBad seq sector).seq = x.seq := by
    unfold Summary.markBad
    split <;> rfl
  have hx : x.seq = seq := by simpa using List.find?_some h
  have hsame : (fun x : Summary => x.seq == seq) ∘ Summary.markBad seq sector = fun x => x.seq == seq :=
    funext fun x => by simp only [Function.comp_apply, hseq]
  rw [List.find?_map, hsame, h]
  exact congrArg some (if_pos hx)

/-- A readable summary in flash that a read finds bad is marked, and the failed sector counted. -/
theorem State.summaryBad_marks {s : State} {founding : Bool} {seq : Nat} {x : Summary}
    (hfind : (if founding then s.recorder.founding else s.recorder.rolling).find? (fun x => x.seq == seq) = some x)
    (hx : x.unreadable = none) :
    s.summaryBad founding seq = { s.sectorFails.2 with recorder :=
      if founding then { s.sectorFails.2.recorder with
        founding := s.recorder.founding.map (Summary.markBad seq s.sectorFails.1) }
      else { s.sectorFails.2.recorder with
        rolling := s.recorder.rolling.map (Summary.markBad seq s.sectorFails.1) } } := by
  have hany : (if founding then s.recorder.founding else s.recorder.rolling).any
      (fun x => x.seq == seq && x.unreadable.isNone) = true := by
    refine List.any_eq_true.mpr ⟨x, List.mem_of_find?_eq_some hfind, ?_⟩
    have hseq : (x.seq == seq) = true := List.find?_some (p := fun x : Summary => x.seq == seq) hfind
    simp [hseq, hx]
  exact if_pos hany

end Sys2Proof.Machine
end

section
open Sys2Proof Sys2Proof.Machine

/-- Settles O29: the correction and the retirement by their rows, the uncorrectable errors by what each place loses. -/
theorem memoryErrors : Obligations.MemoryErrors := by
  unfold Obligations.MemoryErrors
  refine ⟨⟨fun s page address hp => ?corrected, fun s page hp => congrArg Host.Outcome.next (if_pos hp),
      fun s page m hl hc hin hm => ?retired, fun s page hl hc hin hm => ?waiting⟩,
    fun s page index hl hc hw hsame => ?cell, fun s page slot hl hu hc => ?unit, fun s slot hl hu hc he => ?skipped,
    fun s page place hp hin hplace => ?due, fun s id x hx hcached => ?reply,
    fun s id => exec_eccUncorrectable_none s (by simp), fun s ho hc hm => ?record, fun s seq hany => ?held,
    fun s founding seq x hfind hx => ?flash, fun s n hst hany => ?staged⟩
  case corrected =>
    have hget : (address, s.tick) ∈ Tab.get [] (s.corrected page.val address).sram.corrected page.val ∧
        Tab.get [] (s.corrected page.val address).sram.corrected page.val = s.corrections page.val address := by
      simp [State.corrected, State.corrections]
    obtain ⟨hmem, hlist⟩ := hget
    have hrow := execEccCorrected_counts hp page address
    by_cases h4 : 4 ≤ (s.corrections page.val address).length
    · rw [if_pos h4] at hrow
      have hs := (s.corrected page.val address).pageFails_sram page.val
      refine ⟨_, hrow, by rw [hs]; rfl, by rw [hs]; exact hmem, ?_, ?_⟩
      · rw [State.mem_retireDue_pageFails_iff]
        rw [hs, hlist]
        simp [h4, State.corrected]
      · rw [State.pageFails_eq, hs]
        rfl
    · rw [if_neg h4] at hrow
      refine ⟨_, hrow, rfl, hmem, ?_, rfl⟩
      rw [hlist]
      simp [h4, State.corrected]
  case retired =>
    obtain ⟨due, hdue, hrow⟩ := pageRetire_some hl hc hin hm
    exact ⟨_, hrow, (Sram.retire_some hm).1, rfl, hdue, rfl⟩
  case waiting =>
    obtain ⟨due, hrow⟩ := pageRetire_none hl hc hin hm
    exact ⟨_, hrow, rfl, mem_sortNats.mpr (by simp),
      State.hasCause_raise { s with tick := s.workTick + 1 } (b := causeSupply) _ _ _ (by decide), rfl⟩
  case cell =>
    obtain ⟨m, hm⟩ := s.badPage_eq page
    have hrow : exec (.eccUncorrectableCommitted ⟨page, .cell index⟩) s =
        .next (({ s with sram := m } : State).cellSpoiled index.val) := by
      rw [exec_eccUncorrectable s page (by simp), hm]
      refine congrArg Host.Outcome.next ((State.cellBad_eq _ _).trans (if_neg ?_))
      simp [show ({ s with sram := m } : State).logicRuns = true from hl, hw]
    have hwork : (({ s with sram := m } : State).cellSpoiled index.val).work = s.work.spoilCell index.val := if_pos hsame
    refine ⟨_, hrow, ?_, ?_, ?_, rfl⟩
    · rw [hwork, Plant.own_spoilCell]
      rfl
    · rw [hwork, Plant.own_spoilCell]
      rfl
    · rw [hwork]
      rfl
  case unit =>
    obtain ⟨m, hm⟩ := s.badPage_eq page
    have hrow : exec (.eccUncorrectableCommitted ⟨page, .unit slot⟩) s =
        .next (({ s with sram := m } : State).unitHeld slot.val) := by
      rw [exec_eccUncorrectable s page (by simp), hm]
      exact congrArg Host.Outcome.next (State.unitBad_committed hl hu hc)
    exact ⟨_, Config.draw s.draws % 256, hrow, Nat.mod_lt _ (by decide), rfl, rfl, rfl⟩
  case skipped =>
    have hrow : exec (.eccUncorrectableCommitted ⟨none, .unit slot⟩) s =
        .next { s.unitHeld slot.val with skip := insertSorted s.skip slot.val } :=
      (exec_eccUncorrectable_none s (by simp)).trans (congrArg Host.Outcome.next (State.unitBad_waits hl hu hc he))
    have hskip : slot.val ∈ insertSorted s.skip slot.val := mem_insertSorted.mpr (.inl rfl)
    exact ⟨_, hrow, hskip, s.holdDue_unitHeld slot.val, State.evalUnit_skipped hskip, rfl⟩
  case due =>
    refine ⟨_, exec_eccUncorrectable s (some page) hplace, ?_⟩
    rw [State.sram_spoil]
    exact State.mem_retireDue_badPage hp hin
  case reply =>
    have hsession := State.session_modSession (s := s) (id := id)
      (f := fun x => { x with cached := none, awaits := x.awaits || x.cached.isSome }) (fun _ => rfl)
    rw [hx] at hsession
    exact ⟨_, _, exec_eccUncorrectable_none s (by simp), hsession, rfl, by simp [hcached], rfl, rfl, rfl⟩
  case record =>
    refine (exec_eccUncorrectable_none s (by simp)).trans (congrArg Host.Outcome.next ?_)
    show s.recordGap s.workTick (if s.committed then s.workTick else s.workTick - 1) = _
    rw [if_pos hc]
    exact State.recordGap_open _ _ ho hm
  case held => exact (exec_eccUncorrectable_none s (by simp)).trans (congrArg Host.Outcome.next (if_pos hany))
  case flash =>
    have hrow := (exec_eccUncorrectable_none s (place := .flashSummary founding seq) (by simp)).trans
      (congrArg Host.Outcome.next (State.summaryBad_marks hfind hx))
    refine ⟨_, s.sectorFails.1, hrow, ?_, rfl, rfl, ?_⟩
    · cases founding <;> exact Summary.find_markBad _ hfind
    · cases founding <;> rfl
  case staged => exact (exec_eccUncorrectable_none s (by simp)).trans (congrArg Host.Outcome.next (if_pos ⟨hst, hany⟩))

end

section
/-! # Banks: uplink frames, service, failure, restart and load class (R115, R131 to R133, R137, R143, R197, R201) -/

namespace Sys2Proof.Machine

/-! ## What the forming of records leaves -/

/-- A bank beside its flags, the instant of the last of them and the load currents that it sums. -/
def Bank.atLink (k : Bank) : Bank := { k with flags := 0, present := 0, lastEvent := (0, 0), loadSums := [] }

/-- The state beside banks and channels, and every bank beside its flags and its load currents. -/
def State.linkView (s : State) : State × (Nat → Bank) :=
  ({ s with banks := [], fieldChans := [] }, fun c => (s.bank c).atLink)

theorem State.eq_of_linkView {s t : State} (h : t.linkView.1 = s.linkView.1) :
    t = { s with banks := t.banks, fieldChans := t.fieldChans } := by
  have ht : t = { t.linkView.1 with banks := t.banks, fieldChans := t.fieldChans } := rfl
  rw [h] at ht
  exact ht

theorem State.bank_of_linkView {s t : State} (h : t.linkView = s.linkView) (c : Nat) :
    (t.bank c).atLink = (s.bank c).atLink := congrFun (congrArg Prod.snd h) c

theorem State.fch_of_fieldChans {s t : State} (h : t.fieldChans = s.fieldChans) (n : Nat) : t.fch n = s.fch n := by
  rw [State.fch, h]
  rfl

@[simp] theorem State.linkView_ite (c : Prop) [Decidable c] (s t : State) :
    (if c then s else t).linkView = if c then s.linkView else t.linkView := apply_ite State.linkView c s t

@[simp] theorem State.linkView_setFch (s : State) (n : Nat) (x : FieldChan) : (s.setFch n x).linkView = s.linkView :=
  (rfl)

/-- What is written to a bank shows beside the flags as far as it changes more than those. -/
theorem State.linkView_setBank {s t : State} {b : Nat} {x y : Bank} (h : t.linkView = s.linkView)
    (hx : x.atLink = y.atLink) : (t.setBank b x).linkView = (s.setBank b y).linkView := by
  refine Prod.ext (congrArg Prod.fst h :) (funext fun c => ?_)
  show ((t.setBank b x).bank c).atLink = ((s.setBank b y).bank c).atLink
  rw [State.bank_setBank, State.bank_setBank]
  split
  · exact hx
  · exact State.bank_of_linkView h c

theorem State.linkView_flagged {s : State} {b : Nat} {x : Bank} (h : x.atLink = (s.bank b).atLink) :
    (s.setBank b x).linkView = s.linkView := by
  refine Prod.ext rfl (funext fun c => ?_)
  show ((s.setBank b x).bank c).atLink = (s.bank c).atLink
  rw [State.bank_setBank]
  split
  next hc => rw [h, hc]
  next => rfl

/-- A flag of a bank is a write to that bank. -/
theorem State.bankFlag_eq (s : State) (b bit : Nat) (on : Bool) : ∃ x, s.bankFlag b bit on = s.setBank b x ∧
    x.atLink = (s.bank b).atLink ∧ x.present = setBit16 (s.bank b).present bit on ∧
    (on = true → x.flags = setBit16 (s.bank b).flags bit true) := by
  unfold State.bankFlag
  dsimp only
  split
  next h =>
    have hon : on = true := by simpa using (Bool.and_eq_true_iff.mp h).1
    exact ⟨_, rfl, rfl, by rw [hon], fun _ => rfl⟩
  next => exact ⟨_, rfl, rfl, rfl, fun hon => if_pos hon⟩

@[simp] theorem State.linkView_bankFlag (s : State) (b bit : Nat) (on : Bool) :
    (s.bankFlag b bit on).linkView = s.linkView := by
  obtain ⟨x, hx, hlink, -⟩ := s.bankFlag_eq b bit on
  rw [hx]
  exact State.linkView_flagged hlink

@[simp] theorem State.linkView_chanFlagAt (s : State) (ch bit : Nat) (on : Bool) (t : Nat) :
    (s.chanFlagAt ch bit on t).linkView = s.linkView := by
  unfold State.chanFlagAt
  dsimp only
  split
  · exact State.linkView_flagged rfl
  · rfl

@[simp] theorem State.linkView_chanFlag (s : State) (ch bit : Nat) (on : Bool) :
    (s.chanFlag ch bit on).linkView = s.linkView := s.linkView_chanFlagAt ch bit on s.tick

@[simp] theorem State.linkView_chanMark (s : State) (ch bit : Nat) : (s.chanMark ch bit).linkView = s.linkView := by
  simp [State.chanMark]

@[simp] theorem State.linkView_aiRecords (s : State) (ch j : Nat) (l : List Conv) :
    (s.aiRecords ch j l).2.linkView = s.linkView := by
  induction l generalizing s j with
  | nil => rfl
  | cons m t ih => simp only [State.aiRecords, ih, State.linkView_setFch]

@[simp] theorem State.linkView_filteredRecord (s : State) (ch : Nat) (ms : List Conv) :
    (s.filteredRecord ch ms).2.linkView = s.linkView := by simp [State.filteredRecord, apply_ite Prod.snd]

@[simp] theorem State.linkView_resRecord (s : State) (ch : Nat) (m : ChanMeas) :
    (s.resRecord ch m).2.linkView = s.linkView := by
  unfold State.resRecord
  split <;> rfl

@[simp] theorem State.linkView_formRecords (s : State) (m : ChanMeas) :
    (s.formRecords m).2.linkView = s.linkView := by simp [State.formRecords, apply_ite Prod.snd]

/-- The load current that a record shows joins the sums of its bank. -/
@[simp] theorem State.linkView_loadSums (s : State) (b : Nat) (sums : Tab Nat) :
    (s.setBank b { s.bank b with loadSums := sums }).linkView = s.linkView := State.linkView_flagged rfl

@[simp] theorem State.linkView_fieldShows (s : State) (ch t : Nat) (l : List Conv) (m : ChanMeas) :
    (s.fieldShows ch t l m).linkView = s.linkView := by
  unfold State.fieldShows
  extract_lets mode r s₁ k units s₂ f
  have h₁ : s₁.linkView = s.linkView := by simp [s₁]
  have h₂ : s₂.linkView = s.linkView := by
    show (if _ then _ else _ : State).linkView = _
    rw [State.linkView_ite, show _ = _ from s₁.linkView_loadSums _ _, ite_self, h₁]
  split
  · exact h₂
  · split
    · exact (State.linkView_chanFlag _ _ _ _).trans h₂
    · exact h₂

/-- The records of a window change channels, flags and load currents alone. -/
@[simp] theorem State.linkView_formMeas (s : State) (b : Nat) (m : ChanMeas) :
    (s.formMeas b m).linkView = s.linkView := by
  unfold State.formMeas
  extract_lets ch t f clamp r s₂ x
  have hr : r.2.linkView = s.linkView := by
    show (if _ then _ else _ : List Conv × State).2.linkView = _
    rw [apply_ite Prod.snd, State.linkView_ite, State.linkView_formRecords]
    split
    · split <;> rfl
    · rfl
  split
  · rfl
  · split
    · exact hr
    · exact (State.linkView_fieldShows _ _ _ _ _).trans hr

/-! ## An intact uplink frame -/

/-- A bank from which an intact frame has come (R132, R133, R137). -/
def Bank.heard (k : Bank) (f : Uplink) : Bank :=
  { k with
    sawUp := true
    missUp := 0
    goodUp := k.goodUp + 1
    seqUp := k.seqUp + 1
    vfld := f.vfld
    vfldMin := Nat.min k.vfldMin f.vfld
    failDue := if f.selfCheck then some .selfCheck else if f.barrier then some .barrierSupply else k.failDue }

/-- The records of a frame as the field side forms them. -/
def State.formed (s : State) (b : Nat) (f : Uplink) : State := f.meas.foldl (fun s m => s.formMeas b m) s

theorem State.linkView_formed (s : State) (b : Nat) (f : Uplink) : (s.formed b f).linkView = s.linkView :=
  foldl_keeps State.linkView (fun s m => s.linkView_formMeas b m) f.meas s

/-- The state in which an intact frame has been counted, with the flags that it brings. -/
def State.counted (s : State) (b : Nat) (f : Uplink) : State :=
  (((s.formed b f).setBank b (((s.formed b f).bank b).heard f)).bankFlag b 2 f.selfCheck).bankFlag b 1 f.barrier

/-- The records of a frame in time reach the inputs of their ticks (R115). -/
def State.taken (s : State) (b : Nat) (f : Uplink) : State :=
  (f.meas.filter (fun m => m.ch / 8 == b)).foldl (fun s m => s.takeFormed m.ch) s

/-- What a late frame brings: the count of its records. -/
def State.tooLate (s : State) (b : Nat) (f : Uplink) : State :=
  s.setBank b { s.bank b with lateSamples := sat32 ((s.bank b).lateSamples + f.meas.length) }

/-- What an intact frame brings once it has been counted: in time its records and stamps, else their count (R115). -/
def State.used (s : State) (b : Nat) (f : Uplink) : State :=
  if f.onTime = true ∧ s.deadlineAt < s.tick then ((s.counted b f).taken b f).deliverStamps b
  else (s.counted b f).tooLate b f

theorem State.linkView_counted (s : State) (b : Nat) (f : Uplink) :
    (s.counted b f).linkView = (s.setBank b ((s.bank b).heard f)).linkView := by
  have hheard : (((s.formed b f).bank b).heard f).atLink = ((s.bank b).heard f).atLink :=
    congrArg (fun k => Bank.heard k f) (State.bank_of_linkView (s.linkView_formed b f) b)
  rw [State.counted, State.linkView_bankFlag, State.linkView_bankFlag]
  exact State.linkView_setBank (s.linkView_formed b f) hheard

/-- A bank's flags change no channel. -/
theorem State.fieldChans_bankFlag (s : State) (b bit : Nat) (on : Bool) :
    (s.bankFlag b bit on).fieldChans = s.fieldChans := by
  obtain ⟨x, hx, -⟩ := s.bankFlag_eq b bit on
  rw [hx]
  rfl

theorem State.fieldChans_counted (s : State) (b : Nat) (f : Uplink) :
    (s.counted b f).fieldChans = (s.formed b f).fieldChans := by
  rw [State.counted, State.fieldChans_bankFlag, State.fieldChans_bankFlag]
  rfl

/-- The bank that an intact frame has come from, beside flags and load currents. -/
theorem State.bank_counted (s : State) (b : Nat) (f : Uplink) :
    ((s.counted b f).bank b).atLink = ((s.bank b).heard f).atLink := by
  rw [State.bank_of_linkView (s.linkView_counted b f), State.bank_setBank, if_pos rfl]

theorem State.eq_counted (s : State) (b : Nat) (f : Uplink) :
    s.counted b f = { s with banks := (s.counted b f).banks, fieldChans := (s.counted b f).fieldChans } :=
  State.eq_of_linkView (congrArg Prod.fst (s.linkView_counted b f) :)

/-- An intact frame: counted, then used or too late, and its common fault bit taken. -/
theorem State.bankFrame_intact {s : State} {b : Nat} {f : Uplink} (hon : s.vinOn = true) (hl : s.logicRuns = true)
    (hb : (s.bank b).state = .inService) (hf : f.intact = true) :
    s.bankFrame b f = (s.used b f).takeFaultBit b := by
  have hclock : (s.counted b f).deadlineAt = s.deadlineAt ∧ (s.counted b f).tick = s.tick := by
    rw [s.eq_counted b f]
    exact ⟨rfl, rfl⟩
  unfold State.bankFrame State.used
  rw [← hclock.1, ← hclock.2]
  dsimp only
  rw [if_neg (by simp [hon, hl, hb]), if_neg (by simp [hf])]
  rfl

/-- A frame that is not intact: the run of valid frames is broken, and it is requested again once. -/
theorem State.bankFrame_broken {s : State} {b : Nat} {f : Uplink} (hon : s.vinOn = true) (hl : s.logicRuns = true)
    (hb : (s.bank b).state = .inService) (hf : f.intact = false) :
    s.bankFrame b f = (s.formed b f).setBank b { (s.formed b f).bank b with
      crcErrors := sat32 (((s.formed b f).bank b).crcErrors + 1)
      retries := if ((s.formed b f).bank b).retried then ((s.formed b f).bank b).retries
        else sat32 (((s.formed b f).bank b).retries + 1)
      retried := true
      goodUp := 0 } := by
  unfold State.bankFrame
  dsimp only
  rw [if_neg (by simp [hon, hl, hb]), if_pos (by simp [hf])]
  rfl

/-! ## Records and stamps that a frame delivers -/

/-- The records of a channel go into the inputs of their tick, and nowhere else. -/
theorem State.takeFormed_eq (s : State) (ch : Nat) : ∃ i, s.takeFormed ch = { s with inbufs := i } := by
  unfold State.takeFormed
  split
  · exact ⟨s.inbufs, rfl⟩
  · split
    · exact ⟨s.inbufs, rfl⟩
    · exact ⟨_, rfl⟩

/-- The state beside what an uplink frame changes. -/
def State.besideFrame (s : State) : State := { s with banks := [], fieldChans := [], inbufs := [], host := {} }

theorem State.eq_of_besideFrame {s t : State} (h : t.besideFrame = s.besideFrame) :
    t = { s with banks := t.banks, fieldChans := t.fieldChans, inbufs := t.inbufs, host := t.host } := by
  have ht : t = { t.besideFrame with
      banks := t.banks, fieldChans := t.fieldChans, inbufs := t.inbufs, host := t.host } := rfl
  rw [h] at ht
  exact ht

theorem State.taken_eq (s : State) (b : Nat) (f : Uplink) : s.taken b f = { s with inbufs := (s.taken b f).inbufs } := by
  have hkeep : { s.taken b f with inbufs := [] } = ({ s with inbufs := [] } : State) := by
    refine foldl_keeps (fun s : State => ({ s with inbufs := [] } : State)) (fun s m => ?_) _ s
    obtain ⟨i, hi⟩ := s.takeFormed_eq m.ch
    rw [hi]
  have ht : s.taken b f = { ({ s.taken b f with inbufs := [] } : State) with inbufs := (s.taken b f).inbufs } := rfl
  rw [hkeep] at ht
  exact ht

/-- A bank whose stamp batch has been delivered. -/
def Bank.emptied (k : Bank) : Bank := { k with batchIn := true, batch := [], lost := [], heldBack := [], heldLost := [] }

/-- The stamps go into the inputs of the last tick, those held back first. -/
theorem State.deliverStamps_first {s : State} {b : Nat} (h : (s.bank b).batchIn = false) :
    s.deliverStamps b = (s.setInputs (s.tick - 1) { s.inputs (s.tick - 1) with
      edges := Tab.put ([], []) (s.inputs (s.tick - 1)).edges b ((s.bank b).heldBack ++ (s.bank b).batch,
        (s.bank b).lost.foldl (fun l e => addCount l e.1 e.2) (s.bank b).heldLost) }).setBank b (s.bank b).emptied := by
  unfold State.deliverStamps
  exact if_neg (by simp [h])

theorem State.deliverStamps_again {s : State} {b : Nat} (h : (s.bank b).batchIn = true) : s.deliverStamps b = s := by
  unfold State.deliverStamps
  exact if_pos h

theorem State.batches_deliverStamps (s : State) (b t : Nat) :
    ((s.deliverStamps b).inputs t).batches = (s.inputs t).batches := by
  cases h : (s.bank b).batchIn with
  | true => rw [State.deliverStamps_again h]
  | false =>
    rw [State.deliverStamps_first h]
    show ((s.setInputs _ _).inputs t).batches = _
    rw [State.inputs_setInputs]
    split
    next ht => rw [← ht]
    next => rfl

/-! ## The common fault bit -/

theorem State.bank_takeFaultBit (s : State) (b : Nat) :
    (s.takeFaultBit b).bank b = { s.bank b with faultBit := s.commonFault b } := by
  have hraised (u : State) (c : Prop) [Decidable c] (data : Nat) :
      (if c then u.raise causeFieldFault 0xFFFF b data else u).bank b = u.bank b := by
    split <;> rfl
  refine (hraised _ _ _).trans ?_
  rw [State.bank_setBank, if_pos rfl]

theorem State.besideFrame_takeFaultBit (s : State) (b : Nat) : (s.takeFaultBit b).besideFrame = s.besideFrame := by
  unfold State.takeFaultBit
  dsimp only
  split <;> rfl

theorem State.inbufs_takeFaultBit (s : State) (b : Nat) : (s.takeFaultBit b).inbufs = s.inbufs := by
  unfold State.takeFaultBit
  dsimp only
  split <;> rfl

/-- The bit that is taken is the one that stands. -/
theorem State.commonFault_takeFaultBit (s : State) (b : Nat) : (s.takeFaultBit b).commonFault b = s.commonFault b := by
  have hchan : (s.takeFaultBit b).fieldChans = s.fieldChans := by
    unfold State.takeFaultBit
    dsimp only
    split <;> rfl
  have hfch (n : Nat) : (s.takeFaultBit b).fch n = s.fch n := State.fch_of_fieldChans hchan n
  unfold State.commonFault
  simp only [State.bank_takeFaultBit, hfch]

theorem State.hasCause_takeFaultBit {s : State} {b : Nat} (h : s.commonFault b = true)
    (hwas : (s.bank b).faultBit = false) : (s.takeFaultBit b).hasCause causeFieldFault := by
  unfold State.takeFaultBit
  dsimp only
  rw [if_pos (by simp [h, hwas])]
  exact State.hasCause_raise _ _ _ _ (by decide)

theorem State.host_takeFaultBit {s : State} {b : Nat} (h : s.commonFault b = false ∨ (s.bank b).faultBit = true) :
    (s.takeFaultBit b).host = s.host := by
  unfold State.takeFaultBit
  dsimp only
  rw [if_neg (by rcases h with h | h <;> simp [h])]
  rfl

/-! ## What an intact frame leaves, and what it brings -/

/-- A bank beside its flags, its load currents and its records. -/
def Bank.tally (k : Bank) : Bank :=
  { k.atLink with lateSamples := 0, batchIn := false, batch := [], lost := [], heldBack := [], heldLost := [] }

theorem State.tally_deliverStamps (s : State) (b : Nat) : ((s.deliverStamps b).bank b).tally = (s.bank b).tally := by
  cases h : (s.bank b).batchIn with
  | true => rw [State.deliverStamps_again h]
  | false =>
    rw [State.deliverStamps_first h, State.bank_setBank, if_pos rfl]
    rfl

theorem State.besideFrame_deliverStamps (s : State) (b : Nat) : (s.deliverStamps b).besideFrame = s.besideFrame := by
  cases h : (s.bank b).batchIn with
  | true => rw [State.deliverStamps_again h]
  | false =>
    rw [State.deliverStamps_first h]
    rfl

theorem State.host_deliverStamps (s : State) (b : Nat) : (s.deliverStamps b).host = s.host := by
  cases h : (s.bank b).batchIn with
  | true => rw [State.deliverStamps_again h]
  | false =>
    rw [State.deliverStamps_first h]
    rfl

theorem State.bank_taken (s : State) (b : Nat) (f : Uplink) (c : Nat) : (s.taken b f).bank c = s.bank c := by
  rw [State.taken_eq]
  rfl

section
variable (s : State) (b : Nat) (f : Uplink)

theorem State.tally_counted : ((s.counted b f).bank b).tally = ((s.bank b).heard f).tally :=
  (congrArg (fun k : Bank => k.tally) (s.bank_counted b f) :)

theorem State.tally_used : ((s.used b f).bank b).tally = ((s.bank b).heard f).tally := by
  unfold State.used
  split
  · rw [State.tally_deliverStamps, State.bank_taken, State.tally_counted]
  · rw [← s.tally_counted b f, State.tooLate, State.bank_setBank, if_pos rfl]
    rfl

theorem State.besideFrame_used : (s.used b f).besideFrame = s.besideFrame := by
  have hcounted : (s.counted b f).besideFrame = s.besideFrame := by
    rw [s.eq_counted b f]
    rfl
  unfold State.used
  split
  · rw [State.besideFrame_deliverStamps, State.taken_eq]
    exact hcounted
  · exact hcounted

theorem State.host_used : (s.used b f).host = s.host := by
  have hcounted : (s.counted b f).host = s.host := by rw [s.eq_counted b f]
  unfold State.used
  split
  · rw [State.host_deliverStamps, State.taken_eq]
    exact hcounted
  · exact hcounted

end

/-- A frame in time delivers the stamps of the last tick after those held back. -/
theorem State.used_inTime {s : State} {b : Nat} {f : Uplink} (hf : f.onTime = true) (hd : s.deadlineAt < s.tick)
    (hb : (s.bank b).batchIn = false) :
    ((s.used b f).bank b).batchIn = true ∧ ((s.used b f).bank b).lateSamples = (s.bank b).lateSamples ∧
      (Tab.get ([], []) ((s.used b f).inputs (s.tick - 1)).edges b).1 = (s.bank b).heldBack ++ (s.bank b).batch := by
  have hbank := s.bank_counted b f
  have hin : (((s.counted b f).taken b f).bank b).batchIn = false := by
    rw [State.bank_taken]
    exact (congrArg Bank.batchIn hbank :).trans hb
  have htick : ((s.counted b f).taken b f).tick = s.tick := by
    rw [State.taken_eq, s.eq_counted b f]
  rw [State.used, if_pos ⟨hf, hd⟩, State.deliverStamps_first hin, htick, State.bank_setBank, if_pos rfl]
  refine ⟨rfl, ?_, ?_⟩
  · rw [State.bank_taken]
    exact (congrArg Bank.lateSamples hbank :)
  · show (Tab.get _ ((State.setInputs _ _ _).inputs _).edges b).1 = _
    rw [State.inputs_setInputs, if_pos rfl, Tab.get_put, if_pos rfl, State.bank_taken]
    exact congrArg₂ (· ++ ·) (congrArg Bank.heldBack hbank :) (congrArg Bank.batch hbank :)

/-- A frame out of time is counted record by record, and none is used. -/
theorem State.used_late {s : State} {b : Nat} {f : Uplink} (h : f.onTime = false ∨ s.tick ≤ s.deadlineAt) :
    ((s.used b f).bank b).lateSamples = sat32 ((s.bank b).lateSamples + f.meas.length) ∧
      (s.used b f).inbufs = s.inbufs := by
  have hlate : ¬(f.onTime = true ∧ s.deadlineAt < s.tick) := by
    rintro ⟨hon, hd⟩
    rcases h with h | h
    · simp [h] at hon
    · omega
  rw [State.used, if_neg hlate, State.tooLate, State.bank_setBank, if_pos rfl]
  refine ⟨?_, ?_⟩
  · exact (congrArg (fun k : Bank => sat32 (k.lateSamples + f.meas.length)) (s.bank_counted b f) :)
  · rw [s.eq_counted b f]
    rfl

/-! ## The record of a digital input -/

/-- The records of all channels for the last tick. -/
def State.records (s : State) (ch : Nat) : Option Formed := (s.fch ch).formed

theorem State.records_setFch {s : State} {n : Nat} {x : FieldChan} (h : x.formed = (s.fch n).formed) :
    (s.setFch n x).records = s.records := by
  refine funext fun k => ?_
  rw [State.records, State.fch_setFch]
  split
  next hk => rw [h, hk, State.records]
  next => rfl

theorem State.records_setBank (s : State) (b : Nat) (x : Bank) : (s.setBank b x).records = s.records := rfl

theorem State.records_chanFlagAt (s : State) (ch bit : Nat) (on : Bool) (t : Nat) :
    (s.chanFlagAt ch bit on t).records = s.records := by
  unfold State.chanFlagAt
  dsimp only
  split
  · rw [State.records_setBank]
    exact State.records_setFch rfl
  · exact State.records_setFch rfl

theorem State.records_chanMark (s : State) (ch bit : Nat) : (s.chanMark ch bit).records = s.records :=
  (State.records_chanFlagAt _ _ _ _ _).trans (State.records_chanFlagAt _ _ _ _ _)

/-- What a record shows the field side changes no record. -/
theorem State.records_fieldShows (s : State) (ch t : Nat) (l : List Conv) (m : ChanMeas) :
    (s.fieldShows ch t l m).records = s.records := by
  unfold State.fieldShows
  extract_lets mode r s₁ k units s₂ f on ua mv opened s₃
  have h₁ : s₁.records = s.records := by
    show (if _ then _ else _ : State).records = _
    split
    · exact s.records_chanMark ch 7
    · rfl
  have h₂ : s₂.records = s.records := by
    show (if _ then _ else _ : State).records = _
    split <;> exact h₁
  have h₃ : s₃.records = s₂.records := State.records_setFch rfl
  clear_value s₂ s₃
  split
  · refine Eq.trans (b := s₂.records) ?_ h₂
    exact State.records_setFch rfl
  · split
    · exact (State.records_chanFlagAt _ _ _ _ _).trans (h₃.trans h₂)
    · exact h₂

/-- The latched record of a digital input whose window ended with the last tick is formed as it was latched. -/
theorem State.formMeas_di {s : State} {b : Nat} {m : ChanMeas} {c : Conv} (hb : m.ch / 8 = b)
    (hu : s.has (chanSlot m.ch) = true) (hdi : modeDi (s.mode m.ch) = true)
    (hp : s.tick % chanPeriod s.content m.ch = 0) (hnone : (s.fch m.ch).formed = none)
    (hlatch : (s.fch m.ch).latched = some (s.tick - 1, c)) (hconvs : m.convs = []) :
    ∃ x, ((s.formMeas b m).fch m.ch).formed = some x ∧ x.tick = s.tick - 1 ∧ x.recs = [c] := by
  unfold State.formMeas
  extract_lets ch t f clamp r s₂ x
  have hr : r.1 = [c] := by
    show (if _ then _ else _ : List Conv × State).1 = _
    rw [if_pos hdi, show f.latched = some (t, c) from hlatch]
    simp [clamp, hconvs]
  refine ⟨x, ?_, rfl, hr⟩
  rw [if_neg (by simp [ch, f, hb, hu, hp, hnone]), if_neg (by rw [hr]; exact Bool.false_ne_true)]
  refine (congrFun (State.records_fieldShows _ _ _ _ _) m.ch).trans ?_
  rw [State.records, State.fch_setFch, if_pos rfl]

theorem State.batches_takeFormed {s : State} {ch : Nat} {x : Formed} (h : (s.fch ch).formed = some x)
    (ht : x.tick + 1 = s.tick) :
    ((s.takeFormed ch).inputs x.tick).batches = Tab.put [] (s.inputs x.tick).batches ch x.recs := by
  unfold State.takeFormed
  rw [h]
  dsimp only
  rw [if_neg (by simp [ht]), State.inputs_setInputs, if_pos rfl]

/-- A frame in time that carries the record of one digital input delivers what was latched. -/
theorem State.used_di {s : State} {b : Nat} {f : Uplink} {m : ChanMeas} {c : Conv} (hf : f.onTime = true)
    (hd : s.deadlineAt < s.tick) (hmeas : f.meas = [m]) (hb : m.ch / 8 = b)
    (hformed : ∃ x, ((s.formMeas b m).fch m.ch).formed = some x ∧ x.tick = s.tick - 1 ∧ x.recs = [c]) :
    Tab.get [] ((s.used b f).inputs (s.tick - 1)).batches m.ch = [c] := by
  obtain ⟨x, hx, htick, hrecs⟩ := hformed
  have hfch : ((s.counted b f).fch m.ch).formed = some x := by
    rw [State.fch_of_fieldChans (s.fieldChans_counted b f), State.formed, hmeas]
    exact hx
  have hnext : x.tick + 1 = (s.counted b f).tick := by
    rw [s.eq_counted b f]
    show x.tick + 1 = s.tick
    omega
  have htaken : (s.counted b f).taken b f = (s.counted b f).takeFormed m.ch := by
    rw [State.taken, hmeas, List.filter_cons_of_pos (by simp [hb])]
    rfl
  rw [State.used, if_pos ⟨hf, hd⟩, State.batches_deliverStamps, htaken, ← htick,
    State.batches_takeFormed hfch hnext, Tab.get_put, if_pos rfl, hrecs]

/-! ## Service of a bank -/

/-- A bank that has reached IN_SERVICE (R131, R169). -/
def Bank.served (k : Bank) (r : BankReport) : Bank :=
  { k.measured r.vfld with state := .inService, restarts := 0, missUp := 0, goodUp := 0 }

/-- The state in which the supply of a bank that has reached IN_SERVICE has been reported. -/
def State.announced (s : State) (b : Nat) (r : BankReport) : State :=
  let t := s.setBank b ((s.bank b).served r)
  if s.monitored b then
    ((t.supplyPresent b r.vfld (s.bank b).uvlo).supplyPresent b r.vfld (s.bank b).vfldLow).vfldFlags b
  else t

theorem State.bankService_starting {s : State} {b : Nat} (h : (s.bank b).state = .starting) (r : BankReport) :
    s.bankService b r = (s.announced b r).bankReport b r := by
  unfold State.bankService
  dsimp only
  rw [h]
  rfl

theorem State.supplyPresent_eq (s : State) (code mv : Nat) (on : Bool) :
    ∃ host, s.supplyPresent code mv on = { s with host := host } := by
  unfold State.supplyPresent
  split
  · exact ⟨_, rfl⟩
  · exact ⟨s.host, rfl⟩

/-- A supply that is out of its limits when the bank reports it raises SUPPLY. -/
theorem State.hasCause_supplyPresent (s : State) (code mv mv' : Nat) (on : Bool) :
    ((s.supplyPresent code mv true).supplyPresent code mv' on).hasCause causeSupply := by
  have hfirst : (s.supplyPresent code mv true).hasCause causeSupply := State.hasCause_raise _ _ _ _ (by decide)
  generalize s.supplyPresent code mv true = u at hfirst ⊢
  unfold State.supplyPresent
  split
  · exact hfirst.raise _ _ _ _
  · exact hfirst

/-- The VFLD flags of a monitored bank are writes to that bank, and the flag of UVLO follows its condition. -/
theorem State.vfldFlags_monitored {s : State} {b : Nat} (hm : s.monitored b = true) : ∃ x y,
    s.vfldFlags b = (s.setBank b x).setBank b y ∧ y.atLink = (s.bank b).atLink ∧
      ((s.bank b).uvlo = true → y.present.getLsbD 5 = true) := by
  obtain ⟨x, hx, hxlink, hxpresent, -⟩ := s.bankFlag_eq b 5 (s.bank b).uvlo
  obtain ⟨y, hy, hylink, hypresent, -⟩ := (s.setBank b x).bankFlag_eq b 6 (s.bank b).vfldLow
  rw [State.bank_setBank, if_pos rfl] at hylink hypresent
  refine ⟨x, y, (if_pos hm).trans ?_, hylink.trans hxlink, fun hu => ?_⟩
  · rw [hx, hy]
  · rw [hypresent, hxpresent, hu]
    cases (s.bank b).vfldLow <;> simp [setBit16]

theorem State.announced_leaves (s : State) (b : Nat) (r : BankReport) :
    s.announced b r = { s with banks := (s.announced b r).banks, host := (s.announced b r).host } ∧
      ((s.announced b r).bank b).atLink = ((s.bank b).served r).atLink ∧
      (∀ c, c ≠ b → (s.announced b r).bank c = s.bank c) := by
  unfold State.announced
  dsimp only
  split
  next hm =>
    obtain ⟨h₁, he₁⟩ := (s.setBank b ((s.bank b).served r)).supplyPresent_eq b r.vfld (s.bank b).uvlo
    rw [he₁]
    obtain ⟨h₂, he₂⟩ := ({ s.setBank b ((s.bank b).served r) with host := h₁ } : State).supplyPresent_eq b r.vfld
      (s.bank b).vfldLow
    rw [he₂]
    obtain ⟨x, y, hxy, hlink, -⟩ := State.vfldFlags_monitored
      (s := { s.setBank b ((s.bank b).served r) with host := h₂ }) (b := b) hm
    rw [hxy]
    have hserved : ({ s.setBank b ((s.bank b).served r) with host := h₂ } : State).bank b = (s.bank b).served r := by
      show (s.setBank b ((s.bank b).served r)).bank b = _
      rw [State.bank_setBank, if_pos rfl]
    refine ⟨rfl, ?_, fun c hc => ?_⟩
    · rw [State.bank_setBank, if_pos rfl, hlink, hserved]
    · rw [State.bank_setBank, if_neg hc.symm, State.bank_setBank, if_neg hc.symm]
      show (s.setBank b ((s.bank b).served r)).bank c = _
      rw [State.bank_setBank, if_neg hc.symm]
  next =>
    refine ⟨rfl, ?_, fun c hc => ?_⟩
    · rw [State.bank_setBank, if_pos rfl]
    · rw [State.bank_setBank, if_neg hc.symm]

theorem State.host_announced {s : State} {b : Nat} (h : s.monitored b = false) (r : BankReport) :
    (s.announced b r).host = s.host := by
  unfold State.announced
  dsimp only
  rw [if_neg (by simp [h])]
  rfl

/-- A monitored bank that reports UVLO raises SUPPLY and shows its flag. -/
theorem State.announced_uvlo {s : State} {b : Nat} (hm : s.monitored b = true) (hu : (s.bank b).uvlo = true)
    (r : BankReport) :
    (s.announced b r).hasCause causeSupply ∧ ((s.announced b r).bank b).present.getLsbD 5 = true := by
  unfold State.announced
  dsimp only
  rw [if_pos hm, hu]
  have hcause := (s.setBank b ((s.bank b).served r)).hasCause_supplyPresent b r.vfld r.vfld (s.bank b).vfldLow
  obtain ⟨h₁, he₁⟩ := (s.setBank b ((s.bank b).served r)).supplyPresent_eq b r.vfld true
  rw [he₁] at hcause ⊢
  obtain ⟨h₂, he₂⟩ := ({ s.setBank b ((s.bank b).served r) with host := h₁ } : State).supplyPresent_eq b r.vfld
    (s.bank b).vfldLow
  rw [he₂] at hcause ⊢
  obtain ⟨x, y, hxy, -, hpresent⟩ := State.vfldFlags_monitored
    (s := { s.setBank b ((s.bank b).served r) with host := h₂ }) (b := b) hm
  rw [hxy]
  refine ⟨hcause, ?_⟩
  rw [State.bank_setBank, if_pos rfl]
  refine hpresent ?_
  show ((s.setBank b ((s.bank b).served r)).bank b).uvlo = true
  rw [State.bank_setBank, if_pos rfl]
  exact hu

/-- A field calibration record that fails its check is gone (R201). -/
def State.dropRec (b : Nat) (s : State) (e : Nat × Nat) : State :=
  if e.1 / 8 = b then
    s.setFch e.1 { s.fch e.1 with fieldRecs := (s.fch e.1).fieldRecs.filter (fun x => x.1 != e.2) }
  else s

/-- What a bank reports of its probes' calibration sets and of its engine (R223, R234). -/
def State.reportProbes (s : State) (b : Nat) (r : BankReport) : State :=
  (r.probeSetBad.foldl (fun t e =>
    if s.probeDrive e.1 / 8 == b then t.setFprobe e.1 { t.fprobe e.1 with sets := Tab.put {} (t.fprobe e.1).sets e.2 {} }
    else t) s).engineFound b r.engineOk

/-- What a bank reports of its channels' calibration records (R201). -/
def State.reportChans (s : State) (b : Nat) (r : BankReport) : State :=
  (bankChannels b).foldl
    (fun t ch => t.setFch ch { t.fch ch with
      calInvalid := sortNats ((r.factoryBad.filter (fun e => e.1 == ch)).map (·.2)) })
    (r.fieldRecBad.foldl (State.dropRec b) s)

theorem State.bankReport_eq (s : State) (b : Nat) (r : BankReport) :
    s.bankReport b r = (s.reportChans b r).reportProbes b r := rfl

/-- The state beside what a bank's report changes, but for the bank itself. -/
def State.besideReport (s : State) : State :=
  { s with fieldChans := [], fprobes := [], work := default, base := default }

theorem State.eq_of_besideReport {s t : State} (h : t.besideReport = s.besideReport) :
    t = { s with fieldChans := t.fieldChans, fprobes := t.fprobes, work := t.work, base := t.base } := by
  have ht : t = { t.besideReport with
      fieldChans := t.fieldChans, fprobes := t.fprobes, work := t.work, base := t.base } := rfl
  rw [h] at ht
  exact ht

theorem State.besideReport_dropRec (b : Nat) (s : State) (e : Nat × Nat) :
    (s.dropRec b e).besideReport = s.besideReport := by
  unfold State.dropRec
  split <;> rfl

theorem State.besideReport_reportChans (s : State) (b : Nat) (r : BankReport) :
    (s.reportChans b r).besideReport = s.besideReport := by
  refine (foldl_keeps State.besideReport (fun _ _ => ?_) _ _).trans
    (foldl_keeps State.besideReport (State.besideReport_dropRec b) _ s)
  rfl

/-- A bank notes what the self-test of its engine found. -/
def State.engineNoted (s : State) (b : Nat) (ok : Bool) : State :=
  s.setBank b { s.bank b with engine := if ok then 1 else 2 }

theorem State.besideReport_engineNoted (s : State) (b : Nat) (ok : Bool) :
    (s.engineNoted b ok).besideReport = (s.besideReport.engineNoted b ok).besideReport := rfl

theorem State.bank_besideReport (s : State) (c : Nat) : s.besideReport.bank c = s.bank c := rfl

theorem State.engineFound_eq (s : State) (b : Nat) (ok : Bool) : s.engineFound b ok =
    if ok = true then s.engineNoted b ok
    else ((slotsOfKind (s.engineNoted b ok).content 0x07).filter
      (fun u => (s.engineNoted b ok).probeDrive (slotInst u) / 8 == b)).foldl (fun s u => s.detectNow u 0x02)
      (s.engineNoted b ok) := rfl

/-- Probes with a bad engine detect a fault, beside banks and channels. -/
theorem State.engineFound_leaves (s : State) (b : Nat) (ok : Bool) :
    (s.engineFound b ok).besideReport = (s.engineNoted b ok).besideReport ∧
      (s.engineFound b ok).fieldChans = s.fieldChans := by
  rw [State.engineFound_eq, show s.fieldChans = (s.engineNoted b ok).fieldChans from rfl]
  generalize s.engineNoted b ok = u
  split
  · exact ⟨rfl, rfl⟩
  · refine ⟨foldl_keeps State.besideReport (fun _ _ => ?_) _ u, foldl_keeps State.fieldChans (fun _ _ => ?_) _ u⟩ <;> rfl

/-- Bad sets of probes are dropped beside banks and channels. -/
theorem State.reportProbes_leaves (s : State) (b : Nat) (r : BankReport) :
    (s.reportProbes b r).besideReport = (s.engineNoted b r.engineOk).besideReport ∧
      (s.reportProbes b r).fieldChans = s.fieldChans := by
  unfold State.reportProbes
  generalize hu : r.probeSetBad.foldl _ s = u
  have hbeside : u.besideReport = s.besideReport := by
    rw [← hu]
    exact foldl_keeps State.besideReport (fun t e => by split <;> rfl) _ s
  have hchans : u.fieldChans = s.fieldChans := by
    rw [← hu]
    exact foldl_keeps State.fieldChans (fun t e => by split <;> rfl) _ s
  obtain ⟨hengine, hkeep⟩ := u.engineFound_leaves b r.engineOk
  refine ⟨?_, hkeep.trans hchans⟩
  rw [hengine, State.besideReport_engineNoted, hbeside, ← State.besideReport_engineNoted]

theorem State.besideReport_bankReport (s : State) (b : Nat) (r : BankReport) :
    (s.bankReport b r).besideReport = (s.engineNoted b r.engineOk).besideReport := by
  rw [State.bankReport_eq, ((s.reportChans b r).reportProbes_leaves b r).1, State.besideReport_engineNoted,
    State.besideReport_reportChans, ← State.besideReport_engineNoted]

theorem State.bank_bankReport (s : State) (b : Nat) (r : BankReport) (c : Nat) :
    (s.bankReport b r).bank c = if b = c then { s.bank b with engine := if r.engineOk then 1 else 2 } else s.bank c := by
  rw [← State.bank_besideReport, State.besideReport_bankReport, State.bank_besideReport, State.engineNoted,
    State.bank_setBank]

/-- The state beside what a bank changes that reaches IN_SERVICE. -/
def State.besideService (s : State) : State := { s.besideReport with banks := [], host := {} }

theorem State.eq_of_besideService {s t : State} (h : t.besideService = s.besideService) :
    t = { s with banks := t.banks, fieldChans := t.fieldChans, host := t.host, fprobes := t.fprobes,
                 work := t.work, base := t.base } := by
  have ht : t = { t.besideService with banks := t.banks, fieldChans := t.fieldChans, host := t.host,
                                       fprobes := t.fprobes, work := t.work, base := t.base } := rfl
  rw [h] at ht
  exact ht

theorem State.besideService_bankReport (s : State) (b : Nat) (r : BankReport) :
    (s.bankReport b r).besideService = s.besideService := by
  rw [State.besideService, State.besideReport_bankReport]
  rfl

/-- In its channel, if that is one of the bank's, no field record has the index of an entry. -/
def State.RecGone (b : Nat) (e : Nat × Nat) (s : State) : Prop :=
  e.1 / 8 = b → ∀ x ∈ (s.fch e.1).fieldRecs, x.1 ≠ e.2

theorem State.recGone_dropRec (b : Nat) (s : State) (e : Nat × Nat) : State.RecGone b e (s.dropRec b e) := by
  intro he x hx
  rw [State.dropRec, if_pos he, State.fch_setFch, if_pos rfl] at hx
  simpa using (List.mem_filter.mp hx).2

theorem State.RecGone.dropRec {b : Nat} (s : State) (a e : Nat × Nat) (h : State.RecGone b e s) :
    State.RecGone b e (s.dropRec b a) := by
  intro he x hx
  unfold State.dropRec at hx
  split at hx
  · rw [State.fch_setFch] at hx
    split at hx
    next hch => exact h he x (hch ▸ (List.mem_filter.mp hx).1)
    next => exact h he x hx
  · exact h he x hx

theorem State.fieldRecs_reportChans (s : State) (b : Nat) (r : BankReport) (ch : Nat) :
    ((s.reportChans b r).fch ch).fieldRecs = ((r.fieldRecBad.foldl (State.dropRec b) s).fch ch).fieldRecs := by
  refine foldl_keeps (fun u : State => (u.fch ch).fieldRecs) (fun u k => ?_) _ _
  dsimp only
  rw [State.fch_setFch]
  split
  next hk => rw [hk]
  next => rfl

/-- No field record that fails its check is left in a channel of the bank. -/
theorem State.fieldRecs_bankReport (s : State) {b : Nat} {r : BankReport} {ch i : Nat} (h : (ch, i) ∈ r.fieldRecBad)
    (hb : ch / 8 = b) : i ∉ ((s.bankReport b r).fch ch).fieldRecs.map (·.1) := by
  have hgone := foldl_brings (State.recGone_dropRec b) State.RecGone.dropRec r.fieldRecBad s (ch, i) h hb
  have hprobes : (s.bankReport b r).fch ch = (s.reportChans b r).fch ch :=
    State.fch_of_fieldChans ((s.reportChans b r).reportProbes_leaves b r).2 ch
  rw [hprobes, State.fieldRecs_reportChans, List.mem_map]
  rintro ⟨x, hx, hi⟩
  exact hgone x hx hi

/-! ## Failure and restart of a bank -/

theorem mem_bankChannels {b ch : Nat} : ch ∈ bankChannels b ↔ ch / 8 = b := by
  simp only [bankChannels, List.mem_map, List.mem_range]
  constructor
  · rintro ⟨k, hk, rfl⟩
    omega
  · intro h
    exact ⟨ch % 8, by omega, by omega⟩

theorem nodup_bankChannels (b : Nat) : (bankChannels b).Nodup :=
  List.nodup_range.map (fun x y h => by omega)

/-- Channels changed one after the other, each of them once. -/
theorem State.fch_foldl_setFch (g : FieldChan → FieldChan) {l : List Nat} (h : l.Nodup) (s : State) (n : Nat) :
    (l.foldl (fun s ch => s.setFch ch (g (s.fch ch))) s).fch n = if n ∈ l then g (s.fch n) else s.fch n := by
  induction l generalizing s with
  | nil => rfl
  | cons ch t ih =>
    obtain ⟨hnot, ht⟩ := List.nodup_cons.mp h
    rw [List.foldl_cons, ih ht, State.fch_setFch]
    by_cases hn : ch = n
    · subst hn
      simp [hnot]
    · simp [hn, Ne.symm hn]

/-- A channel of a bank that starts anew. -/
def FieldChan.anew (x : FieldChan) : FieldChan := { x.bare with serviceOff := x.serviceOff }

/-- The channels of a bank that starts anew. -/
def State.bareChans (s : State) (b : Nat) : State :=
  (bankChannels b).foldl (fun s ch => s.setFch ch (s.fch ch).anew) s

theorem State.fch_bareChans (s : State) (b n : Nat) : (s.bareChans b).fch n =
    if n / 8 = b then (s.fch n).anew else s.fch n := by
  refine (State.fch_foldl_setFch FieldChan.anew (nodup_bankChannels b) s n).trans ?_
  simp only [mem_bankChannels]

/-- The state beside its channels. -/
def State.besideChans (s : State) : State := { s with fieldChans := [] }

theorem State.eq_of_besideChans {s t : State} (h : t.besideChans = s.besideChans) :
    t = { s with fieldChans := t.fieldChans } := by
  have ht : t = { t.besideChans with fieldChans := t.fieldChans } := rfl
  rw [h] at ht
  exact ht

theorem State.bareChans_eq (s : State) (b : Nat) :
    s.bareChans b = { s with fieldChans := (s.bareChans b).fieldChans } := by
  refine State.eq_of_besideChans (foldl_keeps State.besideChans (fun _ _ => ?_) _ s)
  rfl

/-- A failed bank that has waited long enough, and has a restart left, restarts. -/
theorem State.restartBank_due {s : State} {b : Nat} (hb : (s.bank b).state = .failed) (hn : (s.bank b).restarts < 3)
    (ht : (s.bank b).restartAt ≤ s.tick) (passed : Bool) :
    s.restartBank b passed =
      if passed then
        (s.bareChans b).setBank b { (s.bank b).bare with
          state := .starting
          flags := (s.bank b).flags
          restarts := (s.bank b).restarts + 1
          fifo := (s.bank b).fifo
          fifoLost := (s.bank b).fifoLost }
      else if (s.bank b).restarts = 2 then
        (s.setBank b { s.bank b with state := .retired, restarts := 3 }).modBoot (fun x =>
          { x with marksBanks := insertSorted x.marksBanks b })
      else s.setBank b { s.bank b with restarts := (s.bank b).restarts + 1, restartAt := s.tick + 1024 } := by
  have hdue : ¬((s.bank b).state != .failed || decide (3 ≤ (s.bank b).restarts) ||
      decide (s.tick < (s.bank b).restartAt)) = true := by
    simp [hb]
    omega
  unfold State.restartBank State.bareChans
  exact if_neg hdue

theorem State.bank_modBoot (s : State) (f : Boot → Boot) (c : Nat) : (s.modBoot f).bank c = s.bank c := rfl

/-- A bank that passes its restart starts with its channels, and keeps what a loss of power leaves. -/
theorem State.restartBank_passed {s : State} {b : Nat} (hb : (s.bank b).state = .failed) (hn : (s.bank b).restarts < 3)
    (ht : (s.bank b).restartAt ≤ s.tick) : ∃ u : State, u = { s with fieldChans := u.fieldChans } ∧
      (∀ n, u.fch n = if n / 8 = b then (s.fch n).anew else s.fch n) ∧
      s.restartBank b true = u.setBank b { (s.bank b).bare with
        state := .starting
        flags := (s.bank b).flags
        restarts := (s.bank b).restarts + 1
        fifo := (s.bank b).fifo
        fifoLost := (s.bank b).fifoLost } :=
  ⟨s.bareChans b, s.bareChans_eq b, s.fch_bareChans b, (State.restartBank_due hb hn ht true).trans (if_pos rfl)⟩

/-- A declared failure is a write to the bank, with the flag of its cause. -/
theorem State.declareFailure_eq {s : State} {b : Nat} (h : (s.bank b).state = .inService) (cause : BankFailCause) :
    ∃ x, x.failDue = some cause ∧ x.state = .inService ∧ (x.flags.getLsbD 2 = true ∨ cause ≠ .selfCheck) ∧
      (x.flags.getLsbD 1 = true ∨ cause ≠ .barrierSupply) ∧ (s.declareFailure b cause).bank b = x ∧
      (∀ c, c ≠ b → (s.declareFailure b cause).bank c = s.bank c) ∧
      s.declareFailure b cause = { s with banks := (s.declareFailure b cause).banks } := by
  have hflag (bit : Nat) : ∃ x, ((s.setBank b { s.bank b with failDue := some cause }).bankFlag b bit true) =
      (s.setBank b { s.bank b with failDue := some cause }).setBank b x ∧ x.failDue = some cause ∧
      x.state = .inService ∧ x.flags = setBit16 (s.bank b).flags bit true := by
    obtain ⟨x, hx, hlink, -, hflags⟩ := (s.setBank b { s.bank b with failDue := some cause }).bankFlag_eq b bit true
    rw [State.bank_setBank, if_pos rfl] at hlink hflags
    exact ⟨x, hx, (congrArg Bank.failDue hlink :), (congrArg Bank.state hlink :).trans h, hflags rfl⟩
  have hother (x : Bank) (c : Nat) (hc : c ≠ b) :
      ((s.setBank b { s.bank b with failDue := some cause }).setBank b x).bank c = s.bank c := by
    rw [State.bank_setBank, if_neg hc.symm, State.bank_setBank, if_neg hc.symm]
  unfold State.declareFailure
  rw [if_neg (by simp [h])]
  cases cause with
  | selfCheck =>
    obtain ⟨x, hx, hfail, hstate, hflags⟩ := hflag 2
    dsimp only
    rw [hx]
    exact ⟨x, hfail, hstate, .inl (by rw [hflags]; simp [setBit16]), .inr (by simp),
      (State.bank_setBank _ _ _ _).trans (if_pos rfl), hother x, rfl⟩
  | barrierSupply =>
    obtain ⟨x, hx, hfail, hstate, hflags⟩ := hflag 1
    dsimp only
    rw [hx]
    exact ⟨x, hfail, hstate, .inr (by simp), .inl (by rw [hflags]; simp [setBit16]),
      (State.bank_setBank _ _ _ _).trans (if_pos rfl), hother x, rfl⟩
  | uplinkLost =>
    exact ⟨{ s.bank b with failDue := some .uplinkLost }, rfl, h, .inr (by simp), .inr (by simp),
      (State.bank_setBank _ _ _ _).trans (if_pos rfl),
      fun c hc => (State.bank_setBank _ _ _ _).trans (if_neg hc.symm), rfl⟩

/-! ## The fan domain's frame -/

theorem State.fanUplink_eq {s : State} (hon : s.vinOn = true) (hl : s.logicRuns = true) (hp : s.fanDom.powered = true)
    (f : Uplink) : ∃ inbufs, s.fanUplink f = { s with
      fanDom := if f.intact then { s.fanDom with goodUp := s.fanDom.goodUp + 1, sawUp := true }
        else { s.fanDom with goodUp := 0 }
      inbufs := inbufs } := by
  unfold State.fanUplink
  dsimp only
  rw [if_neg (by simp [hon, hl, hp])]
  cases hf : f.intact with
  | false => exact ⟨s.inbufs, rfl⟩
  | true =>
    rw [if_neg (by decide)]
    split
    · exact ⟨_, rfl⟩
    · exact ⟨s.inbufs, rfl⟩

end Sys2Proof.Machine
end

section
open Sys2Proof Sys2Proof.Machine

/-- Settles O49: each row by what its operation changes; the records of a frame leave all that the frame counts. -/
theorem banksAndUplink : Obligations.BanksAndUplink := by
  unfold Obligations.BanksAndUplink
  have hrow (s : State) (b : Fin 16) (f : Uplink) :
      exec (.bankUplinkFrame ⟨b.val, by omega⟩ f) s = .next (s.bankFrame b.val f) :=
    congrArg Host.Outcome.next (if_neg (Nat.ne_of_lt b.isLt))
  refine ⟨⟨fun s b f hon hl hb hf => ?intact,
      fun s b f m c hon hl hb hf hot hd _ hmeas hconvs hch hu hdi hp hnone hlatch => ?di,
      fun s b f hon hl hb hf => ?broken, fun s b f h => ?silent, fun s f hon hl hp => ?fan⟩,
    fun s b r h => ?service, fun s b r hs h => ?noService, fun s b cause h => ?failure,
    fun s b cause h => congrArg Host.Outcome.next (if_pos (by simpa using h)),
    fun s b hb hn ht => ?restart, fun s b hb hn ht => ?again, fun s b hb hn ht => ?retired,
    fun s b passed h => congrArg Host.Outcome.next (if_pos (by rcases h with h | h | h <;> simp [h])),
    fun s b unseen hp hn => congrArg Host.Outcome.next (if_neg (by simp [hp]; omega)),
    fun s b unseen h => congrArg Host.Outcome.next (if_pos (by simpa using h)), fun sum => ?classes⟩
  case intact =>
    have hbank := State.bank_takeFaultBit (s.used b.val f) b.val
    have htally := s.tally_used b.val f
    have hfault : ((s.used b.val f).bank b.val).faultBit = (s.bank b.val).faultBit := (congrArg Bank.faultBit htally :)
    refine ⟨_, (hrow s b f).trans (congrArg Host.Outcome.next (State.bankFrame_intact hon hl hb hf)), ?_⟩
    simp only [hbank, State.commonFault_takeFaultBit]
    refine ⟨(congrArg Bank.goodUp htally :), (congrArg Bank.missUp htally :), (congrArg Bank.sawUp htally :),
      (congrArg Bank.vfld htally :), (congrArg Bank.vfldMin htally :), (congrArg Bank.seqUp htally :),
      (congrArg Bank.failDue htally :), trivial, fun hc hwas => State.hasCause_takeFaultBit hc (hfault.trans hwas),
      fun h => ?_, fun hot hd hin => ?_, fun hlate => ?_, ?_⟩
    · rw [State.host_takeFaultBit (h.imp_right hfault.trans), State.host_used]
    · obtain ⟨hbatch, hcount, hedges⟩ := State.used_inTime hot hd hin
      refine ⟨hbatch, hcount, ?_⟩
      rw [State.inputs, State.inbufs_takeFaultBit]
      exact hedges
    · obtain ⟨hcount, hinbufs⟩ := State.used_late (b := b.val) hlate
      exact ⟨hcount, (State.inbufs_takeFaultBit _ _).trans hinbufs⟩
    · exact State.eq_of_besideFrame ((State.besideFrame_takeFaultBit _ _).trans (s.besideFrame_used _ _))
  case di =>
    refine ⟨_, (hrow s b f).trans (congrArg Host.Outcome.next (State.bankFrame_intact hon hl hb hf)), ?_⟩
    rw [State.inputs, State.inbufs_takeFaultBit]
    exact State.used_di hot hd hmeas hch (State.formMeas_di hch hu hdi hp hnone hlatch hconvs)
  case broken =>
    have hview := s.linkView_formed b.val f
    have hbank := State.bank_of_linkView hview b.val
    have hkeep := State.eq_of_linkView (congrArg Prod.fst hview :)
    refine ⟨_, (hrow s b f).trans (congrArg Host.Outcome.next (State.bankFrame_broken hon hl hb hf)), ?_⟩
    simp only [State.bank_setBank, if_true]
    have hretried : ((s.formed b.val f).bank b.val).retried = (s.bank b.val).retried := (congrArg Bank.retried hbank :)
    have hretries : ((s.formed b.val f).bank b.val).retries = (s.bank b.val).retries := (congrArg Bank.retries hbank :)
    refine ⟨trivial, (congrArg (fun k : Bank => sat32 (k.crcErrors + 1)) hbank :), trivial, by rw [hretried, hretries],
      (congrArg Bank.vfld hbank :), (congrArg Bank.seqUp hbank :), ?_⟩
    rw [hkeep]
    rfl
  case silent =>
    rw [hrow]
    exact congrArg Host.Outcome.next (if_pos (by rcases h with h | h | h <;> simp [h]))
  case fan =>
    obtain ⟨inbufs, heq⟩ := State.fanUplink_eq hon hl hp f
    exact ⟨_, congrArg Host.Outcome.next heq, rfl, rfl⟩
  case service =>
    obtain ⟨hann, hlink, hother⟩ := s.announced_leaves b.val r
    refine ⟨_, congrArg Host.Outcome.next (State.bankService_starting h r), ?_⟩
    have heq := State.eq_of_besideReport ((s.announced b.val r).besideReport_bankReport b.val r)
    have hhost : ((s.announced b.val r).bankReport b.val r).host = (s.announced b.val r).host := by
      rw [heq]
      rfl
    simp only [State.bank_bankReport, if_true, hhost]
    refine ⟨(congrArg Bank.state hlink :), (congrArg Bank.restarts hlink :), trivial, (congrArg Bank.vfld hlink :),
      (congrArg Bank.vfldMin hlink :), (congrArg Bank.guardArmed hlink :), fun hm hu => State.announced_uvlo hm hu r,
      fun hm => State.host_announced hm r, fun ch i hi hch => State.fieldRecs_bankReport _ hi hch,
      fun c hc => (if_neg hc.symm).trans (hother c hc), ?_⟩
    have hbeside : ((s.announced b.val r).bankReport b.val r).besideService = s.besideService := by
      rw [State.besideService_bankReport, hann]
      rfl
    rw [← hhost]
    exact State.eq_of_besideService hbeside
  case noService =>
    refine congrArg Host.Outcome.next ?_
    unfold State.bankService
    dsimp only
    split
    next hst => exact absurd hst hs
    next hst => exact if_pos (h.resolve_left (fun hne => hne hst))
    next => rfl
  case failure =>
    obtain ⟨x, hfail, hstate, hcheck, hsupply, hx, hother, heq⟩ := State.declareFailure_eq h cause
    rw [← hx] at hfail hstate hcheck hsupply
    exact ⟨_, rfl, hfail, hstate, hcheck, hsupply, hother, heq⟩
  case restart =>
    obtain ⟨u, hu, hfch, hstart⟩ := State.restartBank_passed hb hn ht
    refine ⟨_, congrArg Host.Outcome.next hstart, ?_, fun ch hch => (hfch ch).trans (if_pos hch),
      fun ch hch => (hfch ch).trans (if_neg hch), fun c hc => ?_, ?_⟩
    · rw [State.bank_setBank, if_pos rfl]
    · rw [State.bank_setBank, if_neg hc.symm, hu]
      rfl
    · rw [hu]
      rfl
  case again =>
    refine congrArg Host.Outcome.next ((State.restartBank_due hb (by omega) ht false).trans ?_)
    rw [if_neg (by decide), if_neg (by omega)]
  case retired =>
    refine ⟨_, congrArg Host.Outcome.next (((State.restartBank_due hb (by omega) ht false).trans
      (if_neg (by decide))).trans (if_pos hn)), ?_, mem_insertSorted.mpr (.inl rfl), rfl⟩
    rw [State.bank_modBoot, State.bank_setBank, if_pos rfl]
  case classes =>
    unfold loadClassOf loadSumOf
    refine ⟨fun h old => if_pos h, fun h old => ?_, fun h₁ h₂ old => ?_⟩
    · rw [if_neg (by omega), if_neg (by omega), if_neg (by omega), if_neg (by omega)]
    · rw [if_neg (by omega), if_neg (by omega), if_pos (by omega)]

end

section
/-! # Reads of a bank's page, its stamp FIFO and the maps of lines (R144, R154, R157, R169, R254) -/

namespace Sys2Proof.Machine

/-- The payload names a bank of the fitted part. -/
theorem ofBank_run {f : Nat → Body} {s : State} {c : Ctx} (h : field c.data 0 1 < s.bankCount) :
    ofBank f s c = f (field c.data 0 1) s c := if_pos h

theorem bankDiagBody_run {s : State} {c : Ctx} (hl : c.data.length = 1) (hb : field c.data 0 1 < s.bankCount) :
    bankDiagBody s c = (okData (s.diagPage (field c.data 0 1)), s.diagRead (field c.data 0 1)) := by
  rw [bankDiagBody, exactly_run hl, ofBank_run hb]

theorem stampFifoBody_run {s : State} {c : Ctx} (hl : c.data.length = 2) (hb : field c.data 0 1 < s.bankCount)
    (hn : field c.data 1 1 ≠ 0) : stampFifoBody s c =
      (okData (le 2 ((s.bank (field c.data 0 1)).fifo.drop (field c.data 1 1)).length ++
        le 2 ((s.bank (field c.data 0 1)).fifo.take (field c.data 1 1)).length ++
        (((s.bank (field c.data 0 1)).fifo.take (field c.data 1 1)).map FifoEntry.bytes).flatten),
      s.setBank (field c.data 0 1) { s.bank (field c.data 0 1) with
        fifo := (s.bank (field c.data 0 1)).fifo.drop (field c.data 1 1) }) := by
  rw [stampFifoBody, exactly_run hl, ofBank_run hb]
  exact if_neg hn

theorem combNodemapBody_run {s : State} {c : Ctx} (hl : c.data.length = 4)
    (hg : s.goodHandle (field c.data 0 2) = true) (hk : slotKind (field c.data 0 2) = 0x08)
    (hz : firstSet c.data 3 1 = none) (hsel : field c.data 2 1 ≤ 1) : combNodemapBody s c =
      (okData (padTo 580 (if field c.data 2 1 = 0 then s.cfgBlock P.COMB_NODEMAP (slotInst (field c.data 0 2))
        else (s.fcomb (slotInst (field c.data 0 2))).found.getD [])), s) := by
  rw [combNodemapBody, exactly_run hl, ofKind_run hg hk, reserved_run hz]
  obtain hstored | hfound : field c.data 2 1 = 0 ∨ field c.data 2 1 = 1 := by omega
  · simp only [hstored, if_pos]
  · simp only [hfound, Nat.one_ne_zero, if_false]

/-- The channels of a bank whose page has been read. -/
def State.chansRead (s : State) (b : Nat) : State :=
  (bankChannels b).foldl (fun s ch => s.setFch ch (s.fch ch).afterRead) s

theorem State.chansRead_eq (s : State) (b : Nat) :
    s.chansRead b = { s with fieldChans := (s.chansRead b).fieldChans } := by
  refine State.eq_of_besideChans (foldl_keeps State.besideChans (fun _ _ => ?_) _ s)
  rfl

/-- A read of a bank's page changes the bank's channels, and then the bank. -/
theorem State.diagRead_eq (s : State) (b : Nat) : ∃ u : State, u = { s with fieldChans := u.fieldChans } ∧
    (∀ ch, u.fch ch = if ch / 8 = b then (s.fch ch).afterRead else s.fch ch) ∧
    s.diagRead b = u.setBank b { u.bank b with
      flags := (u.bank b).flags &&& (u.bank b).present
      vfldMin := (u.bank b).vfld
      fifoHigh := (u.bank b).fifo.length } := by
  refine ⟨s.chansRead b, s.chansRead_eq b, fun ch => ?_, rfl⟩
  refine (State.fch_foldl_setFch FieldChan.afterRead (nodup_bankChannels b) s ch).trans ?_
  simp only [mem_bankChannels]

end Sys2Proof.Machine
end

section
open Sys2Proof Sys2Proof.Machine

/-- Settles O23: each command's meaning is one answer; a read of the page is a write to the bank and its channels. -/
theorem fieldReads : Obligations.FieldReads := by
  unfold Obligations.FieldReads
  refine ⟨fun s p r e h hl hb => ?page, fun s b => ?left, fun s p r e h hl hb hn => ?fifo,
    fun s p r e h hl hg hk hz hsel => ?map⟩
  case page =>
    exact congrArg _ (State.hostCommand_ok h (by decide) (bankDiagBody_run (c := hostCtx s p r e) hl hb) rfl)
  case left =>
    obtain ⟨u, hu, hfch, hread⟩ := s.diagRead_eq b
    have hbank : u.bank b = s.bank b := by rw [hu]; rfl
    have hwork : u.work = s.work := by rw [hu]
    rw [hread, State.bank_setBank, if_pos rfl, hbank]
    refine ⟨hwork, fun ch hch => ?_, rfl, rfl, rfl⟩
    show (u.fch ch).flags = _
    rw [hfch, if_pos hch]
    rfl
  case fifo =>
    exact congrArg _ (State.hostCommand_ok h (by decide) (stampFifoBody_run (c := hostCtx s p r e) hl hb hn) rfl)
  case map =>
    exact congrArg _ (State.hostCommand_ok h (by decide)
      (combNodemapBody_run (c := hostCtx s p r e) hl hg hk hz hsel) rfl)

end

section
/-! # Edges of digital inputs (R149, R150, R154, R158) -/

namespace Sys2Proof.Machine

theorem mem_insertStamp {l : List Stamp} {x y : Stamp} : y ∈ insertStamp l x ↔ y = x ∨ y ∈ l := by
  induction l with
  | nil => simp [insertStamp]
  | cons z t ih =>
    rw [insertStamp]
    split
    · rw [List.mem_cons, ih, List.mem_cons]
      exact or_left_comm
    · exact List.mem_cons

/-- What is no accepted edge: one to the level that stands, of a channel that is no digital input, or of one whose field
side is off. -/
theorem State.edge_none {s : State} {ch : Nat} {rise : Bool} (fine : Nat)
    (h : (s.fch ch).level = rise ∨ modeDi (s.mode ch) = false ∨ s.fieldAlive ch = false) :
    s.edge ch rise fine = s :=
  if_pos (by rcases h with h | h | h <;> simp [h])

/-- The fine count of an edge in the running tick (R149, R150). -/
def State.edgeFine (s : State) (fine : Nat) : Nat := if s.fineValid then Nat.min fine (s.tickFine - 1) else 0xFFFF

/-- The direction of an edge as DI_INVERT turns it. -/
def State.edgeUp (s : State) (ch : Nat) (rise : Bool) : Bool := rise != (s.cfg P.DI_INVERT ch == 1)

/-- Whether COUNT_EDGE takes a direction. -/
def State.edgeCounts (s : State) (ch : Nat) (up : Bool) : Bool :=
  s.cfg P.COUNT_EDGE ch == 2 || (s.cfg P.COUNT_EDGE ch == 0 && up) || (s.cfg P.COUNT_EDGE ch == 1 && !up)

/-- A channel after an accepted edge. -/
def FieldChan.edged (f : FieldChan) (rise counted : Bool) (fine : Nat) : FieldChan :=
  { f with
    level := rise
    edges := f.edges + 1
    lastFine := some fine
    counted := if counted then f.counted + 1 else f.counted
    countFine := if counted then some fine else f.countFine }

/-- The channel's part of an accepted edge. -/
def State.edged (s : State) (ch : Nat) (rise : Bool) (fine : Nat) : State :=
  s.setFch ch ((s.fch ch).edged rise (s.edgeCounts ch (s.edgeUp ch rise)) (s.edgeFine fine))

/-- A bank that has stamped an edge of a channel. -/
def Bank.stamped (k : Bank) (x : Stamp) : Bank := { k with stamps := insertStamp k.stamps x }

theorem State.edge_accepted {s : State} {ch : Nat} {rise : Bool} (fine : Nat) (halive : s.fieldAlive ch = true)
    (hdi : modeDi (s.mode ch) = true) (hlevel : (s.fch ch).level = !rise) :
    s.edge ch rise fine =
      if bit (s.run P.STAMP_EN ch) (if s.edgeUp ch rise then 0 else 1) then
        (s.edged ch rise fine).setBank (ch / 8) ((s.bank (ch / 8)).stamped
          { ch := ch, rise := s.edgeUp ch rise, tick := s.tick, fine := s.edgeFine fine })
      else s.edged ch rise fine :=
  if_neg (by simp [halive, hdi, hlevel])

end Sys2Proof.Machine
end

section
open Sys2Proof Sys2Proof.Machine

/-- Settles O50: an accepted edge is a write to its channel, and to its bank when it is stamped. -/
theorem digitalEdges : Obligations.DigitalEdges := by
  unfold Obligations.DigitalEdges
  refine ⟨fun s ch rise fine halive hdi hlevel => ?accepted,
    fun s ch rise fine h => congrArg Host.Outcome.next (State.edge_none fine h), fun l x y => mem_insertStamp⟩
  case accepted =>
    intro f fine' up counted
    have hedge := State.edge_accepted fine halive hdi hlevel
    refine ⟨_, congrArg Host.Outcome.next hedge, ?_⟩
    by_cases hstamp : bit (s.run P.STAMP_EN ch.val) (if s.edgeUp ch.val rise then 0 else 1) = true
    · rw [if_pos hstamp]
      exact ⟨(State.fch_setFch _ _ _ _).trans (if_pos rfl),
        fun k hk => (State.fch_setFch _ _ _ _).trans (if_neg hk.symm),
        fun c hc => (State.bank_setBank _ _ _ _).trans (if_neg hc.symm),
        ((State.bank_setBank _ _ _ _).trans (if_pos rfl)).trans (if_pos hstamp).symm, rfl⟩
    · rw [if_neg hstamp]
      exact ⟨(State.fch_setFch _ _ _ _).trans (if_pos rfl),
        fun k hk => (State.fch_setFch _ _ _ _).trans (if_neg hk.symm), fun c _ => rfl, (if_neg hstamp).symm, rfl⟩

end

section
/-! # What the flags of banks and channels leave (R143, R144, Tables 04-6 and 04-7) -/

namespace Sys2Proof.Machine

/-- A bank beside the instant of its last flag. -/
def Bank.timeless (k : Bank) : Bank := { k with lastEvent := (0, 0) }

/-- A channel beside its flags. -/
def FieldChan.unflagged (f : FieldChan) : FieldChan := { f with flags := 0, present := 0 }

/-- From `s` to `t` flags of the channels of bank `b` come or go, with the instant of the last one, and nothing else
changes; a flag that is latched stays. -/
structure State.ShowsFlags (b : Nat) (s t : State) : Prop where
  beside : t = { s with banks := t.banks, fieldChans := t.fieldChans }
  bank : ∀ c, (t.bank c).timeless = (s.bank c).timeless
  otherBank : ∀ c, c ≠ b → t.bank c = s.bank c
  chan : ∀ ch, (t.fch ch).unflagged = (s.fch ch).unflagged
  otherChan : ∀ ch, ch / 8 ≠ b → t.fch ch = s.fch ch
  latched : ∀ ch i, (s.fch ch).flags.getLsbD i = true → (t.fch ch).flags.getLsbD i = true

namespace State.ShowsFlags

theorem refl (b : Nat) (s : State) : ShowsFlags b s s :=
  ⟨rfl, fun _ => rfl, fun _ _ => rfl, fun _ => rfl, fun _ _ => rfl, fun _ _ h => h⟩

theorem trans {b : Nat} {s t u : State} (h : ShowsFlags b s t) (h' : ShowsFlags b t u) : ShowsFlags b s u where
  beside := h'.beside.trans
    (congrArg (fun x : State => { x with banks := u.banks, fieldChans := u.fieldChans }) h.beside)
  bank c := (h'.bank c).trans (h.bank c)
  otherBank c hc := (h'.otherBank c hc).trans (h.otherBank c hc)
  chan ch := (h'.chan ch).trans (h.chan ch)
  otherChan ch hch := (h'.otherChan ch hch).trans (h.otherChan ch hch)
  latched ch i hi := h'.latched ch i (h.latched ch i hi)

/-- Flags shown after a change of banks and channels. -/
theorem eq_of {b : Nat} {s u t : State} (h : ShowsFlags b u t)
    (hu : u = { s with banks := u.banks, fieldChans := u.fieldChans }) :
    t = { s with banks := t.banks, fieldChans := t.fieldChans } :=
  h.beside.trans (congrArg (fun x : State => { x with banks := t.banks, fieldChans := t.fieldChans }) hu)

theorem foldl {α : Type} {b : Nat} {f : State → α → State} {l : List α}
    (hf : ∀ a ∈ l, ∀ s, ShowsFlags b s (f s a)) (s : State) : ShowsFlags b s (l.foldl f s) :=
  List.foldlRecOn (motive := fun t => ShowsFlags b s t) l f (refl b s) (fun t ht a ha => ht.trans (hf a ha t))

end State.ShowsFlags

/-- A channel whose flag comes or goes. -/
def FieldChan.flagged (f : FieldChan) (bit : Nat) (on : Bool) : FieldChan :=
  { f with present := setBit16 f.present bit on, flags := if on then setBit16 f.flags bit true else f.flags }

theorem FieldChan.latched_flagged {f : FieldChan} {i : Nat} (h : f.flags.getLsbD i = true) (bit : Nat) (on : Bool) :
    (f.flagged bit on).flags.getLsbD i = true := by
  cases on with
  | false => exact h
  | true => simp [FieldChan.flagged, setBit16, h]

/-- A channel flag is a write to that channel, and to its bank when the flag is new. -/
theorem State.chanFlag_cases (s : State) (ch bit : Nat) (on : Bool) :
    s.chanFlag ch bit on = s.setFch ch ((s.fch ch).flagged bit on) ∨
      s.chanFlag ch bit on = (s.setFch ch ((s.fch ch).flagged bit on)).setBank (ch / 8)
        { s.bank (ch / 8) with lastEvent := s.eventStamp (ch / 8) s.tick } := by
  unfold State.chanFlag State.chanFlagAt
  dsimp only
  split
  · exact .inr rfl
  · exact .inl rfl

theorem State.fch_chanFlag (s : State) (ch bit : Nat) (on : Bool) (n : Nat) :
    (s.chanFlag ch bit on).fch n = if ch = n then (s.fch ch).flagged bit on else s.fch n := by
  obtain h | h := s.chanFlag_cases ch bit on <;> rw [h]
  · exact State.fch_setFch _ _ _ _
  · exact State.fch_setFch _ _ _ _

/-- A flag that sets stands in its channel. -/
theorem State.latched_chanFlag (s : State) (ch : Nat) {bit : Nat} (hb : bit < 16) :
    ((s.chanFlag ch bit true).fch ch).flags.getLsbD bit = true := by
  rw [State.chanFlag_flags, BitVec.getLsbD_or, BitVec.getLsbD_ofNat, Nat.testBit_two_pow_self]
  simp [hb]

theorem State.showsFlags_chanFlag {ch b : Nat} (hb : ch / 8 = b) (s : State) (bit : Nat) (on : Bool) :
    ShowsFlags b s (s.chanFlag ch bit on) := by
  have hfch := s.fch_chanFlag ch bit on
  refine ⟨State.chanFlag_eq s ch bit on, fun c => ?_, fun c hc => ?_, fun n => ?_, fun n hn => ?_, fun n i hi => ?_⟩
  · obtain h | h := s.chanFlag_cases ch bit on <;> rw [h]
    · rfl
    · rw [State.bank_setBank]
      split
      next hc => rw [← hc]; rfl
      next => rfl
  · obtain h | h := s.chanFlag_cases ch bit on <;> rw [h]
    · rfl
    · exact (State.bank_setBank _ _ _ _).trans (if_neg (by omega))
  · rw [hfch]
    split
    next hn => rw [← hn]; rfl
    next => rfl
  · rw [hfch, if_neg (by rintro rfl; exact hn hb)]
  · rw [hfch]
    split
    next hn => exact FieldChan.latched_flagged (hn ▸ hi) bit on
    next => exact hi

/-! ## The flags that show conditions of the field side -/

/-- Flags of a channel with their conditions, one after the other. -/
def State.showAll (s : State) (ch : Nat) (l : List (Nat × Bool)) : State :=
  l.foldl (fun s e => s.chanFlag ch e.1 e.2) s

theorem State.showsFlags_showAll {ch b : Nat} (hb : ch / 8 = b) (l : List (Nat × Bool)) (s : State) :
    ShowsFlags b s (s.showAll ch l) :=
  .foldl (fun e _ s => State.showsFlags_chanFlag hb s e.1 e.2) s

/-- A condition in the list that is present shows in its flag. -/
theorem State.latched_showAll {ch bit : Nat} {l : List (Nat × Bool)} (hl : (bit, true) ∈ l) (hb : bit < 16)
    (s : State) : ((s.showAll ch l).fch ch).flags.getLsbD bit = true := by
  have hall := foldl_brings (P := fun (e : Nat × Bool) (s : State) =>
    e.2 = true → e.1 < 16 → (s.fch ch).flags.getLsbD e.1 = true) (f := fun s e => s.chanFlag ch e.1 e.2)
    (fun s e hon hlt => by rw [hon]; exact s.latched_chanFlag ch hlt)
    (fun s a e h hon hlt => (State.showsFlags_chanFlag rfl s a.1 a.2).latched ch e.1 (h hon hlt)) l s
  exact hall _ hl rfl hb

/-- The flags of a channel's trip (R164 to R167, R205). -/
def State.tripShown (s : State) (ch : Nat) : List (Nat × Bool) :=
  [(2, (s.fch ch).trip == some 0x10), (3, (s.fch ch).trip == some 0x11),
    (4, (s.fch ch).trip == some 0x12 ||
      (bankChannels (ch / 8)).any (fun c => (s.fch c).trip == some 0x12 && (s.fch c).partner == ch % 8)),
    (5, (s.fch ch).trip == some 0x13)]

/-- A channel shows the flags of its trip, and then three flags of what else holds it off (R136, R169, R174). -/
theorem State.fieldFlags_eq (s : State) (ch : Nat) :
    ∃ l, s.fieldFlags ch = (s.showAll ch (s.tripShown ch)).showAll ch l := by
  unfold State.fieldFlags State.showAll State.tripShown
  dsimp only [List.foldl_cons, List.foldl_nil]
  exact ⟨[(9, _), (10, _), (11, _)], rfl⟩

theorem State.showsFlags_fieldFlags {ch b : Nat} (hb : ch / 8 = b) (s : State) : ShowsFlags b s (s.fieldFlags ch) := by
  obtain ⟨l, hl⟩ := s.fieldFlags_eq ch
  rw [hl]
  exact (State.showsFlags_showAll hb (s.tripShown ch) s).trans (State.showsFlags_showAll hb l _)

theorem State.showsFlags_bankFlags (s : State) (b : Nat) : ShowsFlags b s (s.bankFlags b) :=
  .foldl (fun _ hch s => State.showsFlags_fieldFlags (mem_bankChannels.mp (List.mem_filter.mp hch).1) s) s

/-- Flags that are shown change no trip. -/
theorem State.ShowsFlags.tripShown {b : Nat} {s t : State} (h : ShowsFlags b s t) (ch : Nat) :
    t.tripShown ch = s.tripShown ch := by
  have htrip (n : Nat) : (t.fch n).trip = (s.fch n).trip := (congrArg FieldChan.trip (h.chan n) :)
  have hpartner (n : Nat) : (t.fch n).partner = (s.fch n).partner := (congrArg FieldChan.partner (h.chan n) :)
  simp only [State.tripShown, htrip, hpartner]

theorem State.latched_fieldFlags {s : State} {ch bit : Nat} (h : (bit, true) ∈ s.tripShown ch) (hb : bit < 16) :
    ((s.fieldFlags ch).fch ch).flags.getLsbD bit = true := by
  obtain ⟨l, hl⟩ := s.fieldFlags_eq ch
  rw [hl]
  exact (State.showsFlags_showAll rfl l _).latched ch bit (State.latched_showAll h hb s)

/-- A trip in a bank shows in the flags of its channels. -/
theorem State.latched_bankFlags {s : State} {b ch bit : Nat} (hch : ch / 8 = b) (hu : s.has (chanSlot ch) = true)
    (h : (bit, true) ∈ s.tripShown ch) (hb : bit < 16) :
    ((s.bankFlags b).fch ch).flags.getLsbD bit = true := by
  have hall := foldl_brings (P := fun (c : Nat) (u : State) =>
    (bit, true) ∈ u.tripShown c → (u.fch c).flags.getLsbD bit = true) (f := State.fieldFlags)
    (fun u c hc => State.latched_fieldFlags ((State.showsFlags_fieldFlags rfl u).tripShown c ▸ hc) hb)
    (fun u a c hkeep hc => (State.showsFlags_fieldFlags rfl u).latched c bit
      (hkeep ((State.showsFlags_fieldFlags rfl u).tripShown c ▸ hc)))
    ((bankChannels b).filter (fun ch => s.has (chanSlot ch))) s
  have hshown : (s.bankFlags b).tripShown ch = s.tripShown ch := (s.showsFlags_bankFlags b).tripShown ch
  exact hall ch (List.mem_filter.mpr ⟨mem_bankChannels.mpr hch, hu⟩) (hshown ▸ h)

end Sys2Proof.Machine
end

section
/-! # Crossings of supply thresholds (R169, R323, R425) -/

namespace Sys2Proof.Machine

theorem State.ShowsFlags.linkView {b : Nat} {s t : State} (h : ShowsFlags b s t) : t.linkView = s.linkView :=
  Prod.ext (congrArg (fun x : State => { x with banks := [], fieldChans := [] }) h.beside :)
    (funext fun c => (congrArg Bank.atLink (h.bank c) :))

/-- A bank that has measured VFLD at a crossing. -/
def Bank.crossed (k : Bank) (mv : Nat) : Bank := { k with vfld := mv, vfldMin := Nat.min k.vfldMin mv }

/-- The state in which a crossing has been measured and its flag shown, before it is reported. -/
def State.crossing (s : State) (b bit : Nat) (on : Bool) (mv : Nat) : State :=
  let t := s.setBank b ((s.bank b).crossed mv)
  if s.monitored b then (t.bankFlag b bit on).bankFlags b else t

theorem State.linkView_crossing (s : State) (b bit : Nat) (on : Bool) (mv : Nat) :
    (s.crossing b bit on mv).linkView = (s.setBank b ((s.bank b).crossed mv)).linkView := by
  unfold State.crossing
  dsimp only
  split
  · exact (State.showsFlags_bankFlags _ b).linkView.trans (State.linkView_bankFlag _ _ _ _)
  · rfl

theorem State.vfldReport_eq (s : State) (b bit : Nat) (on : Bool) (mv : Nat) :
    s.vfldReport b bit on mv = if s.monitored b = true ∧ ((s.crossing b bit on mv).bank b).state = .inService
      then (s.crossing b bit on mv).raise causeSupply 0xFFFF b mv else s.crossing b bit on mv := by
  unfold State.vfldReport State.crossing
  dsimp only
  cases hm : s.monitored b with
  | false => exact (if_pos (by simp [show (s.setBank b _).monitored b = false from hm])).trans (if_neg (by simp)).symm
  | true =>
    refine (if_neg (by simp [show (s.setBank b _).monitored b = true from hm])).trans ?_
    simp only [if_true, true_and]
    rfl

/-- A crossing is measured by its bank, and reported by a monitored bank in service. -/
theorem State.vfldReport_leaves (s : State) (b bit : Nat) (on : Bool) (mv : Nat) :
    ((s.vfldReport b bit on mv).bank b).atLink = ((s.bank b).crossed mv).atLink ∧
      (s.vfldReport b bit on mv).host = (if s.monitored b = true ∧ (s.bank b).state = .inService
        then (s.raise causeSupply 0xFFFF b mv).host else s.host) ∧
      s.vfldReport b bit on mv = { s with
        banks := (s.vfldReport b bit on mv).banks
        fieldChans := (s.vfldReport b bit on mv).fieldChans
        host := (s.vfldReport b bit on mv).host } := by
  have hview := s.linkView_crossing b bit on mv
  have hbank := State.bank_of_linkView hview b
  rw [State.bank_setBank, if_pos rfl] at hbank
  have heq : s.crossing b bit on mv = { s with
      banks := (s.crossing b bit on mv).banks, fieldChans := (s.crossing b bit on mv).fieldChans } :=
    State.eq_of_linkView (congrArg Prod.fst hview :)
  have hstate : ((s.crossing b bit on mv).bank b).state = (s.bank b).state := (congrArg Bank.state hbank :)
  rw [State.vfldReport_eq, hstate]
  generalize s.crossing b bit on mv = t at hbank heq
  split
  · refine ⟨hbank, ?_, congrArg (fun x : State => { x with host := (t.raise causeSupply 0xFFFF b mv).host }) heq⟩
    rw [heq]
    rfl
  · refine ⟨hbank, ?_, ?_⟩
    · rw [heq]
    · have hhost : t.host = s.host := by rw [heq]
      rw [hhost]
      exact heq

/-- A crossing of a bank whose state and lowest VFLD are as they were. -/
theorem State.vfldReport_setBank {s : State} {b : Nat} {k : Bank} (hstate : k.state = (s.bank b).state)
    (hmin : k.vfldMin = (s.bank b).vfldMin) (bit : Nat) (on : Bool) (mv : Nat) :
    (((s.setBank b k).vfldReport b bit on mv).bank b).atLink =
        ({ k with vfld := mv, vfldMin := Nat.min (s.bank b).vfldMin mv } : Bank).atLink ∧
      ((s.setBank b k).vfldReport b bit on mv).host = (if s.monitored b = true ∧ (s.bank b).state = .inService
        then (s.raise causeSupply 0xFFFF b mv).host else s.host) ∧
      (s.setBank b k).vfldReport b bit on mv = { s with
        banks := ((s.setBank b k).vfldReport b bit on mv).banks
        fieldChans := ((s.setBank b k).vfldReport b bit on mv).fieldChans
        host := ((s.setBank b k).vfldReport b bit on mv).host } := by
  obtain ⟨hbank, hhost, heq⟩ := (s.setBank b k).vfldReport_leaves b bit on mv
  rw [State.bank_setBank, if_pos rfl] at hbank hhost
  rw [hstate] at hhost
  rw [Bank.crossed, hmin] at hbank
  exact ⟨hbank, hhost, heq⟩

/-- Events that a crossing counts: entries that a monitored bank in service reports. -/
def State.tally (s : State) (b : Nat) (on : Bool) (n : Nat) : Nat :=
  if on && (s.bank b).state == .inService && s.monitored b then sat16 (n + 1) else n

theorem State.tally_entry (s : State) (b n : Nat) : s.tally b true n =
    if s.monitored b = true ∧ (s.bank b).state = .inService then sat16 (n + 1) else n :=
  if_congr (by simp [and_comm]) rfl rfl

theorem State.vfldUvlo_crosses {s : State} {b : Nat} {on : Bool} (hp : (s.bank b).powered = true)
    (h : (s.bank b).uvlo = !on) (mv : Nat) : s.vfldUvlo b on mv =
      (s.setBank b { s.bank b with
        uvlo := on, uvloEvents := s.tally b on (s.bank b).uvloEvents }).vfldReport b 5 on mv :=
  if_neg (by simp [hp, h])

theorem State.vfldLow_crosses {s : State} {b : Nat} {on : Bool} (hp : (s.bank b).powered = true)
    (h : (s.bank b).vfldLow = !on) (mv : Nat) : s.vfldLowCross b on mv =
      (s.setBank b { s.bank b with
        vfldLow := on, lowEvents := s.tally b on (s.bank b).lowEvents }).vfldReport b 6 on mv :=
  if_neg (by simp [hp, h])

theorem State.vfldUvlo_leaves {s : State} {b : Nat} {on : Bool} (hp : (s.bank b).powered = true)
    (h : (s.bank b).uvlo = !on) (mv : Nat) :
    ((s.vfldUvlo b on mv).bank b).uvlo = on ∧ ((s.vfldUvlo b on mv).bank b).vfldLow = (s.bank b).vfldLow ∧
      ((s.vfldUvlo b on mv).bank b).uvloEvents = s.tally b on (s.bank b).uvloEvents := by
  rw [State.vfldUvlo_crosses hp h]
  obtain ⟨hbank, -⟩ := State.vfldReport_setBank (s := s) (b := b)
    (k := { s.bank b with uvlo := on, uvloEvents := s.tally b on (s.bank b).uvloEvents }) rfl rfl 5 on mv
  exact ⟨(congrArg Bank.uvlo hbank :), (congrArg Bank.vfldLow hbank :), (congrArg Bank.uvloEvents hbank :)⟩

theorem State.vfldLow_leaves {s : State} {b : Nat} {on : Bool} (hp : (s.bank b).powered = true)
    (h : (s.bank b).vfldLow = !on) (mv : Nat) :
    ((s.vfldLowCross b on mv).bank b).vfldLow = on ∧ ((s.vfldLowCross b on mv).bank b).uvlo = (s.bank b).uvlo ∧
      ((s.vfldLowCross b on mv).bank b).lowEvents = s.tally b on (s.bank b).lowEvents := by
  rw [State.vfldLow_crosses hp h]
  obtain ⟨hbank, -⟩ := State.vfldReport_setBank (s := s) (b := b)
    (k := { s.bank b with vfldLow := on, lowEvents := s.tally b on (s.bank b).lowEvents }) rfl rfl 6 on mv
  exact ⟨(congrArg Bank.vfldLow hbank :), (congrArg Bank.uvlo hbank :), (congrArg Bank.lowEvents hbank :)⟩

/-- A crossing of a bank with power, of whichever threshold. -/
theorem exec_vfldCrossing {s : State} {b : Fin 16} {mv : Nat} {c : Instr} (hp : (s.bank b.val).powered = true)
    (hc : c = Instr.vfldUvloEntry b mv ∧ (s.bank b.val).uvlo = false ∨
      c = Instr.vfldUvloReturn b mv ∧ (s.bank b.val).uvlo = true ∨
      c = Instr.vfldLowSet b mv ∧ (s.bank b.val).vfldLow = false ∨
      c = Instr.vfldLowClear b mv ∧ (s.bank b.val).vfldLow = true) :
    ∃ k bit on, k.state = (s.bank b.val).state ∧ k.vfldMin = (s.bank b.val).vfldMin ∧
      exec c s = .next ((s.setBank b.val k).vfldReport b.val bit on mv) := by
  obtain ⟨rfl, hu⟩ | ⟨rfl, hu⟩ | ⟨rfl, hu⟩ | ⟨rfl, hu⟩ := hc
  · have hcross := State.vfldUvlo_crosses (on := true) hp hu mv
    refine ⟨_, 5, true, ?_, ?_, congrArg Host.Outcome.next hcross⟩ <;> rfl
  · have hcross := State.vfldUvlo_crosses (on := false) hp hu mv
    refine ⟨_, 5, false, ?_, ?_, congrArg Host.Outcome.next hcross⟩ <;> rfl
  · have hcross := State.vfldLow_crosses (on := true) hp hu mv
    refine ⟨_, 6, true, ?_, ?_, congrArg Host.Outcome.next hcross⟩ <;> rfl
  · have hcross := State.vfldLow_crosses (on := false) hp hu mv
    refine ⟨_, 6, false, ?_, ?_, congrArg Host.Outcome.next hcross⟩ <;> rfl

/-! ## VFAN -/

section
variable {s : State} (hp : s.fanDom.powered = true) (mv : Nat)
include hp

theorem exec_vfanUvloEntry (h : s.fanDom.uvlo = false) : exec (.vfanCrossing .uvloEntry mv) s =
    .next (({ s with fanDom := { s.fanDom with uvlo := true, millivolts := mv } } : State).raise
      causeSupply 0xFFFF 16 mv) :=
  congrArg Host.Outcome.next ((if_neg (by simp [hp])).trans (if_neg (by simp [h])))

theorem exec_vfanUvloReturn (h : s.fanDom.uvlo = true) : exec (.vfanCrossing .uvloReturn mv) s =
    .next (let u : State := { s with fanDom := { s.fanDom with uvlo := false, millivolts := mv, quietUvlo := false } }
      if s.fanDom.quietUvlo then u else u.raise causeSupply 0xFFFF 16 mv) :=
  congrArg Host.Outcome.next ((if_neg (by simp [hp])).trans (if_neg (by simp [h])))

theorem exec_vfanLowSet (h : s.fanDom.low = false) : exec (.vfanCrossing .lowSet mv) s =
    .next (({ s with fanDom := { s.fanDom with low := true, millivolts := mv } } : State).raise
      causeSupply 0xFFFF 16 mv) :=
  congrArg Host.Outcome.next ((if_neg (by simp [hp])).trans (if_neg (by simp [h])))

theorem exec_vfanLowClear (h : s.fanDom.low = true) : exec (.vfanCrossing .lowClear mv) s =
    .next (let u : State := { s with fanDom := { s.fanDom with low := false, millivolts := mv, quietLow := false } }
      if s.fanDom.quietLow then u else u.raise causeSupply 0xFFFF 16 mv) :=
  congrArg Host.Outcome.next ((if_neg (by simp [hp])).trans (if_neg (by simp [h])))

end

end Sys2Proof.Machine
end

section
open Sys2Proof Sys2Proof.Machine

/-- Settles O31: a bank's crossing is measured, shown and reported in one way whatever its threshold. -/
theorem supplyCrossings : Obligations.SupplyCrossings := by
  unfold Obligations.SupplyCrossings
  refine ⟨fun s c mv hon => ?vin, fun s b mv hp => ⟨fun h => ?uvloEntry, fun h => ?uvloReturn, fun h => ?lowSet,
      fun h => ?lowClear⟩, fun s b mv c t hp hc ht => ?reported, fun s mv hp h => exec_vfanUvloEntry hp mv h,
    fun s mv hp h => exec_vfanUvloReturn hp mv h, fun s mv hp h => exec_vfanLowSet hp mv h,
    fun s mv hp h => exec_vfanLowClear hp mv h⟩
  case vin => exact congrArg Host.Outcome.next ((if_pos hon).trans (by cases c <;> rfl))
  case uvloEntry =>
    obtain ⟨hon, hother, hcount⟩ := State.vfldUvlo_leaves (on := true) hp h mv
    exact ⟨_, rfl, hon, hother, hcount.trans (s.tally_entry _ _)⟩
  case uvloReturn => exact ⟨_, rfl, State.vfldUvlo_leaves (on := false) hp h mv⟩
  case lowSet =>
    obtain ⟨hon, hother, hcount⟩ := State.vfldLow_leaves (on := true) hp h mv
    exact ⟨_, rfl, hon, hother, hcount.trans (s.tally_entry _ _)⟩
  case lowClear => exact ⟨_, rfl, State.vfldLow_leaves (on := false) hp h mv⟩
  case reported =>
    obtain ⟨k, bit, on, hstate, hmin, hrow⟩ := exec_vfldCrossing hp hc
    obtain rfl := Host.Outcome.next.inj (ht.symm.trans hrow)
    obtain ⟨hbank, hhost, heq⟩ := State.vfldReport_setBank hstate hmin bit on mv
    exact ⟨(congrArg Bank.vfld hbank :), (congrArg Bank.vfldMin hbank :), hhost, heq⟩

end

section
/-! # Refresh frames and guards (R133 to R137, R139, R248, R324) -/

namespace Sys2Proof.Machine

/-! ## An output value that a frame brings -/

theorem FieldChan.refresh_leaves (f : FieldChan) (pulse running : Bool) (c : DriveCmd) :
    (f.refresh pulse running c).cmd = c ∧ (f.refresh pulse running c).refreshed = true := by
  unfold FieldChan.refresh
  dsimp only
  split
  · split
    · exact ⟨rfl, rfl⟩
    · split <;> exact ⟨rfl, rfl⟩
  · exact ⟨rfl, rfl⟩

theorem State.pulseStatic_cases (s : State) (ch : Nat) : s.pulseStatic ch = s ∨
    ∃ v, s.pulseStatic ch = s.setFch ch { s.fch ch with pulseNow := v, pulseNext := none } := by
  unfold State.pulseStatic
  dsimp only
  split
  · exact .inr ⟨_, rfl⟩
  · split
    · exact .inr ⟨_, rfl⟩
    · exact .inl rfl
  · exact .inl rfl

/-- A value that reaches a channel is a write to that channel. -/
theorem State.refreshChan_leaves (s : State) (p : Plant) (ch : Nat) :
    s.refreshChan p ch = { s with fieldChans := (s.refreshChan p ch).fieldChans } ∧
      (∀ n, n ≠ ch → (s.refreshChan p ch).fch n = s.fch n) ∧
      ((s.refreshChan p ch).fch ch).cmd = s.driveCmd p ch ∧ ((s.refreshChan p ch).fch ch).refreshed = true := by
  unfold State.refreshChan
  extract_lets pulse running t
  obtain ⟨hcmd, hrefreshed⟩ := (s.fch ch).refresh_leaves pulse running (s.driveCmd p ch)
  have hself : t.fch ch = (s.fch ch).refresh pulse running (s.driveCmd p ch) :=
    (State.fch_setFch _ _ _ _).trans (if_pos rfl)
  have hother (n : Nat) (hn : n ≠ ch) : t.fch n = s.fch n := (State.fch_setFch _ _ _ _).trans (if_neg hn.symm)
  have ht : t = { s with fieldChans := t.fieldChans } := rfl
  rw [← hself] at hcmd hrefreshed
  clear_value t
  split
  · obtain h | ⟨v, h⟩ := t.pulseStatic_cases ch <;> rw [h]
    · exact ⟨ht, hother, hcmd, hrefreshed⟩
    · refine ⟨?_, fun n hn => ?_, ?_, ?_⟩
      · exact congrArg (fun x : State => x.setFch ch { t.fch ch with pulseNow := v, pulseNext := none }) ht
      · rw [State.fch_setFch, if_neg hn.symm, hother n hn]
      · rw [State.fch_setFch, if_pos rfl]
        exact hcmd
      · rw [State.fch_setFch, if_pos rfl]
        exact hrefreshed
  · exact ⟨ht, hother, hcmd, hrefreshed⟩

/-- The configured channels of a bank refreshed, one after the other. -/
def State.refreshAll (s : State) (b : Nat) : State :=
  ((bankChannels b).filter (fun ch => s.has (chanSlot ch))).foldl (fun s ch => s.refreshChan s.view ch) s

theorem State.refreshAll_eq (s : State) (b : Nat) :
    s.refreshAll b = { s with fieldChans := (s.refreshAll b).fieldChans } := by
  refine State.eq_of_besideChans (foldl_keeps State.besideChans (fun t ch => ?_) _ s)
  obtain ⟨ht, -⟩ := t.refreshChan_leaves t.view ch
  exact (congrArg State.besideChans ht :)

theorem State.fch_refreshAll {s : State} {b n : Nat} (h : n / 8 ≠ b) : (s.refreshAll b).fch n = s.fch n := by
  refine List.foldlRecOn (motive := fun t : State => t.fch n = s.fch n) _ _ rfl fun t ht ch hch => ?_
  obtain ⟨-, hother, -⟩ := t.refreshChan_leaves t.view ch
  have hbank := mem_bankChannels.mp (List.mem_filter.mp hch).1
  exact (hother n (by rintro rfl; exact h hbank)).trans ht

/-- A channel holds the drive that the logic side sends it. -/
def State.Drives (ch : Nat) (s : State) : Prop :=
  (s.fch ch).cmd = s.driveCmd s.view ch ∧ (s.fch ch).refreshed = true

/-- What the logic side sends a channel does not depend on the field side of channels. -/
theorem State.driveCmd_refreshChan (s : State) (p : Plant) (c ch : Nat) :
    (s.refreshChan p c).driveCmd (s.refreshChan p c).view ch = s.driveCmd s.view ch := by
  obtain ⟨ht, -⟩ := s.refreshChan_leaves p c
  rw [ht]
  rfl

theorem State.drives_refreshAll {s : State} {b ch : Nat} (hch : ch / 8 = b) (hu : s.has (chanSlot ch) = true) :
    ((s.refreshAll b).fch ch).cmd = s.driveCmd s.view ch ∧ ((s.refreshAll b).fch ch).refreshed = true := by
  have hset (t : State) (c : Nat) : State.Drives c (t.refreshChan t.view c) := by
    obtain ⟨-, -, hcmd, hrefreshed⟩ := t.refreshChan_leaves t.view c
    exact ⟨hcmd.trans (t.driveCmd_refreshChan _ _ _).symm, hrefreshed⟩
  have hkeep (t : State) (a c : Nat) (h : State.Drives c t) : State.Drives c (t.refreshChan t.view a) := by
    obtain ⟨-, hother, -⟩ := t.refreshChan_leaves t.view a
    by_cases hc : c = a
    · exact hc ▸ hset t a
    · unfold State.Drives
      rw [hother c hc, State.driveCmd_refreshChan]
      exact h
  have hall := foldl_brings hset hkeep ((bankChannels b).filter (fun ch => s.has (chanSlot ch))) s ch
    (List.mem_filter.mpr ⟨mem_bankChannels.mpr hch, hu⟩)
  obtain ⟨hcmd, hrefreshed⟩ : State.Drives ch (s.refreshAll b) := hall
  have hsend : (s.refreshAll b).driveCmd (s.refreshAll b).view ch = s.driveCmd s.view ch := by
    rw [s.refreshAll_eq b]
    rfl
  exact ⟨hcmd.trans hsend, hrefreshed⟩

/-! ## Frames -/

/-- A bank to which a frame has gone (R134). -/
def Bank.sent (k : Bank) : Bank := { k with seqDown := k.seqDown + 1, seqNext := k.seqDown + 1 }

/-- A bank that a valid base frame has reached, with GUARD_TIME and the marks (R133, R134, R408). -/
def Bank.armed (k : Bank) (s : State) (b : Nat) : Bank :=
  { k.sent with
    guardArmed := true
    guardTime := s.cfg P.GUARD_TIME b
    stretched := s.stretchMark
    throttle := s.hk.sent }

theorem State.sendDown_expected {s : State} {b : Nat} (h : (s.bank b).seqDown = (s.bank b).seqNext) :
    s.sendDown b true = (true, s.setBank b (s.bank b).sent) :=
  Prod.ext (by simp [State.sendDown, h]) rfl

theorem State.baseFrame_valid {s : State} {b : Nat} (hr : s.refreshes b = true)
    (h : (s.bank b).seqDown = (s.bank b).seqNext) :
    s.baseFrame b true =
      (((s.setBank b (s.bank b).sent).setBank b ((s.bank b).armed s b)).refreshAll b).releaseGuard b := by
  have hbank : (s.setBank b (s.bank b).sent).bank b = (s.bank b).sent := by rw [State.bank_setBank, if_pos rfl]
  unfold State.baseFrame
  rw [if_neg (by simp [hr]), State.sendDown_expected h]
  dsimp only
  rw [if_neg (by decide), hbank]
  rfl

theorem State.baseFrame_invalid {s : State} {b : Nat} {intact : Bool} (hr : s.refreshes b = true)
    (h : intact = false ∨ (s.bank b).seqDown ≠ (s.bank b).seqNext) :
    s.baseFrame b intact = (s.sendDown b intact).2 := by
  have hvalid : (s.sendDown b intact).1 = false := by
    rcases h with h | h <;> simp [State.sendDown, h]
  unfold State.baseFrame
  rw [if_neg (by simp [hr])]
  exact if_pos (by simp [hvalid])

theorem State.updateFrame_valid {s : State} {b ch : Nat} (hr : s.refreshes b = true)
    (ha : (s.bank b).guardArmed = true) (hu : s.has (chanSlot ch) = true)
    (h : (s.bank b).seqDown = (s.bank b).seqNext) :
    s.updateFrame b ch = (s.setBank b (s.bank b).sent).refreshChan s.work ch := by
  unfold State.updateFrame
  rw [if_pos (by simp [hr, ha, hu]), State.sendDown_expected h]
  exact if_pos rfl

theorem State.fanFrame_valid {s : State} (hon : s.vinOn = true) (hl : s.logicRuns = true)
    (hp : s.fanDom.powered = true) (h : s.fanDom.seqDown = s.fanDom.seqNext) :
    s.fanFrame true = { s with fanDom := { s.fanDom with
      seqDown := s.fanDom.seqDown + 1
      seqNext := s.fanDom.seqDown + 1
      guardArmed := true
      stretched := s.stretchMark
      throttle := s.hk.sent
      driven := (List.range 8).map (fun n => (s.fanCommand s.view n).demand)
      supplyOn := (List.range 8).map (fun n => (s.fanCommand s.view n).supply)
      guardTripped := s.fanDom.guardTripped && !decide (4 ≤ s.fanDom.goodUp) } } := by
  unfold State.fanFrame
  rw [if_neg (by simp [hon, hl, hp])]
  dsimp only
  rw [if_neg (by simp [h]), List.map_map, List.map_map]
  rfl

/-! ## The release of a guard (R137) -/

/-- A released guard shows in the flags; a guard that is not released stays as it was. -/
theorem State.releaseGuard_leaves (s : State) (b : Nat) :
    ((s.releaseGuard b).bank b).atLink = ({ s.bank b with
        guardTripped := (s.bank b).guardTripped && !(s.bank b).releases } : Bank).atLink ∧
      (∀ c, c ≠ b → (s.releaseGuard b).bank c = s.bank c) ∧
      (∀ n, ((s.releaseGuard b).fch n).unflagged = (s.fch n).unflagged) ∧
      (∀ n, n / 8 ≠ b → (s.releaseGuard b).fch n = s.fch n) ∧
      s.releaseGuard b = { s with
        banks := (s.releaseGuard b).banks, fieldChans := (s.releaseGuard b).fieldChans } := by
  unfold State.releaseGuard
  cases hr : (s.bank b).releases with
  | false =>
    rw [if_neg (by decide), Bool.not_false, Bool.and_true]
    exact ⟨rfl, fun _ _ => rfl, fun _ => rfl, fun _ _ => rfl, rfl⟩
  | true =>
    rw [if_pos rfl, Bool.not_true, Bool.and_false]
    obtain ⟨x, hx, hlink, -⟩ := (s.setBank b { s.bank b with guardTripped := false }).bankFlag_eq b 7 false
    rw [State.bank_setBank, if_pos rfl] at hlink
    rw [hx]
    have hshows := State.showsFlags_bankFlags ((s.setBank b { s.bank b with guardTripped := false }).setBank b x) b
    have hself := hshows.bank b
    rw [State.bank_setBank, if_pos rfl] at hself
    generalize State.bankFlags _ b = t at hshows hself
    refine ⟨(congrArg Bank.atLink hself :).trans hlink, fun c hc => (hshows.otherBank c hc).trans ?_, hshows.chan,
      hshows.otherChan, hshows.eq_of rfl⟩
    rw [State.bank_setBank, if_neg hc.symm, State.bank_setBank, if_neg hc.symm]

theorem Bank.releases_iff (k : Bank) :
    k.releases = true ↔ k.guardTripped = true ∧ k.state = .inService ∧ 4 ≤ k.goodUp := by
  simp [Bank.releases, and_assoc]

/-! ## Rounds on the lines of a channel (R248) -/

/-- Lines changed one after the other, each by a change that done twice is done once. -/
theorem State.fcomb_foldl {f : State → Nat → State} {g : Nat → FieldComb → FieldComb}
    (hf : ∀ s l n, (f s l).fcomb n = if l = n then g s.tick (s.fcomb n) else s.fcomb n)
    (htick : ∀ s l, (f s l).tick = s.tick) (hg : ∀ t x, g t (g t x) = g t x) (l : List Nat) (s : State) (n : Nat) :
    (l.foldl f s).fcomb n = if n ∈ l then g s.tick (s.fcomb n) else s.fcomb n := by
  induction l generalizing s with
  | nil => rfl
  | cons a t ih =>
    rw [List.foldl_cons, ih, htick, hf]
    by_cases ha : a = n
    · by_cases ht : n ∈ t <;> simp [ha, ht, hg]
    · simp [ha, Ne.symm ha]

/-- The state beside its comb lines. -/
def State.besideLines (s : State) : State := { s with fcombs := [] }

theorem State.eq_of_besideLines {s t : State} (h : t.besideLines = s.besideLines) :
    t = { s with fcombs := t.fcombs } := by
  have ht : t = { t.besideLines with fcombs := t.fcombs } := rfl
  rw [h] at ht
  exact ht

/-- A line whose round in flight is abandoned. -/
def FieldComb.abandoned (tick : Nat) (f : FieldComb) : FieldComb :=
  match f.run with
  | some r =>
    if tick < r.t0 + 2048 then { f with startDue := f.startDue || r.start, run := some { r with missed := true } }
    else f
  | none => f

theorem FieldComb.abandoned_again (tick : Nat) (f : FieldComb) :
    (f.abandoned tick).abandoned tick = f.abandoned tick := by
  cases hr : f.run with
  | none => simp only [FieldComb.abandoned, hr]
  | some r =>
    by_cases ht : tick < r.t0 + 2048
    · simp only [FieldComb.abandoned, hr, ht, if_true, Bool.or_assoc, Bool.or_self]
    · simp only [FieldComb.abandoned, hr, ht, if_false]

theorem State.fcomb_abandonRound (s : State) (l n : Nat) :
    (s.abandonRound l).fcomb n = if l = n then (s.fcomb n).abandoned s.tick else s.fcomb n := by
  by_cases hn : l = n
  · subst hn
    rw [if_pos rfl]
    unfold State.abandonRound FieldComb.abandoned
    dsimp only
    cases (s.fcomb l).run with
    | none => rfl
    | some r =>
      dsimp only
      split
      · rw [State.fcomb_setFcomb, if_pos rfl]
      · rfl
  · rw [if_neg hn]
    unfold State.abandonRound
    dsimp only
    split
    · split
      · rw [State.fcomb_setFcomb, if_neg hn]
      · rfl
    · rfl

theorem State.besideLines_abandonRound (s : State) (l : Nat) : (s.abandonRound l).besideLines = s.besideLines := by
  unfold State.abandonRound
  dsimp only
  split
  · split <;> rfl
  · rfl

/-- Rounds in flight on some lines are abandoned. -/
def State.abandonRounds (s : State) (l : List Nat) : State := l.foldl State.abandonRound s

theorem State.abandonRounds_eq (s : State) (l : List Nat) :
    s.abandonRounds l = { s with fcombs := (s.abandonRounds l).fcombs } :=
  State.eq_of_besideLines (foldl_keeps State.besideLines State.besideLines_abandonRound l s)

theorem State.fcomb_abandonRounds (s : State) (l : List Nat) (n : Nat) :
    (s.abandonRounds l).fcomb n = if n ∈ l then (s.fcomb n).abandoned s.tick else s.fcomb n :=
  State.fcomb_foldl State.fcomb_abandonRound (fun s l => (congrArg State.tick (s.besideLines_abandonRound l) :))
    FieldComb.abandoned_again l s n

/-! ## Rows of Table 04-2 -/

/-- An output that a fault, its supply, the service or a guard that was never armed holds off. -/
def State.heldOff (s : State) (ch : Nat) : Bool :=
  !(s.bank (ch / 8)).powered || !(s.bank (ch / 8)).guardArmed || s.stagesOff (ch / 8) || (s.fch ch).serviceOff ||
    ((s.fch ch).trip.isSome ||
      ((s.view.unit (chanSlot ch)).st == .fault && faultOff (s.view.unit (chanSlot ch)).faultCode))

/-- An output that nothing holds off follows the frames, or is safe while the guard is tripped. -/
theorem State.driveRow_output {s : State} {ch : Nat} (ho : modeOutput (s.mode ch) = true) :
    (s.driveRow ch = 6 ↔ s.heldOff ch = false ∧ (s.bank (ch / 8)).guardTripped = false) ∧
      (s.driveRow ch = 5 ↔ s.heldOff ch = false ∧ (s.bank (ch / 8)).guardTripped = true) := by
  unfold State.driveRow State.heldOff
  dsimp only
  rw [ho]
  generalize (s.bank (ch / 8)).powered = powered, (s.bank (ch / 8)).guardArmed = armed,
    (s.bank (ch / 8)).guardTripped = tripped, s.stagesOff (ch / 8) = unsupplied, (s.fch ch).serviceOff = off,
    ((s.fch ch).trip.isSome || _) = fault
  revert powered armed tripped unsupplied off fault
  decide

theorem Bank.powered_congr {k k' : Bank} (hs : k'.state = k.state) (hp : k'.present.getLsbD 1 = k.present.getLsbD 1) :
    k'.powered = k.powered := by
  unfold Bank.powered
  rw [hs, hp]

theorem State.outTerminal_safe {s : State} {ch : Nat} (h : s.driveRow ch = 5) (hm : s.mode ch = 3) :
    s.outTerminal ch = s.safeTerminal ch := by
  unfold State.outTerminal
  rw [h]
  dsimp only
  split
  · exact if_neg (by simp [hm])
  · rfl

/-! ## A guard that expires (R135, R139, R248) -/

/-- A bank whose guard has tripped. -/
def Bank.guardLost (k : Bank) : Bank := { k with guardTripped := true, guardTrips := sat16 (k.guardTrips + 1) }

/-- The state in which a tripped guard shows in the flags of its bank. -/
def State.guardTrip (s : State) (b : Nat) : State :=
  ((s.setBank b (s.bank b).guardLost).bankFlag b 7 true).bankFlags b

/-- The lines of a bank. -/
def State.bankLines (s : State) (b : Nat) : List Nat :=
  ((bankChannels b).filter (fun ch => s.mode ch == 0x0B)).flatMap s.linesOn

theorem State.mem_bankLines {s : State} {b ch l : Nat} (hch : ch / 8 = b) (hmode : s.mode ch = 0x0B)
    (hl : l ∈ s.linesOn ch) : l ∈ s.bankLines b :=
  List.mem_flatMap.mpr ⟨ch, List.mem_filter.mpr ⟨mem_bankChannels.mpr hch, by simp [hmode]⟩, hl⟩

/-- A tripped guard changes its bank and flags. -/
theorem State.guardTrip_leaves (s : State) (b : Nat) :
    ((s.guardTrip b).bank b).atLink = (s.bank b).guardLost.atLink ∧
      ((s.guardTrip b).bank b).flags.getLsbD 7 = true ∧
      ((s.guardTrip b).bank b).powered = (s.bank b).powered ∧
      (∀ n, ((s.guardTrip b).fch n).unflagged = (s.fch n).unflagged) ∧
      s.guardTrip b = { s with banks := (s.guardTrip b).banks, fieldChans := (s.guardTrip b).fieldChans } := by
  obtain ⟨x, hx, hlink, hpresent, hflags⟩ := (s.setBank b (s.bank b).guardLost).bankFlag_eq b 7 true
  rw [State.bank_setBank, if_pos rfl] at hlink hpresent hflags
  unfold State.guardTrip
  rw [hx]
  have hshows := State.showsFlags_bankFlags ((s.setBank b (s.bank b).guardLost).setBank b x) b
  have hself := hshows.bank b
  rw [State.bank_setBank, if_pos rfl] at hself
  generalize State.bankFlags _ b = t at hshows hself
  have hflag : (t.bank b).flags = x.flags := (congrArg Bank.flags hself :)
  have hpower : (t.bank b).powered = x.powered := (congrArg Bank.powered hself :)
  refine ⟨(congrArg Bank.atLink hself :).trans hlink, ?_, ?_, hshows.chan, hshows.eq_of rfl⟩
  · rw [hflag, hflags rfl]
    simp [setBit16]
  · rw [hpower]
    refine Bank.powered_congr (congrArg Bank.state hlink :) ?_
    rw [hpresent]
    simp [setBit16, Bank.guardLost]

theorem State.guardExpiry_eq {s : State} {b : Nat} (hp : (s.bank b).powered = true)
    (ha : (s.bank b).guardArmed = true) (ht : (s.bank b).guardTripped = false) :
    s.guardExpiry b = (s.guardTrip b).abandonRounds (s.bankLines b) := by
  obtain ⟨-, -, -, -, heq⟩ := s.guardTrip_leaves b
  have hlines : (s.guardTrip b).bankLines b = s.bankLines b := by
    rw [heq]
    rfl
  rw [← hlines]
  exact if_neg (by simp [hp, ha, ht])

/-- An output of a bank whose guard trips, and that followed the frames, goes to its safe state. -/
theorem State.driveRow_guardTrip {s : State} {b ch : Nat} (hch : ch / 8 = b) (ho : modeOutput (s.mode ch) = true)
    (hrow : s.driveRow ch = 6) : (s.guardTrip b).driveRow ch = 5 := by
  subst hch
  obtain ⟨hlink, -, hpower, hchan, heq⟩ := s.guardTrip_leaves (ch / 8)
  generalize s.guardTrip (ch / 8) = t at hlink hpower hchan heq
  have hmode : t.mode ch = s.mode ch := by rw [heq]; rfl
  have hview : t.view = s.view := by rw [heq]; rfl
  have hmonitored : t.monitored (ch / 8) = s.monitored (ch / 8) := by rw [heq]; rfl
  have harmed : (t.bank (ch / 8)).guardArmed = (s.bank (ch / 8)).guardArmed := (congrArg Bank.guardArmed hlink :)
  have huvlo : (t.bank (ch / 8)).uvlo = (s.bank (ch / 8)).uvlo := (congrArg Bank.uvlo hlink :)
  have hservice : (t.fch ch).serviceOff = (s.fch ch).serviceOff := (congrArg FieldChan.serviceOff (hchan ch) :)
  have htrip : (t.fch ch).trip = (s.fch ch).trip := (congrArg FieldChan.trip (hchan ch) :)
  have hheld : t.heldOff ch = s.heldOff ch := by
    unfold State.heldOff State.stagesOff
    rw [hpower, harmed, hmonitored, huvlo, hservice, htrip, hview]
  obtain ⟨hfree, -⟩ := (State.driveRow_output ho).1.mp hrow
  exact (State.driveRow_output (hmode ▸ ho)).2.mpr ⟨hheld.trans hfree, (congrArg Bank.guardTripped hlink :)⟩

/-! ## What the frames leave -/

theorem exec_baseRefreshFrame (s : State) (b : Fin 16) (intact : Bool) :
    exec (.baseRefreshFrame ⟨b.val, by omega⟩ intact) s = .next (s.baseFrame b.val intact) :=
  congrArg Host.Outcome.next (if_neg (show ¬b.val = 16 by omega))

/-- A valid base frame arms the guard, refreshes the bank's channels, and may release the guard. -/
theorem State.baseFrame_leaves {s : State} {b : Nat} (hr : s.refreshes b = true)
    (h : (s.bank b).seqDown = (s.bank b).seqNext) : ∃ t, s.baseFrame b true = t ∧
      (t.bank b).atLink = ({ (s.bank b).armed s b with
        guardTripped := (s.bank b).guardTripped && !(s.bank b).releases } : Bank).atLink ∧
      (∀ ch, ch / 8 = b → s.has (chanSlot ch) = true →
        (t.fch ch).cmd = s.driveCmd s.view ch ∧ (t.fch ch).refreshed = true) ∧
      (∀ ch, ch / 8 ≠ b → t.fch ch = s.fch ch) ∧ (∀ c, c ≠ b → t.bank c = s.bank c) ∧
      t = { s with banks := t.banks, fieldChans := t.fieldChans } := by
  rw [State.baseFrame_valid hr h]
  have hself := (s.setBank b (s.bank b).sent).bank_setBank b b ((s.bank b).armed s b)
  have hbanks (c : Nat) (hc : c ≠ b) :
      ((s.setBank b (s.bank b).sent).setBank b ((s.bank b).armed s b)).bank c = s.bank c := by
    rw [State.bank_setBank, if_neg hc.symm, State.bank_setBank, if_neg hc.symm]
  have hu : (s.setBank b (s.bank b).sent).setBank b ((s.bank b).armed s b) =
      { s with banks := ((s.setBank b (s.bank b).sent).setBank b ((s.bank b).armed s b)).banks } := rfl
  generalize (s.setBank b (s.bank b).sent).setBank b ((s.bank b).armed s b) = u at hself hbanks hu
  rw [if_pos rfl] at hself
  have hsend (ch : Nat) : u.driveCmd u.view ch = s.driveCmd s.view ch := by rw [hu]; rfl
  have hhas (slot : Nat) : u.has slot = s.has slot := by rw [hu]; rfl
  have hold (ch : Nat) : u.fch ch = s.fch ch := by rw [hu]; rfl
  have hdrives (ch : Nat) (hch : ch / 8 = b) (hs : s.has (chanSlot ch) = true) :=
    State.drives_refreshAll (s := u) hch ((hhas _).trans hs)
  have hfar (ch : Nat) (hch : ch / 8 ≠ b) := State.fch_refreshAll (s := u) hch
  have hv := u.refreshAll_eq b
  generalize u.refreshAll b = v at hdrives hfar hv
  have hbank (c : Nat) : v.bank c = u.bank c := by rw [hv]; rfl
  obtain ⟨hguard, hother, hchan, hotherChan, heq⟩ := v.releaseGuard_leaves b
  generalize v.releaseGuard b = t at hguard hother hchan hotherChan heq
  rw [hbank, hself] at hguard
  refine ⟨t, rfl, hguard, fun ch hch hs => ?_, fun ch hch => ?_, fun c hc => ?_, ?_⟩
  · obtain ⟨hcmd, hrefreshed⟩ := hdrives ch hch hs
    have hcmd' : (t.fch ch).cmd = (v.fch ch).cmd := (congrArg FieldChan.cmd (hchan ch) :)
    have hrefreshed' : (t.fch ch).refreshed = (v.fch ch).refreshed := (congrArg FieldChan.refreshed (hchan ch) :)
    exact ⟨hcmd'.trans (hcmd.trans (hsend ch)), hrefreshed'.trans hrefreshed⟩
  · rw [hotherChan ch hch, hfar ch hch, hold]
  · rw [hother c hc, hbank, hbanks c hc]
  · rw [hv, hu] at heq
    exact heq

end Sys2Proof.Machine
end

section
open Sys2Proof Sys2Proof.Machine

/-- Settles O48: a frame is a write to its bank and to the channels that it reaches; a guard that expires leaves to an
output what else holds it off. -/
theorem guardsAndFrames : Obligations.GuardsAndFrames := by
  unfold Obligations.GuardsAndFrames
  refine ⟨⟨fun s b hr h => ?base, fun s b intact hr h => ?invalid, fun s b intact hr => ?silent,
      fun s hon hl hp h => congrArg Host.Outcome.next (State.fanFrame_valid hon hl hp h),
      fun s b ch hr ha hu h => ?update⟩,
    fun s b hp ha ht => ?expiry,
    fun s b h => congrArg Host.Outcome.next (if_pos (by rcases h with h | h | h <;> simp [h])),
    fun s ch hrow hm => ?safe, fun s b ht hs hg => ?release, fun s b h => ?held,
    fun s hp ha ht => congrArg Host.Outcome.next (if_pos (by simp [hp, ha, ht]))⟩
  case base =>
    obtain ⟨t, ht, hbank, hdrives, hfar, hother, heq⟩ := State.baseFrame_leaves hr h
    exact ⟨t, (exec_baseRefreshFrame s b true).trans (congrArg Host.Outcome.next ht),
      (congrArg Bank.guardArmed hbank :), (congrArg Bank.guardTime hbank :), (congrArg Bank.seqDown hbank :),
      (congrArg Bank.seqNext hbank :),
      (congrArg Bank.stretched hbank :), (congrArg Bank.throttle hbank :), (congrArg Bank.guardTripped hbank :),
      hdrives, hfar, hother, heq⟩
  case invalid =>
    exact (exec_baseRefreshFrame s b intact).trans (congrArg Host.Outcome.next (State.baseFrame_invalid hr h))
  case silent =>
    exact (exec_baseRefreshFrame s b intact).trans (congrArg Host.Outcome.next (if_pos (by simp [hr])))
  case update =>
    obtain ⟨heq, hother, hcmd, hrefreshed⟩ :=
      (s.setBank b.val (s.bank b.val).sent).refreshChan_leaves s.work (8 * b.val + ch.val)
    refine ⟨_, congrArg Host.Outcome.next (State.updateFrame_valid hr ha hu h), hcmd, hrefreshed, ?_⟩
    generalize (s.setBank b.val (s.bank b.val).sent).refreshChan s.work (8 * b.val + ch.val) = t at heq hother
    have hbanks : t.banks = (s.setBank b.val (s.bank b.val).sent).banks := by rw [heq]
    have hbank (c : Nat) : t.bank c = if b.val = c then (s.bank b.val).sent else s.bank c := by
      rw [heq]
      exact State.bank_setBank _ _ _ _
    refine ⟨(hbank _).trans (if_pos rfl), hother, fun c hc => (hbank c).trans (if_neg hc.symm), ?_⟩
    rw [hbanks]
    exact heq
  case expiry =>
    obtain ⟨hlink, hflag, -, -, htrip⟩ := s.guardTrip_leaves b.val
    have hlines := (s.guardTrip b.val).abandonRounds_eq (s.bankLines b.val)
    have hcomb := (s.guardTrip b.val).fcomb_abandonRounds (s.bankLines b.val)
    refine ⟨_, congrArg Host.Outcome.next (State.guardExpiry_eq hp ha ht), ?_⟩
    generalize (s.guardTrip b.val).abandonRounds (s.bankLines b.val) = t at hlines hcomb
    have hbank (c : Nat) : t.bank c = (s.guardTrip b.val).bank c := by rw [hlines]; rfl
    have hbefore (l : Nat) : (s.guardTrip b.val).fcomb l = s.fcomb l := by rw [htrip]; rfl
    have htick : (s.guardTrip b.val).tick = s.tick := by rw [htrip]
    have heq : t = { s with banks := t.banks, fieldChans := t.fieldChans, fcombs := t.fcombs } := by
      have hbanks : t.banks = (s.guardTrip b.val).banks := by rw [hlines]
      have hchans : t.fieldChans = (s.guardTrip b.val).fieldChans := by rw [hlines]
      rw [hbanks, hchans]
      exact hlines.trans (congrArg (fun x : State => { x with fcombs := t.fcombs }) htrip)
    rw [← hbank] at hlink hflag
    refine ⟨(congrArg Bank.guardTripped hlink :), (congrArg Bank.guardTrips hlink :), hflag, heq,
      fun ch hch ho hrow => ?_, fun ch l r hch hmode hl hrun hlate => ?_⟩
    · refine Eq.trans ?_ (State.driveRow_guardTrip hch ho hrow)
      rw [hlines]
      rfl
    · have hin := State.mem_bankLines hch hmode hl
      rw [hcomb, if_pos hin, hbefore, htick]
      simp [FieldComb.abandoned, hrun, hlate]
  case safe =>
    rw [State.outTerminal_safe hrow hm]
    unfold State.safeTerminal
    rw [hm]
    exact ⟨fun h => by simp [h], fun h => by simp [h], fun h => by simp [h]⟩
  case release =>
    obtain ⟨hbank, hother, -, -, heq⟩ := s.releaseGuard_leaves b.val
    rw [(Bank.releases_iff _).mpr ⟨ht, hs, hg⟩, Bool.not_true, Bool.and_false] at hbank
    exact ⟨_, rfl, (congrArg Bank.guardTripped hbank :), (congrArg Bank.guardTrips hbank :), hother, heq⟩
  case held =>
    refine congrArg Host.Outcome.next (if_neg fun hr => ?_)
    obtain ⟨ht, hs, hg⟩ := (Bank.releases_iff _).mp hr
    rcases h with h | h | h
    · simp [h] at ht
    · exact h hs
    · omega

end

section
/-! # Trips of outputs and of comb lines (R139, R164 to R167, R189, R205, R206, R257) -/

namespace Sys2Proof.Machine

/-! ## The terminal of a channel that has tripped -/

/-- A terminal without power, or held off by its supply or a fault, drives nothing. -/
theorem State.outTerminal_of_row {s : State} {ch : Nat}
    (h : s.driveRow ch = 1 ∨ s.driveRow ch = 2 ∨ s.driveRow ch = 4) :
    s.outTerminal ch = .off ∨ s.outTerminal ch = .dead := by
  unfold State.outTerminal
  obtain h | h | h := h <;> rw [h]
  · exact .inr rfl
  · exact .inl rfl
  · exact .inl rfl

/-- A channel in service that has tripped is off, whatever the guard says (R139). -/
theorem State.outTerminal_tripped {s : State} {ch code : Nat} (ht : (s.fch ch).trip = some code)
    (hs : (s.fch ch).serviceOff = false) : s.outTerminal ch = .off ∨ s.outTerminal ch = .dead := by
  refine State.outTerminal_of_row ?_
  unfold State.driveRow
  dsimp only
  rw [hs, ht]
  split
  · exact .inl rfl
  · split
    · exact .inr (.inl rfl)
    · exact .inr (.inr rfl)

/-! ## A trip -/

theorem State.has_of_mode {s : State} {ch : Nat} (h : s.mode ch ≠ 0) : s.has (chanSlot ch) = true := by
  by_contra hn
  exact h (if_neg hn)

theorem mode_of_modeDo {m : Nat} (h : modeDo m = true) : m ≠ 0 := by
  rintro rfl
  exact absurd h (by decide)

theorem State.serviceOff_of_fieldAlive {s : State} {ch : Nat} (h : s.fieldAlive ch = true) :
    (s.fch ch).serviceOff = false := by
  unfold State.fieldAlive at h
  simpa using (Bool.and_eq_true_iff.mp h).2

/-- A channel with the code of its trip and the partner of a back-feed. -/
def FieldChan.tripped (f : FieldChan) (code partner : Nat) : FieldChan :=
  { f with trip := some code, partner := partner }

/-- A trip is a write to its channel that the bank's channels show. -/
theorem State.showsFlags_tripChan {s : State} {ch : Nat} (h : (s.fch ch).trip = none) (code partner : Nat) :
    ShowsFlags (ch / 8) (s.setFch ch ((s.fch ch).tripped code partner)) (s.tripChan ch code partner) := by
  unfold State.tripChan
  rw [if_neg (by simp [h])]
  exact State.showsFlags_bankFlags _ _

theorem State.tripChan_again {s : State} {ch : Nat} (h : (s.fch ch).trip.isSome = true) (code partner : Nat) :
    s.tripChan ch code partner = s := if_pos h

section
variable {s : State} {ch : Nat} (h : (s.fch ch).trip = none) (code partner : Nat)
include h

theorem State.tripChan_eq : s.tripChan ch code partner = { s with
    banks := (s.tripChan ch code partner).banks, fieldChans := (s.tripChan ch code partner).fieldChans } :=
  (State.showsFlags_tripChan h code partner).beside

theorem State.unflagged_tripChan_self : ((s.tripChan ch code partner).fch ch).unflagged =
    ((s.fch ch).tripped code partner).unflagged := by
  rw [(State.showsFlags_tripChan h code partner).chan, State.fch_setFch, if_pos rfl]

theorem State.trip_tripChan : ((s.tripChan ch code partner).fch ch).trip = some code :=
  (congrArg FieldChan.trip (State.unflagged_tripChan_self h code partner) :)

theorem State.partner_tripChan : ((s.tripChan ch code partner).fch ch).partner = partner :=
  (congrArg FieldChan.partner (State.unflagged_tripChan_self h code partner) :)

theorem State.serviceOff_tripChan : ((s.tripChan ch code partner).fch ch).serviceOff = (s.fch ch).serviceOff :=
  (congrArg FieldChan.serviceOff (State.unflagged_tripChan_self h code partner) :)

theorem State.trip_tripChan_ne {n : Nat} (hn : n ≠ ch) :
    ((s.tripChan ch code partner).fch n).trip = (s.fch n).trip := by
  have hf := (State.showsFlags_tripChan h code partner).chan n
  rw [State.fch_setFch, if_neg hn.symm] at hf
  exact (congrArg FieldChan.trip hf :)

/-- The terminal of a channel that trips in service is off. -/
theorem State.outTerminal_tripChan (halive : s.fieldAlive ch = true) :
    (s.tripChan ch code partner).outTerminal ch = .off ∨ (s.tripChan ch code partner).outTerminal ch = .dead :=
  State.outTerminal_tripped (State.trip_tripChan h code partner)
    ((State.serviceOff_tripChan h code partner).trans (State.serviceOff_of_fieldAlive halive))

/-- A channel of the bank shows the trip in its flags. -/
theorem State.latched_tripChan {n bit : Nat} (hn : n / 8 = ch / 8) (hmode : s.mode n ≠ 0) (hb : bit < 16)
    (hshown : (bit, true) ∈ (s.setFch ch ((s.fch ch).tripped code partner)).tripShown n) :
    ((s.tripChan ch code partner).fch n).flags.getLsbD bit = true := by
  unfold State.tripChan
  rw [if_neg (by simp [h])]
  exact State.latched_bankFlags (s := s.setFch ch ((s.fch ch).tripped code partner)) hn (State.has_of_mode hmode)
    hshown hb

/-- A channel shows its own trip in the flag of its code (Table 04-7). -/
theorem State.latched_tripChan_self {bit : Nat} (hmode : s.mode ch ≠ 0)
    (hcode : (code, bit) ∈ [(0x10, 2), (0x11, 3), (0x12, 4), (0x13, 5)]) :
    ((s.tripChan ch code partner).fch ch).flags.getLsbD bit = true := by
  simp only [List.mem_cons, Prod.mk.injEq, List.not_mem_nil, or_false] at hcode
  refine State.latched_tripChan h code partner rfl hmode (by omega) ?_
  obtain ⟨rfl, rfl⟩ | ⟨rfl, rfl⟩ | ⟨rfl, rfl⟩ | ⟨rfl, rfl⟩ := hcode <;> simp [State.tripShown, FieldChan.tripped]

end

/-! ## The other output of a back-feed (R165) -/

theorem nodup_sortNats (l : List Nat) : (sortNats l).Nodup :=
  (foldl_insertSorted l [] List.Pairwise.nil).1.imp Nat.ne_of_lt

/-- The channel that governs a terminal is in the terminal's bank. -/
theorem State.pairLead_div (s : State) (ch : Nat) : s.pairLead ch / 8 = ch / 8 := by
  unfold State.pairLead
  split
  next h =>
    have hodd : ch % 2 = 1 := by simp only [Bool.and_eq_true, beq_iff_eq] at h; exact h.1.1.1
    omega
  next => rfl

/-- The other digital outputs of a channel's bank, by their place in it, of those that switched on before a
back-feed. -/
def State.feeders (s : State) (ch : Nat) (switchedOn : List Nat) : List Nat :=
  (sortNats (switchedOn.map (fun i => s.pairLead (8 * (ch / 8) + i) % 8)).eraseDups).filter
    (fun i => 8 * (ch / 8) + i != ch && modeDo (s.mode (8 * (ch / 8) + i)))

theorem State.mem_feeders {s : State} {ch i : Nat} {on : List (Fin 8)} : i ∈ s.feeders ch (on.map (·.val)) ↔
    i < 8 ∧ (∃ j ∈ on, s.pairLead (8 * (ch / 8) + j.val) = 8 * (ch / 8) + i) ∧ 8 * (ch / 8) + i ≠ ch ∧
      modeDo (s.mode (8 * (ch / 8) + i)) = true := by
  have hplace (j : Fin 8) : s.pairLead (8 * (ch / 8) + j.val) % 8 = i ↔
      i < 8 ∧ s.pairLead (8 * (ch / 8) + j.val) = 8 * (ch / 8) + i := by
    have := s.pairLead_div (8 * (ch / 8) + j.val)
    omega
  simp only [State.feeders, List.mem_filter, mem_sortNats, List.mem_eraseDups, List.mem_map, Bool.and_eq_true,
    bne_iff_ne, exists_exists_and_eq_and, hplace]
  tauto

theorem State.nodup_feeders (s : State) (ch : Nat) (switchedOn : List Nat) : (s.feeders ch switchedOn).Nodup :=
  (nodup_sortNats _).filter _

/-- No other digital output of the bank has switched on. -/
theorem State.feeders_nil {s : State} {c : Nat} {on : List (Fin 8)}
    (h : ∀ j ∈ on, s.pairLead (8 * (c / 8) + j.val) = c ∨
      modeDo (s.mode (s.pairLead (8 * (c / 8) + j.val))) = false) :
    s.feeders c (on.map (·.val)) = [] := by
  refine List.eq_nil_iff_forall_not_mem.mpr fun i hi => ?_
  obtain ⟨-, ⟨j, hj, hlead⟩, hne, hdo⟩ := State.mem_feeders.mp hi
  rcases h j hj with h | h <;> rw [hlead] at h
  · exact hne h
  · simp [h] at hdo

/-- Exactly one other digital output of the bank has switched on. -/
theorem State.feeders_one {s : State} {c : Nat} {on : List (Fin 8)} {i : Fin 8} (hne : 8 * (c / 8) + i.val ≠ c)
    (hdo : modeDo (s.mode (8 * (c / 8) + i.val)) = true)
    (h : ∀ j ∈ on, s.pairLead (8 * (c / 8) + j.val) = 8 * (c / 8) + i.val ∨ s.pairLead (8 * (c / 8) + j.val) = c ∨
      modeDo (s.mode (s.pairLead (8 * (c / 8) + j.val))) = false)
    (hex : ∃ j ∈ on, s.pairLead (8 * (c / 8) + j.val) = 8 * (c / 8) + i.val) :
    s.feeders c (on.map (·.val)) = [i.val] := by
  refine List.perm_singleton.mp ((List.perm_ext_iff_of_nodup (s.nodup_feeders c _) (List.nodup_singleton _)).mpr
    fun x => ?_)
  rw [State.mem_feeders, List.mem_singleton]
  constructor
  · rintro ⟨-, ⟨j, hj, hlead⟩, hxne, hxdo⟩
    rcases h j hj with h | h | h <;> rw [hlead] at h
    · omega
    · exact absurd h hxne
    · simp [h] at hxdo
  · rintro rfl
    exact ⟨i.isLt, hex, hne, hdo⟩

/-- The partner of a back-feed shows it too. -/
theorem State.tripShown_partner (s : State) {c o : Nat} (h : o / 8 = c / 8) :
    (4, true) ∈ (s.setFch c ((s.fch c).tripped 0x12 (o % 8))).tripShown o := by
  have hany : (bankChannels (o / 8)).any (fun n =>
      ((s.setFch c ((s.fch c).tripped 0x12 (o % 8))).fch n).trip == some 0x12 &&
        ((s.setFch c ((s.fch c).tripped 0x12 (o % 8))).fch n).partner == o % 8) = true :=
    List.any_eq_true.mpr ⟨c, mem_bankChannels.mpr h.symm, by simp [FieldChan.tripped]⟩
  simp only [State.tripShown, hany, Bool.or_true, List.mem_cons, true_or, or_true]

section
variable {s : State} {ch : Nat} {switchedOn : List Nat} (halive : s.fieldAlive (s.pairLead ch) = true)
  (hmode : modeDo (s.mode (s.pairLead ch)) = true)
include halive hmode

theorem State.backfeed_alone (h : s.feeders (s.pairLead ch) switchedOn = []) :
    s.backfeed ch switchedOn = s.tripChan (s.pairLead ch) 0x11 0xFF := by
  unfold State.feeders at h
  unfold State.backfeed
  dsimp only
  rw [if_pos (by simp [halive, hmode]), h]

theorem State.backfeed_wired {i : Nat} (h : s.feeders (s.pairLead ch) switchedOn = [i]) :
    s.backfeed ch switchedOn = s.tripChan (s.pairLead ch) 0x12 i := by
  unfold State.feeders at h
  unfold State.backfeed
  dsimp only
  rw [if_pos (by simp [halive, hmode]), h]

end

/-- What an output that protections do not act on, or that has tripped, leaves of them. -/
theorem State.protections_none {s : State} {ch : Nat} (switchedOn : List Nat)
    (h : (s.fch (s.pairLead ch)).trip.isSome = true ∨ s.fieldAlive (s.pairLead ch) = false ∨
      modeDo (s.mode (s.pairLead ch)) = false) :
    s.overload ch = s ∧ s.backfeed ch switchedOn = s ∧ s.imbalance ch = s := by
  unfold State.overload State.backfeed State.imbalance
  dsimp only
  obtain h | h := h
  · simp only [State.tripChan_again h]
    refine ⟨ite_self s, ?_, ite_self s⟩
    split
    · split <;> rfl
    · rfl
  · have hoff : (s.fieldAlive (s.pairLead ch) && modeDo (s.mode (s.pairLead ch))) = false := by
      rcases h with h | h <;> simp [h]
    rw [hoff]
    exact ⟨rfl, rfl, rfl⟩

/-! ## Comb lines (R257) -/

/-- The next round of a line is a start round. -/
def State.startLine (s : State) (l : Nat) : State := s.setFcomb l { s.fcomb l with startDue := true }

theorem State.fcomb_startLines (s : State) (l : List Nat) (n : Nat) :
    (l.foldl State.startLine s).fcomb n = if n ∈ l then { s.fcomb n with startDue := true } else s.fcomb n := by
  refine State.fcomb_foldl (f := State.startLine) (g := fun _ x => { x with startDue := true })
    (fun u a n => ?_) (fun _ _ => rfl) (fun _ _ => rfl) l s n
  rw [State.startLine, State.fcomb_setFcomb]
  split
  next h => rw [h]
  next => rfl

theorem State.startLines_eq (s : State) (l : List Nat) :
    l.foldl State.startLine s = { s with fcombs := (l.foldl State.startLine s).fcombs } := by
  refine State.eq_of_besideLines (foldl_keeps State.besideLines (fun _ _ => ?_) l s)
  rfl

/-- A trip whose fault the unit of the channel detects. -/
def State.tripFault (s : State) (ch code : Nat) : State := (s.tripChan ch code 0xFF).detectNow (chanSlot ch) code

theorem State.lineTrip_eq {s : State} {ch : Nat} (halive : s.fieldAlive ch = true) (hmode : s.mode ch = 0x0B)
    (code : Nat) :
    s.lineTrip ch code = ((s.tripFault ch code).linesOn ch).foldl State.startLine (s.tripFault ch code) :=
  if_pos (by simp [halive, hmode])

theorem State.tripFault_eq {s : State} {ch : Nat} (h : (s.fch ch).trip = none) (code : Nat) :
    s.tripFault ch code = { s with
      banks := (s.tripFault ch code).banks
      fieldChans := (s.tripFault ch code).fieldChans
      work := s.work.modUnit (chanSlot ch) (·.detect code)
      base := s.base.modUnit (chanSlot ch) (·.detect code) } :=
  congrArg (fun u : State => u.detectNow (chanSlot ch) code) (State.tripChan_eq h code 0xFF)

/-- A short or a back-feed on a comb line: the channel trips and its lines start anew. -/
theorem State.lineTrip_leaves {s : State} {ch : Nat} (halive : s.fieldAlive ch = true) (hmode : s.mode ch = 0x0B)
    (htrip : (s.fch ch).trip = none) (code : Nat) : ∃ t, s.lineTrip ch code = t ∧ (t.fch ch).trip = some code ∧
      (t.outTerminal ch = .off ∨ t.outTerminal ch = .dead) ∧
      (∀ l ∈ s.linesOn ch, t.fcomb l = { s.fcomb l with startDue := true }) ∧
      (∀ l, l ∉ s.linesOn ch → t.fcomb l = s.fcomb l) ∧
      t.work = s.work.modUnit (chanSlot ch) (·.detect code) ∧
      t.base = s.base.modUnit (chanSlot ch) (·.detect code) ∧
      t = { s with
        banks := t.banks, fieldChans := t.fieldChans, fcombs := t.fcombs, work := t.work, base := t.base } := by
  have hfault := State.tripFault_eq htrip code
  have hchan : ((s.tripFault ch code).fch ch).trip = some code := State.trip_tripChan htrip code 0xFF
  have hservice : ((s.tripFault ch code).fch ch).serviceOff = false :=
    (State.serviceOff_tripChan htrip code 0xFF).trans (State.serviceOff_of_fieldAlive halive)
  rw [State.lineTrip_eq halive hmode]
  generalize s.tripFault ch code = u at hfault hchan hservice
  have hlines : u.linesOn ch = s.linesOn ch := by rw [hfault]; rfl
  have hcomb (l : Nat) : u.fcomb l = s.fcomb l := by rw [hfault]; rfl
  have hset (l : Nat) := u.fcomb_startLines (u.linesOn ch) l
  have hstart := u.startLines_eq (u.linesOn ch)
  rw [hlines] at hset hstart ⊢
  generalize (s.linesOn ch).foldl State.startLine u = t at hset hstart
  have hfch : t.fch ch = u.fch ch := by rw [hstart]; rfl
  have hwork : t.work = s.work.modUnit (chanSlot ch) (·.detect code) := by rw [hstart, hfault]
  have hbase : t.base = s.base.modUnit (chanSlot ch) (·.detect code) := by rw [hstart, hfault]
  refine ⟨t, rfl, by rw [hfch]; exact hchan, State.outTerminal_tripped (by rw [hfch]; exact hchan)
    (by rw [hfch]; exact hservice), fun l hl => ?_, fun l hl => ?_, hwork, hbase, ?_⟩
  · rw [hset, if_pos hl, hcomb]
  · rw [hset, if_neg hl, hcomb]
  · have hbanks : t.banks = u.banks := by rw [hstart]
    have hchans : t.fieldChans = u.fieldChans := by rw [hstart]
    rw [hwork, hbase, hbanks, hchans]
    exact hstart.trans (congrArg (fun x : State => { x with fcombs := t.fcombs }) hfault)

/-! ## Excitation (R189) -/

/-- A current that the element asks for anew begins with the window that starts at the tick. -/
theorem State.applyExc_new {s : State} {ch t : Nat} (hmode : s.mode ch = 9)
    (hon : s.excOn (resForce s.content ch) = true) (ht : t % chanPeriod s.content ch = 0)
    (hwant : s.run P.EXC_CURRENT (resForce s.content ch) ≠ 0)
    (hnew : (s.fch ch).excNow ≠ s.run P.EXC_CURRENT (resForce s.content ch)) :
    s.applyExc ch t = s.setFch ch { s.fch ch with
      excNow := s.run P.EXC_CURRENT (resForce s.content ch)
      settle := if (s.fch ch).excNow = 0 then Nat.max (s.fch ch).settle (s.cfg P.EXC_SETTLE (resForce s.content ch))
        else s.cfg P.EXC_SETTLE (resForce s.content ch) } := by
  unfold State.applyExc
  dsimp only
  rw [if_pos (c := s.mode ch = 9 ∧ s.excOn (resForce s.content ch) = true) ⟨hmode, hon⟩, if_neg hnew, if_neg hwant,
    if_pos ht]

/-- Boundary work that changes channels alone leaves the clock and makes the working copy the base. -/
theorem State.atTick_of_chans {s : State} {t : Nat} {f : State → State} {chans : Tab FieldChan}
    (h : f { s with tick := t, workTick := t } = { s with tick := t, workTick := t, fieldChans := chans }) :
    s.atTick t f = { s with workTick := t, fieldChans := chans, base := s.work } := by
  unfold State.atTick
  dsimp only
  rw [h]
  exact congrArg (fun c => ({ s with workTick := t, fieldChans := chans, base := s.work, checkpoint := c } : State))
    (if_neg (fun hd => hd.2 hd.1))

end Sys2Proof.Machine
end

section
open Sys2Proof Sys2Proof.Machine

/-- Settles O51: a protection's row is a trip of its channel, and what a trip shows is said once for all codes. -/
theorem outputEvents : Obligations.OutputEvents := by
  unfold Obligations.OutputEvents
  refine ⟨⟨fun s ch halive hmode htrip => ?overload, fun s ch on halive hmode htrip => ?alone,
      fun s ch on i halive hmode htrip => ?wired, fun s ch halive hmode hpair htrip => ?imbalance,
      fun s ch on h => ?none, fun s ch halive hmode htrip => ?limit,
      fun s ch h => congrArg Host.Outcome.next (if_neg (by rcases h with h | h <;> simp [h]))⟩,
    fun s ch halive hmode => ?openLoop,
    fun s ch h => congrArg Host.Outcome.next (if_neg (by rcases h with h | h <;> simp [h])), fun s ch v h => ?period,
    fun s ch h => ?noPeriod, fun s ch short halive hmode htrip => ?line, fun s ch h => ?noLine,
    fun s n hn hp hc => congrArg Host.Outcome.next (if_pos (by simp [hn, hp, hc])),
    fun s n h => congrArg Host.Outcome.next (if_neg (by rcases h with h | h | h <;> simp [h])),
    fun s ch hl he hc hmode hon ht hwant hnew => ?excitation,
    fun s ch h => congrArg Host.Outcome.next (if_neg (by rcases h with h | h | h <;> simp [h]))⟩
  case overload =>
    exact ⟨_, congrArg Host.Outcome.next (if_pos (by simp [halive, hmode])), State.trip_tripChan htrip _ _,
      State.latched_tripChan_self htrip _ _ (mode_of_modeDo hmode) (by decide),
      State.outTerminal_tripChan htrip _ _ halive,
      State.tripChan_eq htrip _ _⟩
  case alone =>
    intro c d hon
    exact ⟨_, congrArg Host.Outcome.next (State.backfeed_alone halive hmode (State.feeders_nil hon)),
      State.trip_tripChan htrip _ _,
      State.partner_tripChan htrip _ _, State.latched_tripChan_self htrip _ _ (mode_of_modeDo hmode) (by decide),
      State.outTerminal_tripChan htrip _ _ halive, State.tripChan_eq htrip _ _⟩
  case wired =>
    intro c o d hoc ho hon hex
    have hplace : o % 8 = i.val := by omega
    have hbank : o / 8 = c / 8 := by omega
    have hshown := s.tripShown_partner hbank
    rw [hplace] at hshown
    have hfed := State.feeders_one hoc ho hon hex
    exact ⟨_, congrArg Host.Outcome.next (State.backfeed_wired halive hmode hfed), State.trip_tripChan htrip _ _,
      State.partner_tripChan htrip _ _, State.latched_tripChan_self htrip _ _ (mode_of_modeDo hmode) (by decide),
      State.latched_tripChan htrip _ _ hbank (mode_of_modeDo ho) (by decide) hshown,
      State.trip_tripChan_ne htrip _ _ hoc, State.outTerminal_tripChan htrip _ _ halive, State.tripChan_eq htrip _ _⟩
  case imbalance =>
    exact ⟨_, congrArg Host.Outcome.next (if_pos (by simp [halive, hmode, hpair])), State.trip_tripChan htrip _ _,
      State.latched_tripChan_self htrip _ _ (mode_of_modeDo hmode) (by decide),
      State.outTerminal_tripChan htrip _ _ halive,
      State.tripChan_eq htrip _ _⟩
  case none =>
    obtain ⟨hover, hback, himb⟩ := State.protections_none (on.map (·.val)) h
    exact ⟨congrArg Host.Outcome.next hover, congrArg Host.Outcome.next hback, congrArg Host.Outcome.next himb⟩
  case limit =>
    have heq := State.tripFault_eq htrip 0x10
    have hwork : (s.tripFault ch.val 0x10).work = s.work.modUnit (chanSlot ch.val) (·.detect 0x10) := by rw [heq]
    have hbase : (s.tripFault ch.val 0x10).base = s.base.modUnit (chanSlot ch.val) (·.detect 0x10) := by rw [heq]
    refine ⟨s.tripFault ch.val 0x10, congrArg Host.Outcome.next (if_pos (by simp [halive, hmode])),
      State.trip_tripChan htrip _ _, hwork, hbase, ?_⟩
    rw [hwork, hbase]
    exact heq
  case openLoop =>
    have hset (n : Nat) : (s.setFch ch.val { s.fch ch.val with openLoop := true }).fch n =
      if ch.val = n then { s.fch ch.val with openLoop := true } else s.fch n := State.fch_setFch _ _ _ _
    refine ⟨_, congrArg Host.Outcome.next (if_pos (by simp [halive, hmode])), ?_,
      State.latched_chanFlag _ _ (by decide), fun k hk => ?_, State.chanFlag_eq _ _ _ _⟩
    · rw [State.fch_chanFlag, if_pos rfl, hset, if_pos rfl]
      rfl
    · rw [State.fch_chanFlag, if_neg hk.symm, hset, if_neg hk.symm]
  case period =>
    show Host.Outcome.next (s.periodEnd ch.val) = _
    unfold State.periodEnd
    dsimp only
    rw [h]
  case noPeriod =>
    show Host.Outcome.next (s.periodEnd ch.val) = _
    unfold State.periodEnd
    dsimp only
    rw [h]
  case line =>
    intro code
    obtain ⟨t, ht, hleaves⟩ := State.lineTrip_leaves halive hmode htrip code
    refine ⟨t, ?_, hleaves⟩
    cases short <;> exact congrArg Host.Outcome.next ht
  case noLine =>
    have hoff : (s.fieldAlive ch.val && s.mode ch.val == 0x0B) = false := by rcases h with h | h <;> simp [h]
    exact ⟨congrArg Host.Outcome.next (if_neg (by simp [hoff])),
      congrArg Host.Outcome.next (if_neg (by simp [hoff]))⟩
  case excitation =>
    have hnewWindow := State.applyExc_new (s := { s with tick := s.workTick, workTick := s.workTick })
      hmode hon ht hwant hnew
    exact ⟨_, congrArg Host.Outcome.next ((if_pos (by simp [hl, he, hc])).trans (State.atTick_of_chans hnewWindow)),
      (State.fch_setFch s _ _ _).trans (if_pos rfl),
      fun k hk => (State.fch_setFch s _ _ _).trans (if_neg hk.symm), rfl⟩

end

section
/-! # Bins, read slots, sweeps and comb rounds -/

namespace Sys2Proof.Machine

/-! ## Bins (R318) -/

/-- A sample writes its bin in the working copy, and leaves the bin's permission as it stands. -/
theorem State.binSample_eq (s : State) (n : Nat) : ∃ b : BinState,
    s.binSample n = { s with work := s.work.setBin n b } ∧ b.permit = (s.work.bin n).permit ∧
      b.changedAt = (s.work.bin n).changedAt :=
  ⟨_, rfl, rfl, rfl⟩

/-! ## Miss runs (R255) -/

/-- Of the conditions of a line, the one that is new is raised. -/
theorem State.raiseMap_append {s : State} {l k : Nat} (hnew : k ∉ (s.work.comb l).raised) :
    s.raiseMap l ((s.work.comb l).raised ++ [k]) =
      (s.raise causeCombMap (combSlot l) l k).modWork
        (fun p => p.setComb l { p.comb l with raised := (s.work.comb l).raised ++ [k] }) := by
  have hraised : ((s.work.comb l).raised ++ [k]).filter (fun j => !(s.work.comb l).raised.contains j) = [k] := by
    rw [List.filter_append, List.filter_eq_nil_iff.mpr (fun j hj => by simp [hj])]
    simp [hnew]
  unfold State.raiseMap
  dsimp only
  rw [hraised]
  rfl

/-! ## Read slots (R242, Table 07-1) -/

theorem pulseThreshold_bounds : 3500 ≤ pulseThreshold ∧ pulseThreshold ≤ 4500 := by
  unfold pulseThreshold
  omega

theorem multipleThreshold_bounds : 10500 ≤ multipleThreshold ∧ multipleThreshold ≤ 11500 := by
  unfold multipleThreshold
  omega

theorem readsOne_of_le {r : ReadSlot} (h : r.pulseUa ≤ r.baseUa + 3500) : readsOne r = false := by
  obtain ⟨hleast, -⟩ := pulseThreshold_bounds
  exact decide_eq_false (by omega)

theorem readsOne_of_lt {r : ReadSlot} (h : r.baseUa + 4500 < r.pulseUa) : readsOne r = true := by
  obtain ⟨-, hmost⟩ := pulseThreshold_bounds
  exact decide_eq_true (by omega)

theorem readsMultiple_of_le {r : ReadSlot} (h : r.pulseUa ≤ r.baseUa + 10500) : readsMultiple r = false := by
  obtain ⟨hleast, -⟩ := multipleThreshold_bounds
  exact decide_eq_false (by omega)

theorem readsMultiple_of_lt {r : ReadSlot} (h : r.baseUa + 11500 < r.pulseUa) : readsMultiple r = true := by
  obtain ⟨-, hmost⟩ := multipleThreshold_bounds
  exact decide_eq_true (by omega)

theorem combReply_silent {slots : List ReadSlot} (h : ∀ r ∈ slots, readsOne r = false) :
    (combReply slots).heard = false :=
  List.any_eq_false.mpr (fun r hr => by simp [h r hr])

/-- A READ that nothing answers gives an entry of NO_REPLY, MULTIPLE at most beside it, without values. -/
theorem nodeEntry_silent {slots : List ReadSlot} (h : (combReply slots).heard = false) (e : MapEntry) :
    nodeEntry false e slots =
      ⟨e.position, BitVec.ofNat 8 (flagBit true 7 + flagBit (combReply slots).multiple 5), 0, 0, 0⟩ := by
  unfold nodeEntry
  dsimp only
  rw [h]
  rfl

theorem noReply_status (multiple : Bool) :
    (BitVec.ofNat 8 (flagBit true 7 + flagBit multiple 5)).getLsbD 7 = true := by
  cases multiple <;> decide

/-! ## Sweeps (R217 to R224) -/

/-- The sweep that a probe starts with set `n`. -/
def State.sweepRun (s : State) (p n : Nat) (mismatch : Bool) : SweepRun where
  start := s.tick
  set := some n
  mismatch := mismatch
  amplitude := s.cfg P.DIEL_AMPLITUDE p
  loadClass := (s.bank (s.probeDrive p / 8)).loadClass
  plan := (s.probePlan p).map enginePoint

section

variable {s : State} {p : Nat} (hhas : s.has (probeSlot p) = true) (hrests : s.rests (probeSlot p) = false)
  (hslot : s.tick % s.probePeriod p = s.probeSlotAt p)
  (hnew : ∀ r, (s.fprobe p).run = some r → r.start ≠ s.tick)
  (hactive : (s.unit (probeSlot p)).st = .active) (hbank : (s.bank (s.probeDrive p / 8)).state = .inService)
  (hmembers : s.membersActive p = true)
include hhas hrests hslot hnew hactive hbank hmembers

/-- A probe whose slot begins asks for its set. -/
theorem State.startSweep_inSlot : s.startSweep p =
    match s.chooseSet p s.tick with
    | none => s.detectNow (probeSlot p) 0x01
    | some (n, mismatch) =>
      s.setFprobe p { s.fprobe p with ready := none, run := some (s.sweepRun p n mismatch) } := by
  have hfresh : (s.fprobe p).run.any (fun r => r.start == s.tick) = false := by
    cases hr : (s.fprobe p).run with
    | none => rfl
    | some r => simpa using hnew r hr
  unfold State.startSweep
  exact if_pos (by simp [hhas, hrests, hslot, hfresh, hactive, hbank, hmembers])

theorem State.startSweep_chosen {n : Nat} {mismatch : Bool} (hset : s.chooseSet p s.tick = some (n, mismatch)) :
    s.startSweep p = s.setFprobe p { s.fprobe p with ready := none, run := some (s.sweepRun p n mismatch) } := by
  rw [State.startSweep_inSlot hhas hrests hslot hnew hactive hbank hmembers, hset]

theorem State.startSweep_noSet (hset : s.chooseSet p s.tick = none) :
    s.startSweep p = s.detectNow (probeSlot p) 0x01 := by
  rw [State.startSweep_inSlot hhas hrests hslot hnew hactive hbank hmembers, hset]

end

section

variable {s : State} {p : Nat} {r : SweepRun} (hrun : (s.fprobe p).run = some r) (hready : (s.fprobe p).ready = none)
include hrun hready

theorem State.deliverSweep_inTime {m : SweepMeas} (htime : s.deadlineAt < r.start + 41) (hwhole : m.complete = true)
    (hkept : r.missed = false) (hpoints : m.points.length = r.plan.length) :
    s.deliverSweep p m = s.setFprobe p { s.fprobe p with
      ready := some (r.start + 40, sweepRecord r (Tab.get {} (s.fprobe p).sets (r.set.getD 0)) m) } := by
  unfold State.deliverSweep
  simp [hrun, hready, htime, hwhole, hkept, hpoints]

theorem State.deliverSweep_late (m : SweepMeas) (hlate : r.start + 41 ≤ s.deadlineAt) :
    s.deliverSweep p m = s.countLate (s.probeDrive p / 8) := by
  unfold State.deliverSweep
  simp [hrun, hready, hlate]

end

/-! ## Comb rounds (R246 to R250) -/

/-- A round as it opens, before the line has been found fit. -/
def State.openedRun (s : State) (l : Nat) : RoundRun where
  t0 := s.tick
  start := (s.fcomb l).startDue
  missed := true
  lowFeed := false
  noHeadroom := false
  enumerating := (s.fcomb l).enumerating
  limit := s.cfg P.COMB_MISS_LIMIT l

/-- A line on which a round opens; the round before it waits for its record. -/
def State.openedLine (s : State) (l : Nat) : FieldComb :=
  { s.fcomb l with
    ended := ((s.fcomb l).run.map (fun r => (r, (s.fcomb l).ready.map (·.2)))).or (s.fcomb l).ended
    ready := none
    run := some (s.openedRun l) }

theorem State.openRound_due {s : State} {l : Nat} (hhas : s.has (combSlot l) = true)
    (hactive : (s.unit (combSlot l)).st = .active) (hdue : s.roundAt l s.tick = true) :
    s.openRound l = s.setFcomb l (s.openedLine l) :=
  if_pos (by simp [hhas, hactive, hdue])

/-- The feed of a line stands too low as its round starts. -/
def feedLow (m : LineMeas) : Bool := decide (m.millivolts < 17000)

/-- The feed of a line leaves a node's pulse no headroom. -/
def State.noHeadroom (s : State) (l : Nat) (m : LineMeas) : Bool :=
  flt (s.feedAllowance (s.lineChannel l / 8)) (fOfNat (m.baselineUa + 11000))

/-- A round that a line was not fit for (R248). -/
def State.roundUnfit (s : State) (l : Nat) (m : LineMeas) (r : RoundRun) : Bool :=
  feedLow m || s.noHeadroom l m || r.enumerating

/-- A line on which the round `r` has begun, or is missed. -/
def State.begunLine (s : State) (l : Nat) (m : LineMeas) (r : RoundRun) : FieldComb :=
  { s.fcomb l with
    startDue := (s.fcomb l).startDue && s.roundUnfit l m r
    run := some { r with
      missed := s.roundUnfit l m r
      lowFeed := feedLow m
      noHeadroom := s.noHeadroom l m
      frames := if s.roundUnfit l m r then [] else roundFrames r.start (s.fcomb l).needAssign (s.nodeMap l) } }

theorem State.beginRound_fed {s : State} {l : Nat} {r : RoundRun} (m : LineMeas) (hrun : (s.fcomb l).run = some r)
    (hnow : r.t0 = s.tick) (hactive : (s.view.unit (chanSlot (s.lineChannel l))).st = .active)
    (hguard : (s.bank (s.lineChannel l / 8)).guardTripped = false) :
    s.beginRound l m = s.setFcomb l (s.begunLine l m r) := by
  unfold State.beginRound
  dsimp only
  rw [hrun]
  exact if_pos ⟨hnow, hactive, by simp [hguard]⟩

section

variable {s : State} {l : Nat} {r : RoundRun} (hended : (s.fcomb l).ended = none) (hrun : (s.fcomb l).run = some r)
include hended hrun

theorem State.deliverRound_inTime {m : RoundMeas} {x : RoundRec} (hready : (s.fcomb l).ready = none)
    (htime : s.deadlineAt < r.t0 + 2048) (hkept : r.missed = false) (hrecord : roundRecord r (s.nodeMap l) m = some x) :
    s.deliverRound l m =
      s.setFcomb l { s.fcomb l with needAssign := x.failures, ready := some (r.t0 + 2047, x) } := by
  unfold State.deliverRound
  simp [hended, hrun, hready, htime, hkept, hrecord]

theorem State.deliverRound_late (m : RoundMeas) (hlate : r.t0 + 2048 ≤ s.deadlineAt) :
    s.deliverRound l m = s.countLate (s.lineChannel l / 8) := by
  unfold State.deliverRound
  simp [hended, hrun, hlate]

end

/-- A record holds an entry for each mapped node. -/
theorem roundRecord_some {r : RoundRun} {map : List MapEntry} {m : RoundMeas} {x : RoundRec}
    (h : roundRecord r map m = some x) : x.entries.length = map.length ∧ x.missed = false ∧ x.start = r.start ∧
      x.unmapped = readsOne m.presence ∧ x.limit = r.limit := by
  unfold roundRecord at h
  dsimp only at h
  generalize List.dropLast _ = frames at h
  split at h
  · cases h
  next hwhole =>
    obtain ⟨-, hframes, hslots⟩ := by simpa only [not_or, not_not] using hwhole
    have hanswers := congrArg List.length hslots
    rw [List.length_map, List.length_map] at hanswers
    cases h
    refine ⟨?_, rfl, rfl, rfl, rfl⟩
    rw [List.length_map, List.length_zip, List.length_zip]
    omega

end Sys2Proof.Machine
end

section
open Sys2Proof Sys2Proof.Machine

/-- Settles O47: each row under its guard is the one change of the bin, line or probe that its lemma names. -/
theorem samplesAndRounds : Obligations.SamplesAndRounds := by
  unfold Obligations.SamplesAndRounds
  refine ⟨⟨fun s n hactive hdue => ?sample, fun s n h => ?noSample, fun s n hhold hpermit htime => ?onEnd,
      fun s n hhold hpermit htime => ?offEnd, fun s l pos hlimit hnew => ?missLimit⟩,
    ⟨fun r => ⟨readsOne_of_le, readsOne_of_lt, readsMultiple_of_le, readsMultiple_of_lt⟩,
      fun e slots hquiet => ?noReply⟩,
    fun s p hruns hhas hrests hslot hfresh hactive hbank hmembers => ⟨fun n m hset => ?sweep, fun hset => ?noSet⟩,
    fun s p r m hruns hrun hready => ⟨fun htime hwhole hkept hpoints => ?swept, fun hlate => ?lateSweep⟩,
    fun s l m hruns hhas hactive hdue hfed hguard => ?round,
    fun s l r m hruns hended hrun hready => ⟨fun x htime hkept hrecord => ?delivered, fun hlate => ?lateRound⟩,
    fun r map m x _ hrecord => roundRecord_some hrecord⟩
  case sample =>
    obtain ⟨b, hb, hpermit, hchanged⟩ := State.binSample_eq s n.val
    refine ⟨_, congrArg Host.Outcome.next (if_pos ⟨hactive, hdue⟩), rfl, by rw [hb], fun k hk => ?_, ?_, ?_⟩
    · rw [hb, Plant.bin_setBin, if_neg hk.symm]
    · rw [hb, Plant.bin_setBin, if_pos rfl, hpermit]
    · rw [hb, Plant.bin_setBin, if_pos rfl, hchanged]
  case noSample => exact congrArg Host.Outcome.next (if_neg (by rcases h with h | h <;> simp [h]))
  case onEnd => exact congrArg Host.Outcome.next (if_pos (by simp [hhold, hpermit, htime]))
  case offEnd =>
    exact congrArg Host.Outcome.next ((if_neg (by simp [hpermit])).trans (if_pos (by simp [hhold, hpermit, htime])))
  case missLimit =>
    exact congrArg Host.Outcome.next ((if_pos ⟨hlimit, by simp [hnew]⟩).trans (State.raiseMap_append hnew))
  case noReply =>
    have hheard := combReply_silent (fun r hr => readsOne_of_le (hquiet r hr))
    have hstatus := noReply_status (combReply slots).multiple
    rw [nodeEntry_silent hheard e]
    exact ⟨hstatus, by rw [NodeEntry.failed, hstatus, Bool.true_or], rfl, rfl⟩
  case sweep =>
    exact congrArg Host.Outcome.next
      ((if_pos hruns).trans (State.startSweep_chosen hhas hrests hslot hfresh hactive hbank hmembers hset))
  case noSet =>
    exact congrArg Host.Outcome.next
      ((if_pos hruns).trans (State.startSweep_noSet hhas hrests hslot hfresh hactive hbank hmembers hset))
  case swept =>
    exact congrArg Host.Outcome.next
      ((if_pos hruns).trans (State.deliverSweep_inTime hrun hready htime hwhole hkept hpoints))
  case lateSweep =>
    exact congrArg Host.Outcome.next ((if_pos hruns).trans (State.deliverSweep_late hrun hready m hlate))
  case round =>
    intro f low head missed
    have hopen := State.openRound_due hhas hactive hdue
    have hself : (s.setFcomb l.val (s.openedLine l.val)).fcomb l.val = s.openedLine l.val :=
      (State.fcomb_setFcomb s _ _ _).trans (if_pos rfl)
    have hbegin := State.beginRound_fed (s := s.setFcomb l.val (s.openedLine l.val)) m
      (congrArg FieldComb.run hself) rfl hfed hguard
    refine ⟨_, congrArg Host.Outcome.next ((if_pos hruns).trans ((congrArg (·.beginRound l.val m) hopen).trans hbegin)),
      rfl, fun k hk => ?_, ?_⟩
    · rw [State.fcomb_setFcomb, if_neg hk.symm, State.fcomb_setFcomb, if_neg hk.symm]
    · rw [State.fcomb_setFcomb, if_pos rfl, State.begunLine, hself]
      rfl
  case delivered =>
    exact congrArg Host.Outcome.next
      ((if_pos hruns).trans (State.deliverRound_inTime hended hrun hready htime hkept hrecord))
  case lateRound =>
    exact congrArg Host.Outcome.next ((if_pos hruns).trans (State.deliverRound_late hended hrun m hlate))

end

section
/-! # Faults of lost inputs -/

namespace Sys2Proof.Machine

/-- A fault found in a unit with none due becomes due (R22). -/
theorem UnitRec.detect_of_none {u : UnitRec} (code : Nat) (h : u.faultDue = none) :
    u.detect code = { u with faultDue := some code } :=
  if_neg (by simp [h])

/-- A fault found in a unit with none due is a write to that unit's record in the working copy. -/
theorem State.detect_of_none {s : State} {slot : Nat} (code : Nat) (h : (s.work.unit slot).faultDue = none) :
    s.detect slot code = { s with
      work := s.work.modUnit slot (fun u => { u with faultDue := some code }) } :=
  congrArg (fun u => { s with work := { s.work with units := Tab.put {} s.work.units slot u } })
    (UnitRec.detect_of_none code h)

/-- A run of lost inputs that has reached a limit other than 0 makes the unit due for the fault (R264, R288, R300). -/
theorem State.detect_of_lossDue {s : State} {slot limit run : Nat} (code : Nat) (hset : limit ≠ 0) (hrun : limit ≤ run)
    (hnone : (s.work.unit slot).faultDue = none) :
    (if lossDue limit run then s.detect slot code else s) = { s with
      work := s.work.modUnit slot (fun u => { u with faultDue := some code }) } :=
  (if_pos (by simp [lossDue, hset, hrun])).trans (State.detect_of_none code hnone)

end Sys2Proof.Machine
end

section
open Sys2Proof Sys2Proof.Machine

/-- Settles O44: the three faults are one (`State.detect_of_lossDue`); a churn goes by the branches of R292. -/
theorem lossAndFade : Obligations.LossAndFade := by
  unfold Obligations.LossAndFade
  refine ⟨⟨fun s n hset hrun hnone => ?loop, fun s n hset hrun hnone => ?prof, fun s n hset hrun hnone => ?observer⟩,
    fun s n hzero hleft hstate => ?bandLeft, fun s n hzero hstays hcount hlost => ?phaseLost, fun s n hfading => ?fading⟩
  case loop => exact congrArg Host.Outcome.next (State.detect_of_lossDue 0x01 hset hrun hnone)
  case prof => exact congrArg Host.Outcome.next (State.detect_of_lossDue 0x01 hset hrun hnone)
  case observer => exact congrArg Host.Outcome.next (State.detect_of_lossDue 0x01 hset hrun hnone)
  case bandLeft => exact congrArg Host.Outcome.next ((if_neg (not_not.2 hzero)).trans (if_pos ⟨hleft, hstate⟩))
  case phaseLost =>
    have hband : ¬ ((s.work.churn n.val).bandLeft = true ∧ (s.unit (churnSlot n.val)).st ≠ .stopping) := by
      rintro ⟨hleft, hstate⟩
      exact hstays.elim (fun h => by simp [h] at hleft) hstate
    exact congrArg Host.Outcome.next
      ((if_neg (not_not.2 hzero)).trans ((if_neg hband).trans (if_pos (by simp [hcount, hlost]))))
  case fading => exact congrArg Host.Outcome.next (if_pos hfading)

end

section
/-! # Programs: timeouts, lost inputs and the actions of a step (R306, R307, R310) -/

namespace Sys2Proof.Machine

/-! ## Timeouts and lost inputs -/

/-- A step that lasts its timeout without completing goes on to the step of its timeout, or finds a fault (R306). -/
theorem State.advanceProg_timedOut {s : State} {n : Nat} {stopping : Bool} {st : PrgStep} {p : ProgState}
    (hphase : st.phase ≠ 0) (hopen : ¬(p.condMet && decide (st.minTime * 1024 ≤ s.workTick - p.entry)) = true)
    (hset : st.timeout ≠ 0) (hdue : st.timeout * 61440 ≤ s.workTick - p.entry) :
    s.advanceProg n stopping st p =
      if st.timeoutNext = 0xFF then (s.modWork (·.setProg n p)).detect (progSlot n) 0x03
      else s.modWork (·.setProg n { p.enter st.timeoutNext with timedOut := true }) :=
  (if_neg hphase).trans ((if_neg hopen).trans (if_pos ⟨hset, hdue⟩))

/-- A condition cell that has been unusable for the time limit, when there is one, is a fault (R306, R310). -/
theorem State.progLoss_snd (s : State) (n : Nat) (p : ProgState) :
    (s.progLoss n p).2 =
      if p.condUnusable = true ∧ s.cfg P.PRG_LOSS_TIME n ≠ 0 ∧
          s.cfg P.PRG_LOSS_TIME n * 1024 ≤ s.workTick - p.unusableSince.getD s.workTick
        then s.detect (progSlot n) 0x01 else s := by
  unfold State.progLoss
  cases h : p.condUnusable
  · simp
  · simp only [true_and]
    rfl

/-! ## Actions -/

/-- Without a stop of a fault, the boundary carries out the actions that wait, in their order, and none waits any more. -/
theorem State.programActions_of_noFault {s : State} {n : Nat} (hnone : (s.work.prog n).faultStop = none)
    (hwait : (s.work.prog n).actions ≠ []) :
    s.programActions n = (s.work.prog n).actions.foldl (fun s e => s.programAct n e)
      (s.modWork (·.setProg n { s.work.prog n with actions := [] })) := by
  simp [State.programActions, hnone, hwait]

theorem isHive_of_channel {u : Nat} (h : slotKind u = 0x03) : isHive u = false := by
  rw [isHive, h]
  rfl

/-- A running channel unit stops without a wind-down (R24). -/
theorem State.act_stop_channel {s : State} {u : Nat} (hkind : slotKind u = 0x03) (hactive : (s.unit u).st = .active) :
    State.act 257 s u .stop = (true, s.setSt u .stopped) := by
  have hhk : u ≠ hkSlot := ne_of_apply_ne slotKind (by rw [hkind]; decide)
  rw [State.act_unit 256 .stop (isHive_of_channel hkind), State.actUnit_stop hhk,
    State.stopUnit_running (by rw [hactive]; rfl), State.beginStop, hkind]
  rfl

/-- The state in which program `n` acts on a target: the action is noted for the input record as a command, unless the
record's scope holds the program unit itself. -/
def State.notedFor (s : State) (n opcode target : Nat) : State :=
  if (if s.inrec.open_ then s.recScope else scopeSlots s.content (s.run P.INREC_SCOPE 0)).contains (progSlot n) then s
  else s.noteCommand opcode (le 2 target)

@[simp] theorem State.work_notedFor (s : State) (n opcode target : Nat) : (s.notedFor n opcode target).work = s.work :=
  (apply_ite State.work _ s (s.noteCommand opcode (le 2 target))).trans (ite_self s.work)

/-- A program's STOP of a running channel unit is carried out, calmed or not (R307). -/
theorem State.programAct_stop_channel {s : State} {u : Nat} (n : Nat) (hkind : slotKind u = 0x03)
    (hactive : (s.unit u).st = .active) :
    s.programAct n (2, u) = ((s.notedFor n 0x0203 u).setSt u .stopped).syncHives := by
  have hroot : u ≠ 0 := ne_of_apply_ne slotKind (by rw [hkind]; decide)
  have hact : State.act 257 (s.notedFor n 0x0203 u) u .stop = (true, (s.notedFor n 0x0203 u).setSt u .stopped) :=
    State.act_stop_channel hkind (by rw [State.unit, State.work_notedFor]; exact hactive)
  simp only [State.programAct, progAct, ne_eq, not_true, and_false, if_false, hroot, false_and]
  change (if (!(State.act 257 (s.notedFor n 0x0203 u) u .stop).1) = true then _
    else (State.act 257 (s.notedFor n 0x0203 u) u .stop).2.syncHives) = _
  rw [hact]
  rfl

/-! ## What programs hold, after a change of units -/

theorem State.prog_setSt (s : State) (u : Nat) (st : UState) (n : Nat) :
    (s.setSt u st).work.prog n = s.work.prog n := rfl

theorem State.prog_syncHives (s : State) (n : Nat) : s.syncHives.work.prog n = s.work.prog n :=
  show s.syncHives.besideUnits.work.prog n = s.besideUnits.work.prog n by rw [State.besideUnits_syncHives]

end Sys2Proof.Machine
end

section
open Sys2Proof Sys2Proof.Machine

/-- Settles O45: the timeout by `State.advanceProg_timedOut`, the lost condition by `State.progLoss_snd`, the action by
`State.programAct_stop_channel`. -/
theorem programEvents : Obligations.ProgramEvents := by
  unfold Obligations.ProgramEvents
  refine ⟨fun s n hadv hentered => ?timeout, fun s n hadv hnone => ?lost, fun s n hkept => ?kept,
    fun s n u hruns hdone hactions hfault _ hkind hactive => ?action⟩
  case timeout =>
    intro p st hopen hphase hset hdue
    have hincomplete : (p.condMet && decide (st.minTime * 1024 ≤ s.workTick - p.entry)) = false := by
      rw [Bool.and_eq_false_iff, decide_eq_false_iff_not, Nat.not_le]
      exact hopen
    have hrow : exec (.programStepTimeout n) s = .next
        (if st.timeoutNext = 0xFF then (s.modWork (·.setProg n.val p)).detect (progSlot n.val) 0x03
          else s.modWork (·.setProg n.val { p.enter st.timeoutNext with timedOut := true })) :=
      congrArg Host.Outcome.next ((if_pos ⟨hadv, by rw [hentered]; rfl, hphase, hset, hdue,
        by rw [Bool.not_eq_true']; exact hincomplete⟩).trans
        (State.advanceProg_timedOut hphase (by rw [hincomplete]; exact Bool.false_ne_true) hset hdue))
    refine ⟨fun hnext => hrow.trans (congrArg Host.Outcome.next (if_neg hnext)), fun hnext hnone => ?_⟩
    refine ⟨_, hrow.trans (congrArg Host.Outcome.next ((if_pos hnext).trans
      (State.detect_of_none (s := s.modWork (·.setProg n.val p)) 0x03 hnone))), ?_, ?_, rfl⟩
    · simp
    · exact (Plant.prog_setProg _ _ _ _).trans (if_pos rfl)
  case lost =>
    intro p hlost hset
    refine congrArg Host.Outcome.next ((if_pos hadv).trans ((s.progLoss_snd n.val p).trans ?_))
    rw [State.detect_of_none 0x01 hnone]
    simp [hlost, hset]
  case kept =>
    have hloss : (s.progLoss n.val (s.work.prog n.val)).2 = s := by
      rw [State.progLoss_snd, if_neg]
      rintro ⟨hlost, hset, -⟩
      exact hkept.elim hset (fun h => Bool.false_ne_true (h.symm.trans hlost))
    refine congrArg Host.Outcome.next ?_
    rw [hloss, ite_self]
  case action =>
    refine ⟨_, congrArg Host.Outcome.next (State.atBoundary_committed _ hruns hdone), ?_⟩
    have hdo := (State.programActions_of_noFault (s := s.atNext) hfault (by simp [State.atNext, hactions])).trans
      ((congrArg (List.foldl _ _) hactions).trans (State.programAct_stop_channel n.val hkind hactive))
    rw [hdo, State.afterBoundary_unit, State.unit_syncHives _ (isHive_of_channel hkind), State.afterBoundary_work,
      State.prog_syncHives, State.prog_setSt, State.work_notedFor]
    exact ⟨by simp, by simp⟩

end

section
/-! # Chains: trips and the end of a purge (R312, R313) -/

namespace Sys2Proof.Machine

/-! ## The code that a member shows -/

section
variable {x : MemberState}

theorem tripCodeOf_unproven {m : ChainMember} (hrun : x.running = true) (hproof : x.proven = false)
    (hlate : m.prove ≤ x.sinceStart) : tripCodeOf m false x = some 0x10 := by
  simp [tripCodeOf, hrun, hproof, hlate]

theorem tripCodeOf_slow {m : ChainMember} (hrun : x.running = true) (hproof : x.proven = true)
    (hslow : m.motion ≤ x.lowRun) : tripCodeOf m false x = some 0x11 := by
  simp [tripCodeOf, hrun, hproof, hslow]

/-- A member that stands shows its plug at most. -/
theorem tripCodeOf_stands (m : ChainMember) {plugged : Bool} {code : Nat} (hstands : x.running = false)
    (hcode : code ≠ 0x12) : tripCodeOf m plugged x ≠ some code := by
  cases plugged
  · simp [tripCodeOf, hstands]
  · simpa [tripCodeOf] using hcode.symm

end

/-! ## Members that stop -/

@[simp] theorem ChainState.member_setMember (c : ChainState) (i j : Nat) (x : MemberState) :
    (c.setMember i x).member j = if i = j then x else c.member j := Tab.get_put _ _ _ _ _

/-- A stop of one member leaves every other one running that ran, and starts none. -/
theorem ChainState.running_stopMember (c : ChainState) (i j : Nat) :
    ((c.stopMember i).member j).running = (i != j && (c.member j).running) := by
  unfold ChainState.stopMember
  by_cases hij : i = j
  · subst hij
    cases hrun : (c.member i).running <;> simp [hrun]
  · cases hrun : (c.member i).running <;> simp [hrun, hij]

theorem ChainState.stopMember_stops (c : ChainState) (i : Nat) : ((c.stopMember i).member i).running = false := by
  simp [ChainState.running_stopMember]

theorem ChainState.stopMember_keeps {c : ChainState} (i : Nat) {j : Nat} (h : (c.member j).running = false) :
    ((c.stopMember i).member j).running = false := by
  simp [ChainState.running_stopMember, h]

theorem ChainState.stopMember_ne {c : ChainState} {i : Nat} (h : (c.member i).running = true) : c.stopMember i ≠ c :=
  fun he => Bool.false_ne_true ((c.stopMember_stops i).symm.trans (by rw [he, h]))

/-- A trip makes the chain stop with the flow; the first one stands. -/
theorem ChainState.trip_flags (c : ChainState) (i code : Nat) :
    (c.trip i code).stoppingFlow = true ∧ (c.trip i code).tripped = true ∧
      (c.trip i code).members = ((List.range (i + 1)).foldl ChainState.stopMember c).members := by
  unfold ChainState.trip
  dsimp only
  split
  · next h => exact ⟨rfl, h, rfl⟩
  · exact ⟨rfl, rfl, rfl⟩

/-- A trip stops its member and every one upstream (R313). -/
theorem ChainState.trip_stops (c : ChainState) {i j : Nat} (code : Nat) (h : j ≤ i) :
    ((c.trip i code).member j).running = false := by
  obtain ⟨-, -, hmembers⟩ := c.trip_flags i code
  rw [ChainState.member, hmembers]
  exact foldl_brings (P := fun j (c : ChainState) => (c.member j).running = false) ChainState.stopMember_stops
    (fun _ i _ => ChainState.stopMember_keeps i) _ c j (List.mem_range.mpr (Nat.lt_succ_of_le h))

/-! ## Trips and purges of the state -/

/-- A trip that a member shows takes effect. -/
theorem State.chainTrip_of_shown {s : State} {n i code : Nat} {m : ChainMember} (hm : (s.chainMembers n)[i]? = some m)
    (hcode : tripCodeOf m ((s.work.chain n).member i).plugged ((s.work.chain n).member i) = some code) :
    s.chainTrip n i code =
      ((s.modWork (·.setChain n ((s.work.chain n).trip i code))).writeChain n).chainDone n := by
  simp only [State.chainTrip, hm, hcode, if_true]

/-- A member that stands trips neither for its proof nor for its motion. -/
theorem State.chainTrip_stands {s : State} {n i code : Nat} (hstands : ((s.work.chain n).member i).running = false)
    (hcode : code ≠ 0x12) : s.chainTrip n i code = s := by
  unfold State.chainTrip
  split
  · rfl
  · next m _ => exact if_neg (tripCodeOf_stands m hstands hcode)

/-- A member below one that has stood for the purge time stops (R312). -/
theorem stopFlowMember_purged {ms : List ChainMember} {c : ChainState} {i : Nat} {m : ChainMember}
    (hm : ms[i]? = some m) (hi : 0 < i) (hrun : (c.member i).running = true)
    (hup : (c.member (i - 1)).running = false)
    (hpurged : (c.member (i - 1)).everRan = false ∨ m.purge ≤ (c.member (i - 1)).sinceStop) :
    stopFlowMember ms c i = c.stopMember i := by
  refine if_pos ⟨hi, hrun, by rw [hup]; rfl, ?_⟩
  simpa [hm] using hpurged

end Sys2Proof.Machine
end

section
open Sys2Proof Sys2Proof.Machine

/-- Settles O46: the rows of the two trips are one (`State.chainTrip_of_shown`); who stops is `ChainState.trip_stops`. -/
theorem chainTrips : Obligations.ChainTrips := by
  unfold Obligations.ChainTrips
  refine ⟨fun s n i m hm => ?unproven, fun s n i m hm => ?slow, fun s n i hstands => ?stands,
    fun c i code j hj => ?upstream, fun s n i m hm hi => ?purged, fun s n i hflow => ?running⟩
  case unproven =>
    intro c x hplug hrun hproof hlate
    exact congrArg Host.Outcome.next
      (State.chainTrip_of_shown hm (hplug ▸ tripCodeOf_unproven hrun hproof hlate))
  case slow =>
    intro c x hplug hrun hproof hslow
    exact congrArg Host.Outcome.next (State.chainTrip_of_shown hm (hplug ▸ tripCodeOf_slow hrun hproof hslow))
  case stands =>
    exact ⟨congrArg Host.Outcome.next (State.chainTrip_stands hstands (by decide)),
      congrArg Host.Outcome.next (State.chainTrip_stands hstands (by decide))⟩
  case upstream =>
    obtain ⟨hflow, htripped, -⟩ := c.trip_flags i code
    exact ⟨c.trip_stops code hj, hflow, htripped⟩
  case purged =>
    intro c hflow hrun hup hpurged
    have hstop := stopFlowMember_purged hm hi hrun hup hpurged
    have hchanged : stopFlowMember (s.chainMembers n.val) c i.val ≠ c := hstop ▸ ChainState.stopMember_ne hrun
    exact hstop ▸ congrArg Host.Outcome.next (if_pos ⟨hflow, hchanged⟩)
  case running => exact congrArg Host.Outcome.next (if_neg (fun h => Bool.false_ne_true (hflow.symm.trans h.1)))

end

section
/-! # Fan ports: the start sequence and its speed fault (R332, R333) -/

namespace Sys2Proof.Machine

/-- An attempt that fails with retries left goes into a pause that doubles with each retry (R332). -/
theorem failAttempt_retry {f : FanState} (pause : Nat) (h : f.retries < 3) :
    failAttempt pause f =
      ({ f with retries := f.retries + 1, seq := .pause, pauseLeft := pause * 2 ^ f.retries * 16 }, false) :=
  if_pos h

/-- An attempt that fails after the third retry leaves the port as it is and blocks it (R332). -/
theorem failAttempt_blocked {f : FanState} (pause : Nat) (h : f.retries = 3) : failAttempt pause f = (f, true) :=
  if_neg (by simp [h])

section StartTimeout
variable {s : State} {n : Fin 8} (hseq : (s.work.fan n.val).seq = .proving)
  (htime : s.cfg P.FAN_START_TIME n.val ≤ (s.work.fan n.val).kickSteps)
  (hslow : s.fanFast n.val (s.work.fan n.val) = false)
include hseq htime hslow

/-- FAN_START_TIME passes without FAN_TACH_MIN while the port has retries left. -/
theorem execFanStartTimeout_retry (hretries : (s.work.fan n.val).retries < 3) :
    execFanStartTimeout n s = .next (s.modWork (·.setFan n.val { s.work.fan n.val with
      retries := (s.work.fan n.val).retries + 1
      seq := .pause
      pauseLeft := s.cfg P.FAN_RETRY_PAUSE n.val * 2 ^ (s.work.fan n.val).retries * 16 })) := by
  refine (if_pos ⟨hseq, htime, by simp [hslow]⟩).trans ?_
  rw [failAttempt_retry _ hretries]
  rfl

/-- FAN_START_TIME passes without FAN_TACH_MIN after the third retry. -/
theorem execFanStartTimeout_blocked (hretries : (s.work.fan n.val).retries = 3) :
    execFanStartTimeout n s =
      .next ((s.modWork (·.setFan n.val (s.work.fan n.val))).detect (fanSlot n.val) 0x01) := by
  refine (if_pos ⟨hseq, htime, by simp [hslow]⟩).trans ?_
  rw [failAttempt_blocked _ hretries]
  rfl

end StartTimeout

section SpeedFault
variable {s : State} {n : Fin 8} (hseq : (s.work.fan n.val).seq = .running) (hlow : 0 < (s.work.fan n.val).lowRun)
  (htime : s.cfg P.FAN_FAULT_TIME n.val * 16 ≤ (s.work.fan n.val).lowRun)
include hseq hlow htime

/-- Speed low for FAN_FAULT_TIME, on a port with a supply that was at its limit throughout: STALLED (Table 10-5). -/
theorem execFanSpeedFaultTimer_stalled (hsupply : s.cfg P.FAN_SUPPLY n.val ≠ 0)
    (hlimited : (s.work.fan n.val).lowLimited = true) :
    execFanSpeedFaultTimer n s = .next (s.detect (fanSlot n.val) 0x03) :=
  (if_pos ⟨hseq, hlow, htime⟩).trans (if_pos ⟨bne_iff_ne.2 hsupply, hlimited⟩)

/-- Speed low for FAN_FAULT_TIME, on a port with a supply and current in the running band but no edge throughout:
TACH_LOST, and no fault (Table 10-5). -/
theorem execFanSpeedFaultTimer_tachLost (hsupply : s.cfg P.FAN_SUPPLY n.val ≠ 0)
    (hlimited : (s.work.fan n.val).lowLimited = false) (hnoTach : (s.work.fan n.val).lowNoTach = true) :
    execFanSpeedFaultTimer n s = .next (s.modWork (·.setFan n.val { s.work.fan n.val with
      tachLost := true, lowRun := 0, lowLimited := true, lowNoTach := true })) :=
  (if_pos ⟨hseq, hlow, htime⟩).trans
    ((if_neg (by simp [hlimited])).trans (if_pos ⟨bne_iff_ne.2 hsupply, hnoTach⟩))

/-- Any other speed low for FAN_FAULT_TIME: TACH_FAULT (Table 10-5). -/
theorem execFanSpeedFaultTimer_tachFault (hother : s.cfg P.FAN_SUPPLY n.val = 0 ∨
      ((s.work.fan n.val).lowLimited = false ∧ (s.work.fan n.val).lowNoTach = false)) :
    execFanSpeedFaultTimer n s = .next (s.detect (fanSlot n.val) 0x02) := by
  obtain ⟨hnotStalled, hnotLost⟩ : ¬((s.cfg P.FAN_SUPPLY n.val != 0) = true ∧ (s.work.fan n.val).lowLimited = true) ∧
      ¬((s.cfg P.FAN_SUPPLY n.val != 0) = true ∧ (s.work.fan n.val).lowNoTach = true) := by
    rcases hother with hnone | ⟨hlimited, hnoTach⟩
    · simp [hnone]
    · simp [hlimited, hnoTach]
  exact (if_pos ⟨hseq, hlow, htime⟩).trans ((if_neg hnotStalled).trans (if_neg hnotLost))

end SpeedFault

end Sys2Proof.Machine
end

section
open Sys2Proof Sys2Proof.Machine

/-- Settles O42: a failed attempt by the two lemmas on `failAttempt`, the speed fault by the rows of Table 10-5. -/
theorem fanTimers : Obligations.FanTimers := by
  unfold Obligations.FanTimers
  refine ⟨fun s n hseq htime => ?kickEnd, fun s n k hseq htime hslow hk hretries => ?retry,
    fun s n hseq htime hslow hretries hnone => ?blocked, fun s n hseq hleft => ?pauseEnd,
    fun s n hseq hlow htime hnone => ⟨fun hother => ?tachFault, fun hsupply hlimited => ?stalled,
      fun hsupply hlimited hnoTach => ?tachLost⟩⟩
  case kickEnd => exact congrArg Host.Outcome.next (if_pos ⟨hseq, htime⟩)
  case retry =>
    subst hk
    exact execFanStartTimeout_retry hseq htime hslow hretries
  case blocked =>
    refine ⟨_, execFanStartTimeout_blocked hseq htime hslow hretries, ?_, rfl⟩
    rw [State.detect_of_none (s := s.modWork (·.setFan n.val (s.work.fan n.val))) 0x01 hnone, Plant.unit_modUnit,
      if_pos rfl]
  case pauseEnd => exact congrArg Host.Outcome.next (if_pos ⟨hseq, hleft⟩)
  case tachFault =>
    exact (execFanSpeedFaultTimer_tachFault hseq hlow htime hother).trans
      (congrArg Host.Outcome.next (State.detect_of_none 0x02 hnone))
  case stalled =>
    exact (execFanSpeedFaultTimer_stalled hseq hlow htime hsupply hlimited).trans
      (congrArg Host.Outcome.next (State.detect_of_none 0x03 hnone))
  case tachLost => exact execFanSpeedFaultTimer_tachLost hseq hlow htime hsupply hlimited hnoTach

end

section
/-! # Messages of the link: the frames that one brings, and what it leaves (R345, R348) -/

namespace Sys2Proof.Machine

/-! ## The commands of the link, by whether the logic domain runs -/

section
variable {s t : State} {c : Instr} (f : State → State) (hc : exec c s = s.onLink f)
include hc

theorem exec_link (h : s.logicRuns = true) (hf : f s = t) : exec c s = .next t :=
  hc.trans ((State.onLink_runs h).trans (congrArg Host.Outcome.next hf))

theorem exec_link_none (hf : f s = s) : exec c s = .next s := hc.trans (State.onLink_none hf)

theorem exec_link_stopped (h : s.logicRuns = false) : exec c s = .next s :=
  hc.trans (congrArg Host.Outcome.next (if_neg (by simp [h])))

end

/-! ## Fragments and frames -/

/-- A body that one frame holds is one fragment. -/
theorem fragments_short {body : List Byte} (h : body.length ≤ 1468) : fragments body = [(body, 0)] := by
  cases body with
  | nil => rfl
  | cons b t => simp [fragments, chunks, List.take_of_length_le h, List.drop_of_length_le h]

/-- The frame of fragment `e` of a message: its port, its type, its node, and the fragment. -/
def Frame.Carries (port type node : Nat) (e : List Byte × Nat) (f : Frame) : Prop :=
  f.port = port ∧ f.type = type ∧ f.node = node ∧ f.body = e.1 ∧ f.index = e.2

/-! ## What a message leaves -/

/-- The state beside what a message changes: the peers' counters, the number of the message, and the frames. -/
def State.besideSending (s : State) : State := { s with link := { s.link with peers := [], msg := 0, sent := [] } }

theorem State.besideSending_setPeer (s : State) (n : Nat) (p : Peer) :
    (s.setPeer n p).besideSending = s.besideSending := rfl

theorem link_of_sending {s t : State} (h : t.besideSending = s.besideSending) :
    { t.link with peers := [], msg := 0, sent := [] } = { s.link with peers := [], msg := 0, sent := [] } :=
  congrArg State.link h

theorem besideLink_of_sending {s t : State} (h : t.besideSending = s.besideSending) : t.besideLink = s.besideLink :=
  show t.besideSending.besideLink = s.besideSending.besideLink from congrArg State.besideLink h

/-- A peer beside the counter of its frames. -/
def Peer.besideCounter (p : Peer) : Peer := { p with txCounter := 0 }

section
variable (s : State) (port type node : Nat) (up : Bool) (peer : Option Nat)

theorem State.besideSending_sendFragment (count : Nat) (e : List Byte × Nat) :
    (State.sendFragment port type node up peer count s e).besideSending = s.besideSending := by
  cases peer with
  | none => rfl
  | some n => exact (State.besideSending_setPeer ..).trans rfl

theorem State.peers_sendFragment_open (count : Nat) (e : List Byte × Nat) :
    (State.sendFragment port type node up none count s e).link.peers = s.link.peers := rfl

theorem State.peer_sendFragment_ne {n k : Nat} (h : k ≠ n) (count : Nat) (e : List Byte × Nat) :
    (State.sendFragment port type node up (some n) count s e).peer k = s.peer k :=
  (State.peer_setPeer _ _ _ _).trans (if_neg h.symm)

theorem State.besideCounter_sendFragment (k count : Nat) (e : List Byte × Nat) :
    ((State.sendFragment port type node up peer count s e).peer k).besideCounter = (s.peer k).besideCounter := by
  cases peer with
  | none => rfl
  | some n =>
    by_cases h : k = n
    · unfold State.sendFragment
      dsimp only
      rw [State.peer_setPeer, if_pos h.symm, ← h]
      rfl
    · rw [State.peer_sendFragment_ne s port type node up h]

theorem State.sent_sendFragment_carries (count : Nat) (e : List Byte × Nat) :
    ∃ f : Frame, f.Carries port type node e ∧
      (State.sendFragment port type node up peer count s e).link.sent = s.link.sent ++ [f] := by
  cases peer <;> exact ⟨_, ⟨rfl, rfl, rfl, rfl, rfl⟩, rfl⟩

variable (body : List Byte)

/-- A message changes nothing beside counters, numbers and frames. -/
theorem State.besideSending_sendMsg :
    (s.sendMsg port type node up peer body).besideSending = s.besideSending :=
  foldl_keeps State.besideSending (fun s e => s.besideSending_sendFragment port type node up peer _ e) _ _

/-- A message that no keys protect moves no counter. -/
theorem State.peers_sendMsg_open : (s.sendMsg port type node up none body).link.peers = s.link.peers :=
  foldl_keeps (fun s : State => s.link.peers) (fun s e => s.peers_sendFragment_open port type node up _ e) _ _

theorem State.peer_sendMsg_ne {n k : Nat} (h : k ≠ n) :
    (s.sendMsg port type node up (some n) body).peer k = s.peer k :=
  foldl_keeps (State.peer · k) (fun s e => s.peer_sendFragment_ne port type node up h _ e) _ _

theorem State.besideCounter_sendMsg (k : Nat) :
    ((s.sendMsg port type node up peer body).peer k).besideCounter = (s.peer k).besideCounter :=
  foldl_keeps (fun s : State => (s.peer k).besideCounter)
    (fun s e => s.besideCounter_sendFragment port type node up peer k _ e) _ _

/-- Every fragment of a message leaves in a frame. -/
theorem State.sent_sendMsg : ∀ e ∈ fragments body,
    ∃ f ∈ (s.sendMsg port type node up peer body).link.sent, f.Carries port type node e := by
  refine foldl_brings (P := fun e (s : State) => ∃ f ∈ s.link.sent, Frame.Carries port type node e f)
    (f := State.sendFragment port type node up peer (fragments body).length) (fun s e => ?_) (fun s a e he => ?_) _ s
  · obtain ⟨f, hf, hsent⟩ := s.sent_sendFragment_carries port type node up peer (fragments body).length e
    exact ⟨f, by rw [hsent]; simp, hf⟩
  · obtain ⟨g, -, hsent⟩ := s.sent_sendFragment_carries port type node up peer (fragments body).length a
    exact he.imp fun f hf => ⟨by rw [hsent]; exact List.mem_append_left _ hf.1, hf.2⟩

theorem State.sent_sendMsg_any :
    ∃ f ∈ (s.sendMsg port type node up peer body).link.sent, f.type = type ∧ f.port = port := by
  obtain ⟨e, he⟩ := List.exists_mem_of_ne_nil _ (fragments_ne_nil body)
  obtain ⟨f, hf, hport, htype, -⟩ := s.sent_sendMsg port type node up peer body e he
  exact ⟨f, hf, htype, hport⟩

/-- A message that one frame holds leaves in that frame. -/
theorem State.sent_sendMsg_short (h : body.length ≤ 1468) :
    ∃ f ∈ (s.sendMsg port type node up peer body).link.sent, f.Carries port type node (body, 0) :=
  s.sent_sendMsg port type node up peer body _ (by rw [fragments_short h]; exact List.mem_singleton_self _)

end

/-! ## A message of a queen to a node, or of a forager to its queen -/

section
variable (s : State) (n type : Nat) (body : List Byte)

theorem State.besideSending_sendPeer : (s.sendPeer n type body).besideSending = s.besideSending := by
  unfold State.sendPeer
  exact State.besideSending_sendMsg ..

theorem State.besideLink_sendPeer : (s.sendPeer n type body).besideLink = s.besideLink :=
  besideLink_of_sending (s.besideSending_sendPeer n type body)

theorem State.peer_sendPeer_ne {n k : Nat} (h : k ≠ n) : (s.sendPeer n type body).peer k = s.peer k := by
  unfold State.sendPeer
  exact State.peer_sendMsg_ne _ _ _ _ _ _ h

theorem State.besideCounter_sendPeer (k : Nat) :
    ((s.sendPeer n type body).peer k).besideCounter = (s.peer k).besideCounter := by
  unfold State.sendPeer
  exact State.besideCounter_sendMsg ..

theorem State.sent_sendPeer_old {n type : Nat} {f : Frame} (h : f ∈ s.link.sent) :
    f ∈ (s.sendPeer n type body).link.sent := by
  unfold State.sendPeer
  exact State.sent_sendMsg_old _ _ _ _ _ _ _ h

theorem State.sent_sendPeer_new : ∃ f ∈ (s.sendPeer n type body).link.sent, f.type = type := by
  unfold State.sendPeer
  exact (State.sent_sendMsg_new ..).imp fun _ hf => ⟨hf.1, hf.2.1⟩

theorem State.sent_sendPeer_short (h : body.length ≤ 1468) : ∃ f ∈ (s.sendPeer n type body).link.sent,
    f.Carries (s.peer n).port type (if n = 0 then s.link.nodeId else n) (body, 0) := by
  have hnode : (if (n == 0) = true then s.link.nodeId else n) = if n = 0 then s.link.nodeId else n := by simp
  rw [← hnode]
  unfold State.sendPeer
  exact State.sent_sendMsg_short _ _ _ _ _ _ _ h

end

end Sys2Proof.Machine
end

section
/-! # The link's own commands (R356 to R358, R364) -/

namespace Sys2Proof.Machine

/-- NODE_FORWARD whose checks hold goes on to its node. -/
theorem State.hostCommand_forwards {s : State} {p : Packet} {r : OpInfo} {e n : Nat} {packet : List Byte}
    (h : Runs s p 0x0902 r e) (hc : s.forwardCheck p.data = .ok (n, packet)) (body : Body) (after : State → State) :
    s.hostCommand p 0x0902 body after = (s.accept p).sendOn n p 0x0902#16 (s.tagKey p) packet := by
  have hcode : r.code = 0x0902 := opInfo_code h.row
  have htag : s.tagFails p 0x0902#16 = false := by
    have := h.tag
    rwa [hcode] at this
  have hbuffer : ¬ 3 ≤ s.host.line.length := Nat.not_le.mpr h.buffer
  unfold State.hostCommand State.admitPacket
  simp only [h.listens, h.alive, Bool.not_true, Bool.false_eq_true, if_false, hbuffer, h.length, h.row, h.fresh]
  unfold State.handle
  simp only [htag, h.form, hcode, hc, if_true, if_false, Bool.false_eq_true]

/-- Whether a session's authorisation counts at a node: as the byte of COMMAND that says so (R356). -/
theorem State.sendOn_trusted {s : State} {p : Packet} {n : Nat} :
    (if ((s.keyOf p).isSome && (s.peer n).oemHash == s.oemHash) = true then (1 : Byte) else 0) =
      if (s.keyOf p).isSome = true ∧ (s.peer n).oemHash = s.oemHash then 1 else 0 := by
  simp only [Bool.and_eq_true, beq_iff_eq]

end Sys2Proof.Machine
end

section
open Sys2Proof Sys2Proof.Machine

/-- Settles O27: LINK_STATUS is a read, and NODE_FORWARD is the one command that `State.handle` sends on whole. -/
theorem linkCommands : Obligations.LinkCommands := by
  unfold Obligations.LinkCommands
  refine ⟨fun s p r e h hl => ?status, fun s p r e n packet h hc => ?forward, fun s n p opcode key packet => ?sendOn⟩
  case status => exact congrArg _ (State.hostCommand_ok h (by decide) (empty_run hl) rfl)
  case forward => exact congrArg _ (State.hostCommand_forwards h hc _ _)
  case sendOn =>
    unfold State.sendOn
    dsimp only
    rw [State.sendOn_trusted]
    rfl

end

section
/-! # Ports, relays and discarded frames; subscriptions and cells across the line

R341, R344, R349, R353, R354, R361. -/

namespace Sys2Proof.Machine

/-! ## Ports -/

theorem State.port_modPort {s : State} {i : Nat} (f : Port → Port) (h : i < s.link.ports.length) (j : Nat) :
    (s.modPort i f).port j = if j = i then f (s.port i) else s.port j := by
  simp only [State.port, State.modPort, State.modLink, List.getD_eq_getElem?_getD, List.getElem?_set]
  by_cases hij : i = j
  · subst hij; simp [h]
  · simp [hij, Ne.symm hij]

/-- The ports of a module that has two. -/
theorem State.ports_eq {s : State} (h : s.link.ports.length = 2) : s.link.ports = [s.port 0, s.port 1] := by
  obtain ⟨x, y, hxy⟩ := List.length_eq_two.mp h
  simp [State.port, hxy]

theorem other_port_ne (i : Fin 2) : 1 - i.val ≠ i.val := by omega

/-- A port whose PHY reports link up, with the signal quality that it reads. -/
def Port.linkUp (a : Amplitude) (low : Bool) (p : Port) : Port :=
  { p with up := true, amplitude := match a with | .v1_0 => 1 | .v2_4 => 2, sqiLow := low }

/-- A port whose PHY is down: the neighbour beyond it is unknown. -/
def Port.linkDown (p : Port) : Port := { p with up := false, amplitude := 0, neighbour := false }

section
variable {s : State} {i : Nat}

theorem State.portUp_inactive (h : s.portActive i = false) (a : Amplitude) : s.portUp i a = s :=
  if_pos (by simp [h])

/-- The PHY of an active port reports link up: the port shows it, with a free signal quality, and LINK says so. -/
theorem State.portUp_active (h : s.portActive i = true) (a : Amplitude) : s.portUp i a =
    (s.drawFree.2.modPort i (Port.linkUp a (s.drawFree.1 % 2 == 1))).raiseLink (portSlot i) s.link.nodeId 6 :=
  if_neg (by simp [h])

theorem State.port_portUp (h : s.portActive i = true) (hi : i < s.link.ports.length) (a : Amplitude) (j : Nat) :
    (s.portUp i a).port j = if j = i then (s.port i).linkUp a (s.drawFree.1 % 2 == 1) else s.port j := by
  rw [State.portUp_active h]
  exact State.port_modPort (s := s.drawFree.2) (Port.linkUp a (s.drawFree.1 % 2 == 1)) hi j

/-- A port that has come up, whatever signal quality it reads. -/
theorem Port.eq_linkUp {p q : Port} {a : Amplitude} {low : Bool} (h : q = p.linkUp a low) :
    q = p.linkUp a q.sqiLow := by
  rw [h]
  rfl

/-- What is left of a peer whose port goes down: an attempt ends at once, any other peer is to be lost (R361). -/
def Peer.cutOff (p : Peer) : Peer :=
  if 2 ≤ p.state then { p with lostDue := true } else { serial := p.serial, wasLost := p.wasLost }

/-- The peers when those reached through port `i` are cut off. -/
def State.peersWithout (s : State) (i : Nat) : Tab Peer :=
  (s.link.peers.filter (fun e => e.2.port == i)).foldl (fun l e => Tab.put {} l e.1 e.2.cutOff) s.link.peers

theorem State.foldl_cutOff (l : List (Nat × Peer)) : ∀ s : State, l.foldl (fun s e =>
      if 2 ≤ e.2.state then s.setPeer e.1 { e.2 with lostDue := true }
      else s.setPeer e.1 { serial := e.2.serial, wasLost := e.2.wasLost }) s =
    s.modLink (fun x => { x with peers := l.foldl (fun l e => Tab.put {} l e.1 e.2.cutOff) x.peers }) := by
  induction l with
  | nil => exact fun s => rfl
  | cons e t ih =>
    intro s
    have hstep : (if 2 ≤ e.2.state then s.setPeer e.1 { e.2 with lostDue := true }
        else s.setPeer e.1 { serial := e.2.serial, wasLost := e.2.wasLost }) = s.setPeer e.1 e.2.cutOff := by
      unfold Peer.cutOff
      split <;> rfl
    rw [List.foldl_cons, hstep]
    exact ih _

theorem State.portDown_down (h : (s.port i).up = false) : s.portDown i = s := if_pos (by simp [h])

/-- The PHY of a port that was up goes down: the port shows it, its peers are cut off, and LINK says so. -/
theorem State.portDown_up (h : (s.port i).up = true) : s.portDown i =
    ((s.modPort i Port.linkDown).modLink (fun l => { l with peers := s.peersWithout i })).raiseLink (portSlot i)
      s.link.nodeId 7 := by
  unfold State.portDown
  simp only [h, Bool.not_true, Bool.false_eq_true, if_false, State.foldl_cutOff]
  rfl

theorem State.port_portDown (h : (s.port i).up = true) (hi : i < s.link.ports.length) (j : Nat) :
    (s.portDown i).port j = if j = i then (s.port i).linkDown else s.port j := by
  rw [State.portDown_up h]
  exact State.port_modPort Port.linkDown hi j

end

/-! ## Relays -/

/-- Both ports have relayed a frame. -/
def State.relayed (s : State) : State :=
  [0, 1].foldl (fun s i => s.modPort i (fun p => { p with relayAt := some s.tick })) s

/-- A frame passes through both ports, whichever it comes in at. -/
theorem State.relay_eq (s : State) (i : Fin 2) : s.relay i.val =
    if (s.portActive 0 && s.portActive 1 && (s.port 0).up && (s.port 1).up) = true then s.relayed else s := by
  match i with
  | 0 => rfl
  | 1 =>
    have hcomm : (s.portActive 1 && s.portActive 0 && (s.port 1).up && (s.port 0).up) =
        (s.portActive 0 && s.portActive 1 && (s.port 0).up && (s.port 1).up) := by ac_rfl
    rw [← hcomm]
    rfl

theorem State.relayed_eq {s : State} (h : s.link.ports.length = 2) : s.relayed = { s with link := { s.link with
    ports := [{ s.port 0 with relayAt := some s.tick }, { s.port 1 with relayAt := some s.tick }] } } := by
  have hports := State.ports_eq h
  unfold State.relayed State.modPort State.modLink
  simp only [List.foldl_cons, List.foldl_nil]
  rw [hports]
  rfl

/-! ## Cells across the line -/

/-- `k` more counted by a counter of 32 bits. -/
def sat32Add (x k : Nat) : Nat := if k = 0 then x else sat32 (x + k)

theorem sat32Add_succ (x k : Nat) : sat32Add (sat32 (x + 1)) k = sat32Add x (k + 1) := by
  rw [sat32Add, sat32Add, if_neg (Nat.succ_ne_zero k)]
  unfold sat32
  split <;> omega

/-- The link when the entries `waiting` wait for their boundaries and `late` others have come too late (R354). -/
def Link.takeEntries (l : Link) (waiting : List RemoteEntry) (late : Nat) : Link :=
  { l with remote := l.remote ++ waiting, lateUpdates := sat32Add l.lateUpdates late }

theorem Link.takeEntries_none (l : Link) : l.takeEntries [] 0 = l := by
  simp [Link.takeEntries, sat32Add]

theorem Link.takeEntries_late (l : Link) (w : List RemoteEntry) (k : Nat) :
    ({ l with lateUpdates := sat32 (l.lateUpdates + 1) } : Link).takeEntries w k = l.takeEntries w (k + 1) := by
  simp only [Link.takeEntries, sat32Add_succ]

theorem Link.takeEntries_waits (l : Link) (r : RemoteEntry) (w : List RemoteEntry) (k : Nat) :
    ({ l with remote := l.remote ++ [r] } : Link).takeEntries w k = l.takeEntries (r :: w) k := by
  simp only [Link.takeEntries, List.append_assoc, List.singleton_append]

/-- The boundary that an entry of CELLS waits for. -/
def State.entryDue (s : State) (e : CellEntry) : Nat := e.stamp + s.cfg P.XISTA_LATENCY 0

/-- An entry of CELLS from node `n` arrives: it waits, or is counted as late. -/
def State.takeEntry (n : Nat) (s : State) (e : CellEntry) : State :=
  if s.entryDue e ≤ s.tick then s.modLink (fun l => { l with lateUpdates := sat32 (l.lateUpdates + 1) })
  else s.modLink (fun l => { l with remote := l.remote ++ [⟨8192 * n + e.index, s.entryDue e, e⟩] })

/-- The entries of a message: those still to come wait in their order, the others are counted. -/
theorem State.foldl_takeEntry (n : Nat) (es : List CellEntry) : ∀ s : State, es.foldl (State.takeEntry n) s =
    { s with
      link := s.link.takeEntries
        ((es.filter (fun e => decide (s.tick < s.entryDue e))).map (fun e => ⟨8192 * n + e.index, s.entryDue e, e⟩))
        (es.filter (fun e => decide (s.entryDue e ≤ s.tick))).length } := by
  induction es with
  | nil => exact fun s => congrArg (fun l => { s with link := l }) s.link.takeEntries_none.symm
  | cons e t ih =>
    intro s
    rw [List.foldl_cons, ih]
    unfold State.takeEntry
    by_cases hlate : s.entryDue e ≤ s.tick
    · rw [if_pos hlate, List.filter_cons_of_neg (by simpa using hlate), List.filter_cons_of_pos (by simpa using hlate),
        List.length_cons, ← Link.takeEntries_late]
      rfl
    · rw [if_neg hlate, List.filter_cons_of_pos (by simpa using hlate), List.filter_cons_of_neg (by simpa using hlate),
        List.map_cons, ← Link.takeEntries_waits]
      rfl

theorem State.onCells_ignored {s : State} {n : Nat} (h : s.queen = false ∨ n = 0 ∨ (s.peer n).state < 2)
    (es : List CellEntry) : s.onCells n es = s :=
  if_pos (by rcases h with h | h | h <;> simp [h])

theorem State.onCells_taken {s : State} {n : Nat} (hq : s.queen = true) (hn : n ≠ 0) (hp : 2 ≤ (s.peer n).state)
    (es : List CellEntry) : s.onCells n es = es.foldl (State.takeEntry n) (s.heard n) :=
  if_neg (by simp [hq, hn, Nat.not_lt.mpr hp])

theorem sat32Add_length {α : Type} [DecidableEq α] (x : Nat) (l : List α) :
    sat32Add x l.length = if l = [] then x else sat32 (x + l.length) := by
  cases l <;> rfl

end Sys2Proof.Machine
end

section
open Sys2Proof Sys2Proof.Machine

/-- Settles O54: each row by its guard, and the entries of CELLS by `State.foldl_takeEntry`. -/
theorem portsAndCells : Obligations.PortsAndCells := by
  unfold Obligations.PortsAndCells
  refine ⟨⟨fun s i a hruns hact hlen => ?up, fun s i a h => ?noUp, fun s i hruns hup hlen => ?down,
    fun s i h => ?noDown, fun s i reason hruns hact => ?discard, fun s i hruns h0 h1 hup0 hup1 hlen => ?relay,
    fun s i h => ?noRelay⟩,
    fun s e l hruns hp => ?subscribe, fun s e l hp => ?noSubscribe, fun s n es hruns hq hn hp => ?cells,
    fun s n es h => ?noCells⟩
  case up =>
    have hi : i.val < s.link.ports.length := by omega
    refine ⟨s.portUp i.val a, exec_link (State.portUp · i.val a) rfl hruns rfl,
      Port.eq_linkUp ((State.port_portUp hact hi a _).trans (if_pos rfl)),
      (State.port_portUp hact hi a _).trans (if_neg (other_port_ne i)), ?_⟩
    rw [State.portUp_active hact]
    exact ⟨rfl, rfl⟩
  case noUp =>
    rcases h with h | h
    · exact exec_link_stopped (State.portUp · i.val a) rfl h
    · exact exec_link_none (State.portUp · i.val a) rfl (State.portUp_inactive h a)
  case down =>
    have hi : i.val < s.link.ports.length := by omega
    refine ⟨s.portDown i.val, exec_link (State.portDown · i.val) rfl hruns rfl,
      (State.port_portDown hup hi _).trans (if_pos rfl),
      (State.port_portDown hup hi _).trans (if_neg (other_port_ne i)), ?_⟩
    rw [State.portDown_up hup]
    exact ⟨rfl, rfl, rfl⟩
  case noDown =>
    rcases h with h | h
    · exact exec_link_stopped (State.portDown · i.val) rfl h
    · exact exec_link_none (State.portDown · i.val) rfl (State.portDown_down h)
  case discard =>
    refine exec_link (fun s => if s.portActive i.val then s.modLink (Link.discard · reason) else s) rfl hruns
      ((if_pos hact).trans ?_)
    cases reason <;> rfl
  case relay =>
    have hopen : s.relay i.val = s.relayed := (s.relay_eq i).trans (if_pos (by simp [h0, h1, hup0, hup1]))
    exact exec_link (State.relay · i.val) rfl hruns (hopen.trans (State.relayed_eq hlen))
  case noRelay =>
    refine exec_link_none (State.relay · i.val) rfl ((s.relay_eq i).trans (if_neg ?_))
    rcases h with h | h | h | h <;> simp [h]
  case subscribe => exact exec_link (State.onSubscribe · e _) rfl hruns (if_neg (Nat.not_lt.mpr hp))
  case noSubscribe => exact exec_link_none (State.onSubscribe · e _) rfl (if_pos hp)
  case cells =>
    refine exec_link (State.onCells · n.val es) rfl hruns ((State.onCells_taken hq hn hp es).trans ?_)
    rw [State.foldl_takeEntry, Link.takeEntries, sat32Add_length]
    rfl
  case noCells => exact exec_link_none (State.onCells · n.val es) rfl (State.onCells_ignored h es)

end

section
/-! # Admission of a forager (R346 to R348, R351, R364) -/

namespace Sys2Proof.Machine

@[simp] theorem length_be (k n : Nat) : (be k n).length = k := by simp [be]

/-- A table of peers with one entry put. -/
theorem peer_of_put {s t : State} {n : Nat} {p : Peer} (h : t.link.peers = Tab.put {} s.link.peers n p) :
    t.peer n = p ∧ ∀ k, k ≠ n → t.peer k = s.peer k := by
  refine ⟨?_, fun k hk => ?_⟩ <;> rw [State.peer, h, Tab.get_put]
  · exact if_pos rfl
  · exact if_neg hk.symm

theorem peer_of_peers {s t : State} (h : t.link.peers = s.link.peers) (k : Nat) : t.peer k = s.peer k := by
  rw [State.peer, h]; rfl

/-- The state when `k` free values have been drawn. -/
def State.drawn (s : State) (k : Nat) : State := { s with draws := s.draws + k }

section
variable (s : State)

theorem State.drawFree_snd : s.drawFree.2 = s.drawn 1 := rfl
theorem State.drawBytes_snd (n : Nat) : (s.drawBytes n).2 = s.drawn 1 := rfl
theorem State.drawn_drawn (a b : Nat) : (s.drawn a).drawn b = s.drawn (a + b) :=
  congrArg (fun d => { s with draws := d }) (Nat.add_assoc ..)
theorem State.tick_drawn (k : Nat) : (s.drawn k).tick = s.tick := rfl

end

/-! ## HELLO sent (R346) -/

/-- A frame can leave through port `i`. -/
def State.portOpen (s : State) (i : Nat) : Bool := s.portActive i && (s.port i).up

theorem portOpen_of_sending {s t : State} (h : t.besideSending = s.besideSending) (i : Nat) :
    t.portOpen i = s.portOpen i :=
  show t.besideSending.portOpen i = s.besideSending.portOpen i from congrArg (State.portOpen · i) h

/-- HELLO on one port, if it is open. -/
def State.helloOn (body : List Byte) (s : State) (i : Nat) : State :=
  if s.portOpen i then s.sendMsg i 0x01 0 true none body else s

section
variable (s : State) (body : List Byte) (i : Nat)

theorem State.besideSending_helloOn : (s.helloOn body i).besideSending = s.besideSending := by
  unfold State.helloOn
  split
  · exact State.besideSending_sendMsg ..
  · rfl

theorem State.peers_helloOn : (s.helloOn body i).link.peers = s.link.peers := by
  unfold State.helloOn
  split
  · exact State.peers_sendMsg_open ..
  · rfl

theorem State.sent_helloOn_old {s : State} {f : Frame} (h : f ∈ s.link.sent) : f ∈ (s.helloOn body i).link.sent := by
  unfold State.helloOn
  split
  · exact State.sent_sendMsg_old _ _ _ _ _ _ _ h
  · exact h

theorem State.sent_helloOn {s : State} (h : s.portOpen i = true) : ∀ e ∈ fragments body,
    ∃ f ∈ (s.helloOn body i).link.sent, f.Carries i 0x01 0 e := by
  rw [State.helloOn, if_pos h]
  exact s.sent_sendMsg i 0x01 0 true none body

end

/-- The state with a fresh key and nonce, and the HELLO that shows them. -/
def State.drawHello (s : State) : State :=
  let key := freeScalar (Config.draw s.draws)
  let nonce := be 16 (Config.draw (s.draws + 1))
  { s with
    draws := s.draws + 2
    link := { s.link with
      ephKey := key
      nonceF := nonce
      helloBody := helloBytes s.id.serial nonce (ecPublic key) (s.cfg P.LINK_ROLE 0) s.oemHash s.ownCerts } }

/-- That HELLO on every port that is open. -/
def State.helloAll (s : State) : State := [0, 1].foldl (State.helloOn s.drawHello.link.helloBody) s.drawHello

theorem State.sendHello_barred {s : State}
    (h : s.link.joined = true ∨ (s.peer 0).state ≠ 0 ∨ (s.hk.crystalFail = true ∧ s.queen = false)) :
    s.sendHello = s :=
  if_pos (by rcases h with h | h | ⟨h, hq⟩ <;> simp [*])

theorem State.sendHello_free {s : State} (hj : s.link.joined = false) (hp : (s.peer 0).state = 0)
    (hc : s.hk.crystalFail = false ∨ s.queen = true) : s.sendHello = s.helloAll :=
  if_neg (by rcases hc with h | h <;> simp [*])

theorem State.besideSending_helloAll (s : State) : s.helloAll.besideSending = s.drawHello.besideSending :=
  foldl_keeps State.besideSending (fun s i => s.besideSending_helloOn _ i) _ _

theorem State.peers_helloAll (s : State) : s.helloAll.link.peers = s.link.peers :=
  foldl_keeps (fun s : State => s.link.peers) (fun s i => s.peers_helloOn _ i) _ s.drawHello

/-- HELLO leaves whole through every port that is open. -/
theorem State.sent_helloAll {s : State} (i : Fin 2) (h : s.portOpen i.val = true) :
    ∀ e ∈ fragments s.drawHello.link.helloBody, ∃ f ∈ s.helloAll.link.sent, f.Carries i.val 0x01 0 e := by
  have hopen : s.helloAll.portOpen i.val = true :=
    (portOpen_of_sending s.besideSending_helloAll i.val).trans h
  refine foldl_brings (P := fun i (s' : State) => s'.portOpen i = true → ∀ e ∈ fragments s.drawHello.link.helloBody,
    ∃ f ∈ s'.link.sent, f.Carries i 0x01 0 e) (fun s' a ha => ?_) (fun s' a b hb hopen => ?_) [0, 1] s.drawHello i.val
    (by simp; omega) hopen
  · exact State.sent_helloOn _ a (by rwa [portOpen_of_sending (s'.besideSending_helloOn _ a)] at ha)
  · rw [portOpen_of_sending (s'.besideSending_helloOn _ a)] at hopen
    exact fun e he => (hb hopen e he).imp fun f hf => ⟨State.sent_helloOn_old _ a hf.1, hf.2⟩

theorem State.helloAll_closed {s : State} (h : ∀ i : Fin 2, s.portOpen i.val = false) :
    s.helloAll = s.drawHello := by
  have h0 : s.drawHello.portOpen 0 = false := h 0
  have h1 : s.drawHello.portOpen 1 = false := h 1
  simp [State.helloAll, State.helloOn, h0, h1]

/-! ## What changes the link alone -/

section
variable (s : State)

@[simp] theorem State.besideLink_setPeer (n : Nat) (p : Peer) : (s.setPeer n p).besideLink = s.besideLink := rfl
@[simp] theorem State.besideLink_modPort (i : Nat) (f : Port → Port) : (s.modPort i f).besideLink = s.besideLink := rfl
@[simp] theorem State.besideLink_learn (port : Nat) : (s.learn port).besideLink = s.besideLink := rfl
@[simp] theorem State.besideLink_drawn (k : Nat) : (s.drawn k).besideLink = s.besideLink.drawn k := rfl

end

/-- A message without keys leaves the peers and the module's own place on the link. -/
theorem State.sendMsg_open (s : State) (port type node : Nat) (up : Bool) (body : List Byte) :
    let t := s.sendMsg port type node up none body
    (∀ k, t.peer k = s.peer k) ∧ t.link.nodeId = s.link.nodeId ∧ t.besideLink = s.besideLink ∧
      ∃ f ∈ t.link.sent, f.type = type ∧ f.port = port :=
  ⟨peer_of_peers (s.peers_sendMsg_open port type node up body),
    (congrArg Link.nodeId (link_of_sending (s.besideSending_sendMsg port type node up none body)) :),
    s.besideLink_sendMsg port type node up none body, s.sent_sendMsg_any port type node up none body⟩

theorem eq_of_linkHost {s t : State} (h : t = { s with link := t.link, host := t.host }) :
    t = { s with link := t.link, host := t.host, draws := t.draws } := by
  have hdraws : t.draws = s.draws := (congrArg State.draws h :)
  rw [hdraws]
  exact h

theorem eq_of_linkDraws {s t : State} {d : Nat} (h : t = { s with link := t.link, draws := d }) :
    t = { s with link := t.link, host := t.host, draws := t.draws } := by
  have hdraws : t.draws = d := (congrArg State.draws h :)
  have hhost : t.host = s.host := (congrArg State.host h :)
  rw [hdraws, hhost]
  exact h

/-! ## REFUSE sent (R347, R364) -/

/-- A port on which the queen has refused a node, and the LINK event that says so. -/
def State.markRefused (s : State) (port event node : Nat) : State :=
  (s.modPort port (fun p => { p with refused := true })).raiseLink (portSlot port) node event

theorem State.markRefused_frame (s : State) (port event node : Nat) :
    (s.markRefused port event node).link.peers = s.link.peers ∧
      (s.markRefused port event node).link.sent = s.link.sent ∧
      (s.markRefused port event node).host = (s.raise causeLink (portSlot port) node event).host ∧
      s.markRefused port event node =
        { s with link := (s.markRefused port event node).link, host := (s.markRefused port event node).host } :=
  ⟨rfl, rfl, rfl, rfl⟩

section
variable (s : State) (port : Nat) (serial : List Byte) (reason event node : Nat)

theorem State.refuseHello_eq : s.refuseHello port serial reason event node =
    (s.sendMsg port 0x05 0 false none (serial ++ [BitVec.ofNat 8 reason, 0, 0, 0])).markRefused port event node := rfl

theorem State.peers_refuseHello : (s.refuseHello port serial reason event node).link.peers = s.link.peers := by
  rw [State.refuseHello_eq, (State.markRefused_frame _ _ _ _).1]
  exact State.peers_sendMsg_open ..

/-- A refusal changes the link and raises LINK. -/
theorem State.refuseHello_frame :
    (s.refuseHello port serial reason event node).host = (s.raise causeLink (portSlot port) node event).host ∧
      s.refuseHello port serial reason event node = { s with
        link := (s.refuseHello port serial reason event node).link
        host := (s.refuseHello port serial reason event node).host } := by
  rw [State.refuseHello_eq]
  have hsend := eq_of_besideLink
    (s.besideLink_sendMsg port 0x05 0 false none (serial ++ [BitVec.ofNat 8 reason, 0, 0, 0]))
  generalize s.sendMsg port 0x05 0 false none _ = u at hsend
  rw [hsend]
  exact ⟨rfl, rfl⟩

/-- A refusal tells the sender its serial number and the reason. -/
theorem State.sent_refuseHello (h : serial.length = 16) : ∃ f ∈ (s.refuseHello port serial reason event node).link.sent,
    f.Carries port 0x05 0 (serial ++ [BitVec.ofNat 8 reason, 0, 0, 0], 0) := by
  rw [State.refuseHello_eq, (State.markRefused_frame _ _ _ _).2.1]
  exact s.sent_sendMsg_short port 0x05 0 false none _ (by simp [h])

end

/-- A node is refused in the state that its place is to show. -/
theorem State.refuse_setPeer (s : State) (p : Peer) (port : Nat) (serial : List Byte) (reason event n : Nat) :
    let t := (s.setPeer n p).refuseHello port serial reason event n
    t.peer n = p ∧ (∀ k, k ≠ n → t.peer k = s.peer k) ∧ t.host = (s.raise causeLink (portSlot port) n event).host ∧
      t = { s with link := t.link, host := t.host } := by
  obtain ⟨hown, hother⟩ := peer_of_put (s := s) ((s.setPeer n p).peers_refuseHello port serial reason event n)
  obtain ⟨hhost, hframe⟩ := (s.setPeer n p).refuseHello_frame port serial reason event n
  exact ⟨hown, hother, hhost, hframe⟩

/-! ## The neighbour on a port learned (R341) -/

section
variable (s : State) (port : Nat)

@[simp] theorem State.queen_learn : (s.learn port).queen = s.queen := rfl
@[simp] theorem State.peer_learn (n : Nat) : (s.learn port).peer n = s.peer n := rfl
@[simp] theorem State.nodeOfSerial_learn (b : List Byte) : (s.learn port).nodeOfSerial b = s.nodeOfSerial b := rfl
@[simp] theorem State.chainKey_learn (b : List Byte) : (s.learn port).chainKey b = s.chainKey b := rfl
@[simp] theorem State.siteOk_learn (b : List Byte) : (s.learn port).siteOk b = s.siteOk b := rfl
@[simp] theorem State.id_learn : (s.learn port).id = s.id := rfl
@[simp] theorem State.tick_learn : (s.learn port).tick = s.tick := rfl
@[simp] theorem State.joined_learn : (s.learn port).link.joined = s.link.joined := rfl
@[simp] theorem State.peers_learn : (s.learn port).link.peers = s.link.peers := rfl

end

/-! ## HELLO at the queen (R347) -/

section
variable {s : State} {m : HelloMsg} (port : Nat)

/-- HELLO of another queen, or of a serial number that LINK_NODES does not list. -/
theorem State.onHello_stranger (hq : s.queen = true) (h : m.role = 1 ∨ s.nodeOfSerial m.serial = none) :
    ∃ (l : Link) (reason : Nat), l.peers = s.link.peers ∧ s.onHello port m =
      ({ s with link := l } : State).refuseHello port m.serial reason (if m.role = 1 then 5 else 3) 0 := by
  by_cases hr : m.role = 1
  · exact ⟨((s.learn port).modPort port (fun p => { p with conflict := true })).link, 4, rfl,
      by simp [State.onHello, hq, hr]; rfl⟩
  · have hnode : s.nodeOfSerial m.serial = none := h.resolve_left hr
    exact ⟨(s.learn port).link, 1, rfl, by simp [State.onHello, hq, hr, hnode]; rfl⟩

variable {n : Nat} (hq : s.queen = true) (hr : m.role ≠ 1) (hn : s.nodeOfSerial m.serial = some n)
include hq hr hn

theorem State.onHello_joined (hp : (s.peer n).state = 3) : s.onHello port m = s.learn port := by
  simp [State.onHello, hq, hr, hn, hp]

variable (hp : (s.peer n).state ≠ 3)
include hp

/-- HELLO of a node whose certificates fail. -/
theorem State.onHello_refused (h : s.chainKey m.certs = none ∨ s.siteOk m.certs = false) :
    ∃ p : Peer, p.state = 4 ∧ p.serial = m.serial ∧ p.port = port ∧
      s.onHello port m = ((s.learn port).setPeer n p).refuseHello port m.serial 2 4 n := by
  refine ⟨{ state := 4, port := port, hops := m.hops, serial := m.serial, wasLost := (s.peer n).wasLost },
    rfl, rfl, rfl, ?_⟩
  cases hkey : s.chainKey m.certs with
  | none => simp [State.onHello, hq, hr, hn, hp, hkey]
  | some pub =>
    have hsite : s.siteOk m.certs = false := h.resolve_left (by simp [hkey])
    simp [State.onHello, hq, hr, hn, hp, hkey, hsite]

/-- HELLO of a node whose certificates hold: CHALLENGE goes back, and the node's PROOF is waited for. -/
theorem State.onHello_challenged {pub : List Byte} (hkey : s.chainKey m.certs = some pub)
    (hsite : s.siteOk m.certs = true) : ∃ (p : Peer) (body : List Byte), p.state = 1 ∧ p.pub = pub ∧
      p.serial = m.serial ∧ p.port = port ∧ p.challengeAt = s.tick ∧ s.onHello port m =
        (((s.learn port).drawn 3).setPeer n p).sendMsg port 0x02 0 false none body := by
  simp only [State.onHello, State.queen_learn, State.nodeOfSerial_learn, State.peer_learn, State.chainKey_learn,
    State.siteOk_learn, State.drawFree_snd, State.drawBytes_snd, State.drawn_drawn, State.tick_drawn, State.tick_learn,
    hq, hr, hn, hp, hkey, hsite, Bool.not_true, Bool.false_eq_true, if_false]
  exact ⟨_, _, rfl, rfl, rfl, rfl, rfl, rfl⟩

end

/-! ## CHALLENGE at a forager (R346, R347) -/

/-- The checks of a CHALLENGE: the queen's certificates and signature, and LINK_QUEEN. -/
def State.challengeOk (s : State) (m : ChallengeMsg) : Bool :=
  (match s.chainKey m.certs with
    | some pub => ecdsaVerify pub (sha256 (s.link.helloBody ++
        challengeBytes m.target m.node m.nonce m.key m.oemHash m.certs)) m.signature
    | none => false) && s.siteOk m.certs &&
    ((s.cfgBlock P.LINK_QUEEN 0).all (· == 0) || s.cfgBlock P.LINK_QUEEN 0 == m.serial)

/-- A forager that waits for ADMIT as node `node`, from the queen `p` beyond `port`. -/
def State.awaitAdmit (s : State) (port node : Nat) (p : Peer) : State :=
  ((((s.learn port).drawn 1).setPeer 0 p).modLink (fun l => { l with nodeId := node })).modPort port
    (fun q => { q with upstream := true, refused := false })

theorem State.peer_awaitAdmit (s : State) (port node : Nat) (p : Peer) : (s.awaitAdmit port node p).peer 0 = p :=
  (peer_of_put (s := s) rfl).1

theorem State.besideLink_awaitAdmit (s : State) (port node : Nat) (p : Peer) :
    (s.awaitAdmit port node p).besideLink = (s.drawn 1).besideLink := by
  simp [State.awaitAdmit, State.besideLink_modLink]

section
variable {s : State} {m : ChallengeMsg} (port : Nat) (ht : m.target = s.id.serial)
include ht

theorem State.onChallenge_unawaited (h : s.queen = true ∨ s.link.joined = true ∨ (s.peer 0).state ≠ 0) :
    s.onChallenge port m = s.learn port := by
  rcases h with h | h | h <;> simp [State.onChallenge, ht, h]

variable (hq : s.queen = false) (hj : s.link.joined = false) (hp : (s.peer 0).state = 0)
include hq hj hp

theorem State.onChallenge_failed (hok : s.challengeOk m = false) : s.onChallenge port m = s.learn port := by
  have hok' : (s.learn port).challengeOk m = false := hok
  unfold State.challengeOk at hok'
  unfold State.onChallenge
  simp only [State.id_learn, ht, State.queen_learn, State.joined_learn, State.peer_learn, hq, hj, hp, ne_eq,
    not_true_eq_false, if_false, bne_self_eq_false, Bool.or_self, Bool.false_eq_true]
  exact if_pos (congrArg not (ht ▸ hok'))

/-- A CHALLENGE whose checks hold: PROOF goes back, and ADMIT is waited for. -/
theorem State.onChallenge_passed (hok : s.challengeOk m = true) : ∃ (p : Peer) (body : List Byte),
    p.state = 1 ∧ p.serial = m.serial ∧ p.challengeAt = s.tick ∧
      s.onChallenge port m = (s.awaitAdmit port m.node p).sendMsg port 0x03 0 true none body := by
  have hok' : (s.learn port).challengeOk m = true := hok
  unfold State.challengeOk at hok'
  unfold State.onChallenge
  simp only [State.id_learn, ht, State.queen_learn, State.joined_learn, State.peer_learn, State.drawFree_snd,
    State.tick_drawn, State.tick_learn, hq, hj, hp, ne_eq, not_true_eq_false, if_false, bne_self_eq_false, Bool.or_self,
    Bool.false_eq_true]
  exact ⟨_, _, rfl, rfl, rfl, if_neg (Bool.eq_false_iff.mp (congrArg not (ht ▸ hok')))⟩

end

/-! ## PROOF at the queen (R347, R348) -/

/-- Two messages to a peer: both leave, and its counter alone is another. -/
theorem State.sendTwice (s : State) (n type₁ type₂ : Nat) (a b : List Byte) :
    let t := (s.sendPeer n type₁ a).sendPeer n type₂ b
    (t.peer n).besideCounter = (s.peer n).besideCounter ∧ (∀ k, k ≠ n → t.peer k = s.peer k) ∧
      t.besideLink = s.besideLink ∧ (∃ f ∈ t.link.sent, f.type = type₁) ∧ ∃ f ∈ t.link.sent, f.type = type₂ := by
  refine ⟨?_, fun k hk => ?_, ?_, ?_, State.sent_sendPeer_new ..⟩
  · rw [State.besideCounter_sendPeer, State.besideCounter_sendPeer]
  · rw [State.peer_sendPeer_ne _ _ _ hk, State.peer_sendPeer_ne _ _ _ hk]
  · rw [State.besideLink_sendPeer, State.besideLink_sendPeer]
  · exact (s.sent_sendPeer_new n type₁ a).imp fun _ hf => ⟨State.sent_sendPeer_old _ _ hf.1, hf.2⟩

/-- The queen when the PROOF of node `n`, which is to be `p`, has verified. -/
def State.admitted (s : State) (port n : Nat) (p : Peer) : State :=
  (((s.learn port).setPeer n p).modPort port (fun q => { q with refused := false })).drawn 1

theorem State.peer_admitted (s : State) (port n : Nat) (p : Peer) :
    (s.admitted port n p).peer n = p ∧ ∀ k, k ≠ n → (s.admitted port n p).peer k = s.peer k :=
  peer_of_put rfl

theorem State.besideLink_admitted (s : State) (port n : Nat) (p : Peer) :
    (s.admitted port n p).besideLink = (s.drawn 1).besideLink := by
  simp [State.admitted]

section
variable {s : State} {m : ProofMsg} {n : Nat} {p : Peer} (port : Nat) (hq : s.queen = true)
  (hfind : s.link.peers.find? (fun e => e.2.state == 1 && e.2.serial == m.serial) = some (n, p))
include hq hfind

theorem State.onProof_failed (h : ecdsaVerify p.pub p.proofHash m.signature = false) :
    s.onProof port m = ((s.learn port).setPeer n { p with state := 4 }).refuseHello port m.serial 3 4 n := by
  simp only [State.onProof, State.queen_learn, State.peers_learn, hq, hfind, h, Bool.not_true, Bool.false_eq_true,
    if_false]

/-- A PROOF that verifies: the node is admitted, and the cells of the configuration are subscribed to. -/
theorem State.onProof_verified (h : ecdsaVerify p.pub p.proofHash m.signature = true) : ∃ a b : List Byte,
    s.onProof port m =
      ((s.admitted port n { p with state := 2, lastRx := s.tick }).sendPeer n 0x04 a).sendPeer n 0x21 b := by
  simp only [State.onProof, State.queen_learn, State.peers_learn, State.drawFree_snd, State.tick_learn, hq, hfind, h,
    Bool.not_true, Bool.false_eq_true, if_false, if_true]
  unfold State.sendSubscribe State.admitted
  exact ⟨_, _, rfl⟩

end

/-! ## The end of an attempt (R347, R351) -/

theorem State.proofExpired_waits {s : State} {n : Nat}
    (h : (s.peer n).state ≠ 1 ∨ s.tick ≤ (s.peer n).challengeAt + 512) : s.proofExpired n = s :=
  if_neg (by omega)

theorem State.proofExpired_node {s : State} {n : Nat} (hn : n ≠ 0) (hp : (s.peer n).state = 1)
    (ht : (s.peer n).challengeAt + 512 < s.tick) : s.proofExpired n =
      (s.setPeer n { s.peer n with state := 4 }).refuseHello (s.peer n).port (s.peer n).serial 5 4 n :=
  (if_pos ⟨hp, ht⟩).trans (if_neg hn)

theorem State.proofExpired_own {s : State} (hp : (s.peer 0).state = 1) (ht : (s.peer 0).challengeAt + 512 < s.tick) :
    s.proofExpired 0 = s.dropAttempt :=
  (if_pos ⟨hp, ht⟩).trans (if_pos rfl)

@[simp] theorem State.besideLink_dropAttempt (s : State) : s.dropAttempt.besideLink = s.besideLink := by
  simp [State.dropAttempt, State.besideLink_modLink]

/-- A forager without an attempt is no node, and knows no common tick. -/
theorem State.dropAttempt_frame (s : State) :
    (s.dropAttempt.peer 0 = {} ∧ ∀ k, k ≠ 0 → s.dropAttempt.peer k = s.peer k) ∧
    s.dropAttempt.link.nodeId = 0 ∧ s.dropAttempt.link.offset = 0 :=
  ⟨peer_of_put rfl, rfl, rfl⟩

section
variable {s : State} {target : List Byte} (port : Nat) (ht : target = s.id.serial)
include ht

theorem State.onRefuse_joined (hj : s.link.joined = true) : s.onRefuse port target = s.learn port := by
  simp [State.onRefuse, ht, hj]

theorem State.onRefuse_waiting (hj : s.link.joined = false) : s.onRefuse port target =
    (s.learn port).dropAttempt.modPort port (fun p => { p with refused := true }) := by
  simp [State.onRefuse, ht, hj]

/-- A forager that is refused is where an attempt that is over leaves it. -/
theorem State.onRefuse_frame (hj : s.link.joined = false) :
    let t := s.onRefuse port target
    (t.peer 0 = {} ∧ ∀ k, k ≠ 0 → t.peer k = s.peer k) ∧ t.link.nodeId = 0 ∧ t.link.offset = 0 ∧
      t.besideLink = s.besideLink := by
  obtain ⟨⟨hown, hother⟩, hnode, hoff⟩ := (s.learn port).dropAttempt_frame
  rw [State.onRefuse_waiting port ht hj]
  refine ⟨⟨hown, hother⟩, hnode, hoff, ?_⟩
  rw [State.besideLink_modPort, State.besideLink_dropAttempt, State.besideLink_learn]

end

end Sys2Proof.Machine
end

section
open Sys2Proof Sys2Proof.Machine

/-- Settles O55: each message by what its checks find, and every frame by `State.sent_sendMsg`. -/
theorem admission : Obligations.Admission := by
  unfold Obligations.Admission
  refine ⟨fun s hruns hj hp hc => ?hello, fun s h => exec_link_none State.sendHello rfl (State.sendHello_barred h),
    fun s i m n hruns hq hr hn hp => ?known, fun s i m hruns hq h => ?stranger,
    fun s i m n hruns hq hr hn hp => ?joined,
    fun s i m hruns ht hq hj hp => ⟨fun hok => ?passes, fun hok => ?fails⟩, fun s i m hruns ht h => ?unawaited,
    fun s i m n p hruns hq hfind => ⟨fun hv => ?admits, fun hv => ?refuses⟩, fun s n hruns hn hp ht => ?expired,
    fun s hruns hp ht => ?given, fun s n h => ?noExpiry, fun s i tick fine hruns hp => ?admitted,
    fun s i tick fine hp => ?unadmitted, fun s i reason hruns hj => ?refused, fun s i reason hruns hj => ?ignored⟩
  case hello =>
    have hbeside := s.besideSending_helloAll
    have hnonce := (congrArg Link.nonceF (link_of_sending hbeside) :)
    have hkey := (congrArg Link.ephKey (link_of_sending hbeside) :)
    have hbody := (congrArg Link.helloBody (link_of_sending hbeside) :)
    dsimp only at hnonce hkey hbody
    refine ⟨s.helloAll, exec_link State.sendHello rfl hruns (State.sendHello_free hj hp hc), ?_, ?_,
      fun i hact hup e he => ?_, fun hclosed => ?_, s.peers_helloAll, eq_of_besideLink (besideLink_of_sending hbeside)⟩
    · rw [hnonce]
      exact length_be 16 _
    · rw [hbody, hnonce, hkey]
      rfl
    · rw [hbody] at he
      obtain ⟨f, hf, hport, htype, -, hfrag, hindex⟩ :=
        State.sent_helloAll i (by rw [State.portOpen, hact, hup]; rfl) e he
      exact ⟨f, hf, htype, hport, hfrag, hindex⟩
    · rw [State.helloAll_closed fun i => by simpa [State.portOpen, ← Bool.not_eq_true, imp_iff_not_or] using hclosed i]
      rfl
  case known =>
    by_cases hcert : s.chainKey m.certs = none ∨ s.siteOk m.certs = false
    · obtain ⟨p, hst, hser, hport, heq⟩ := State.onHello_refused i.val hq hr hn hp hcert
      obtain ⟨hown, hother, hhost, hframe⟩ := (s.learn i.val).refuse_setPeer p i.val m.serial 2 4 n
      have hsent (hl : m.serial.length = 16) :=
        ((s.learn i.val).setPeer n p).sent_refuseHello i.val m.serial 2 4 n hl
      rw [← heq] at hown hother hhost hframe hsent
      refine ⟨_, exec_link (State.onHello · i.val m) rfl hruns rfl, hown ▸ hser, hown ▸ hport, hother,
        eq_of_linkHost hframe, fun pub hkey hsite => ?_, fun _ => ⟨hown ▸ hst, hhost, fun hl => ?_⟩⟩
      · rcases hcert with h | h
        · cases h.symm.trans hkey
        · cases h.symm.trans hsite
      · obtain ⟨f, hf, hport, htype, -, hbody, -⟩ := hsent hl
        exact ⟨f, hf, htype, hport, hbody⟩
    · obtain ⟨hkey, hsite⟩ := not_or.mp hcert
      obtain ⟨pub, hkey⟩ := Option.ne_none_iff_exists'.mp hkey
      obtain ⟨p, body, hst, hpub, hser, hport, hat, heq⟩ :=
        State.onHello_challenged i.val hq hr hn hp hkey (Bool.eq_true_of_not_eq_false hsite)
      obtain ⟨hpeer, -, hbeside, hsent⟩ := (((s.learn i.val).drawn 3).setPeer n p).sendMsg_open i.val 0x02 0 false body
      rw [← heq] at hpeer hbeside hsent
      have hown : (s.onHello i.val m).peer n = p := (hpeer n).trans ((State.peer_setPeer _ n n p).trans (if_pos rfl))
      have hframe := eq_of_besideLink (s := s.drawn 3) (hbeside.trans (by simp))
      refine ⟨_, exec_link (State.onHello · i.val m) rfl hruns rfl, hown ▸ hser, hown ▸ hport,
        fun k hk => (hpeer k).trans ((State.peer_setPeer _ n k p).trans (if_neg hk.symm)), eq_of_linkDraws hframe,
        fun pub' hkey' _ => ⟨hown ▸ hst, ?_, hown ▸ hat, (congrArg State.host hframe :), hsent⟩,
        fun h => absurd h hcert⟩
      cases hkey.symm.trans hkey'
      exact hown ▸ hpub
  case stranger =>
    obtain ⟨l, reason, hpeers, heq⟩ := State.onHello_stranger i.val hq h
    obtain ⟨hhost, hframe⟩ :=
      ({ s with link := l } : State).refuseHello_frame i.val m.serial reason (if m.role = 1 then 5 else 3) 0
    have hkept := ({ s with link := l } : State).peers_refuseHello i.val m.serial reason (if m.role = 1 then 5 else 3) 0
    rw [← heq] at hhost hframe hkept
    exact ⟨_, exec_link (State.onHello · i.val m) rfl hruns rfl, hkept.trans hpeers, hhost, hframe⟩
  case joined => exact exec_link (State.onHello · i.val m) rfl hruns (State.onHello_joined i.val hq hr hn hp)
  case passes =>
    obtain ⟨p, body, hst, hser, hat, heq⟩ := State.onChallenge_passed i.val ht hq hj hp hok
    obtain ⟨hpeer, hnode, hbeside, hsent⟩ := (s.awaitAdmit i.val m.node p).sendMsg_open i.val 0x03 0 true body
    rw [← heq] at hpeer hnode hbeside hsent
    have hown : (s.onChallenge i.val m).peer 0 = p := (hpeer 0).trans (s.peer_awaitAdmit ..)
    exact ⟨_, exec_link (State.onChallenge · i.val m) rfl hruns rfl, hown ▸ hst, hown ▸ hser, hown ▸ hat, hnode, hsent,
      eq_of_besideLink (s := s.drawn 1) (hbeside.trans (s.besideLink_awaitAdmit ..))⟩
  case fails => exact exec_link (State.onChallenge · i.val m) rfl hruns (State.onChallenge_failed i.val ht hq hj hp hok)
  case unawaited => exact exec_link (State.onChallenge · i.val m) rfl hruns (State.onChallenge_unawaited i.val ht h)
  case admits =>
    obtain ⟨a, b, heq⟩ := State.onProof_verified i.val hq hfind hv
    obtain ⟨hown, hother⟩ := s.peer_admitted i.val n { p with state := 2, lastRx := s.tick }
    obtain ⟨hcounter, hkept, hbeside, h04, h21⟩ :=
      (s.admitted i.val n { p with state := 2, lastRx := s.tick }).sendTwice n 0x04 0x21 a b
    rw [← heq] at hcounter hkept hbeside h04 h21
    rw [hown] at hcounter
    exact ⟨_, exec_link (State.onProof · i.val m) rfl hruns rfl, (congrArg Peer.state hcounter :),
      (congrArg Peer.serial hcounter :), (congrArg Peer.lastRx hcounter :), h04, h21,
      fun k hk => (hkept k hk).trans (hother k hk),
      eq_of_besideLink (s := s.drawn 1) (hbeside.trans (s.besideLink_admitted ..))⟩
  case refuses =>
    have heq := State.onProof_failed i.val hq hfind hv
    obtain ⟨hown, -, hhost, hframe⟩ := (s.learn i.val).refuse_setPeer { p with state := 4 } i.val m.serial 3 4 n
    rw [← heq] at hown hhost hframe
    exact ⟨_, exec_link (State.onProof · i.val m) rfl hruns rfl, hown, hhost, hframe⟩
  case expired =>
    obtain ⟨hown, -, hhost, hframe⟩ := s.refuse_setPeer { s.peer n.val with state := 4 } (s.peer n.val).port
      (s.peer n.val).serial 5 4 n.val
    exact ⟨_, exec_link (State.proofExpired · n.val) rfl hruns (State.proofExpired_node hn hp ht), hown, hhost, hframe⟩
  case given =>
    obtain ⟨⟨hown, -⟩, hnode, hoff⟩ := s.dropAttempt_frame
    exact ⟨_, exec_link (State.proofExpired · 0) rfl hruns (State.proofExpired_own hp ht), hown, hnode, hoff,
      eq_of_besideLink s.besideLink_dropAttempt⟩
  case noExpiry => exact exec_link_none (State.proofExpired · n.val) rfl (State.proofExpired_waits h)
  case admitted => exact exec_link (State.onAdmit · tick) rfl hruns (if_pos hp)
  case unadmitted => exact exec_link_none (State.onAdmit · tick) rfl (if_neg hp)
  case refused =>
    obtain ⟨⟨hown, hother⟩, hnode, hoff, hbeside⟩ := State.onRefuse_frame i.val (target := s.id.serial) rfl hj
    exact ⟨_, exec_link (State.onRefuse · i.val s.id.serial) rfl hruns rfl, hown, hnode, hoff, hother,
      eq_of_besideLink hbeside⟩
  case ignored => exact exec_link (State.onRefuse · i.val s.id.serial) rfl hruns (State.onRefuse_joined i.val rfl hj)
end

section
/-! # Alignment: exchanges, the lengthened tick, and the STATUS that reports a change (R350 to R352, R360, R361) -/

namespace Sys2Proof.Machine

/-! ## STATUS of a forager that has reached ALIGNED or lost it -/

section
variable {s was : State}

theorem State.reportAlign_same (h : (s.peer 0).align = 4 ↔ (was.peer 0).align = 4) : s.reportAlign was = s := by
  unfold State.reportAlign
  by_cases hs : (s.peer 0).align = 4
  · simp [hs, h.mp hs]
  · simp [hs, mt h.mpr hs]

/-- A forager whose alignment is as it was sends nothing; any other sends STATUS. -/
theorem State.reportAlign_cases (s was : State) : 
    s.reportAlign was = s ∨ ∃ b, s.reportAlign was = s.sendPeer 0 0x40 b := by
  unfold State.reportAlign State.sendStatus
  split
  · exact .inr ⟨_, rfl⟩
  · exact .inl rfl

theorem State.besideSending_reportAlign (s was : State) : (s.reportAlign was).besideSending = s.besideSending := by
  rcases s.reportAlign_cases was with h | ⟨b, h⟩ <;> rw [h]
  exact State.besideSending_sendPeer ..

theorem State.besideCounter_reportAlign (s was : State) (n : Nat) :
    ((s.reportAlign was).peer n).besideCounter = (s.peer n).besideCounter := by
  rcases s.reportAlign_cases was with h | ⟨b, h⟩ <;> rw [h]
  exact State.besideCounter_sendPeer ..

theorem State.sent_reportAlign_old {f : Frame} (h : f ∈ s.link.sent) : f ∈ (s.reportAlign was).link.sent := by
  rcases s.reportAlign_cases was with hs | ⟨b, hs⟩ <;> rw [hs]
  · exact h
  · exact State.sent_sendPeer_old _ _ h

theorem State.sent_reportAlign (h : ¬((s.peer 0).align = 4 ↔ (was.peer 0).align = 4)) :
    ∃ f ∈ (s.reportAlign was).link.sent, f.type = 0x40 := by
  have hchanged : (((s.peer 0).align == 4) != ((was.peer 0).align == 4)) = true := by
    rw [bne_iff_ne, ne_eq, Bool.eq_iff_iff, beq_iff_eq, beq_iff_eq]
    exact h
  unfold State.reportAlign State.sendStatus
  rw [if_pos hchanged]
  exact State.sent_sendPeer_new ..

end

/-- A peer with which alignment is lost: it leaves the line at the next boundary (R361). -/
def Peer.unaligned (p : Peer) : Peer := { p with lostDue := true, align := 0 }

/-- A peer that is ALIGNED and joins at boundary `b` (R351, R360). -/
def Peer.joining (b : Nat) (p : Peer) : Peer := { p with align := 4, joinAt := some b }

/-- A forager whose queen changes by `f` where `c` holds. -/
def State.turnAt (s : State) (c : Prop) [Decidable c] (f : Peer → Peer) : State :=
  if c then s.setPeer 0 (f (s.peer 0)) else s

/-- Where `c` holds, the alignment turns and STATUS reports it; elsewhere nothing happens. -/
theorem State.turnAt_reported {s u : State} {c : Prop} [Decidable c] {f : Peer → Peer}
    (hsame : (u.peer 0).align = (s.peer 0).align)
    (hturn : c → ((f (u.peer 0)).align = 4 ↔ ¬(s.peer 0).align = 4)) :
    let t := (u.turnAt c f).reportAlign s
    t.besideSending = u.besideSending ∧ (∀ f ∈ u.link.sent, f ∈ t.link.sent) ∧
      (c → (t.peer 0).besideCounter = (f (u.peer 0)).besideCounter ∧ ∃ f ∈ t.link.sent, f.type = 0x40) ∧
      (¬c → t = u) := by
  by_cases hc : c
  · have hpeer : (u.setPeer 0 (f (u.peer 0))).peer 0 = f (u.peer 0) := (State.peer_setPeer _ _ _ _).trans (if_pos rfl)
    have hcounter := (u.setPeer 0 (f (u.peer 0))).besideCounter_reportAlign s 0
    rw [hpeer] at hcounter
    rw [State.turnAt, if_pos hc]
    exact ⟨State.besideSending_reportAlign .., fun g hg => State.sent_reportAlign_old hg,
      fun _ => ⟨hcounter, State.sent_reportAlign (by rw [hpeer, hturn hc]; tauto)⟩, absurd hc⟩
  · rw [State.turnAt, if_neg hc, State.reportAlign_same (by rw [hsame])]
    exact ⟨rfl, fun g hg => hg, fun h => absurd h hc, fun _ => rfl⟩

/-! ## SYNC_REQ (R350) -/

/-- An exchange begun; one that was still open has failed. -/
def State.openSync (s : State) : State :=
  s.modLink (fun l => { l with
    syncSent := some ((s.commonTick : Int) * 32000 + 16000)
    failSync := if s.link.syncSent.isSome then l.failSync + 1 else l.failSync
    goodSync := if s.link.syncSent.isSome then 0 else l.goodSync
    badSync := if s.link.syncSent.isSome then 0 else l.badSync })

/-- Its SYNC_REQ on the way. -/
def State.askSync (s : State) : State := s.openSync.sendPeer 0 0x10 (le 2 16000 ++ le 6 s.commonTick)

section
variable {s : State}

theorem State.sendSync_waits (h : (s.peer 0).state < 2 ∨ s.commonTick % 64 ≠ 8 * s.link.nodeId ∨ s.link.thisLong ≠ 0) :
    s.sendSync = s := if_pos h

theorem State.failSync_askSync (s : State) : s.askSync.link.failSync =
    if s.link.syncSent.isSome then s.link.failSync + 1 else s.link.failSync := by
  have hsending := s.openSync.besideSending_sendPeer 0 0x10 (le 2 16000 ++ le 6 s.commonTick)
  exact (congrArg Link.failSync (link_of_sending hsending) :)

/-- What the request leaves: the exchange is open, and SYNC_REQ with its stamp is on its way. -/
theorem State.askSync_frame (s : State) : s.askSync.besideSending = s.openSync.besideSending ∧
    (s.askSync.peer 0).besideCounter = (s.peer 0).besideCounter ∧
    ∃ f ∈ s.askSync.link.sent, f.type = 0x10 ∧ f.body = le 2 16000 ++ le 6 s.commonTick := by
  obtain ⟨f, hf, -, htype, -, hbody, -⟩ := s.openSync.sent_sendPeer_short 0 0x10 (le 2 16000 ++ le 6 s.commonTick)
    (by simp)
  exact ⟨State.besideSending_sendPeer .., State.besideCounter_sendPeer .., f, hf, htype, hbody⟩

/-- In its tick a forager asks, and loses alignment with the exchange that is its 16th in a row to fail. -/
theorem State.sendSync_due (hp : 2 ≤ (s.peer 0).state) (hc : s.commonTick % 64 = 8 * s.link.nodeId)
    (hl : s.link.thisLong = 0) : s.sendSync =
      s.askSync.turnAt (16 ≤ s.askSync.link.failSync ∧ (s.peer 0).align = 4) Peer.unaligned :=
  if_neg (by omega)

end

/-! ## SYNC_RESP of the queen (R350) -/

section
variable {s : State} {n : Nat} (arrival reply : Nat)

/-- What SYNC_RESP says: when SYNC_REQ came, and when its answer leaves, in the next tick if the fine count is lower. -/
def State.syncStamps (s : State) : List Byte :=
  le 2 arrival ++ le 6 s.tick ++ le 2 reply ++ le 6 (if reply < arrival then s.tick + 1 else s.tick)

theorem State.onSyncReq_ignored (h : s.queen = false ∨ n = 0 ∨ (s.peer n).state < 2) :
    s.onSyncReq n arrival reply = s :=
  if_pos (by rcases h with h | h | h <;> simp [h])

theorem State.onSyncReq_answered (hq : s.queen = true) (hn : n ≠ 0) (hp : 2 ≤ (s.peer n).state) :
    s.onSyncReq n arrival reply = (s.heard n).sendPeer n 0x11 (s.syncStamps arrival reply) :=
  if_neg (by simp [hq, hn, Nat.not_lt.mpr hp])

end

/-! ## SYNC_RESP (R351) -/

/-- A good exchange: θ is noted, and no exchange is under way. -/
def State.closeSync (s : State) (theta : Int) : State :=
  (s.setPeer 0 { s.peer 0 with theta := theta, lastRx := s.tick }).modLink (fun l => { l with
    syncSent := none, failSync := 0 })

theorem State.peer_closeSync (s : State) (theta : Int) :
    (s.closeSync theta).peer 0 = { s.peer 0 with theta := theta, lastRx := s.tick } :=
  (State.peer_setPeer _ _ _ _).trans (if_pos rfl)

/-- The first exchange: O is corrected by whole ticks, and a longer tick asked for. -/
def State.alignCoarse (s : State) (theta : Int) : State :=
  (s.setPeer 0 { s.peer 0 with align := 2 }).modLink (fun l => { l with
    offset := l.offset + (stepAlign theta).1, lengthen := some (stepAlign theta).2 })

/-- `good` exchanges in a row are good, none is bad. -/
def State.countGood (s : State) (good : Nat) : State := s.modLink (fun l => { l with goodSync := good, badSync := 0 })

/-- `bad` exchanges in a row are bad. -/
def State.countBad (s : State) (bad : Nat) : State := s.modLink (fun l => { l with badSync := bad })

/-- What a good exchange brings in each stage of the alignment. -/
def State.alignBy (s : State) (theta : Int) : Nat → State
  | 1 => s.alignCoarse theta
  | 3 =>
    let good := if theta.natAbs ≤ 33 then s.link.goodSync + 1 else 0
    (s.countGood good).turnAt (16 ≤ good) (Peer.joining (s.tick + s.cfg P.XISTA_LATENCY 0))
  | 4 =>
    let bad := if 65 < theta.natAbs then s.link.badSync + 1 else 0
    (s.countBad bad).turnAt (4 ≤ bad) Peer.unaligned
  | _ => s

theorem State.onSyncResp_idle {s : State} (h : s.link.syncSent = none) (q1 q2 s2 : Int) :
    s.onSyncResp q1 q2 s2 = s := by
  simp only [State.onSyncResp, h]

theorem State.onSyncResp_open {s : State} {s1 : Int} (h : s.link.syncSent = some s1) (q1 q2 s2 : Int) :
    s.onSyncResp q1 q2 s2 =
      (s.closeSync (syncTheta q1 q2 s1 s2)).alignBy (syncTheta q1 q2 s1 s2) (s.peer 0).align := by
  unfold State.onSyncResp
  rw [h]
  rfl

section
variable (s : State) (theta : Int)

theorem State.peer_alignCoarse : (s.alignCoarse theta).peer 0 = { s.peer 0 with align := 2 } :=
  (State.peer_setPeer _ _ _ _).trans (if_pos rfl)

theorem State.besideLink_closeSync : (s.closeSync theta).besideLink = s.besideLink := by
  rw [State.closeSync, State.besideLink_modLink, State.besideLink_setPeer]

end

/-- The link of a forager after the first exchange. -/
theorem State.link_coarse (s : State) (theta : Int) : ((s.closeSync theta).alignCoarse theta).link = { s.link with
    peers := ((s.setPeer 0 { s.peer 0 with theta := theta, lastRx := s.tick }).setPeer 0
      { s.peer 0 with theta := theta, lastRx := s.tick, align := 2 }).link.peers
    syncSent := none
    failSync := 0
    offset := s.link.offset + (stepAlign theta).1
    lengthen := some (stepAlign theta).2 } := by
  rw [State.alignCoarse, State.peer_closeSync]
  rfl

theorem State.besideLink_coarse (s : State) (theta : Int) :
    ((s.closeSync theta).alignCoarse theta).besideLink = s.besideLink := by
  rw [State.alignCoarse, State.besideLink_modLink, State.besideLink_setPeer, State.besideLink_closeSync]

/-! ## The step of the first exchange (R351) -/

theorem rneInt_near (theta : Int) :
    -16000 ≤ theta - 32000 * rneInt theta 32000 ∧ theta - 32000 * rneInt theta 32000 ≤ 16000 := by
  unfold rneInt rneDiv
  dsimp only
  split <;> split <;> [skip; split; skip; split] <;> omega

/-- The corrections of O and of the tick leave less than a crystal cycle. -/
theorem stepAlign_rest (theta : Int) :
    0 ≤ theta - 32000 * (stepAlign theta).1 - 1000 * (stepAlign theta).2 ∧
      theta - 32000 * (stepAlign theta).1 - 1000 * (stepAlign theta).2 < 1000 ∧ (stepAlign theta).2 ≤ 31 := by
  obtain ⟨hlow, hhigh⟩ := rneInt_near theta
  unfold stepAlign
  generalize rneInt theta 32000 = k at hlow hhigh
  dsimp only
  split <;> dsimp only <;> omega

/-! ## The lengthened tick (R352) -/

theorem State.lengthenTick_waits {s : State} (h : s.link.lengthen = none ∨ s.link.syncSent ≠ none) :
    s.lengthenTick = s := by
  unfold State.lengthenTick
  split
  case h_1 c hc =>
    exact if_pos (Option.isSome_iff_ne_none.mpr (h.resolve_left (by rw [hc]; exact Option.some_ne_none c)))
  case h_2 => rfl

theorem State.lengthenTick_due {s : State} {c : Nat} (hl : s.link.lengthen = some c) (hs : s.link.syncSent = none) :
    s.lengthenTick = (s.setPeer 0 { s.peer 0 with align := 3 }).modLink (fun l => { l with
      lengthen := none, thisLong := c }) := by
  simp [State.lengthenTick, hl, hs]

end Sys2Proof.Machine
end

section
open Sys2Proof Sys2Proof.Machine

/-- Settles O56: the stages of the alignment are `State.alignBy`, and `State.reportAlign` sends STATUS when the forager
reaches ALIGNED or loses it. -/
theorem alignment : Obligations.Alignment := by
  unfold Obligations.Alignment
  refine ⟨fun s hruns hp hc hl => ?asks, fun s h => ?noAsk, fun s n a r hruns hq hn hp => ?answers,
    fun s n a r h => exec_link_none (State.onSyncReq · n.val a r) rfl (State.onSyncReq_ignored a r (by tauto)),
    fun s q1 q2 s1 s2 hruns hs ha => ?coarse, fun s q1 q2 s1 s2 hruns hs ha => ?fine,
    fun s q1 q2 s1 s2 hruns hs ha => ?kept, fun s q1 q2 s2 hs => ?noResp, stepAlign_rest,
    fun s c hruns hl hs => ?lengthens,
    fun s h => exec_link_none State.lengthenTick rfl (State.lengthenTick_waits h)⟩
  case asks =>
    intro missed fails
    have hfails : s.askSync.link.failSync = fails := s.failSync_askSync
    obtain ⟨hopen, hcounter, f, hf, htype, hbody⟩ := s.askSync_frame
    have hsame : (s.askSync.peer 0).align = (s.peer 0).align := (congrArg Peer.align hcounter :)
    obtain ⟨hbeside, hold, hturns, hstays⟩ := State.turnAt_reported (s := s) (u := s.askSync)
      (c := 16 ≤ s.askSync.link.failSync ∧ (s.peer 0).align = 4) (f := Peer.unaligned) hsame
      (fun hc => by simp [Peer.unaligned, hc.2])
    rw [← State.sendSync_due hp hc hl, hfails] at hturns hstays
    rw [← State.sendSync_due hp hc hl] at hbeside hold
    have hlink := link_of_sending (hbeside.trans hopen)
    refine ⟨_, exec_link (fun s => s.sendSync.reportAlign s) rfl hruns rfl, (congrArg Link.syncSent hlink :),
      (congrArg Link.failSync hlink :), ⟨f, hold f hf, htype, hbody⟩, fun hkeep => ?_, fun ha hlost => ?_,
      eq_of_besideLink ?_⟩
    · rw [hstays (by omega)]
      exact ⟨hsame, (congrArg Peer.lostDue hcounter :)⟩
    · obtain ⟨hpeer, hstatus⟩ := hturns ⟨hlost, ha⟩
      exact ⟨(congrArg Peer.align hpeer :), (congrArg Peer.lostDue hpeer :), hstatus⟩
    · rw [besideLink_of_sending (hbeside.trans hopen)]
      exact State.besideLink_modLink ..
  case noAsk =>
    refine exec_link_none (fun s => s.sendSync.reportAlign s) rfl ?_
    rw [State.sendSync_waits h]
    exact State.reportAlign_same Iff.rfl
  case answers =>
    have heq := State.onSyncReq_answered a r hq hn hp
    have hcounter := (s.heard n.val).besideCounter_sendPeer n.val 0x11 (s.syncStamps a r) n.val
    have hbeside := (s.heard n.val).besideLink_sendPeer n.val 0x11 (s.syncStamps a r)
    obtain ⟨f, hf, -, htype, hnode, hbody, -⟩ := (s.heard n.val).sent_sendPeer_short n.val 0x11 (s.syncStamps a r)
      (by simp [State.syncStamps])
    rw [← heq] at hcounter hbeside hf
    exact ⟨_, exec_link (State.onSyncReq · n.val a r) rfl hruns rfl,
      (congrArg Peer.lastRx hcounter :).trans (s.lastRx_heard n.val),
      ⟨f, hf, htype, hnode.trans (if_neg hn), hbody⟩, eq_of_besideLink (hbeside.trans (State.besideLink_setPeer ..))⟩
  case coarse =>
    intro th
    have heq : s.onSyncResp q1 q2 s2 = (s.closeSync th).alignCoarse th := by
      rw [State.onSyncResp_open hs, ha]
      rfl
    have hquiet : (s.onSyncResp q1 q2 s2).reportAlign s = s.onSyncResp q1 q2 s2 :=
      State.reportAlign_same (by simp [heq, State.peer_alignCoarse, ha])
    refine exec_link (fun s' => (s'.onSyncResp q1 q2 s2).reportAlign s') rfl hruns (hquiet.trans (heq.trans ?_))
    exact (eq_of_besideLink (s.besideLink_coarse th)).trans
      (congrArg (fun l => { s with link := l }) (s.link_coarse th))
  case fine =>
    intro th good
    have heq : s.onSyncResp q1 q2 s2 = ((s.closeSync th).countGood good).turnAt (16 ≤ good)
        (Peer.joining (s.tick + s.cfg P.XISTA_LATENCY 0)) := by
      rw [State.onSyncResp_open hs, ha]
      rfl
    have hclosed : ((s.closeSync th).countGood good).peer 0 = _ := s.peer_closeSync th
    obtain ⟨hbeside, -, hturns, hstays⟩ := State.turnAt_reported (s := s) (u := (s.closeSync th).countGood good)
      (c := 16 ≤ good) (f := Peer.joining (s.tick + s.cfg P.XISTA_LATENCY 0)) (congrArg Peer.align hclosed :)
      (fun _ => by simp [Peer.joining, ha])
    rw [← heq] at hbeside hturns hstays
    rw [hclosed] at hturns
    refine ⟨_, exec_link (fun s' => (s'.onSyncResp q1 q2 s2).reportAlign s') rfl hruns rfl,
      (congrArg Link.goodSync (link_of_sending hbeside) :), ?_, fun hfew => ?_, fun hmany => ?_, eq_of_besideLink ?_⟩
    · by_cases hgood : 16 ≤ good
      · exact (congrArg Peer.theta (hturns hgood).1 :)
      · rw [hstays hgood, hclosed]
    · rw [hstays (Nat.not_le.mpr hfew), hclosed]
      exact ⟨ha, rfl⟩
    · obtain ⟨hpeer, hstatus⟩ := hturns hmany
      exact ⟨(congrArg Peer.align hpeer :), (congrArg Peer.joinAt hpeer :), hstatus⟩
    · rw [besideLink_of_sending hbeside, State.countGood, State.besideLink_modLink, State.besideLink_closeSync]
  case kept =>
    intro th bad
    have heq : s.onSyncResp q1 q2 s2 = ((s.closeSync th).countBad bad).turnAt (4 ≤ bad) Peer.unaligned := by
      rw [State.onSyncResp_open hs, ha]
      rfl
    have hclosed : ((s.closeSync th).countBad bad).peer 0 = _ := s.peer_closeSync th
    obtain ⟨hbeside, -, hturns, hstays⟩ := State.turnAt_reported (s := s) (u := (s.closeSync th).countBad bad)
      (c := 4 ≤ bad) (f := Peer.unaligned) (congrArg Peer.align hclosed :) (fun _ => by simp [Peer.unaligned, ha])
    rw [← heq] at hbeside hturns hstays
    rw [hclosed] at hturns
    refine ⟨_, exec_link (fun s' => (s'.onSyncResp q1 q2 s2).reportAlign s') rfl hruns rfl,
      (congrArg Link.badSync (link_of_sending hbeside) :), ?_, fun hfew => ?_, fun hmany => ?_, eq_of_besideLink ?_⟩
    · by_cases hbad : 4 ≤ bad
      · exact (congrArg Peer.theta (hturns hbad).1 :)
      · rw [hstays hbad, hclosed]
    · rw [hstays (Nat.not_le.mpr hfew), hclosed]
      exact ⟨ha, rfl⟩
    · obtain ⟨hpeer, hstatus⟩ := hturns hmany
      exact ⟨(congrArg Peer.align hpeer :), (congrArg Peer.lostDue hpeer :), hstatus⟩
    · rw [besideLink_of_sending hbeside, State.countBad, State.besideLink_modLink, State.besideLink_closeSync]
  case noResp =>
    refine exec_link_none (fun s => (s.onSyncResp q1 q2 s2).reportAlign s) rfl ?_
    rw [State.onSyncResp_idle hs]
    exact State.reportAlign_same Iff.rfl
  case lengthens => exact exec_link State.lengthenTick rfl hruns (State.lengthenTick_due hl hs)

end

section
/-! # STATUS, LEAVE and the loss of a silent peer (R360 to R362, R364) -/

namespace Sys2Proof.Machine

/-! ## STATUS and LEAVE -/

/-- A peer as the STATUS `m` of tick `t` shows it (R360). -/
def Peer.withStatus (p : Peer) (m : StatusMsg) (t : Nat) : Peer :=
  let align := Nat.max m.xaStatus.toNat m.xbStatus.toNat / 8192
  { p with
    lastRx := t
    rootWord := m.rootWord
    align := align
    joinAt := if p.state = 2 then m.joinAt.or p.joinAt else p.joinAt
    lostDue := p.lostDue || (p.state == 3 && align != 4) }

section
variable {s : State} {n : Nat} (m : StatusMsg)

theorem State.onStatus_ignored (h : s.queen = false ∨ n = 0 ∨ (s.peer n).state < 2) : s.onStatus n m = s :=
  if_pos (by rcases h with h | h | h <;> simp [h])

/-- STATUS of a peer; one of a joined node that is not ALIGNED is raised as LINK. -/
theorem State.onStatus_heard (hq : s.queen = true) (hn : n ≠ 0) (hp : 2 ≤ (s.peer n).state) : s.onStatus n m =
    if (s.peer n).state = 3 ∧ Nat.max m.xaStatus.toNat m.xbStatus.toNat / 8192 ≠ 4 then
      (s.setPeer n ((s.peer n).withStatus m s.tick)).raiseLink 0xFFFF n 8
    else s.setPeer n ((s.peer n).withStatus m s.tick) := by
  refine (if_neg (by simp [hq, hn, Nat.not_lt.mpr hp])).trans ?_
  unfold Peer.withStatus
  cases m.joinAt <;> rfl

end

/-! ## A peer from which nothing comes (R361) -/

/-- The loss of a peer noted for the boundary. -/
def State.silence (s : State) (n : Nat) : State := s.setPeer n { s.peer n with lostDue := true }

theorem State.peer_silence (s : State) (n : Nat) : (s.silence n).peer n = { s.peer n with lostDue := true } :=
  (s.peer_setPeer n n _).trans (if_pos rfl)

theorem State.lostDue_silence (s : State) (n : Nat) : ((s.silence n).peer n).lostDue = true := by rw [s.peer_silence n]

theorem State.peerSilent_iff {s : State} {n : Nat} : s.peerSilent n = true ↔
    2 ≤ (s.peer n).state ∧ (s.peer n).lastRx + s.cfg P.LINK_LOSS_TICKS 0 < s.tick := by
  simp [State.peerSilent]

/-- A peer that has been silent up to the tick and to its next boundary is lost there. -/
theorem exec_linkLossTimeout {s : State} {n : Fin 8} (hl : s.logicRuns = true) (hc : s.committed = true)
    (hp : 2 ≤ (s.peer n.val).state) (ht : (s.peer n.val).lastRx + s.cfg P.LINK_LOSS_TICKS 0 < s.tick)
    (hw : (s.peer n.val).lastRx + s.cfg P.LINK_LOSS_TICKS 0 < s.workTick + 1) : exec (.linkLossTimeout n) s =
      .next (s.afterBoundary ((s.atNext.silence n.val).loseDue n.val).syncHives) := by
  have hnow : s.peerSilent n.val = true := State.peerSilent_iff.mpr ⟨hp, ht⟩
  have hnext : s.atNext.peerSilent n.val = true := State.peerSilent_iff.mpr ⟨hp, hw⟩
  have hmark : s.atNext.markSilent n.val = s.atNext.silence n.val := if_pos hnext
  have hrun := State.atBoundary_committed (fun _ s => ((s.markSilent n.val).loseDue n.val).syncHives) hl hc
  rw [hmark] at hrun
  exact congrArg Host.Outcome.next ((if_pos (by rw [hl, hnow]; rfl)).trans hrun)

theorem exec_linkLossTimeout_heard {s : State} {n : Fin 8}
    (h : (s.peer n.val).state < 2 ∨ s.tick ≤ (s.peer n.val).lastRx + s.cfg P.LINK_LOSS_TICKS 0) :
    exec (.linkLossTimeout n) s = .next s := by
  have hheard : ¬ s.peerSilent n.val = true := by
    rw [State.peerSilent_iff]
    omega
  exact congrArg Host.Outcome.next (if_neg (by simp [hheard]))

/-! ## What the loss of a node leaves -/

/-- Every cell of the node reads OFFLINE. -/
theorem State.cells_offlineNode {s : State} {n : Nat} : ∀ e ∈ (s.offlineNode n).work.cells, e.1 / 8192 = n →
    e.2.own.quality = 7 := by
  intro e he hn
  have hcells : (s.offlineNode n).work.cells =
      s.work.cells.map (fun e => if e.1 / 8192 = n then (e.1, e.2.offline) else e) := rfl
  obtain ⟨x, -, hx⟩ := List.mem_map.mp (hcells ▸ he)
  split at hx <;> subst hx
  · rfl
  · contradiction

section
variable {s : State} {n : Nat} (hdue : (s.peer n).lostDue = true) (hn : n ≠ 0)
include hdue hn

theorem State.besideUnits_lostNode : ((s.loseDue n).syncHives).besideUnits = (s.loseNode n).besideUnits := by
  rw [State.besideUnits_syncHives, State.loseDue_node hdue hn, State.besideUnits_unreach]

theorem State.peer_lostNode : ((s.loseDue n).syncHives).peer n =
    { serial := (s.peer n).serial, wasLost := (s.peer n).wasLost || (s.peer n).state == 3 } := by
  rw [peer_of_link (link_of_units (State.besideUnits_lostNode hdue hn)), State.peer_loseNode, State.peer_vacate]

/-- The loss of a joined node is counted and raised, and its cells read OFFLINE. -/
theorem State.lostNode_joined (hjoined : (s.peer n).state = 3) : (s.loseDue n).syncHives.hasCause causeLink ∧
    (s.loseDue n).syncHives.link.losses = sat32 (s.link.losses + 1) ∧
    ∀ e ∈ (s.loseDue n).syncHives.work.cells, e.1 / 8192 = n → e.2.own.quality = 7 := by
  have hmark := (State.besideUnits_lostNode hdue hn).trans (State.besideUnits_loseNode_joined hjoined)
  refine ⟨?_, ?_, ?_⟩
  · have hcause : (s.loseNode n).hasCause causeLink := by
      rw [State.loseNode_joined hjoined, State.hasCause, State.host_nodeChanged]
      exact (s.vacate n).hasCause_markLost n
    rw [State.loseDue_node hdue hn]
    exact (hcause.unreach n).syncHives
  · rw [link_of_units hmark, State.losses_markLost, State.losses_vacate]
  · rw [cells_of_units hmark, State.cells_markLost]
    exact State.cells_offlineNode

end

theorem State.peer_loseQueen (s : State) : s.loseQueen.peer 0 = {} := by
  have hpeers : s.loseQueen.link.peers = Tab.put {} s.link.peers 0 {} := rfl
  rw [State.peer, hpeers, Tab.get_put, if_pos rfl]

/-- A forager whose queen is gone is alone (R362). -/
theorem State.lostQueen_frame {s : State} (hdue : (s.peer 0).lostDue = true) :
    ((s.loseDue 0).syncHives).peer 0 = {} ∧ (s.loseDue 0).syncHives.link.joined = false ∧
      (s.loseDue 0).syncHives.link.nodeId = 0 ∧ (s.loseDue 0).syncHives.link.offset = 0 := by
  have hlink : (s.loseDue 0).syncHives.link = s.loseQueen.link :=
    (link_of_units (State.besideUnits_syncHives _)).trans (link_of_jobs (State.besideJobs_loseDue_queen hdue))
  obtain ⟨hjoin, hoff, hnode, -⟩ := s.loseQueen_frame
  rw [peer_of_link hlink, hlink]
  exact ⟨s.peer_loseQueen, hjoin, hnode, hoff⟩

end Sys2Proof.Machine
end

section
open Sys2Proof Sys2Proof.Machine

/-- Settles O58: STATUS and LEAVE are writes to their peer; a silent peer is lost as at any boundary at which its loss
is due. -/
theorem linkStatusAndLoss : Obligations.LinkStatusAndLoss := by
  unfold Obligations.LinkStatusAndLoss
  refine ⟨fun s n m hruns hq hn hp => ?status, fun s n m h => ?noStatus, fun s n reason hruns hp => ?leave,
    fun s n reason hp => ?noLeave, fun s n hruns hc hn hp ht hw => ?silent, fun s hruns hc hp ht hw => ?alone,
    fun s n h => exec_linkLossTimeout_heard h⟩
  case status =>
    have heq := State.onStatus_heard m hq hn hp
    refine ⟨s.onStatus n.val m, exec_link (State.onStatus · n.val m) rfl hruns rfl, ?_⟩
    rw [heq]
    have hown := (s.peer_setPeer n.val n.val ((s.peer n.val).withStatus m s.tick)).trans (if_pos rfl)
    have hother (k : Nat) (hk : k ≠ n.val) :=
      (s.peer_setPeer n.val k ((s.peer n.val).withStatus m s.tick)).trans (if_neg hk.symm)
    split
    · exact ⟨hown, hother, rfl, rfl⟩
    · exact ⟨hown, hother, rfl, rfl⟩
  case noStatus => exact exec_link_none (State.onStatus · n.val m) rfl (State.onStatus_ignored m h)
  case leave => exact exec_link (State.onLeave · n.val) rfl hruns (if_neg (Nat.not_lt.mpr hp))
  case noLeave => exact exec_link_none (State.onLeave · n.val) rfl (if_pos hp)
  case silent =>
    have hdue := s.atNext.lostDue_silence n.val
    have hpeer := State.peer_lostNode hdue hn
    rw [s.atNext.peer_silence n.val] at hpeer
    refine ⟨_, exec_linkLossTimeout hruns hc hp ht hw, (State.peer_afterBoundary ..).trans hpeer,
      State.afterBoundary_tick .., State.afterBoundary_workTick .., fun hjoined => ?_⟩
    rw [State.afterBoundary_host, State.afterBoundary_link, State.afterBoundary_work]
    exact State.lostNode_joined hdue hn ((congrArg Peer.state (s.atNext.peer_silence n.val)).trans hjoined)
  case alone =>
    have hexec : exec (.linkLossTimeout 0) s = .next (s.afterBoundary ((s.atNext.silence 0).loseDue 0).syncHives) :=
      exec_linkLossTimeout (n := 0) hruns hc hp ht hw
    have hframe := State.lostQueen_frame (s.atNext.lostDue_silence 0)
    generalize ((s.atNext.silence 0).loseDue 0).syncHives = r at hexec hframe
    obtain ⟨hpeer, hjoin, hnode, hoff⟩ := hframe
    exact ⟨_, hexec, hpeer, hjoin, hnode, hoff, rfl, rfl⟩

end
